-- ==== Sys2Proof/Word.lean ====
section
/-! DEFINITION. The words of the block: bytes, the sets of names the spec gives (states, classes,
status codes), and the shapes of what crosses its ports. Numbers with a width the spec lays out as a
field are BitVec; counts, indices and durations are Nat; a bounded index is Fin. -/

namespace Sys2Proof

/-- One byte (R10). -/
abbrev Byte := BitVec 8
/-- Byte strings, lowest address first. -/
abbrev Bytes := List Byte
/-- A link port or fold unit, L0 to L35 (R13). -/
abbrev Port := Fin 36
/-- A memory engine, MX0 to MX7 (R13). -/
abbrev Eng := Fin 8
/-- A PID (R39); as a function number, 0 is the physical function and n virtual function n (R202). -/
abbrev Pid := Fin 32
/-- A 256-bit key. -/
abbrev Key := BitVec 256
/-- A 128-bit AES block. -/
abbrev Block := BitVec 128
/-- A 128-byte memory sector, byte 0 in the low bits. -/
abbrev Sector := BitVec 1024

/-- Status codes (R240). -/
inductive Status where
  | ok | busy | errOpcode | errParam | errState | errPerm | errResource | errIntegrity
  | errStale | errLost | authFail | consumed | atomicUnknown | errLifecycle | errUnattested
  deriving DecidableEq, Repr

/-- Security alarm classes, coded 0x01 to 0x0A in this order (R11, R238). -/
inductive AlarmClass where
  | memTag | linkTag | keySlot | ironDual | tarnV | tarnT | tarnF | glitch | tamper | fw
  deriving DecidableEq, Repr

/-- Escalation levels in increasing order, coded 0 to 3 (R12). -/
inductive Level where
  | notice | partition | quarantine | zeroise
  deriving DecidableEq, Repr

/-- Membership states (R31), coded as STATE of QB_RANGE_STATUS (R33). -/
inductive Memb where
  | unbound | joining | member | reforming | quarantined | leaving
  deriving DecidableEq, Repr

/-- Roles, coded 0 to 2 (R33). -/
inductive Role where
  | member | summit | shoulder
  deriving DecidableEq, Repr

/-- Port states, coded 0 to 4 (R62, R92). -/
inductive PortState where
  | off | probing | opened | down | admitting
  deriving DecidableEq, Repr

/-- Partition states, coded 0 to 2 (R194). -/
inductive PartState where
  | free | active | tearing
  deriving DecidableEq, Repr

/-- TDISP states (R204). -/
inductive Tdi where
  | unlocked | locked | run | error
  deriving DecidableEq, Repr

/-- Context states, coded 0 to 3 (R205). -/
inductive CtxState where
  | free | evicted | resident | lost
  deriving DecidableEq, Repr

/-- Phase of the command a context runs (R210). -/
inductive Phase where
  | none | run | commit | done
  deriving DecidableEq, Repr

/-- Fence states, coded 0 to 2 (R215). -/
inductive FenceState where
  | free | live | error
  deriving DecidableEq, Repr

/-- Fault codes of a lost context, 0x01 to 0x0D in this order (R207); `none` is 0. -/
inductive CtxFault where
  | none | access | integrity | peer | remote | seam | bulk | atomic | store | fence | range
  | alarm | abandon | reset
  deriving DecidableEq, Repr

/-- Page modes, coded 0 to 3 (R126). -/
inductive PMode where
  | none | mangle | seal | fresh
  deriving DecidableEq, Repr

/-- Page states, coded 0 to 3 (R126). -/
inductive PState where
  | free | fill | live | update
  deriving DecidableEq, Repr

/-- Life-cycle states, coded 0 to 4 (R266). -/
inductive Lcs where
  | maker | integrator | fielded | returned | scrapped
  deriving DecidableEq, Repr

/-- How the three root copies classify, coded 0 to 3 in QB_FUSE_STATUS (R252, R276). -/
inductive RootKind where
  | valid | absent | destroyed | failed
  deriving DecidableEq, Repr

/-- Fold plan states (R112). -/
inductive PlanState where
  | free | armed | done | faulted
  deriving DecidableEq, Repr

/-- Fold fault reasons, 0x1 to 0x9 in this order (R114); `none` is 0. -/
inductive FoldReason where
  | none | timeout | source | format | dup | window | preload | output | parity | range
  deriving DecidableEq, Repr

/-- Iron context-number states (R346). -/
inductive IronState where
  | free | opened | held | saved
  deriving DecidableEq, Repr

/-- Slot classes of a KSA policy word, coded 0x0 to 0xB (R258). -/
inductive KClass where
  | empty | identity | fwlayer | range | chip | agreed | partroot | memory | devset | bundle
  | iron | ide
  deriving DecidableEq, Repr

/-- Engines of a KSA policy word, coded 0x0 to 0x7 (R258). -/
inductive KEngine where
  | none | derivation | pke | iron | memData | memUnseal | hostIde | decoders
  deriving DecidableEq, Repr

/-- Answers on qb_mx_gnt, coded 0 to 3 (R123, R378). -/
inductive Gnt where
  | deny | grant | stale | stall
  deriving DecidableEq, Repr

/-- Memory-controller priorities, coded 0 to 3 on qb_mc_pri (R153, R378). -/
inductive Pri where
  | over | inS | inL | rt
  deriving DecidableEq, Repr

/-- Supplies that Tarn watches (R380). -/
inductive Supply where
  | vddQ | vddTarn | vddaQ | vppQ
  deriving DecidableEq, Repr

/-- What a read through the memory engines delivers to the unit that asked: verified data, or
poison (R145), with the byte offset in the read of each sector that poisons. The data is an input of the command: external
memory lies outside the block. -/
inductive ReadIn where
  | data (b : Bytes)
  | poison (first : Nat := 0) (more : List Nat := [])
  deriving DecidableEq, Repr

/-- The bytes of a 64-byte command packet after OPCODE and FORM (R228); `params` is bytes 16 to 63,
byte 16 in the low bits. -/
structure Pkt where
  flags  : BitVec 8 := 0
  rsvd3  : BitVec 8 := 0
  seq    : BitVec 16 := 0
  ptag   : BitVec 16 := 0
  cookie : BitVec 32 := 0
  rsvd12 : BitVec 32 := 0
  params : BitVec 384 := 0
  deriving DecidableEq, Repr

/-- A whole packet as a ring entry holds it (R228). -/
structure Packet where
  opcode : BitVec 8
  form   : BitVec 8
  body   : Pkt
  deriving DecidableEq, Repr

/-- A command of a row: the ring it stands at the HEAD of (0 operator, 1 to 31 tenant, 32 range,
33 internal; R223), its packet, and what the memory engines deliver for the reads it makes. -/
structure Cmd where
  ring : Nat
  body : Pkt
  mem  : List ReadIn := []
  deriving DecidableEq, Repr

/-- A command that firmware or a lane computes in both datapaths: whether they disagree (R338, R339). -/
structure DualCmd where
  cmd  : Cmd
  dual : Bool := false
  deriving DecidableEq, Repr

/-- A range message (R355): source node, ADMIT port it came by (36 for the range ring), message
number, packet bytes 16 to 63, and the reassembled content of a fragmented message. -/
structure RMsg where
  src    : Nat
  via    : Nat := 36
  seq    : BitVec 16 := 0
  ptag   : BitVec 16 := 0
  params : BitVec 384 := 0
  data   : Bytes := []
  flags  : BitVec 8 := 0
  rsvd3  : BitVec 8 := 0
  rsvd12 : BitVec 32 := 0
  cookie : BitVec 32 := 0
  deriving DecidableEq, Repr

/-- A request on a memory engine port (R123). `mask` has one entry per data byte for WRM; `ctx` is
the handle of the context that issued it, 0 for none. -/
structure MxReq where
  addr  : BitVec 41
  pid   : Pid
  gen   : BitVec 11
  mport : BitVec 8
  op    : BitVec 4
  size  : BitVec 8
  amo   : BitVec 4 := 0
  tag   : BitVec 10 := 0
  data  : Bytes := []
  mask  : List Bool := []
  ctx   : BitVec 32 := 0
  deriving DecidableEq, Repr

/-- An access to a register page: master port, PID stamp, T bit and IDE stream of its TLP (R399,
R400). -/
structure Acc where
  mport  : BitVec 8 := 0xC0
  pid    : Pid
  tbit   : Bool := false
  stream : Option (Fin 17) := none
  deriving DecidableEq, Repr

/-- The pages of the register map (R398); `rest` is what the Queber window has beyond the two pages. -/
inductive Page where
  | operator | tarn | tenant (n : Pid) | rest
  deriving DecidableEq, Repr

/-- A remote access as a master issues it (R163 to R166): the class code of R57, the OP byte, the
address (rack-flat for a tile port; node and offset for a DMA engine). -/
structure RReq where
  mport : BitVec 8
  pid   : Pid
  gen   : BitVec 11
  ctx   : BitVec 32
  cls   : BitVec 4
  op    : BitVec 8
  flat  : BitVec 47 := 0
  node  : BitVec 14 := 0
  off   : BitVec 41 := 0
  size  : BitVec 8 := 0
  data  : Bytes := []
  mask  : List Bool := []
  value : BitVec 64 := 0
  deriving DecidableEq, Repr

/-- A host TLP (R124, R204): function, whether it reaches device memory, its IDE stream and T bit, and
whether it changes the function's configuration, BAR or MSI-X table; a completion carries the PID
generation its request was issued under. `reg` is a read of a page: offset and length; `assoc` an address association register that it
writes: stream, base, limit. -/
structure Tlp where
  fn     : Pid
  toMem  : Bool
  tbit   : Bool := false
  stream : Option (Fin 17) := none
  cfg    : Bool := false
  cpl    : Option (BitVec 11) := none
  req    : Option MxReq := none
  reg    : Option (Nat × Nat) := none
  assoc  : Option (Fin 16 × BitVec 64 × BitVec 64) := none
  deriving DecidableEq, Repr

/-- A frame's inner header (R53), descriptor (R58) and the rest of its payload. -/
structure Inner where
  retry   : Bool := false
  poison  : Bool := false
  cls     : BitVec 4
  len     : BitVec 13 := 0
  srcNode : BitVec 14
  dstNode : BitVec 14
  srcPtag : BitVec 16 := 0
  dstPtag : BitVec 16 := 0
  age     : BitVec 8 := 0
  crReq   : BitVec 8 := 0
  crRsp   : BitVec 8 := 0
  crBulk  : BitVec 8 := 0
  crFold  : BitVec 8 := 0
  payload : Bytes := []
  /-- A received frame holds a byte beyond PAYLOAD_LEN that is not zero. -/
  padded  : Bool := false
  deriving DecidableEq, Repr

/-- The 16-byte descriptor of classes 0x3 to 0xC (R58). -/
structure Desc where
  off    : BitVec 41 := 0
  op     : BitVec 8 := 0
  size   : BitVec 8 := 0
  id40   : BitVec 40 := 0
  inc    : BitVec 3 := 0
  seg    : Bool := false
  stream : BitVec 12 := 0xFFF
  status : BitVec 8 := 0
  deriving DecidableEq, Repr

/-- The clear header (R52). -/
structure Clear where
  epoch   : BitVec 30
  phase   : Bool
  dir     : Bool
  seq     : BitVec 64
  hver    : BitVec 4 := 1
  flitsM1 : BitVec 4
  rsvd    : BitVec 24 := 0
  deriving DecidableEq, Repr

/-- A frame on the wire (R51): clear header, ciphertext of everything from header byte 16 to the tag,
and the tag. -/
structure Wire where
  clear : Clear
  ct    : Bytes
  tag   : Block
  deriving DecidableEq, Repr

/-- The signed part of a DBG_UNLOCK token, a manifest entry, and so on are read from bytes where they
are used; this is the header of a firmware image (R285). -/
structure Image where
  magicOk   : Bool
  hver      : BitVec 8
  makerOnly : Bool
  rsvdZero  : Bool
  svn       : BitVec 8
  fuseSvn   : BitVec 8
  hwid      : BitVec 32
  build     : BitVec 64
  imemLen   : BitVec 32
  dmemLen   : BitVec 32
  entry     : BitVec 32
  header    : Bytes
  body      : Bytes
  deriving DecidableEq, Repr

/-- The block's region of the boot flash (R284): both copies of the activation record, the certificate area, and the images
of slots A and B as the bytes there read, none where a slot has been left invalid. -/
structure Flash where
  rec0  : Bytes := []
  rec1  : Bytes := []
  certs : Bytes := []
  slotA : Option Image := none
  slotB : Option Image := none
  deriving DecidableEq, Repr

/-- An access of the SCU (R295). -/
inductive ScuAcc where
  | fetch | read | write
  deriving DecidableEq, Repr

/-- What may go wrong at the SCU, with its address: a single-bit error, an access, a double-bit error (R295). -/
inductive ScuErr where
  | corrected (a : BitVec 32)
  | access (k : ScuAcc) (a : BitVec 32)
  | double (a : BitVec 32)
  deriving DecidableEq, Repr

/-- What comes of the bits that a command programs, or of the slot that it writes: whole; VPP_Q leaves its window, or the
read-back differs; a zeroise source stops it; a power-down stops it (R275, R291, R308, R384, R395). -/
inductive Cut where
  | whole | failed | zeroised | powerDown
  deriving DecidableEq, Repr

/-- Where VPP_Q goes: to 1.0 V or below, above it, into its window (R384, R397). -/
inductive VppAt where
  | low | above | inWindow
  deriving DecidableEq, Repr

/-- A scan on the chip JTAG pins (R272, R377): QB_TRST_N moves; IDCODE; bypass of bits; fuse bits to program; chip TAP and
scan access of bits; the SCU is halted, runs on, makes a step, or a word of its SRAM is read or written. -/
inductive Scan where
  | trst (high : Bool)
  | idcode
  | bypass (d : List Bool)
  | fuse (l : List Nat)
  | tap (d : List Bool)
  | scuHalt
  | scuRun
  | scuStep
  | scuRead (a : BitVec 32)
  | scuWrite (a : BitVec 32) (v : BitVec 32)
  deriving DecidableEq, Repr

/-- An SPDM mailbox: the DOE mailbox of a function, or the ring of ATT_SPDM (R302); and the request as it was sent, whole,
which the transcripts hash: none where it holds no byte but those that the row's operands give. -/
inductive Mailbox where
  | doe (fn : Pid) (sent : Bytes := [])
  | ring (fn : Pid) (sent : Bytes := [])
  deriving DecidableEq, Repr

/-- What GET_CERTIFICATE asks for: slot, Offset, Length (R302). -/
structure CertReq where
  slot : BitVec 8
  off  : Nat := 0
  len  : Nat := 65535
  deriving DecidableEq, Repr

/-- What IDE adds to a TLP of a stream (R203): its sub-stream (0 PR, 1 NPR, 2 CPL), its bytes as protected, and its MAC. -/
structure IdeTlp where
  sub   : Fin 3 := 0
  bytes : Bytes := []
  mac   : BitVec 96 := 0
  deriving DecidableEq, Repr

/-- A sector that a POT walk reads, as the controller returns it, and its uncorrectable-link-error flag (R152). -/
structure WalkRead where
  ct   : Sector
  lerr : Bool := false
  deriving DecidableEq, Repr

/-- What a boot step reads outside the block: the bytes of the flash region, where they are not what firmware left there,
and the samples of the start-up test (R279, R284). -/
structure BootIn where
  flash   : Option Bytes := none
  samples : BitVec 4096 := 0
  deriving DecidableEq, Repr

/-- A bit of a fold unit's accumulate SRAM that an upset has inverted: line pair, copy, bit of its 32 words (R97). -/
structure Upset where
  pair : Fin 4096
  copy : Bool
  bit  : Fin 1024
  deriving DecidableEq, Repr

/-- A chunk's local operand as it returns, and the bits inverted in the accumulate SRAM since the last command. -/
structure PreRead where
  rd     : ReadIn
  upsets : List Upset := []
  deriving DecidableEq, Repr

/-- The sub-stream and direction of an IDE key (R203): PR, NPR, CPL, each for TX and RX. -/
structure IdeKey where
  sub : Fin 3
  tx  : Bool
  deriving DecidableEq, Repr

end Sys2Proof
end

