-- ==== Sys2Proof/Syntax.lean ====
section
/-! DEFINITION. The commands: one constructor per row of spec/opcode_table.json, in the table's order,
with the row's operands. -/

namespace Sys2Proof

/-- The commands of the block. -/
inductive Instr where
  /-- RANGE_JOIN_JOIN (R358). Operator command that starts a chip's admission to a range through an ADMIT port, ending on admission, refusal or a 10 s timeout. -/
  | rangeJoinJoin (c : Cmd)
  /-- RANGE_JOIN_FORM (R357). Operator command that makes the chip the Summit of a new range at epoch 1, with its accepted firmware set, MIN_SVN and TEST. -/
  | rangeJoinForm (c : Cmd)
  /-- RANGE_LEAVE (R31). Operator command that moves a member with no tenant partition to LEAVING, or ends a Summit's range that has no other member. -/
  | rangeLeave (c : Cmd)
  /-- RANGE_EPOCH_ADVANCE (R360). Command that asks the Summit to advance the range epoch, merged into a running advance if there is one. -/
  | rangeEpochAdvance (c : Cmd)
  /-- RANGE_STATUS (R239). Command that returns the range ID, member count, Summit, Shoulder, state, role and epoch. -/
  | rangeStatus (c : Cmd)
  /-- RANGE_PAIR_OFFER (R371). Summit command that draws ephemeral keys and writes a signed pairing offer. -/
  | rangePairOffer (c : Cmd)
  /-- RANGE_PAIR_ACCEPT (R371). Summit command that checks the partner's offer or accept message and establishes the pair key. -/
  | rangePairAccept (c : Cmd)
  /-- RANGE_PAIR_UNPAIR (R371). Summit command that destroys the pair key; the next advance clears PAIRED. -/
  | rangePairUnpair (c : Cmd)
  /-- PART_CREATE (R195). Operator command that creates an open or confidential partition for a PID, reserving key slots and clearing its peer table. -/
  | partCreate (c : Cmd)
  /-- PART_ASSIGN_TILES_ADD (R196). Operator command that hands scrubbed tiles to a partition, all or none, and writes their tile-port assignment registers. -/
  | partAssignTilesAdd (c : Cmd)
  /-- PART_ASSIGN_TILES_REMOVE (R196). Operator command that takes tiles from a partition and requests their tile reset. -/
  | partAssignTilesRemove (c : Cmd)
  /-- PART_MAP_PAGES (R197). Operator command that maps 1 to 512 pages into a partition with a mode and rights, through the POT update and fill sequence. -/
  | partMapPages (c : Cmd)
  /-- PART_MAP_PEER (R199). Operator command that writes or clears a peer entry, binding it over the range ring for a confidential partition. -/
  | partMapPeer (c : Cmd)
  /-- PART_UNMAP (R197). Operator command that returns pages to FREE with CLEAN 0. -/
  | partUnmap (c : Cmd)
  /-- PART_TEARDOWN (R214). Fast-path operator command that advances the PID's generation and tears the partition down step by step. -/
  | partTeardown (c : Cmd)
  /-- PART_STATUS_SUMMARY (R239). Command that returns a partition's summary fields, or in PORTS form its ports with a share and in scree mode. `ports`: FORM 1 PORTS, otherwise FORM 0 SUMMARY. -/
  | partStatusSummary (ports : Bool) (c : Cmd)
  /-- PART_STATUS_BIND (R199). Range-ring query from another SCU asking whether a partition with a given tag exists, is confidential and has a matching JOB. -/
  | partStatusBind (m : RMsg)
  /-- CTX_LOAD_NEW (R207). Command that creates a context in a free resident slot and returns its handle. -/
  | ctxLoadNew (c : Cmd)
  /-- CTX_LOAD_RESUME (R207). Command that makes an evicted context resident again and restores its queue position and fence wait. -/
  | ctxLoadResume (c : Cmd)
  /-- CTX_EVICT_SAVE (R207). Fast-path command that evicts a resident context at the end of its running command. -/
  | ctxEvictSave (c : Cmd)
  /-- CTX_EVICT_KILL (R211). Fast-path command that stops every RUN command of the PID and advances its generation so that the commands can run again. -/
  | ctxEvictKill (c : Cmd)
  /-- CTX_EVICT_DISCARD (R207). Fast-path command that frees an evicted or lost context and advances its incarnation. -/
  | ctxEvictDiscard (c : Cmd)
  /-- CTX_EVICT_ABANDON (R211). Fast-path command that marks lost every context of a PID with a given OWNER and error-signals that owner's fences. -/
  | ctxEvictAbandon (c : Cmd)
  /-- FENCE_CREATE (R215). Command that allocates a fence with VALUE 0 and returns its handle. -/
  | fenceCreate (c : Cmd)
  /-- FENCE_DESTROY (R215). Command that frees a fence unless a resident context waits on it or an armed plan names it. -/
  | fenceDestroy (c : Cmd)
  /-- FENCE_SIGNAL_SIGNAL (R216). Fast-path command that signals a fence to a value, releasing satisfied waiters or counting an out-of-order signal. -/
  | fenceSignalSignal (c : Cmd)
  /-- FENCE_SIGNAL_ERROR (R216). Fast-path command that error-signals a fence, moving it to ERROR and releasing every waiter. -/
  | fenceSignalError (c : Cmd)
  /-- FENCE_SIGNAL_QUERY (R239). Fast-path command that returns a fence's full value, state and error. -/
  | fenceSignalQuery (c : Cmd)
  /-- MEM_MODE (R131). Operator command that refills LIVE pages with zeros under a new mode. -/
  | memMode (c : Cmd)
  /-- MEM_FRESH_REGION_RESERVE (R146). Operator command that reserves Fresh slots for a PID from the free pool. -/
  | memFreshRegionReserve (c : Cmd)
  /-- MEM_FRESH_REGION_RETURN (R146). Operator command that returns unused Fresh slots of a PID to the pool. -/
  | memFreshRegionReturn (c : Cmd)
  /-- RINSE (R323). Operator command that queues a rinse ticket for a run of FREE pages. -/
  | rinse (c : Cmd)
  /-- RINSE_STATUS (R239). Fast-path command that reports the state and progress of one of the last 16 tickets. -/
  | rinseStatus (c : Cmd)
  /-- REG_BUDGET (R154). Operator command that sets a client's memory budget and class on chosen engines from the next window. -/
  | regBudget (c : Cmd)
  /-- OWN_TRANSFER (R188). Command on the home chip that moves a T4C page's remote ownership and sends ownership notices. -/
  | ownTransfer (c : Cmd)
  /-- LINK_SESSION_OPEN (R62). Operator command that derives a port's session keys and sends a probe, moving the port from OFF to PROBING. -/
  | linkSessionOpen (c : Cmd)
  /-- LINK_SESSION_CLOSE (R63). Operator command that stops admitting frames to a port, drains it and destroys its keys. -/
  | linkSessionClose (c : Cmd)
  /-- LINK_SESSION_SHARE (R63). Operator command that sets one PID's link share on a port from the next frame start. -/
  | linkSessionShare (c : Cmd)
  /-- LINK_SESSION_ADMIT (R64). Operator command that starts an admission key exchange on a port, moving it to ADMIT. -/
  | linkSessionAdmit (c : Cmd)
  /-- LINK_REKEY (R70). Operator command that forces an early TX phase flip at the next frame boundary. -/
  | linkRekey (c : Cmd)
  /-- LINK_SCREE (R89). Operator command that sets or clears a port's scree length and cadence from the next frame boundary. -/
  | linkScree (c : Cmd)
  /-- FOLD_PLAN_ARM (R109). Command that reads a plan descriptor, checks it and arms the plan with its slots open. -/
  | foldPlanArm (c : Cmd)
  /-- FOLD_PLAN_GRANT (R98). Operator command that grants accumulator blocks of a fold unit to a PID. -/
  | foldPlanGrant (c : Cmd)
  /-- FOLD_RELEASE_DISARM (R112). Command that frees a plan with no slot holding a contribution and returns its final state and flags. -/
  | foldReleaseDisarm (c : Cmd)
  /-- FOLD_RELEASE_DISARM_FORCE (R112). Command that frees a plan at the unit's next frame boundary, abandoning its open slots. -/
  | foldReleaseDisarmForce (c : Cmd)
  /-- FOLD_RELEASE_RECLAIM (R112). Operator command that frees every plan using the named blocks and zeroes and ungrants those blocks. -/
  | foldReleaseReclaim (c : Cmd)
  /-- ATT_EVIDENCE (R306). Command that writes signed hybrid evidence over a nonce to the PID's pages. -/
  | attEvidence (c : Cmd)
  /-- ATT_SPDM (R302). Command that passes an SPDM request to the responder and writes its response. `req`: the SPDM request code at REQ. -/
  | attSpdm (req : BitVec 8) (c : Cmd)
  /-- KEY_DERIVE_JOB (R198). Tenant command that sets the partition's JOB binding once. -/
  | keyDeriveJob (c : Cmd)
  /-- KEY_DERIVE_IRON (R263). Tenant command that derives an Iron key from PARTROOT into a slot and returns its handle. -/
  | keyDeriveIron (c : Cmd)
  /-- KEY_WRAP (R235). Tenant command that wraps an exportable Iron key and places the result in the read-once window. -/
  | keyWrap (c : DualCmd)
  /-- KEY_DESTROY (R262). Tenant command that clears an Iron key slot and advances its incarnation. -/
  | keyDestroy (c : Cmd)
  /-- WB_IMPORT (R315). Tenant command that imports a bundle header, obtains the device-set key and writes the set statement. -/
  | wbImport (c : Cmd)
  /-- WB_GRANT (R319). Tenant command that unwraps a set grant into a bundle key slot. -/
  | wbGrant (c : Cmd)
  /-- WB_UNSEAL_STREAM (R320). Tenant command that starts decrypting bundle segments and resealing them into partition pages. -/
  | wbUnsealStream (c : Cmd)
  /-- WB_REVOKE (R322). Tenant command that clears a bundle key after any running stream of the bundle ends. -/
  | wbRevoke (c : Cmd)
  /-- IRON_OPEN (R341). Tenant command that binds an Iron context to a key and a mode with its IV. -/
  | ironOpen (c : DualCmd)
  /-- IRON_UPDATE_DATA (R342). Tenant command that runs data through an Iron context, dual-computed. `dual`: the two datapaths differ in this update (R339). -/
  | ironUpdateData (dual : Bool) (c : Cmd)
  /-- IRON_UPDATE_AAD (R342). Tenant command that absorbs additional authenticated data into a GCM context. `dual` as in ironUpdateData. -/
  | ironUpdateAad (dual : Bool) (c : Cmd)
  /-- IRON_FINAL (R343). Tenant command that ends an Iron message, returning or comparing the tag, and frees the context. `dual` as in ironUpdateData. -/
  | ironFinal (dual : Bool) (c : Cmd)
  /-- IRON_SAVE (R347). Tenant command that writes a wrapped image of an Iron context. `dual` as in ironUpdateData. -/
  | ironSave (dual : Bool) (c : Cmd)
  /-- IRON_RESTORE (R349). Tenant command that restores the latest saved image of an Iron context at most once. `dual` as in ironUpdateData. -/
  | ironRestore (dual : Bool) (c : Cmd)
  /-- LC_ADVANCE (R269). Operator command that programs a life-cycle transition record, taking effect at the next reset. `progOk`: VPP_Q stays within its window while the bits are programmed (R384). -/
  | lcAdvance (cut : Cut) (c : Cmd)
  /-- LC_STATUS (R239). Command that returns the life-cycle state and any pending target. -/
  | lcStatus (c : Cmd)
  /-- DBG_CHALLENGE (R273). Operator command that draws a debug challenge for a PID and scope, or with scope 0 ends the authorisation. -/
  | dbgChallenge (c : Cmd)
  /-- DBG_UNLOCK (R273). Operator command that verifies a signed debug token and activates the authorisation. -/
  | dbgUnlock (c : Cmd)
  /-- FW_STAGE (R291). Operator command that checks an image and writes it to the slot not running. `writeOk`: the slot reads back as written (R291). -/
  | fwStage (cut : Cut) (c : Cmd)
  /-- FW_ACTIVATE (R292). Operator command that writes a TRIAL activation record for the staged slot. -/
  | fwActivate (c : Cmd)
  /-- DIAG_ECHO (R239). Command that echoes 24 bytes. -/
  | diagEcho (c : Cmd)
  /-- DIAG_KAT (R239). Operator command that runs known-answer tests of chosen units. `passed`: outcome of each unit's known-answer test. -/
  | diagKat (passed : BitVec 5) (c : Cmd)
  /-- RING_FETCH (R225). Command processor fetches up to four posted entries of an enabled ring, checks them and starts fast-path opcodes. `none`: the fetch is denied or fails. -/
  | ringFetch (ring : Fin 32) (entries : Option (List (Packet × List ReadIn)))
  /-- FW_COMMAND_START (R242). The SCU takes the next firmware command by ring priority and checks its generation again before acting. `mem`: what the command's reads deliver. -/
  | fwCommandStart (mem : List ReadIn)
  /-- MSIX_MODERATION_EXPIRY (R237). A vector's moderation interval ends and a deferred interrupt is raised. -/
  | msixModerationExpiry (fn : Pid) (vector : BitVec 11)
  /-- QB_RING_TAIL_WRITE (R225). Doorbell write that posts entries, or is ignored with DB_ERR when out of range. -/
  | qbRingTailWrite (a : Acc) (fn : Pid) (v : BitVec 32)
  /-- QB_RING_CTL_EN_SET (R227). Write of 1 to EN that checks the ring registers, zeroes HEAD, TAIL, SEQ and counts and starts pass 0. -/
  | qbRingCtlEnSet (a : Acc) (fn : Pid) (v : BitVec 32)
  /-- QB_RING_CTL_EN_CLEAR (R227). Write of 0 to EN that stops fetching while fetched commands complete. -/
  | qbRingCtlEnClear (a : Acc) (fn : Pid) (v : BitVec 32)
  /-- QB_RING_STATUS_CLEAR (R247). W1C write that clears FAULT or DB_ERR, letting fetching resume after FAULT. -/
  | qbRingStatusClear (a : Acc) (fn : Pid) (v : BitVec 32)
  /-- QB_EVT_CTL_EN_SET (R247). Write of 1 to EN of QB_EVT_CTL that checks the event ring registers and zeroes PROD and CONS. -/
  | qbEvtCtlEnSet (a : Acc) (fn : Pid) (v : BitVec 32)
  /-- QB_EVT_CTL_EN_CLEAR (R237). Write of 0 to EN of QB_EVT_CTL after which events are dropped. -/
  | qbEvtCtlEnClear (a : Acc) (fn : Pid) (v : BitVec 32)
  /-- QB_EVT_CONS_WRITE (R237). Software advances the event ring consumer index, freeing entries. -/
  | qbEvtConsWrite (a : Acc) (fn : Pid) (v : BitVec 32)
  /-- QB_EVT_STATUS_CLEAR (R247). W1C write of OVERFLOW that also returns DROPPED to 0. -/
  | qbEvtStatusClear (a : Acc) (fn : Pid) (v : BitVec 32)
  /-- TENANT_HOLD_WRITE (R404). Write of QB_CTL.TENANT_HOLD that stops or resumes fetching from every tenant ring. -/
  | tenantHoldWrite (a : Acc) (v : BitVec 32)
  /-- VF_DOE_EN_WRITE (R404). Write of QB_CTL.VF_DOE_EN that enables or disables SPDM on virtual-function mailboxes. -/
  | vfDoeEnWrite (a : Acc) (v : BitVec 32)
  /-- QB_ALARM_STATUS_CLEAR (R375). W1C write that clears SEEN bits of alarm classes. -/
  | qbAlarmStatusClear (a : Acc) (v : BitVec 32)
  /-- QB_LINK_STATUS_CLEAR (R92). W1C write that clears PEER_LOST or TAG_ALARM of a port. -/
  | qbLinkStatusClear (a : Acc) (p : Port) (v : BitVec 32)
  /-- QB_MX_STATUS_CLEAR (R159). W1C write that clears an engine's ALARM bit. -/
  | qbMxStatusClear (a : Acc) (e : Eng) (v : BitVec 32)
  /-- QB_TARN_TIME_LO_READ (R396). Read of the Tarn counter's low word that latches the high word for the function. `scu`: the SCU's read, through its block control space. -/
  | qbTarnTimeLoRead (scu : Bool) (a : Acc)
  /-- READ_ONCE_WINDOW_READ (R235). Read of read-once window words that returns them once and clears them, freeing the window. Bytes `off` to `off + len - 1` of the window. -/
  | readOnceWindowRead (a : Acc) (fn : Pid) (off len : Nat)
  /-- REGISTER_WRITE (R401). Write to a register with no row of its own, such as QB_TEL_SEL or ring base registers, applied under the access rules. -/
  | registerWrite (a : Acc) (pg : Page) (off : Nat) (b : Bytes)
  /-- QB_BASE_WRITE (R282). Firmware's one-time write of QB_POT_BASE or QB_DESC_BASE; the second starts memory initialisation. `desc`: QB_DESC_BASE, otherwise QB_POT_BASE. -/
  | qbBaseWrite (desc : Bool) (page : BitVec 20)
  /-- MEM_INIT_DONE (R282). Memory initialisation finishes its counter lines, system keys and system page fills, then sets POT_LIVE. -/
  | memInitDone
  /-- MEM_REQUEST (R127). A request presented on a memory engine port is granted, denied, stale or stalled in its cycle and then issued. `e`: the engine at whose port it stands. -/
  | memRequest (e : Eng) (r : MxReq)
  /-- POT_WALK_DONE (R129). A POT table walk returns, installs the entry and decides the parked requests. `rd`: the POT sector as the controller returned it. -/
  | potWalkDone (e : Eng) (page : Nat) (rd : WalkRead)
  /-- MC_READ_RETURN (R141). A sector and its tag arrive from the controller and are decrypted and verified, with darn on a mismatch. `e`, `k`, `sec`: engine, package of the engine and package-local address / 128 of a data sector, tag sector or counter line; `lerr`: the uncorrectable-link-error flag; `odecc`: the on-die ECC's report, which the block ignores (R152). -/
  | mcReadReturn (e : Eng) (k : Fin 4) (sec : BitVec 29) (d : Sector) (lerr odecc : Bool)
  /-- RETAG_DONE (R148). An overflow re-tag completes and stalled requests under the line proceed. `line`: the place of the overflowed line. -/
  | retagDone (e : Eng) (line : Nat)
  /-- POT_UPDATE_DRAINED (R130). Requests granted before a POT change have completed; the new entry is written, filled if LIVE and installed. -/
  | potUpdateDrained (page : Nat)
  /-- PAGE_FILL_DONE (R131). A page fill with zeros completes, CLEAN goes to 0 and USED to 1. -/
  | pageFillDone (page : Nat)
  /-- REG_WINDOW_START (R154). At each 1 µs window every client's tokens refill to its budget. -/
  | regWindowStart (e : Eng)
  /-- OVER_PROMOTE (R155). A sector that has waited 8 µs at OVER is promoted to IN_S. -/
  | overPromote (pkg : Fin 32) (sec : BitVec 29)
  /-- RINSE_TICKET_START (R323). The next queued ticket starts with a fresh rinse key pair. -/
  | rinseTicketStart
  /-- RINSE_PAGE_DONE (R323). A rinsed page's last sector is accepted; the page is set CLEAN and the next page turn begins. -/
  | rinsePageDone
  /-- FRAME_RECEIVE (R72). A frame arrives on a port and is replay-checked, opened and verified, then released to its consumer or handled as a failure. -/
  | frameReceive (p : Port) (f : Wire)
  /-- LINK_RETRY_FAIL (R74). The link layer refuses a requested retry, which raises SA_LINK_TAG. -/
  | linkRetryFail (p : Port)
  /-- FRAME_SEAL (R82). The egress arbiter starts a frame when a client holds credits and share, and seals it, flipping phase if a limit is due. `lclk`: LCLK cycles since the port's last frame start; `offer`: which of the frames waiting in the router it offers to this port. -/
  | frameSeal (p : Port) (lclk : Nat) (offer : List Nat)
  /-- TX_REKEY_TIMER (R66). A port's 60 s key-lifetime timer expires and a flip falls due. -/
  | txRekeyTimer (p : Port)
  /-- TX_KEY_DERIVED (R67). Derivation of a port's next TX or RX session key completes. -/
  | txKeyDerived (p : Port) (rx : Bool)
  /-- RX_PREV_RETIRE (R68). A previous RX key is destroyed after 1 ms, and next-key derivation starts. -/
  | rxPrevRetire (p : Port)
  /-- SCREE_SLOT (R89). A scree cadence slot starts a frame, or a scree cell if nothing is eligible. `offer` as in frameSeal. -/
  | screeSlot (p : Port) (offer : List Nat)
  /-- KEEPALIVE_TIMER (R65). A port idle for 10 µs sends a CTRL keepalive. -/
  | keepaliveTimer (p : Port)
  /-- PEER_LOSS (R65). 40 µs without a verified frame: the port sets PEER_LOST, goes DOWN and reports it. -/
  | peerLoss (p : Port)
  /-- PROBE_TIMEOUT (R62). A port in PROBING for 1 ms without a verified probe returns to OFF with AUTH_FAIL. -/
  | probeTimeout (p : Port)
  /-- ADMIT_IDLE_TIMEOUT (R62). A port in ADMIT for 20 s without a verified frame returns to OFF. -/
  | admitIdleTimeout (p : Port)
  /-- CLOSE_DRAIN_DONE (R63). A closing port's queue drains or 50 µs pass; its keys are destroyed and it goes OFF. -/
  | closeDrainDone (p : Port)
  /-- TRANSIT_HANDOFF (R411). The router hands a transit frame to an egress engine, which seals it or discards it as aged or unroutable. `idx`: the place of the transit frame in the router; `lclk`: its residence from verification to re-sealing. -/
  | transitHandoff (p : Port) (idx lclk : Nat)
  /-- INGRESS_PRESENT (R182). An ingress master presents a verified remote request to a memory engine, after any wait behind a hot sector. `m`: the ingress master, 0xB0 + m; `idx`: the place of the request among those that wait in the masters; `lclk`: how long it has waited. -/
  | ingressPresent (m : Fin 4) (idx lclk : Nat)
  /-- STREAM_IDLE_TIMEOUT (R83). A stream entry with neither segment open for 10 ms is freed. -/
  | streamIdleTimeout (id : BitVec 12)
  /-- SEAM_RELEASE (R84). A held seam's count is reached; it is written and acknowledged, or failed if FAULT is set. `count`: the seam's COUNT. -/
  | seamRelease (id : BitVec 12) (seg : Bool) (count : BitVec 28)
  /-- SEAM_HOLD_TIMEOUT (R85). A seam held for 1 ms is discarded, its entry freed and a failure returned. -/
  | seamHoldTimeout (id : BitVec 12) (seg : Bool)
  /-- ATOMIC_CACHE_EXPIRY (R86). An atomic replay cache entry expires after 100 µs, freeing room for REQ credits. -/
  | atomicCacheExpiry (p : Port)
  /-- REMOTE_REQUEST (R165). A master issues a remote load, store, seam, atomic or bulk access, which the remote request unit forms or denies. -/
  | remoteRequest (r : RReq)
  /-- RELEASE_SEAL (R175). Once the noted acknowledgements and completions are in, a release is sealed on its stream. -/
  | releaseSeal (id : Nat)
  /-- STREAM_IDLE_CLOSE_SOURCE (R170). The write tracker closes a stream after 5 ms without a write. -/
  | streamIdleCloseSource (pid : Pid) (node : BitVec 14)
  /-- STREAM_GRANT_RETRY (R83). A source retries a stream open 10 µs after a BUSY grant. -/
  | streamGrantRetry (pid : Pid) (node : BitVec 14)
  /-- LOAD_TIMEOUT (R174). A remote load or BULK_RD unanswered for 1 ms fails, marks the peer silent and posts TARGET_SILENT. -/
  | loadTimeout (tag : BitVec 40)
  /-- SEAM_TIMEOUT (R171). A seam unanswered for 2 ms marks its context lost and closes the stream. -/
  | seamTimeout (pid : Pid) (node : BitVec 14) (seg : Bool)
  /-- BULK_WRITE_TIMEOUT (R172). A BULK_WR frame unanswered for 1 ms fails its transfer and marks the context lost. -/
  | bulkWriteTimeout (tag : BitVec 40)
  /-- ATOMIC_RETRY_TIMER (R87). An atomic without result after 45 µs is retried once with RETRY set. -/
  | atomicRetryTimer (id : BitVec 40)
  /-- ATOMIC_UNKNOWN_TIMER (R87). An atomic without result after 130 µs reports ATOMIC_UNKNOWN and marks the context lost. -/
  | atomicUnknownTimer (id : BitVec 40)
  /-- FOLD_FRAME_APPLY (R117). A fold unit takes a frame from its input stage, checks it, combines it into the uncommitted copy and commits. `upsets`: bits of its accumulate SRAM inverted since the last command. -/
  | foldFrameApply (u : Port) (upsets : List Upset)
  /-- FOLD_PRELOAD_COMMIT (R110). A chunk's local operand returns from memory and is committed, or aborts the plan on poison. -/
  | foldPreloadCommit (u : Port) (plan : BitVec 10) (chunk : BitVec 32) (rd : PreRead)
  /-- FOLD_OUTPUT_WRITE_DONE (R112). A fold output write is accepted or denied, completing the plan as DONE or faulting it with OUTPUT. `num`: the arming of the plan that emitted the chunk. -/
  | foldOutputWriteDone (u : Port) (plan : BitVec 10) (chunk : BitVec 32) (num : Nat)
  /-- FOLD_PLAN_TIMEOUT (R113). A chunk or plan without progress for TMO × 10 µs faults the plan with TIMEOUT. -/
  | foldPlanTimeout (u : Port) (plan : BitVec 10)
  /-- FOLD_DISARM_BOUNDARY (R112). A forced disarm takes effect at the unit's next frame boundary. -/
  | foldDisarmBoundary (u : Port)
  /-- FOLD_BLOCK_ZEROED (R98). Zeroing of a released accumulator block completes and the block becomes grantable. -/
  | foldBlockZeroed (u : Port) (block : Fin 64)
  /-- SCHED_COMMIT_REQ (R210). The tile scheduler asks to commit a command, granted at once unless a kill of the PID is in progress. -/
  | schedCommitReq (ctx : BitVec 32)
  /-- SCHED_STOP_ACK (R208). The tile scheduler acknowledges a stop, letting a loss, kill or teardown go on. `ctx`: the context whose command has stopped. -/
  | schedStopAck (ctx : BitVec 32)
  /-- KILL_COMMITS_DRAINED (R211). No command of the killed PID remains in COMMIT and the kill proceeds to stop the RUN commands. -/
  | killCommitsDrained (pid : Pid)
  /-- GEN_ADVANCE (R41). At the next free Tarn microsecond a PID's generation advances and is broadcast. -/
  | genAdvance (pid : Pid)
  /-- TEARDOWN_DRAINED (R214). Requests granted before a teardown have completed; POT entries, descriptors and tiles are released. -/
  | teardownDrained (pid : Pid)
  /-- DMA_BIND (R209). The tile scheduler binds a DMA engine to a resident context and the block restamps the engine. -/
  | dmaBind (eng : Fin 32) (ctx : BitVec 32)
  /-- QUEUE_SIGNAL_ENTRY (R216). A signal entry in a context's queue signals a fence, or marks the context lost if the handle is bad. -/
  | queueSignalEntry (ctx : BitVec 32) (fence : BitVec 32) (value : BitVec 64) (status : BitVec 8)
  /-- TILE_SCRUB_DONE (R326). A tile's scrub pulse sets SCRUBBED and increments SCRUBSEQ, or is counted and ignored while owned. -/
  | tileScrubDone (t : Fin 288)
  /-- VF_FLR (R212). A function-level reset advances the PID's generation, loses its contexts and empties its ring. -/
  | vfFlr (vf : Pid)
  /-- HOST_TLP (R124). A host TLP is stamped with its function's PID or completed as Unsupported Request, and can move a TDI to ERROR. `x`: what IDE adds to it, where it came on a stream. -/
  | hostTlp (t : Tlp) (x : IdeTlp)
  /-- LOCK_INTERFACE_REQUEST (R204). TDISP request that locks a TDI's configuration and binds it to a keyed selective stream. -/
  | lockInterfaceRequest (vf : Pid) (stream : Fin 16) (bindP2p lockMsix noFwUpdate : Bool)
  /-- START_INTERFACE_REQUEST (R204). TDISP request that moves a locked TDI to RUN. -/
  | startInterfaceRequest (vf : Pid) (nonce : BitVec 256)
  /-- STOP_INTERFACE_REQUEST (R204). TDISP request that returns a TDI to CONFIG_UNLOCKED as for a function reset. -/
  | stopInterfaceRequest (vf : Pid)
  /-- GET_TDISP_VERSION (R204). TDISP request for the supported version. -/
  | getTdispVersion (vf : Pid)
  /-- GET_TDISP_CAPABILITIES (R204). TDISP request for the capabilities. -/
  | getTdispCapabilities (vf : Pid)
  /-- GET_DEVICE_INTERFACE_REPORT (R204). TDISP request for the interface report with the tenant page and partition fields. -/
  | getDeviceInterfaceReport (vf : Pid)
  /-- GET_DEVICE_INTERFACE_STATE (R204). TDISP request for a TDI's state. -/
  | getDeviceInterfaceState (vf : Pid)
  /-- TDISP_UNSUPPORTED_REQUEST (R204). Unsupported TDISP request answered with UNSUPPORTED_REQUEST. -/
  | tdispUnsupportedRequest (vf : Pid) (code : BitVec 8)
  /-- IDE_KM_QUERY (R203). IDE_KM query of the stream capabilities. -/
  | ideKmQuery (stream : Fin 17)
  /-- IDE_KM_KEY_PROG (R203). IDE_KM programming of a stream key into a KSA slot. -/
  | ideKmKeyProg (stream : Fin 17) (k : IdeKey) (key : Key)
  /-- IDE_KM_K_SET_GO (R203). IDE_KM activation of a programmed key set on a stream. -/
  | ideKmKSetGo (stream : Fin 17) (k : IdeKey)
  /-- IDE_KM_K_SET_STOP (R203). IDE_KM stop of a key set, moving bound locked TDIs to ERROR. -/
  | ideKmKSetStop (stream : Fin 17) (k : IdeKey)
  /-- GET_VERSION (R302). SPDM request answered with version 1.3. -/
  | getVersion (mb : Mailbox)
  /-- GET_CAPABILITIES (R303). SPDM request answered with the responder's capabilities. -/
  | getCapabilities (mb : Mailbox)
  /-- NEGOTIATE_ALGORITHMS (R303). SPDM request answered with the selected algorithms or an error. `offered`: the requester offers the set of R303. -/
  | negotiateAlgorithms (mb : Mailbox) (offered : Bool)
  /-- GET_DIGESTS (R302). SPDM request for certificate chain digests of slots 0 and 1. -/
  | getDigests (mb : Mailbox)
  /-- GET_CERTIFICATE (R302). SPDM request for a certificate chain. -/
  | getCertificate (mb : Mailbox) (x : CertReq)
  /-- SPDM_CHALLENGE (R302). SPDM CHALLENGE answered with CHALLENGE_AUTH under slot 0. -/
  | spdmChallenge (mb : Mailbox) (slot : BitVec 8) (nonce : BitVec 256)
  /-- GET_MEASUREMENTS (R300). SPDM request answered with measurement blocks, signed on request. -/
  | getMeasurements (mb : Mailbox) (index : BitVec 8) (signed : Bool) (nonce : BitVec 256)
  /-- KEY_EXCHANGE (R305). SPDM KEY_EXCHANGE that opens a secure session bound to its mailbox or ring. -/
  | keyExchange (mb : Mailbox) (slot : BitVec 8) (share : Bytes)
  /-- SPDM_FINISH (R302). SPDM FINISH that completes a session handshake. -/
  | spdmFinish (mb : Mailbox) (session : BitVec 32) (verify : Bytes)
  /-- SPDM_HEARTBEAT (R302). SPDM HEARTBEAT answered with HEARTBEAT_ACK. -/
  | spdmHeartbeat (mb : Mailbox) (session : BitVec 32)
  /-- KEY_UPDATE (R302). SPDM KEY_UPDATE of a session's keys. -/
  | keyUpdate (mb : Mailbox) (session : BitVec 32)
  /-- END_SESSION (R302). SPDM END_SESSION that closes a secure session. -/
  | endSession (mb : Mailbox) (session : BitVec 32)
  /-- CHUNK_SEND (R302). SPDM CHUNK_SEND carrying part of a large request. -/
  | chunkSend (mb : Mailbox) (seqNo : Nat) (last : Bool) (b : Bytes)
  /-- CHUNK_GET (R302). SPDM CHUNK_GET returning part of a large response. -/
  | chunkGet (mb : Mailbox) (seqNo : Nat)
  /-- SPDM_UNSUPPORTED_REQUEST (R302). Other SPDM request codes answered with UnsupportedRequest. -/
  | spdmUnsupportedRequest (mb : Mailbox) (code : BitVec 8)
  /-- HYBRID_SIG (R304). Vendor request returning the ML-DSA-87 signature of the latest signed response. -/
  | hybridSig (mb : Mailbox) (sel : BitVec 8)
  /-- RANGE_MANIFEST (R307). Vendor request answered by the Summit with a signed list of members. -/
  | rangeManifest (mb : Mailbox) (first count : Nat) (nonce : BitVec 256)
  /-- FRAG (R356). A range message fragment is reassembled, or discarded when 16 messages are already open. -/
  | frag (m : RMsg)
  /-- JOIN_REQ (R358). The Summit receives a join request with a proposed node ID and answers with a nonce. -/
  | joinReq (m : RMsg)
  /-- JOIN_NONCE (R358). The joiner receives the Summit's nonce and returns its evidence. -/
  | joinNonce (m : RMsg)
  /-- JOIN_EVID (R358). The Summit verifies a joiner's evidence and chains and admits or refuses it. -/
  | joinEvid (m : RMsg)
  /-- JOIN_ADMIT (R358). The joiner verifies the admission, installs the range key and becomes MEMBER, or returns to UNBOUND. -/
  | joinAdmit (m : RMsg)
  /-- JOIN_REFUSE (R358). The joiner receives a refusal and completes RANGE_JOIN with the Summit's status. -/
  | joinRefuse (m : RMsg)
  /-- LEAVE (R360). The Summit acknowledges a member's leave and removes it at the next advance. -/
  | leave (m : RMsg)
  /-- LEAVE_ACK (R31). A leaving chip receives the acknowledgement, destroys its keys and goes UNBOUND. -/
  | leaveAck (m : RMsg)
  /-- REFRESH (R363). A member receives a refresh nonce and returns new evidence. -/
  | refresh (m : RMsg)
  /-- REFRESH_EVID (R363). The Summit checks a member's refreshed evidence. -/
  | refreshEvid (m : RMsg)
  /-- DELTA (R364). A member receives the membership changes of a new epoch. -/
  | delta (m : RMsg)
  /-- PREPARE (R364). A member unwraps the new range key, derives new RX keys, goes REFORMING and acknowledges. -/
  | prepare (m : RMsg)
  /-- PREP_ACK (R365). The Summit records a member's acknowledgement of a PREPARE. -/
  | prepAck (m : RMsg)
  /-- SWITCH (R364). A member applies the deltas, silences removed peers, moves its ports to the new epoch and returns to MEMBER. -/
  | switch (m : RMsg)
  /-- ABORT (R364). A member receiving ABORT destroys both range keys and goes UNBOUND. -/
  | abort (m : RMsg)
  /-- HEARTBEAT (R361). A member receives the Summit's heartbeat, which restarts its liveness timer. -/
  | heartbeat (m : RMsg)
  /-- LOSS (R362). The Summit or Shoulder receives a loss report and probes the named node. -/
  | loss (m : RMsg)
  /-- PROBE (R362). A node answers a PROBE with PROBE_ACK. -/
  | probe (m : RMsg)
  /-- PROBE_ACK (R362). A PROBE_ACK proves that only a link failed, and no reform follows. -/
  | probeAck (m : RMsg)
  /-- SHADOW (R366). The Shoulder receives a shadow part, acknowledges it and adopts the shadow once complete. -/
  | shadow (m : RMsg)
  /-- SHADOW_ACK (R366). The Summit records a shadow part's acknowledgement, which may release a held JOIN_ADMIT. -/
  | shadowAck (m : RMsg)
  /-- SETKEY_REQ (R316). The Summit derives and wraps a device-set key for a member, or refuses it. -/
  | setkeyReq (m : RMsg)
  /-- SETKEY_RSP (R316). A member unwraps the device-set key, generates the set key pairs and finishes WB_IMPORT. -/
  | setkeyRsp (m : RMsg)
  /-- PAIRKEY (R364). A member receives the pair key wrapped under the current epoch. -/
  | pairkey (m : RMsg)
  /-- RANGE_REPLY (R227). The reply to a range-ring command, such as a bind query, arrives and completes the waiting command. -/
  | rangeReply (m : RMsg) (status : BitVec 8) (result : BitVec 192)
  /-- RANGE_RESEND_TIMER (R355). A range request unanswered for 2 ms is resent, or fails with BUSY after its fifth send. -/
  | rangeResendTimer (dst : Nat) (seq : BitVec 16)
  /-- REASSEMBLY_TIMEOUT (R356). A message still incomplete 100 ms after its first fragment is discarded. -/
  | reassemblyTimeout (src : Nat) (num : BitVec 16)
  /-- JOIN_TIMEOUT (R31). A join without an answer for 10 s returns the chip to UNBOUND with BUSY. -/
  | joinTimeout
  /-- LEAVE_TIMEOUT (R31). A leaving chip without acknowledgement after 1 s destroys its keys and goes UNBOUND. -/
  | leaveTimeout
  /-- HEARTBEAT_SEND (R361). The Summit sends HEARTBEAT to every member each second. -/
  | heartbeatSend
  /-- HEARTBEAT_LOSS (R361). A member without a heartbeat for 5 s, or without an open port for 1 s, leaves the range on its own. -/
  | heartbeatLoss
  /-- RANGE_PROBE_TIMEOUT (R362). A PROBE unanswered for 2 ms declares the node lost, triggering an advance or a takeover. -/
  | rangeProbeTimeout (node : Nat)
  /-- EPOCH_ADVANCE_START (R365). The Summit starts an advance, on a loss, 10 s after an admission or leave, after 6 h or on command, and sends DELTA and PREPARE. -/
  | epochAdvanceStart
  /-- PREPARE_WAIT_TIMEOUT (R365). The PREP_ACK wait ends, and the Summit resends, commits with a majority and sends SWITCH, or aborts. -/
  | prepareWaitTimeout
  /-- SWITCH_TIMEOUT (R364). A member without SWITCH 1 s after its PREP_ACK destroys both range keys and goes UNBOUND. -/
  | switchTimeout
  /-- REFRESH_TIMER (R363). The Summit sends a member's periodic REFRESH within 20 min. -/
  | refreshTimer (node : Nat)
  /-- REFRESH_TIMEOUT (R363). A member unanswered for 10 s is removed at the next advance. -/
  | refreshTimeout (node : Nat)
  /-- SHOULDER_TAKEOVER (R367). The Shoulder, after an unanswered probe of the Summit, becomes Summit and runs an advance. -/
  | shoulderTakeover
  /-- PAIR_HEARTBEAT_TIMER (R370). The Summit writes a sealed HEARTBEAT record to the pair mailbox every second. -/
  | pairHeartbeatTimer
  /-- PAIR_MAILBOX_POLL (R370). The Summit reads the IN half every 100 ms and accepts or discards the partner's records. `recs`: the records of the IN half. -/
  | pairMailboxPoll (recs : List Bytes)
  /-- PAIR_PARTNER_LOSS (R372). No partner record for 10 s declares the partner lost and clears PAIRED by an immediate advance. -/
  | pairPartnerLoss
  /-- PAIR_OFFER_EXPIRY (R371). An outstanding offer's ephemeral keys are destroyed after 10 min. -/
  | pairOfferExpiry
  /-- SETKEY_TIMEOUT (R316). A set-key request unanswered for 10 ms completes WB_IMPORT with BUSY. -/
  | setkeyTimeout (pid : Pid)
  /-- WB_STREAM_DONE (R320). An unseal stream finishes or ends on an integrity failure, replies, signals its fence and starts the PID's next stream. `segs`: the segments with their tags as read from the source pages, ciphertext then tag. -/
  | wbStreamDone (pid : Pid) (segs : List ReadIn)
  /-- IRON_HOLD_EXPIRY (R344). A GCM decryption buffer held 10 ms is zeroed and its context freed. -/
  | ironHoldExpiry (pid : Pid) (ctx : Fin 16)
  /-- IRON_LANE_KAT_DONE (R339). Known-answer tests after a mismatch finish and the lane returns to service or stays out. -/
  | ironLaneKatDone (lane : Fin 2) (passed : Bool)
  /-- KSA_BACKGROUND_CHECK (R259). A millisecond pass verifies every non-empty slot and raises SA_KEY_SLOT on a failure. `flips`: bits upset in slots since the last pass. -/
  | ksaBackgroundCheck (flips : List (Nat × Key))
  /-- ENTROPY_WINDOW (R255). A health-test window completes, passing or failing; a third failure sets FAILED. `samples`: the window, first sample in bit 0. -/
  | entropyWindow (samples : BitVec 1024)
  /-- DRBG_RESEED_TIMER (R256). 100 ms since the last seed reseeds the DRBG. -/
  | drbgReseedTimer
  /-- DBG_CHALLENGE_EXPIRY (R273). A debug challenge expires after 60 s. -/
  | dbgChallengeExpiry
  /-- DBG_AUTH_EXPIRY (R273). A debug authorisation ends when its DURATION expires. -/
  | dbgAuthExpiry
  /-- TEL_LATCH (R327). At each Tarn millisecond the confidential counters are quantised and latched. -/
  | telLatch
  /-- TEL_POWER_WINDOW (R328). At each 100 ms window the chip power average is computed and published. `raw`: the samples of qb_pm_raw in the window. -/
  | telPowerWindow (raw : List (BitVec 16))
  /-- TARN_START (R379). VDD_TARN becomes good; Tarn starts with Tarn-held values at 0 and TSTART set. -/
  | tarnStart
  /-- SUPPLY_GOOD (R381). VDDA_Q or VDD_Q becomes good, arming comparators or logging a supply-order error. `early`: it started to rise before an earlier supply was good. -/
  | supplyGood (s : Supply) (early : Bool)
  /-- CHIP_RESET_ASSERT (R379). qb_rst_n asserts; every unit outside Tarn returns to reset and QB_RDY falls. -/
  | chipResetAssert
  /-- CHIP_RESET_DEASSERT (R279). qb_rst_n deasserts with supplies good and boot begins at step 1. -/
  | chipResetDeassert
  /-- BOOT_STEP_DONE (R279). A boot step completes and the next begins, or boot stops with a cause. `ok`: the checks of steps 4, 6 and 7 that no state decides; `x`: what the step reads outside the block. -/
  | bootStepDone (ok : Bool) (x : BootIn)
  /-- MC_READY (R281). qb_mc_rdy asserts and boot step 7 may begin. -/
  | mcReady
  /-- MC_READY_TIMEOUT (R281). 200 ms without qb_mc_rdy stops boot with MC_TIMEOUT. -/
  | mcReadyTimeout
  /-- BOOT_READY (R279). Step 7 ends; QB_RDY asserts, data paths open and the firmware commits or reverts a trial. -/
  | bootReady
  /-- PWR_DOWN_REQ (R382). qb_pwr_down_req starts an orderly power-down that clears keys and ends with qb_pwr_down_ack. -/
  | pwrDownReq
  /-- VDD_Q_LOSS (R383). VDD_Q falls without acknowledgement, tripping TC0 or TC6. `fast`: it meets TC6's criterion. -/
  | vddQLoss (fast : Bool)
  /-- VDD_TARN_BROWNOUT (R379). VDD_TARN below 0.65 V zeroises and holds the core in reset. -/
  | vddTarnBrownout
  /-- VPP_HIGH (R384). VPP_Q rises above 1.0 V outside a permitted window; VPP_VIOL increments and a log entry is written. `window`: within 2.40 to 2.60 V. -/
  | vppHigh (l : VppAt)
  /-- COMPARATOR_TRIP (R391). An armed Tarn comparator trips, latches, logs and raises its alarm class once per reset. -/
  | comparatorTrip (c : Fin 8) (sample : BitVec 16)
  /-- TAMPER_INPUT (R377). A low pulse of QB_TAMPER_N long enough asserts the zeroise line and raises SA_TAMPER. Width of the low pulse in nanoseconds; none: it has not ended. -/
  | tamperInput (ns : Option Nat)
  /-- REFCLK_SWITCH (R395). qb_refclk stops and TC5 switches to BOSC at the next window. -/
  | refclkSwitch
  /-- SCU_WATCHDOG_EXPIRY (R296). The watchdog expires, raising SA_FW and resetting the SCU alone. -/
  | scuWatchdogExpiry
  /-- SCU_FAULT (R296). An SCU access fault or double-bit error raises SA_FW and resets the SCU. A single-bit error is corrected and counted (R295). -/
  | scuFault (e : ScuErr)
  /-- WATCHDOG_RESTART (R390). Firmware restarts the watchdog timer. -/
  | watchdogRestart
  /-- SCU_RESTART_DONE (R297). The restarted firmware settles journalled commands and completes queued ones with BUSY. -/
  | scuRestartDone
  /-- JTAG_TAP_ACCESS (R272). A scan on the chip JTAG pins reaches the debug gate, which presents only IDCODE and bypass or, under an active JTAG or FUSE scope, gives TAP access and VPP_Q fuse programming. The scan. -/
  | jtagTapAccess (x : Scan)
  /-- SCHED_COMMAND_DONE (R210). The tile scheduler reports that a context's running command has ended, moving it to DONE, completing a pending CTX_EVICT SAVE and releasing a kill's wait on COMMIT. -/
  | schedCommandDone (ctx : BitVec 32)
  /-- SHOULDER_HEARTBEAT_TIMEOUT (R367). The Shoulder has received no heartbeat for 3 s and sends a PROBE to the Summit. -/
  | shoulderHeartbeatTimeout
  /-- SLEEP_ENTRY (R386). VDD_Q and then VDDA_Q are removed after qb_pwr_down_ack, and the block enters sleep with only Tarn running. -/
  | sleepEntry
  /-- REFCLK_RETURN (R391). qb_refclk becomes present again, and TC5 changes its reference from BOSC back to qb_refclk with its 31.0–33.0 MHz limits, setting REFSRC. -/
  | refclkReturn
  /-- INGRESS_FRAME_AGED (R76). A verified frame waiting in its ridge ingress master behind a hot sector, or on its way to the fence logic or ownership table, reaches AGE 160 and is discarded and counted in QB_LINK_AGED. -/
  | ingressFrameAged (idx : Nat)
  deriving DecidableEq, Repr

end Sys2Proof
end

