-- ==== Sys2Proof/Decode.lean ====
section
/-! DEFINITION. Decoding: no row of the opcode table gives bits, since a command of this block is an
event at a port or a packet whose fields are operands, so no word spells a command. -/

namespace Sys2Proof

/-- The command that a word of `nbits` bits spells by the table's bits: none, for every word. -/
def decodeTableWord (_nbits _w : Nat) : Option Instr := none

end Sys2Proof
end

