-- ==== Sys2Proof/Config.lean ====
section
/-! DEFINITION. What the spec leaves to a named standard, to a secret, to an implementation or to chance:
constants without a body, of which nothing can be proved but that they are functions (log entries 2 and 6).
A statement about the model therefore holds whatever they are. -/

namespace Sys2Proof.Config

/-! ## Ciphers and hashes named by their standards (log entry 6) -/

/-- AES-256 encryption of one block (FIPS 197). -/
opaque aes256 : Key → Block → Block
/-- AES-256 decryption of one block. -/
opaque aes256Inv : Key → Block → Block
/-- The compression function of SHA-384 and SHA-512 (FIPS 180-4): chaining value, block; byte 0 most
significant. -/
opaque sha512Block : BitVec 512 → BitVec 1024 → BitVec 512
/-- The permutation Keccak-f[1600] (FIPS 202); byte 0 in the low bits. -/
opaque keccakF : BitVec 1600 → BitVec 1600
/-- P-384 public key of a seed, 97 bytes. -/
opaque ecPub : BitVec 384 → Bytes
/-- P-384 ECDH shared secret of a seed's key with a public key, 48 bytes. -/
opaque ecdh : BitVec 384 → Bytes → Bytes
/-- Whether bytes are a valid P-384 point (R319). -/
opaque ecValid : Bytes → Bool
/-- ML-KEM-1024 encapsulation key of a seed, 1568 bytes. -/
opaque kemPub : BitVec 512 → Bytes
/-- ML-KEM-1024 encapsulation to a key with fresh randomness: ciphertext and shared secret. -/
opaque kemEncap : Bytes → Key → Bytes × Bytes
/-- ML-KEM-1024 decapsulation, `none` where it fails. -/
opaque kemDecap : BitVec 512 → Bytes → Option Bytes
/-- ECDSA P-384 signature of a seed's key, 96 bytes. -/
opaque ecSign : BitVec 384 → Bytes → Bytes
/-- ECDSA P-384 verification: public key, message, signature. -/
opaque ecVerify : Bytes → Bytes → Bytes → Bool
/-- ML-DSA-87 public key of the key generation seeded by bytes, 2592 bytes. -/
opaque mlPub : Bytes → Bytes
/-- ML-DSA-87 signature of a seed's key under a context string, 4627 bytes. -/
opaque mlSign : Bytes → Bytes → Bytes → Bytes
/-- ML-DSA-87 verification: public key, context string, message, signature. -/
opaque mlVerify : Bytes → Bytes → Bytes → Bytes → Bool

/-! ## Certificates, whose contents are DER (R298, R299) -/

/-- Whether a concatenation of certificates verifies to the Noravaqua DICE root (R32, R358, R371). -/
opaque chainOk : Bytes → Bool
/-- The alias public keys a chain certifies: P-384, ML-DSA-87. -/
opaque chainAlias : Bytes → Bytes × Bytes
/-- The firmware measurement M in a chain's alias certificate (R299). -/
opaque chainM : Bytes → BitVec 384
/-- The range-transport public keys a chain certifies: P-384, ML-KEM-1024. -/
opaque chainTransport : Bytes → Bytes × Bytes
/-- Whether a certificate area holds a DeviceID certificate of an algorithm slot (0 P-384, 1 ML-DSA-87) for a public key
(R298). -/
opaque hasDeviceId : Fin 2 → Bytes → Bytes → Bool
/-- The chain of an algorithm slot in a certificate area, from the root to the DeviceID certificate (R298). -/
opaque areaChain : Fin 2 → Bytes → Bytes
/-- notBefore of the DeviceID certificate of an algorithm slot in a certificate area (R299). -/
opaque notBefore : Fin 2 → Bytes → Bytes
/-- notBefore of a self-signed DeviceID certificate: R298 gives none. -/
opaque selfNotBefore : Bytes
/-- X.509 v3 DER (R299) of a certificate: algorithm slot, what it states, and its signature. -/
opaque certDer : Fin 2 → Bytes → Bytes → Bytes
/-- X.509 v3 DER of what a signature of a certificate covers. -/
opaque tbsDer : Fin 2 → Bytes → Bytes
/-- The certificate chains of a chip with a DEV_ID that runs firmware of a measurement, where a Summit that took
authority verifies evidence of a member it did not admit (R363, R367). -/
opaque memberChains : BitVec 128 → BitVec 384 → Bytes
/-- The boot ROM, 128 KiB (R295). -/
opaque rom : Bytes
/-- Where the SCU stands after one instruction of an IMEM content at an address: the spec names no instruction set. -/
opaque scuNext : Bytes → BitVec 32 → BitVec 32
/-- What the chip's scan chains, which lie outside the block, shift out for bits shifted in, at a time (R272). -/
opaque scanOut : Nat → List Bool → List Bool
/-- Input keying material where a chip without a root derives its system keys: R253 gives none. -/
opaque noRoot : Key
/-- The manufacturing key hash fixed in the ROM (R286 check 4). -/
opaque mfgKeyHash : BitVec 384
/-- Noravaqua's PCI-SIG vendor ID (R304). -/
opaque vendorId : BitVec 16

/-! ## Free values -/

/-- Whether a tamper pulse of 20 to 40 ns at a time asserts the zeroise line (R377). -/
opaque tamperPulse : Nat → Nat → Bool
/-- The healthy noise samples that a seeding of the DRBG takes, by its number: 768 of entropy input in the low bits, 256
of nonce above them (R256). -/
opaque noise : Nat → BitVec 1024
/-- Whether a fuse bit reads 1 after a programming pulse: number of the programming operation, fuse bit (R250), and
0 for the first pulse, 1 to 3 for a retry (R251). -/
opaque fuseTakes : Nat → Nat → Fin 4 → Bool
/-- The block that F of R133 encrypts for a page and g[7:5]: the rule gives no layout. -/
opaque pkgBlock : Nat → Nat → BitVec 128
/-- Which of the low 19 bits of a granule index select channel and bank (R133 does not place them). -/
opaque bankBits : BitVec 19
/-- The keyed function of a granule index's remaining bits that is combined with its channel and bank bits (R133). -/
opaque bankHash : BitVec 128 → BitVec 23 → BitVec 23
/-- The set of the cairn cache that a place falls into, modulo 512 (R135 gives no rule). -/
opaque cairnSet : Nat → Nat
/-- The keyed hash that is the set index of the POT cache, modulo 1024 (R128). -/
opaque potSet : BitVec 128 → Nat → Nat
/-- Which Iron lane takes a command when both are in service, by number of the fetch (R339 leaves it open). -/
opaque lane : Nat → Fin 2
/-- How many fuse bits were programmed before VPP_Q left its window, by number of the draw (R384). -/
opaque progStop : Nat → Nat
/-- Which entry a full POT cache set or cairn cache gives up, chosen by number (R128, R135 give no rule). -/
opaque victim : Nat → Nat
/-- Events that the T5's tile counters 6 and 7 count in a Tarn microsecond, summed over a PID's tiles: PID, counter,
microsecond (R327). -/
opaque tileEvents : Nat → Nat → Nat → Nat
/-- What DSP0274 has an ECDSA signature of a response cover, from its response code and transcript hash. -/
opaque spdmSigned : BitVec 8 → Bytes → Bytes
/-- ResponderVerifyData of a session's secret over a transcript hash (DSP0274's key schedule). -/
opaque spdmVerify : Key → Bytes → Bytes
/-- The bytes of a TLP that the block forms (PCIe 6.0): function, sub-stream, address or vector, data. -/
opaque tlpForm : Nat → Nat → Nat → Bytes → Bytes
/-- The bytes of a TLP that arrives (PCIe 6.0). -/
opaque tlpIn : Tlp → Bytes
/-- The IDE encryption of a TLP (PCIe 6.0, R203): key, sub-stream, TLPs of it before this one, bytes. -/
opaque ideSeal : Key → Nat → Nat → Bytes → Bytes
/-- The IDE MAC of a TLP (PCIe 6.0, R203): key, sub-stream, TLPs of it before this one, bytes. -/
opaque ideMac : Key → Nat → Nat → Bytes → BitVec 96
/-- SIZE of a remote request whose SIZE its class does not allow, by number of the request (R58). -/
opaque freeSize : Nat → Nat
/-- A data byte that a remote request covers and does not give: number of the request, place of the byte (R58). -/
opaque freeByte : Nat → Nat → Byte
/-- A mask bit that a remote request covers and does not give. -/
opaque freeBit : Nat → Nat → Bool
/-- CTExponent of CAPABILITIES (R303 gives none). -/
opaque ctExponent : BitVec 8
/-- Whether an SPDM FINISH verifies under a session's handshake secrets (R302). -/
opaque finishOk : Key → Bytes → Bool
/-- The comparator sample that the log entry of a lost VDD_Q carries, at a time (R393 gives no value). -/
opaque tripSample : Nat → BitVec 16
/-- What the SCU at the other end of a port sends in the admission exchange, by number of the draw that this end
begins with (R64 gives no layout): its P-384 share, its ML-KEM share, two signatures, and its certificate chains. -/
opaque admitPeer : Nat → Bytes
/-- Flits of input capacity that the T5 router has for a port's pool: port, pool 1 to 3 (R81). -/
opaque routerSpace : Nat → Nat → Nat
/-- The error status, less one, with which a fold plan signals its fence, by fault reason code; 0 for a
forced release (R112 leaves the status open). -/
opaque foldError : Nat → Fin 14

end Sys2Proof.Config
end

