-- ==== Sys2Proof/Machine/Bits.lean ====
section
/-! DEFINITION. Fields, byte order and saturating counters: the plain helpers the meanings share. -/

namespace Sys2Proof.Machine

/-- The first `n` bytes of a number, lowest byte first (R10: little-endian). -/
def leBytes : Nat → Nat → Bytes
  | 0, _ => []
  | n + 1, x => BitVec.ofNat 8 x :: leBytes n (x / 256)

/-- The number that bytes spell, lowest byte first. -/
def leNat : Bytes → Nat
  | [] => 0
  | b :: t => b.toNat + 256 * leNat t

/-- The number that bytes spell, highest byte first (the order of the AES, SHA and KMAC standards). -/
def beNat (b : Bytes) : Nat := leNat b.reverse

/-- The `n` bytes of a number, highest byte first. -/
def beBytes (n x : Nat) : Bytes := (leBytes n x).reverse

/-- `n` bytes of zero. -/
def zeros (n : Nat) : Bytes := List.replicate n 0

/-- Bytes `off` to `off + n - 1`, zeros beyond the end. -/
def slice (b : Bytes) (off n : Nat) : Bytes :=
  let t := (b.drop off).take n
  t ++ zeros (n - t.length)

/-- The little-endian number at bytes `off` to `off + n - 1`. -/
def le (b : Bytes) (off n : Nat) : Nat := leNat (slice b off n)

/-- Bits `lo` to `lo + n - 1` of a number. -/
def bits (x lo n : Nat) : Nat := x / 2 ^ lo % 2 ^ n

/-- A bit as a number. -/
def b2n (b : Bool) : Nat := if b then 1 else 0

/-- Add one to a counter that saturates at 0xFFFF_FFFF (R11). -/
def inc32 (n : Nat) : Nat := if n < 0xFFFFFFFF then n + 1 else n

/-- Add `k` to a counter that saturates at 0xFFFF_FFFF. -/
def add32 (n k : Nat) : Nat := min 0xFFFFFFFF (n + k)

/-- Add one to a counter that saturates at 0xFFFF. -/
def inc16 (n : Nat) : Nat := if n < 0xFFFF then n + 1 else n

/-- A mask with the given (position, width) fields set. -/
def maskOf (w : Nat) : List (Nat × Nat) → BitVec w
  | [] => 0
  | (lo, n) :: t => (BitVec.allOnes n).setWidth w <<< lo ||| maskOf w t

/-- Exclusive or of byte strings of one length. -/
def xorBytes (a b : Bytes) : Bytes := List.zipWith (· ^^^ ·) a b

/-- The numbers from `a` to `a + n - 1`. -/
def span (a n : Nat) : List Nat := (List.range n).map (a + ·)

/-- Whether any of the numbers `a` to `a + n - 1` passes a test. -/
def spanAny (a n : Nat) (p : Nat → Bool) : Bool := (span a n).any p

/-- Whether all of the numbers `a` to `a + n - 1` pass a test. -/
def spanAll (a n : Nat) (p : Nat → Bool) : Bool := (span a n).all p

/-- Replace the element at a position. -/
def lset {α : Type} (l : List α) (i : Nat) (x : α) : List α := l.set i x

/-- Remove the first element that passes a test. -/
def dropFirst {α : Type} (p : α → Bool) : List α → List α
  | [] => []
  | a :: t => if p a then t else a :: dropFirst p t

end Sys2Proof.Machine
end

