-- ==== Sys2Proof/Machine/Tbl.lean ====
section
/-! DEFINITION. Tables: a list of (key, value) pairs in one canonical form, keys strictly rising and no
entry equal to the default value, so that equal tables are equal data. -/

namespace Sys2Proof.Machine

/-- A table from Nat keys; a key not listed reads as the default given at each access. -/
abbrev Tbl (α : Type) := List (Nat × α)

/-- Read a table. -/
def tget {α : Type} (d : α) : Tbl α → Nat → α
  | [], _ => d
  | (k, v) :: t, i => if i = k then v else tget d t i

/-- Remove a key. -/
def terase {α : Type} (t : Tbl α) (i : Nat) : Tbl α := t.filter fun e => e.1 != i

/-- Insert or replace a key. -/
def tput {α : Type} : Tbl α → Nat → α → Tbl α
  | [], i, x => [(i, x)]
  | (k, v) :: t, i, x =>
    if i = k then (i, x) :: t else if i < k then (i, x) :: (k, v) :: t else (k, v) :: tput t i x

/-- Write a table, keeping the canonical form: writing the default removes the entry. -/
def tset {α : Type} [DecidableEq α] (d : α) (t : Tbl α) (i : Nat) (x : α) : Tbl α :=
  if x = d then terase t i else tput t i x

/-- All keys of a table are greater than `i`. -/
def tabove {α : Type} (i : Nat) (t : Tbl α) : Bool := t.all fun e => decide (i < e.1)

/-- The canonical form: keys strictly rising, no entry equal to the default. -/
def twf {α : Type} [DecidableEq α] (d : α) : Tbl α → Bool
  | [] => true
  | (k, v) :: t => decide (v ≠ d) && tabove k t && twf d t

/-- Apply a function to the value at a key. -/
def tmod {α : Type} [DecidableEq α] (d : α) (t : Tbl α) (i : Nat) (f : α → α) : Tbl α :=
  tset d t i (f (tget d t i))

/-- Number of entries whose value passes a test. -/
def tcount {α : Type} (t : Tbl α) (p : α → Bool) : Nat := (t.filter fun e => p e.2).length

/-- Apply a function to every listed value, dropping those that become the default. -/
def tmapAll {α : Type} [DecidableEq α] (d : α) (t : Tbl α) (f : Nat → α → α) : Tbl α :=
  (t.map fun e => (e.1, f e.1 e.2)).filter fun e => decide (e.2 ≠ d)

end Sys2Proof.Machine
end

