-- ==== Sys2Proof/Machine/StateCmd.lean ====
section
/-! DEFINITION. State of the command processor (08): rings, event rings, read-once windows, fetched
commands, started commands, interrupts. -/

namespace Sys2Proof.Machine

/-- Registers and counters of a command ring (R223 to R232, R247). -/
structure Ring where
  en       : Bool := false
  loc      : Bool := false
  clog2    : Nat := 0
  head     : Nat := 0
  tail     : Nat := 0
  /-- The current pass is odd (R226). -/
  oddPass  : Bool := false
  fault    : Bool := false
  dbErr    : Bool := false
  inflight : Nat := 0
  cbase    : BitVec 64 := 0
  rbase    : BitVec 64 := 0
  seqExp   : BitVec 16 := 0
  /-- Pre-advance entries for each PID (R232). -/
  pre      : Tbl Nat := []
  deriving DecidableEq, Repr

/-- Registers of an event ring (R237, R247). -/
structure Evt where
  en       : Bool := false
  loc      : Bool := false
  elog2    : Nat := 0
  mod      : Nat := 0
  vector   : Nat := 0
  base     : BitVec 64 := 0
  prod     : Nat := 0
  cons     : Nat := 0
  overflow : Bool := false
  dropped  : Nat := 0
  deriving DecidableEq, Repr

/-- A read-once window of 24 words (R235, R236): what each word still holds, whether it has been read
since the window was filled, and how many bytes of result it carries. -/
structure Window where
  words : Tbl (BitVec 32) := []
  /-- A result waits and is not wholly read. -/
  full  : Bool := false
  /-- Word 0 has been read. -/
  spent : Bool := false
  /-- Words of the result not read yet. -/
  left  : List Nat := []
  deriving DecidableEq, Repr

/-- Where the reply of a fetched command goes, and what it echoes (R226, R229). -/
structure Ticket where
  ring   : Nat := 0
  idx    : Nat := 0
  phase  : Bool := true
  opcode : BitVec 8 := 0
  form   : BitVec 8 := 0
  seq    : BitVec 16 := 0
  ptag   : BitVec 16 := 0
  cookie : BitVec 32 := 0
  irq    : Bool := false
  /-- A function reset came after the fetch: no reply is written (R227). -/
  mute   : Bool := false
  /-- Number of the fetch, rising; the order of fetches on the chip. -/
  num    : Nat := 0
  /-- Source node of a range-ring command, and the ADMIT port it came by (36 for none). -/
  src    : Nat := 0
  via    : Nat := 36
  deriving DecidableEq, Repr

/-- A fetched command that has not started (R242, R243). -/
structure Queued where
  tkt    : Ticket
  packet : Packet
  fast   : Bool
  deriving DecidableEq, Repr

/-- A RANGE frame's packet waiting in the range ring (R223), with its source node, the ADMIT port it
came by (36 for none) and the content of a reassembled message. -/
structure RangeIn where
  src    : Nat
  via    : Nat := 36
  packet : Packet
  deriving DecidableEq, Repr

/-- What a started command waits for (R242). -/
inductive WaitKind where
  /-- Pages being mapped, unmapped or changed; what stays to do (R130, R131). -/
  | pages (pid : Nat) (todo : List Nat) (count : Nat)
  /-- PART_MAP PEER of a confidential partition: the BIND query (R199). -/
  | peerBind (pid node : Nat) (tag : BitVec 16)
  /-- CTX_EVICT SAVE at the end of the running command (R207). -/
  | save (ctx : Nat)
  /-- CTX_EVICT KILL (R211). -/
  | kill (pid : Nat)
  /-- PART_TEARDOWN (R214). -/
  | teardown (pid pages ctxs fences : Nat)
  /-- LINK_SESSION OPEN until the probe ends (R62). -/
  | linkOpen (port : Nat)
  /-- LINK_SESSION CLOSE until the port has drained (R62). -/
  | linkClose (port : Nat)
  /-- RANGE_JOIN JOIN (R358). -/
  | rangeJoin
  /-- RANGE_LEAVE (R358). -/
  | rangeLeave
  /-- RANGE_EPOCH ADVANCE, merged into the advance numbered (R360). -/
  | epochAdvance (next : Bool)
  /-- WB_IMPORT until SETKEY_RSP (R316). -/
  | setkey (pid : Nat)
  /-- WB_UNSEAL_STREAM (R320). -/
  | stream (pid : Nat)
  /-- WB_REVOKE until the stream ends (R322). -/
  | revoke (pid idx : Nat)
  /-- FOLD_RELEASE DISARM until the chunk boundary (R112). -/
  | disarm (unit plan : Nat)
  /-- FW_STAGE and other commands that nothing but their own end completes. -/
  | other (tag : Nat)
  deriving DecidableEq, Repr

/-- A started command that has not completed: the journal of R297. -/
structure Wait where
  tkt  : Ticket
  pid  : Nat
  kind : WaitKind
  deriving DecidableEq, Repr

/-- Moderation of one pair of function and vector (R237). -/
structure Moder where
  last     : Nat := 0
  raised   : Bool := false
  deferred : Bool := false
  deriving DecidableEq, Repr

/-- The command processor. Rings are numbered 0 operator, 1 to 31 tenants, 32 range, 33 internal. -/
structure CmdState where
  rings        : Tbl Ring := []
  evts         : Tbl Evt := []
  windows      : Tbl Window := []
  rangeQ       : List RangeIn := []
  rangeDropped : Nat := 0
  fwq          : List Queued := []
  waits        : List Wait := []
  /-- The operator ring takes the next shared turn (R242). -/
  opTurn       : Bool := true
  /-- The tenant ring that took the last tenant turn. -/
  lastTenant   : Nat := 0
  msix         : Tbl Moder := []
  tenantHold   : Bool := false
  vfDoeEn      : Bool := true
  fetches      : Nat := 0
  /-- TLPs opened or sealed under each IDE key in use (R203), keyed stream * 8 + sub-stream * 2 + direction. -/
  ideUse       : Tbl Nat := []
  deriving DecidableEq, Repr

end Sys2Proof.Machine
end

