-- ==== Sys2Proof/Machine/Aes.lean ====
section
/-! DEFINITION. AES-128 (FIPS 197), which R133 uses whole and R137 reduced to four rounds. -/

namespace Sys2Proof.Machine

/-- The S-box: byte `x` of this number is the image of `x`. -/
def sboxTable : Nat :=
  0x16BB54B00F2D99416842E6BF0D89A18CDF2855CEE9871E9B948ED9691198F8E19E1DC186B95735610EF6034866B53E708A8BBD4B1F74DDE8C6B4A61C2E2578BA * 2 ^ 1536 +
  0x08AE7A65EAF4566CA94ED58D6D37C8E779E4959162ACD3C25C2406490A3A32E0DB0B5EDE14B8EE4688902A22DC4F816073195D643D7EA7C41744975FEC130CCD * 2 ^ 1024 +
  0xD2F3FF1021DAB6BCF5389D928F40A351A89F3C507F02F94585334D43FBAAEFD0CF584C4A39BECB6A5BB1FC20ED00D153842FE329B3D63B52A05A6E1B1A2C8309 * 2 ^ 512 +
  0x75B227EBE28012079A059618C323C7041531D871F1E5A534CCF73F362693FDB7C072A49CAFA2D4ADF04759FA7DC982CA76ABD7FE2B670130C56F6BF27B777C63

/-- One byte through the S-box. -/
def sbox (b : Byte) : Byte := BitVec.ofNat 8 (bits sboxTable (8 * b.toNat) 8)

/-- Multiply by x in GF(2^8). -/
def xtime (b : Byte) : Byte := (b <<< 1) ^^^ (if b.getLsbD 7 then 0x1B else 0)

/-- ShiftRows on the 16 bytes of a state, column by column. -/
def shiftRows (b : Bytes) : Bytes := (List.range 16).map fun i => b.getD ((i + 4 * (i % 4)) % 16) 0

/-- MixColumns on one column. -/
def mixColumn (a b c d : Byte) : Bytes :=
  let t := a ^^^ b ^^^ c ^^^ d
  [a ^^^ t ^^^ xtime (a ^^^ b), b ^^^ t ^^^ xtime (b ^^^ c), c ^^^ t ^^^ xtime (c ^^^ d), d ^^^ t ^^^ xtime (d ^^^ a)]

/-- MixColumns. -/
def mixColumns : Bytes → Bytes
  | a :: b :: c :: d :: l => mixColumn a b c d ++ mixColumns l
  | l => l

/-- The next round key of the AES-128 key schedule. -/
def nextRound (k : Bytes) (rcon : Byte) : Bytes :=
  let w := fun (i : Nat) => k.getD i 0
  let a := xorBytes (k.take 4) [sbox (w 13) ^^^ rcon, sbox (w 14), sbox (w 15), sbox (w 12)]
  let b := xorBytes (slice k 4 4) a
  let c := xorBytes (slice k 8 4) b
  a ++ b ++ c ++ xorBytes (slice k 12 4) c

/-- The first `n` round keys from one on. -/
def roundKeys : Nat → Bytes → Byte → List Bytes
  | 0, _, _ => []
  | n + 1, k, rcon => k :: roundKeys n (nextRound k rcon) (xtime rcon)

/-- The rounds after the first AddRoundKey: full ones, and the last without MixColumns. -/
def aesRounds : List Bytes → Bytes → Bytes
  | [], b => b
  | [k], b => xorBytes (shiftRows (b.map sbox)) k
  | k :: l, b => aesRounds l (xorBytes (mixColumns (shiftRows (b.map sbox))) k)

/-- AES-128 with `n` rounds: the initial AddRoundKey, `n - 1` full rounds and one without MixColumns, under the first
`n + 1` round keys. -/
def aesReduced (n : Nat) (k x : BitVec 128) : BitVec 128 :=
  let ks := roundKeys (n + 1) (beBytes 16 k.toNat) 1
  BitVec.ofNat 128 (beNat (aesRounds (ks.drop 1) (xorBytes (beBytes 16 x.toNat) (ks.headD []))))

/-- AES-128. -/
def aes128 (k x : BitVec 128) : BitVec 128 := aesReduced 10 k x

end Sys2Proof.Machine
end

