-- ==== Sys2Proof/Machine/Crypto.lean ====
section
/-! DEFINITION. The constructions the spec builds over AES and SHA-384 (R54, R59, R137 to R143, R263):
XTS, GHASH, GCM, the sector tag and darn, AES key wrap, HMAC, HKDF. -/

namespace Sys2Proof.Machine

/-- A block from its 16 bytes, byte 0 most significant (FIPS 197). -/
def blk (b : Bytes) : Block := BitVec.ofNat 128 (beNat (slice b 0 16))

/-- The 16 bytes of a block. -/
def blkBytes (b : Block) : Bytes := beBytes 16 b.toNat

/-- A key from bytes, byte 0 most significant. -/
def keyOf (b : Bytes) : Key := BitVec.ofNat 256 (beNat (slice b 0 32))

/-- The 32 bytes of a key. -/
def keyBytes (k : Key) : Bytes := beBytes 32 k.toNat

/-- Cut bytes into blocks, the last filled with zeros. -/
def blocksOf : Nat → Bytes → List Block
  | 0, _ => []
  | n + 1, b => if b.isEmpty then [] else blk b :: blocksOf n (b.drop 16)

/-- Blocks of a byte string. -/
def blocks (b : Bytes) : List Block := blocksOf (b.length / 16 + 1) b

/-! ## GHASH and GCM (SP 800-38D) -/

/-- Product in GF(2^128), `n` bits of `x` still to take from the top. -/
def gmul (x : Block) : Nat → Block → Block → Block
  | 0, _, z => z
  | n + 1, v, z =>
    let z1 := if x.getLsbD n then z ^^^ v else z
    let v1 := if v.getLsbD 0 then (v >>> 1) ^^^ (0xE1#128 <<< 120) else v >>> 1
    gmul x n v1 z1

/-- GHASH of blocks under H. -/
def ghash (h : Block) (bs : List Block) : Block :=
  bs.foldl (fun y b => gmul (y ^^^ b) 128 h 0) 0

/-- Counter-mode keystream of `n` blocks from a counter block. -/
def ctrStream (k : Key) : Nat → Block → Bytes
  | 0, _ => []
  | n + 1, c =>
    let c1 := (c.extractLsb' 32 96) ++ (c.extractLsb' 0 32 + 1)
    blkBytes (Config.aes256 k c1) ++ ctrStream k n c1

/-- The first counter block of a 96-bit IV. -/
def gcmJ0 (iv : Bytes) : Block := blk (slice iv 0 12 ++ [0, 0, 0, 1])

/-- The GCM tag of a ciphertext. -/
def gcmTag (k : Key) (iv aad ct : Bytes) : Block :=
  let h := Config.aes256 k 0
  let len := BitVec.ofNat 64 (8 * aad.length) ++ BitVec.ofNat 64 (8 * ct.length)
  ghash h (blocks aad ++ blocks ct ++ [len]) ^^^ Config.aes256 k (gcmJ0 iv)

/-- GCM's cipher, in either direction. -/
def gcmCrypt (k : Key) (iv b : Bytes) : Bytes :=
  xorBytes b (ctrStream k (b.length / 16 + 1) (gcmJ0 iv))

/-- Seal: ciphertext and tag. -/
def gcmSeal (k : Key) (iv aad pt : Bytes) : Bytes × Block :=
  let ct := gcmCrypt k iv pt
  (ct, gcmTag k iv aad ct)

/-- Open: plaintext, or `none` where the tag does not verify. -/
def gcmOpen (k : Key) (iv aad ct : Bytes) (tag : Block) : Option Bytes :=
  if gcmTag k iv aad ct == tag then some (gcmCrypt k iv ct) else none

/-! ## AES-256-XTS (IEEE 1619, R139) -/

/-- Multiply an XTS tweak by x: the 16 bytes are a little-endian number. -/
def xtsNext (t : Block) : Block :=
  let n := BitVec.ofNat 128 (leNat (blkBytes t))
  let m := (n <<< 1) ^^^ (if n.getLsbD 127 then 0x87#128 else 0)
  blk (leBytes 16 m.toNat)

/-- XTS over consecutive blocks with a block function. -/
def xtsBlocks (f : Block → Block) : Block → List Block → List Block
  | _, [] => []
  | t, b :: l => (f (b ^^^ t) ^^^ t) :: xtsBlocks f (xtsNext t) l

/-- The bytes of a sector. -/
def sectorBytes (x : Sector) : Bytes := leBytes 128 x.toNat

/-- A sector from its bytes. -/
def sectorOf (b : Bytes) : Sector := BitVec.ofNat 1024 (leNat (slice b 0 128))

/-- Encrypt bytes under K1 ‖ K2 with a 16-byte tweak. -/
def xtsEnc (k1 k2 : Key) (tweak b : Bytes) : Bytes :=
  (xtsBlocks (Config.aes256 k1) (Config.aes256 k2 (blk tweak)) (blocks b)).flatMap blkBytes

/-- Decrypt bytes under K1 ‖ K2 with a 16-byte tweak. -/
def xtsDec (k1 k2 : Key) (tweak b : Bytes) : Bytes :=
  (xtsBlocks (Config.aes256Inv k1) (Config.aes256 k2 (blk tweak)) (blocks b)).flatMap blkBytes

/-- Tweak of a sector (R139): sector number in bits 33:0, CTAG in bits 55:40. -/
def sectorTweak (sector : Nat) (ctag : BitVec 16) : Bytes :=
  leBytes 16 (sector % 2 ^ 34 + ctag.toNat * 2 ^ 40)

/-- Mangle keystream of a sector (R137). -/
def mangleStream (k : BitVec 128) (mepoch : BitVec 32) (sector : Nat) : Bytes :=
  (List.range 8).flatMap fun i =>
    blkBytes (aesReduced 4 k (blk (leBytes 5 sector ++ leBytes 1 i ++ leBytes 4 mepoch.toNat ++ zeros 6)))

/-! ## Sector tags and darn (R140, R143) -/

/-- What a tag is bound to beside the ciphertext: the number in A1, CTAG or its substitute, the mode
byte, MEPOCH, and VERSION. -/
structure TagBind where
  sector  : Nat
  ctag    : BitVec 16
  mode    : Nat
  mepoch  : BitVec 32
  version : Nat

/-- Eight bytes as the 64-bit number they spell. -/
def tagNum (b : Block) : BitVec 64 := BitVec.ofNat 64 (leNat ((blkBytes b).take 8))

/-- The tag formula of R140 over A1 and A2 as blocks, and the block N. -/
def macOver (k : Key) (body : Bytes) (a1 a2 n : Bytes) : BitVec 64 :=
  let h := Config.aes256 k 0
  tagNum (ghash h (blocks body ++ [blk a1, blk a2]) ^^^ Config.aes256 k (blk n))

/-- The block N of R140. -/
def tagN (num version : Nat) : Bytes := leBytes 5 num ++ leBytes 7 version ++ [0, 0, 0, 1]

/-- The tag of a Seal or Fresh sector (R140). -/
def sectorTag (k : Key) (t : TagBind) (ct : Sector) : BitVec 64 :=
  macOver k (sectorBytes ct)
    (leBytes 8 t.sector ++ leBytes 2 t.ctag.toNat ++ leBytes 1 t.mode ++ zeros 5)
    (leBytes 4 t.mepoch.toNat ++ leBytes 7 t.version ++ zeros 5)
    (tagN t.sector t.version)

/-- One bit of a width. -/
def oneBit (w k : Nat) : BitVec w := 1#w <<< k

/-- Darn candidate `k` (R143): the ciphertext and tag it stands for. -/
def darnFix (ct : Sector) (tag : BitVec 64) (k : Nat) : Sector × BitVec 64 :=
  if k < 1024 then (ct ^^^ oneBit 1024 k, tag) else (ct, tag ^^^ oneBit 64 (k - 1024))

/-- The darn search: the one candidate whose tag matches, or `none`. -/
def darn (mac : Sector → BitVec 64) (ct : Sector) (tag : BitVec 64) : Option (Sector × BitVec 64) :=
  match (List.range 1088).filter fun k => mac (darnFix ct tag k).1 == (darnFix ct tag k).2 with
  | [k] => some (darnFix ct tag k)
  | _ => none

/-! ## SHA-384 (FIPS 180-4) and KMAC256 (SP 800-185) over their inner functions -/

/-- ASCII bytes of a string. -/
def asc (s : String) : Bytes := s.toList.map fun c => BitVec.ofNat 8 c.toNat

/-- Initial chaining value of SHA-384. -/
def shaInit : BitVec 512 :=
  0xcbbb9d5dc1059ed8629a292a367cd5079159015a3070dd17152fecd8f70e593967332667ffc00b318eb44a8768581511db0c2e0d64f98fa747b5481dbefa4fa4#512

/-- A hash under way: chaining value and the bytes of a block not yet full. -/
structure Sha where
  h   : BitVec 512 := shaInit
  buf : Bytes := []
  deriving DecidableEq, Repr

/-- Compress full blocks. -/
def shaBlocks : Nat → BitVec 512 → Bytes → BitVec 512
  | 0, h, _ => h
  | n + 1, h, b => shaBlocks n (Config.sha512Block h (BitVec.ofNat 1024 (beNat (slice b 0 128)))) (b.drop 128)

/-- Absorb bytes. -/
def shaAbsorb (x : Sha) (b : Bytes) : Sha :=
  let w := x.buf ++ b
  let n := w.length / 128
  { h := shaBlocks n x.h w, buf := w.drop (128 * n) }

/-- The 48-byte digest, the length of the message given. -/
def shaEnd (x : Sha) (len : Nat) : Bytes :=
  let z := (239 - x.buf.length) % 128
  let y := shaAbsorb x (0x80 :: zeros z ++ beBytes 16 (8 * len))
  (beBytes 64 y.h.toNat).take 48

/-- A Keccak sponge of rate 136: state, and bytes of the rate in use. -/
structure Sponge where
  st  : BitVec 1600 := 0
  pos : Nat := 0
  deriving DecidableEq, Repr

/-- Exclusive or a byte into the state. -/
def xorAt (st : BitVec 1600) (pos : Nat) (b : Byte) : BitVec 1600 := st ^^^ (b.setWidth 1600 <<< (8 * pos))

/-- Absorb bytes. -/
def spAbsorb (x : Sponge) : Bytes → Sponge
  | [] => x
  | b :: t =>
    let st := xorAt x.st x.pos b
    spAbsorb (if x.pos + 1 < 136 then ⟨st, x.pos + 1⟩ else ⟨Config.keccakF st, 0⟩) t

/-- The fewest bytes that hold a number, at least one, highest first. -/
def minBytes (n : Nat) : Bytes := beBytes (max 1 ((Nat.log2 n) / 8 + 1)) n

/-- left_encode. -/
def leftEnc (n : Nat) : Bytes := leBytes 1 (minBytes n).length ++ minBytes n

/-- right_encode. -/
def rightEnc (n : Nat) : Bytes := minBytes n ++ leBytes 1 (minBytes n).length

/-- encode_string. -/
def encStr (b : Bytes) : Bytes := leftEnc (8 * b.length) ++ b

/-- bytepad to 136. -/
def bytePad (b : Bytes) : Bytes :=
  let x := leftEnc 136 ++ b
  x ++ zeros ((136 - x.length % 136) % 136)

/-- KMAC256 with key and customisation string absorbed. -/
def kmacInit (k s : Bytes) : Sponge :=
  spAbsorb {} (bytePad (encStr (asc "KMAC") ++ encStr s) ++ bytePad (encStr k))

/-- The output of `len` bytes, at most 136. -/
def kmacEnd (x : Sponge) (len : Nat) : Bytes :=
  let y := spAbsorb x (rightEnc (8 * len))
  let st := Config.keccakF (xorAt (xorAt y.st y.pos 0x04) 135 0x80)
  leBytes len st.toNat

/-- KMAC256: key, data, customisation string, output length in bytes. -/
def kmac256 (k x s : Bytes) (len : Nat) : Bytes := kmacEnd (spAbsorb (kmacInit k s) x) len

/-! ## HMAC, HKDF, key wrap -/

/-- SHA-384 as 48 bytes. -/
def sha (b : Bytes) : Bytes := shaEnd (shaAbsorb {} b) b.length

/-- HMAC-SHA-384. -/
def hmac (key msg : Bytes) : Bytes :=
  let k := slice (if key.length > 128 then sha key else key) 0 128
  sha (k.map (· ^^^ 0x5C) ++ sha (k.map (· ^^^ 0x36) ++ msg))

/-- HKDF-Expand (RFC 5869), block number `i` on from `prev`. -/
def expandFrom (prk info : Bytes) : Nat → Nat → Bytes → Bytes
  | 0, _, _ => []
  | n + 1, i, prev =>
    let t := hmac prk (prev ++ info ++ [BitVec.ofNat 8 i])
    t ++ expandFrom prk info n (i + 1) t

/-- HKDF-Expand to `len` bytes. -/
def hkdfExpand (prk info : Bytes) (len : Nat) : Bytes := (expandFrom prk info (len / 48 + 1) 1 []).take len

/-- HKDF of R263: salt, input keying material, info, length. -/
def hkdf (salt ikm info : Bytes) (len : Nat) : Bytes := hkdfExpand (hmac salt ikm) info len

/-- One pass of AES key wrap over the registers (RFC 3394), step number rising. -/
def kwPass (k : Key) : Nat → Bytes → List Bytes → Bytes × List Bytes
  | _, a, [] => (a, [])
  | t, a, r :: l =>
    let b := blkBytes (Config.aes256 k (blk (a ++ r)))
    let a1 := xorBytes (b.take 8) (beBytes 8 t)
    let rest := kwPass k (t + 1) a1 l
    (rest.1, b.drop 8 :: rest.2)

/-- The passes of AES key wrap. -/
def kwLoop (k : Key) (n : Nat) : Nat → Nat → Bytes → List Bytes → Bytes × List Bytes
  | 0, _, a, r => (a, r)
  | j + 1, t, a, r => let q := kwPass k t a r; kwLoop k n j (t + n) q.1 q.2

/-- Cut bytes into groups of eight. -/
def eights : Nat → Bytes → List Bytes
  | 0, _ => []
  | n + 1, b => if b.isEmpty then [] else slice b 0 8 :: eights n (b.drop 8)

/-- AES-256 key wrap (RFC 3394). -/
def kwWrap (k : Key) (b : Bytes) : Bytes :=
  let r := eights b.length b
  let q := kwLoop k r.length 6 1 (List.replicate 8 0xA6) r
  q.1 ++ q.2.flatten

/-- One pass of AES key unwrap, over the registers from the last to the first, step number falling. -/
def kuPass (k : Key) : Nat → Bytes → List Bytes → Bytes × List Bytes
  | _, a, [] => (a, [])
  | t, a, r :: l =>
    let b := blkBytes (Config.aes256Inv k (blk (xorBytes a (beBytes 8 t) ++ r)))
    let rest := kuPass k (t - 1) (b.take 8) l
    (rest.1, b.drop 8 :: rest.2)

/-- The passes of AES key unwrap. -/
def kuLoop (k : Key) (n : Nat) : Nat → Nat → Bytes → List Bytes → Bytes × List Bytes
  | 0, _, a, r => (a, r)
  | j + 1, t, a, r => let q := kuPass k t a r; kuLoop k n j (t - n) q.1 q.2

/-- AES-256 key unwrap: `none` where the integrity value is wrong. -/
def kwUnwrap (k : Key) (b : Bytes) : Option Bytes :=
  let r := (eights b.length (b.drop 8)).reverse
  let q := kuLoop k r.length 6 (6 * r.length) (slice b 0 8) r
  if q.1 == List.replicate 8 (0xA6 : Byte) then some q.2.reverse.flatten else none

end Sys2Proof.Machine
end

