-- ==== Sys2Proof/Machine/Drbg.lean ====
section
/-! DEFINITION. The health tests of the entropy source and CTR_DRBG with AES-256 and the derivation function (09 R255,
R256; SP 800-90A, SP 800-90B). -/

namespace Sys2Proof.Machine

/-! ## Health tests (R255) -/

/-- What the repetition count test holds: runs that failed, the last sample, and the length of its run. -/
structure RunTest where
  failed : Nat := 0
  last   : Bool := false
  len    : Nat := 0
  deriving DecidableEq, Repr

/-- The repetition count test takes a sample: a run fails as it reaches 41 identical samples. -/
def RunTest.sample (t : RunTest) (b : Bool) : RunTest :=
  let n := if t.last == b then min 42 (t.len + 1) else 1
  { failed := if n == 41 then t.failed + 1 else t.failed, last := b, len := n }

/-- The samples of a window, the first in bit 0. -/
def samplesOf {n : Nat} (w : BitVec n) : List Bool := (List.range n).map w.getLsbD

/-- The adaptive proportion test fails a window in which the first sample's value occurs 794 times or more. -/
def propFails (l : List Bool) : Bool := decide (794 ≤ (l.filter fun b => b == l.headD false).length)

/-- Windows of 1024 samples. -/
def windowsOf : Nat → List Bool → List (List Bool)
  | 0, _ => []
  | n + 1, l => l.take 1024 :: windowsOf n (l.drop 1024)

/-- The start-up test: both tests on 4096 samples. -/
def startupFails (w : BitVec 4096) : Bool :=
  let l := samplesOf w
  (l.foldl RunTest.sample {}).failed != 0 || (windowsOf 4 l).any propFails

/-! ## CTR_DRBG (R256, SP 800-90A 10.2 and 10.3) -/

/-- K and V. -/
structure DrbgKV where
  k : Key := 0
  v : Block := 0
  deriving DecidableEq, Repr

/-- BCC: the chained encryption of blocks. -/
def bcc (k : Key) (b : Bytes) : Block := (blocks b).foldl (fun c x => Config.aes256 k (c ^^^ x)) 0

/-- The key with which the derivation function begins: the bytes 0 to 31. -/
def dfKey : Key := keyOf ((List.range 32).map fun i => BitVec.ofNat 8 i)

/-- The padded string of the derivation function for 48 bytes out. -/
def dfString (b : Bytes) : Bytes :=
  let x := beBytes 4 b.length ++ beBytes 4 48 ++ b ++ [0x80]
  x ++ zeros ((16 - x.length % 16) % 16)

/-- Block_Cipher_df: the 48 bytes of seed material of a string. -/
def drbgDf (b : Bytes) : Bytes :=
  let part := fun i => blkBytes (bcc dfKey (beBytes 4 i ++ zeros 12 ++ dfString b))
  let k := keyOf (part 0 ++ part 1)
  let x1 := Config.aes256 k (blk (part 2))
  let x2 := Config.aes256 k x1
  blkBytes x1 ++ blkBytes x2 ++ blkBytes (Config.aes256 k x2)

/-- The blocks of V + 1, V + 2, …, `n` of them. -/
def drbgStream (d : DrbgKV) (n : Nat) : Bytes :=
  (List.range n).flatMap fun i => blkBytes (Config.aes256 d.k (d.v + BitVec.ofNat 128 (i + 1)))

/-- CTR_DRBG_Update with 48 bytes. -/
def drbgUpdate (d : DrbgKV) (data : Bytes) : DrbgKV :=
  let t := xorBytes (drbgStream d 3) data
  { k := keyOf t, v := blk (t.drop 32) }

/-- Instantiate from entropy input, nonce and personalisation string. -/
def drbgInit (seed : Bytes) : DrbgKV := drbgUpdate {} (drbgDf seed)

/-- Reseed with an entropy input. -/
def drbgReseed (d : DrbgKV) (entropy : Bytes) : DrbgKV := drbgUpdate d (drbgDf entropy)

/-- A generate request for `n` bytes: the output, and K and V after. -/
def drbgGenerate (d : DrbgKV) (n : Nat) : Bytes × DrbgKV :=
  let b := (n + 15) / 16
  ((drbgStream d b).take n, drbgUpdate { d with v := d.v + BitVec.ofNat 128 b } (zeros 48))

end Sys2Proof.Machine
end

