-- ==== Sys2Proof/Machine/StateCore.lean ====
section
/-! DEFINITION. State of boot and power (10, 14), the Tarn domain (14), the fuse bank and keys (09), and
alarms (00, 13). -/

namespace Sys2Proof.Machine

/-- An activation record (R289). -/
structure ActRec where
  seq    : BitVec 32 := 0
  slot   : Bool := false
  /-- 1 TRIAL, 2 COMMITTED, 3 REVERTED. -/
  state  : Nat := 0
  digest : BitVec 384 := 0
  deriving DecidableEq, Repr

/-- The SCU (R13, R295): contents of IMEM and of DMEM as the boot ROM wrote them, the IMEM lock, and where the core runs: 0 is
the boot ROM's first address. What firmware keeps in DMEM is held by name in the other parts of the state, and the
journal of the retained area as the started and waiting commands. -/
structure ScuState where
  imem     : Bytes := []
  dmem     : Bytes := []
  /-- The retained area of DMEM. -/
  retained : Bytes := []
  imemLock : Bool := false
  pc       : BitVec 32 := 0
  /-- Halted by the debug gate (R272). -/
  halted   : Bool := false
  deriving DecidableEq, Repr

/-- Boot, firmware, power and pins. -/
structure BootState where
  rdy        : Bool := false
  inReset    : Bool := true
  /-- qb_rst_n is deasserted. -/
  rstHigh    : Bool := false
  step       : Nat := 0
  /-- The known-answer tests of step 7 have passed, and the identity keys and certificates stand (R279). -/
  tested     : Bool := false
  failStep   : Nat := 0
  cause      : Nat := 0
  trial      : Bool := false
  fallback   : Bool := false
  runSlot    : Bool := false
  tried      : Bool := false
  trialSeq   : BitVec 32 := 0
  mcRdy      : Bool := false
  mcWaitFrom : Nat := 0
  vddqGood   : Bool := false
  vddaGood   : Bool := false
  tarnGood   : Bool := true
  vppOk      : Bool := false
  vppHigh    : Bool := false
  pdReq      : Bool := false
  pdAck      : Bool := false
  sleep      : Bool := false
  alarmN     : Bool := false
  /-- QB_TAMPER_N is low: a pulse that has not ended (R377, R395). -/
  tamperLow  : Bool := false
  /-- QB_TRST_N is high: the TAP is out of reset (R377). -/
  tapUp      : Bool := false
  scuUp      : Bool := false
  everReady  : Bool := false
  /-- The boot flash (R284). -/
  flash      : Flash := {}
  /-- The image that runs. -/
  run        : Option Image := none
  scu        : ScuState := {}
  staged     : Bool := false
  stagedSvn  : Nat := 0
  scuResets  : Nat := 0
  scuEcc     : Nat := 0
  wdogFrom   : Nat := 0
  deriving DecidableEq, Repr

/-- An entry of the alarm log (R393). -/
structure LogEntry where
  time   : Nat
  kind   : Nat
  level  : Nat
  source : Nat
  pid    : Nat
  detail : Nat
  seq    : Nat
  deriving DecidableEq, Repr

/-- The always-on domain. -/
structure TarnState where
  now        : Nat := 0
  tstart     : Bool := true
  trimmed    : Bool := false
  refsrc     : Bool := false
  orderErr   : Bool := false
  /-- A supply began to rise too early, and not all three are good yet (R381). -/
  orderWait  : Bool := false
  pdOrderly  : Bool := false
  vppViol    : Nat := 0
  tripped    : BitVec 8 := 0
  /-- TC5 and TC7 arm when Tarn starts (R391). -/
  armed      : BitVec 8 := 0xA0
  tamperIn   : Bool := false
  /-- The last 64 entries, newest first. -/
  log        : List LogEntry := []
  logTotal   : Nat := 0
  logDropped : Nat := 0
  hiOper     : BitVec 32 := 0
  hiScu      : BitVec 32 := 0
  deriving DecidableEq, Repr

/-- One attempt of a two-attempt life-cycle group: PEND, CONF, ABN (R250, R267). -/
structure LcTry where
  pend : BitVec 16 := 0
  conf : BitVec 16 := 0
  abn  : BitVec 16 := 0
  deriving DecidableEq, Repr

/-- The fuse bank (R250) and what boot step 2 sensed of it (R276). -/
structure FuseState where
  rootA     : BitVec 256 := 0
  rootB     : BitVec 256 := 0
  rootC     : BitVec 256 := 0
  fsalt     : BitVec 256 := 0
  lcI       : List LcTry := [{}, {}]
  lcF       : List LcTry := [{}, {}]
  lcRPend   : BitVec 16 := 0
  lcRConf   : BitVec 16 := 0
  lcSPend   : BitVec 16 := 0
  lcSConf   : BitVec 16 := 0
  svn       : BitVec 128 := 0
  devId     : BitVec 128 := 0
  fwKh      : BitVec 384 := 0
  dbgKh     : BitVec 384 := 0
  idbgKh    : BitVec 384 := 0
  rootOk    : BitVec 16 := 0
  trim      : BitVec 4080 := 0
  trimCrc   : BitVec 16 := 0
  trimOk    : Bool := false
  lcs       : Lcs := .maker
  pending   : Bool := false
  ptarget   : Lcs := .maker
  completed : Bool := false
  abandoned : Bool := false
  rootKind  : RootKind := .absent
  rootDis   : Nat := 0
  sensed    : Bool := false
  /-- What registers show of the bank as step 2 sensed it: attempts used of LC_I and LC_F, ROOT_OK, DEV_ID (R276, R278). -/
  attI      : Nat := 0
  attF      : Nat := 0
  okSet     : Bool := false
  devShown  : BitVec 128 := 0
  /-- The model's own: number of the next programming operation (R251, log entry 2). -/
  burns     : Nat := 0
  /-- A PEND of LC_R or LC_S has been programmed: only the commands of SCRAPPED (R269). -/
  lockScrap : Bool := false
  deriving DecidableEq, Repr

/-- A KSA slot (R257, R258). -/
structure Slot where
  key    : Key := 0
  policy : BitVec 32 := 0
  check  : BitVec 32 := 0
  inc    : BitVec 11 := 0
  bad    : Bool := false
  deriving DecidableEq, Repr

/-- An outstanding debug challenge (R273). -/
structure Chal where
  value  : BitVec 128
  pid    : Nat
  scope  : Nat
  gen    : BitVec 11
  until_ : Nat
  deriving DecidableEq, Repr

/-- A debug authorisation in force (R272, R273). -/
structure Dbg where
  pid   : Nat
  scope : Nat
  gen   : BitVec 11
  until_ : Nat
  deriving DecidableEq, Repr

/-- KSA slots of a partition (R261): PARTROOT, K_MGL (0 where it has none), K_XTS1, K_XTS2, K_MAC. -/
structure PartSlots where
  root : Nat := 0
  mgl  : Nat := 0
  xts1 : Nat := 0
  xts2 : Nat := 0
  mac  : Nat := 0
  /-- The tenant slot of a confidential partition, held for its first Iron key. -/
  held : Nat := 0
  deriving DecidableEq, Repr

/-- KSA, entropy source, DRBG, debug. -/
structure KeyState where
  slots      : Tbl Slot := []
  /-- The per-boot key of the slot check (R259). -/
  chkKey     : Key := 0
  zeroised   : Bool := false
  /-- The slots that PART_CREATE reserved for each PID (R261). -/
  parts      : Tbl PartSlots := []
  badCnt     : Nat := 0
  entFailed  : Bool := false
  entHealthy : Bool := false
  drbgSeeded : Bool := false
  entConsec  : Nat := 0
  entFailCnt : Nat := 0
  drbgReseeds : Nat := 0
  drbgGen    : Nat := 0
  drbgSeedAt : Nat := 0
  /-- K and V of CTR_DRBG (R256). -/
  drbg       : DrbgKV := {}
  /-- What the repetition count test holds of the sample stream (R255). -/
  entRun     : RunTest := {}
  /-- Slots that failed verification and whose class's other effects are still to come (R259, R260). -/
  failing    : List Nat := []
  /-- The model's own: number of the next seeding of the DRBG (log entry 2). -/
  seeds      : Nat := 0
  /-- The model's own: number of the next DRBG draw (log entry 2). -/
  draws      : Nat := 0
  chal       : Option Chal := none
  dbg        : Option Dbg := none
  /-- Every scope active since reset (R300). -/
  dbgEver    : BitVec 8 := 0
  dbgDeny    : Nat := 0
  /-- Tarn millisecond of the last background check, plus one (R259). -/
  checkAt    : Nat := 0
  deriving DecidableEq, Repr

/-- A raised alarm, kept for the counts of R369. -/
structure AlarmHist where
  cls  : AlarmClass
  pid  : Nat
  port : Nat
  time : Nat
  deriving DecidableEq, Repr

/-- Alarms of the chip. -/
structure AlarmState where
  /-- Classes raised and not cleared, bit n for class code n + 1 (R375). -/
  seen    : BitVec 10 := 0
  quar    : Bool := false
  anyRaised : Bool := false
  maxLvl  : Nat := 0
  counts  : Tbl Nat := []
  hist    : List AlarmHist := []
  highCnt : Tbl Nat := []
  /-- The alarm-log FIFO from the block to Tarn, oldest first (R388, R394). -/
  fifo    : List LogEntry := []
  deriving DecidableEq, Repr

end Sys2Proof.Machine
end

