-- ==== Sys2Proof/Machine/StateFold.lean ====
section
/-! DEFINITION. State of the fold units (04). -/

namespace Sys2Proof.Machine

/-- A line pair of the accumulate SRAM (R97): two copies of 32 words, the parity bit of each word, and its bits of the
commit register: SEL names the committed copy, INIT records initialisation. -/
structure LinePair where
  copy0 : List (BitVec 32) := List.replicate 32 0
  copy1 : List (BitVec 32) := List.replicate 32 0
  par0  : List Bool := List.replicate 32 false
  par1  : List Bool := List.replicate 32 false
  sel   : Bool := false
  init  : Bool := false
  deriving DecidableEq, Repr

/-- A chunk in a slot (R110, R117): the contributors that have committed, and whether the preload has. -/
structure Chunk where
  have_     : BitVec 8 := 0
  preloaded : Bool := false
  /-- NELEM of its frames. -/
  nelem     : Nat := 0
  /-- First frame commit. -/
  firstAt   : Option Nat := none
  deriving DecidableEq, Repr

/-- A fold plan (R108) and its progress. -/
structure FoldPlan where
  state    : PlanState := .free
  unit     : Nat := 0
  pid      : Nat := 0
  pinst    : BitVec 16 := 0
  op       : Nat := 0
  inFmt    : Nat := 0
  outFmt   : Nat := 0
  outMem   : Bool := false
  preload  : Bool := false
  ncontrib : Nat := 0
  slots    : Nat := 0
  blkFirst : Nat := 0
  tmo      : Nat := 0
  nchunk   : Nat := 0
  a        : BitVec 32 := 0
  fence    : BitVec 32 := 0xFFFFFFFF
  preBase  : Nat := 0
  outBase  : Nat := 0
  nextContrib : Nat := 0
  nextNode : Nat := 0
  nextPtag : BitVec 16 := 0
  nextPlan : Nat := 0
  nextPinst : BitVec 16 := 0
  ce       : Nat := 0
  srcs     : List Nat := []
  reason   : FoldReason := .none
  nan      : Bool := false
  inf      : Bool := false
  sat      : Bool := false
  emitted  : Nat := 0
  /-- Lowest chunk not yet emitted, and chunks above it that have been. -/
  base     : Nat := 0
  past     : List Nat := []
  chunks   : Tbl Chunk := []
  lastAt   : Option Nat := none
  /-- Number of its arming; an output write of it was not accepted. -/
  num      : Nat := 0
  unwritten : Bool := false
  deriving DecidableEq, Repr

/-- A verified FOLD frame in an input stage. -/
structure FoldFrame where
  src   : Nat
  sptag : BitVec 16
  dptag : BitVec 16
  flits : Nat
  /-- PAYLOAD_LEN, and what the frame's region holds of the payload with its fold descriptor (R105). -/
  len   : Nat
  body  : Bytes
  /-- A byte beyond PAYLOAD_LEN is not zero (R107). -/
  padded : Bool := false
  deriving DecidableEq, Repr

/-- Counters of R122. -/
structure FoldCtr where
  frames   : Nat := 0
  chunks   : Nat := 0
  rollback : Nat := 0
  reject   : Nat := 0
  faults   : Nat := 0
  deriving DecidableEq, Repr

/-- A chunk emitted to memory whose writes have not all been decided (R111): unit, plan and arming it comes from, chunk,
owner and its generation, device offset of the first byte not yet written, and the bytes from there. -/
structure FoldOut where
  unit  : Nat
  plan  : Nat
  num   : Nat
  chunk : Nat
  pid   : Nat
  gen   : BitVec 11
  off   : Nat
  bytes : Bytes
  deriving DecidableEq, Repr

/-- The fold units: plans by number; blocks granted (unit * 64 + block to PID plus one) and being zeroed;
the input stage and the counters of each unit. -/
structure FoldState where
  plans   : Tbl FoldPlan := []
  /-- Accumulate SRAM: unit * 4096 + line pair. -/
  sram    : Tbl LinePair := []
  writing : List FoldOut := []
  /-- Plans armed. -/
  arms    : Nat := 0
  blocks  : Tbl Nat := []
  zeroing : List Nat := []
  input   : Tbl (List FoldFrame) := []
  ctr     : Tbl FoldCtr := []
  deriving DecidableEq, Repr

end Sys2Proof.Machine
end

