-- ==== Sys2Proof/Machine/StateMem.lean ====
section
/-! DEFINITION. State of the memory engines (05) and of the rinse (11). -/

namespace Sys2Proof.Machine

/-- A POT entry (R126). `rights` is TRD, TWR, DRD, DWR, RRD, RWR, HRD, HWR, GRD, GWR in bits 9 to 0. -/
structure Pot where
  pid    : Nat := 0
  mode   : PMode := .none
  state  : PState := .free
  clean  : Bool := false
  conf   : Bool := false
  t4c    : Bool := false
  rights : BitVec 10 := 0
  fslot  : Nat := 0
  used   : Bool := false
  sys    : Bool := false
  deriving DecidableEq, Repr

/-- A change of a POT entry in progress (R130): the new entry, and whether the page is in FILL. `todo` and `majors`: leaf
lines of the page that the fill has still to advance, and those that it has, by place, with their new MAJOR (R131).
`torn`: the page is given up by a teardown, which ends the change itself (R214). -/
structure Change where
  new     : Pot := {}
  filling : Bool := false
  todo    : List Nat := []
  majors  : Tbl Nat := []
  torn    : Bool := false
  deriving DecidableEq, Repr

/-- A verified remote request on its way through an ingress master (R182): the port and node it came
from, the tags and descriptor of its frame, and the flits of its pool it holds. -/
structure Ingress where
  /-- Number of the frame among those verified, and bytes already presented. -/
  num   : Nat := 0
  pos   : Nat := 0
  via   : Nat
  src   : Nat
  sptag : BitVec 16
  dptag : BitVec 16
  cls   : BitVec 4
  age   : Nat := 0
  at_   : Nat := 0
  desc  : Desc := {}
  data  : Bytes := []
  /-- PAYLOAD_LEN; of a FOLD frame, whether a byte beyond it is not zero (R107). -/
  len   : Nat := 0
  padded : Bool := false
  /-- RETRY and POISON of the frame (R53). -/
  retry : Bool := false
  poison : Bool := false
  flits : Nat := 1
  /-- Counted as waiting behind a hot sector (R182). -/
  hot   : Bool := false
  deriving DecidableEq, Repr

/-- Who waits for a granted request: a master; a master by a local access of the remote request unit whose answer ends the
acquire of a tag (R164, R176); a remote request; or a DMA engine of the block's own. -/
inductive Waiter where
  | master
  | near (tag : BitVec 40)
  | own
  | remote (g : Ingress)
  deriving DecidableEq, Repr

/-- A request waiting in the miss queue (R128). -/
structure Parked where
  req  : MxReq
  who  : Waiter := .master
  deriving DecidableEq, Repr

/-- A granted request with sectors outstanding. `bad`: its sectors that poison (R145). -/
structure OpenReq where
  rid    : Nat
  req    : MxReq
  who    : Waiter := .master
  /-- Generation of the PID at the grant (R132). -/
  gen    : BitVec 11
  /-- Sectors not yet complete. -/
  left   : Nat
  /-- Plaintext of the sectors read, in order. -/
  got    : List (Nat × Sector) := []
  bad    : List Nat := []
  deriving DecidableEq, Repr

/-- One sector of a granted request. `full`: written without a read; `issued`: its read has been given
to the controller; `ct`: what the read returned. -/
structure SecOp where
  rid    : Nat
  sector : Nat
  full   : Bool
  issued : Bool := false
  ct     : Option Sector := none
  deriving DecidableEq, Repr

/-- A line of the cairn cache (R135): a tag sector or a Fresh counter line by its place, its 128 bytes, and whether they
differ from the cairn's. `have_`: tags of a tag sector that are known; `leaving`: given up by the cache, but not yet
written; `by_`: the client on whose behalf it was last used (R154). -/
structure CLine where
  pl      : Nat
  d       : Sector
  dirty   : Bool := false
  have_   : BitVec 16 := 0xFFFF
  leaving : Bool := false
  by_     : Nat := 0
  deriving DecidableEq, Repr

/-- A cairn sector asked of the controller for the cache, on behalf of a client; a counter line that has come and
waits for its parent (R147). -/
structure Want where
  pl     : Nat
  client : Nat
  rt     : Bool := false
  img    : Option Sector := none
  deriving DecidableEq, Repr

/-- An overflow whose re-tag has not ended (R148): the line, its state before, the entry whose increment overflowed it,
for a leaf line the first sector of its granule, the places to read, and what has been read. -/
structure Ovf where
  line   : Nat
  old    : Sector
  entry  : Nat
  base   : Nat := 0
  client : Nat
  todo   : List Nat
  got    : List (Nat × Sector) := []
  deriving DecidableEq, Repr

/-- A POT table walk under way (R129): the page, and VERSION and tag as read from the pinned lines at its start. `held`: it
waits for the re-tag of a line over its POT sector, and has read nothing (R148). -/
structure Walk where
  page    : Nat
  version : Nat
  tag     : BitVec 64
  client  : Nat
  again   : Bool := false
  held    : Bool := false
  deriving DecidableEq, Repr

/-- A sector that waits in the controller at OVER (R155). -/
structure Late where
  pl    : Nat
  write : Bool
  since : Nat
  deriving DecidableEq, Repr

/-- Counters of R160. -/
structure MxCtr where
  potMiss : Nat := 0
  deny    : Nat := 0
  stale   : Nat := 0
  darnFix : Nat := 0
  poison  : Nat := 0
  rmw     : Nat := 0
  ovf     : Nat := 0
  promote : Nat := 0
  deriving DecidableEq, Repr

/-- A memory engine. Clients 0 to 31 are PIDs, 32 the rinse channel (R154). -/
structure Mx where
  /-- Entries of the POT cache slice, by page. -/
  cache   : List (Nat × Pot) := []
  walks   : List Walk := []
  missq   : List Parked := []
  reqs    : List OpenReq := []
  ops     : List SecOp := []
  /-- Darn records: sector to READS plus one (R144). -/
  darn    : Tbl Nat := []
  budget  : Tbl Nat := [(32, 588)]
  latency : BitVec 32 := 0
  nextBudget  : Tbl Nat := [(32, 588)]
  nextLatency : BitVec 32 := 0
  tokens  : Tbl Nat := []
  /-- Tarn microsecond of the last window start, plus one (R154). -/
  window  : Nat := 0
  alarm   : Bool := false
  ovfs    : List Ovf := []
  /-- The cairn cache (R135): lines that serve traffic, and the pinned lines of the POT pages (R129) by place; a pinned
  line not listed is all zero. -/
  cairn   : List CLine := []
  pinned  : Tbl Sector := []
  wants   : List Want := []
  /-- Places read once more after a link error (R152), and sectors waiting at OVER (R155). -/
  again   : List Nat := []
  late    : List Late := []
  ctr     : MxCtr := {}
  deriving DecidableEq, Repr

/-- State of a rinse ticket (R239 RINSE_STATUS). -/
inductive TicketState where
  | queued | running | done | stopped
  deriving DecidableEq, Repr

/-- A rinse ticket (R323). -/
structure RinseTkt where
  id     : Nat
  first  : Nat
  count  : Nat
  turns  : Nat := 0
  rinsed : Nat := 0
  state  : TicketState := .queued
  deriving DecidableEq, Repr

/-- The memory keys of a partition as the engines hold them loaded (R136). -/
structure MemKeys where
  mgl  : BitVec 128 := 0
  xts1 : Key := 0
  xts2 : Key := 0
  mac  : Key := 0
  deriving DecidableEq, Repr

/-- Memory. A place is package * 2^29 + package-local address / 128 (R134); roots are keyed package * 256 + level-2 line
(R147). -/
structure MemState where
  pot       : Tbl Pot := []
  potBase   : Nat := 0
  potSet    : Bool := false
  descBase  : Nat := 0
  descSet   : Bool := false
  potLive   : Bool := false
  initRun   : Bool := false
  changes   : Tbl Change := []
  /-- POT sectors that failed darn on a walk (R129). -/
  potBad    : List Nat := []
  mx        : Tbl Mx := []
  roots     : Tbl Nat := []
  /-- Granules poisoned by a failed counter line: page * 256 + granule (R149). -/
  badGran   : List Nat := []
  /-- Key registers of the engines by PID; those of PID 0 are the system keys (R136, R282). -/
  keys      : Tbl MemKeys := []
  /-- K_TREE and IKEY as the engines and the address decoders loaded them at boot step 5 (R263). -/
  tree      : Key := 0
  ikey      : BitVec 128 := 0
  /-- PIDs whose poison alarm is not raised again before their generation advances (R145). -/
  muted     : List Nat := []
  tickets   : List RinseTkt := []
  nextTkt   : Nat := 0
  /-- Keys of the running rinse ticket (R323). -/
  rinseKey  : Option (Key × Key) := none
  /-- Ends of tickets whose RINSE_DONE waits for the SCU's restart (R333). -/
  doneDue   : List (RinseTkt × Status) := []
  nextRid   : Nat := 0
  deriving DecidableEq, Repr

end Sys2Proof.Machine
end

