-- ==== Sys2Proof/Machine/StateRidge.lean ====
section
/-! DEFINITION. State of the ridge link engines (03) and of the remote request unit (06). -/

namespace Sys2Proof.Machine

/-- A session key register: epoch, key index, key (R59). -/
structure SKey where
  epoch : BitVec 30
  idx   : Nat
  key   : Key
  deriving DecidableEq, Repr

/-- A replay window (R72). -/
structure Win where
  epoch : BitVec 30
  valid : Bool := false
  top   : Nat := 0
  seen  : BitVec 1024 := 0
  deriving DecidableEq, Repr

/-- An entry of the atomic replay cache (R86); `result` is `none` while the atomic is under way in a memory engine. -/
structure Replay where
  src    : Nat
  sptag  : BitVec 16
  id     : BitVec 40
  result : Option (BitVec 64)
  at_    : Nat
  deriving DecidableEq, Repr

/-- Counters of R94. -/
structure LinkCtr where
  tagfail : Nat := 0
  replay  : Nat := 0
  aged    : Nat := 0
  stale   : Nat := 0
  rekeys  : Nat := 0
  noroute : Nat := 0
  deriving DecidableEq, Repr

/-- A frame that waits to leave: the client of R82 (PID, or 32 for transit, 33 for control) and its
inner header with payload. `track` is the ID40 of a tracked request plus one, or 0; `via` is the ADMIT port that a
RANGE frame of a join leaves by, 36 for any port. -/
structure OutFrame where
  client : Nat
  inner  : Inner
  via    : Nat := 36
  flits  : Nat := 1
  track  : Nat := 0
  deriving DecidableEq, Repr

/-- A verified frame that the router holds for transit (R411), with the port it came by. -/
structure Transit where
  via   : Nat
  inner : Inner
  flits : Nat
  deriving DecidableEq, Repr

/-- A transit frame in an egress queue: its residence up to the hand-over in LCLK, and the port's count of LCLK at
the hand-over (R76, R411). -/
structure Handed where
  t   : Transit
  res : Nat
  at_ : Nat
  deriving DecidableEq, Repr

/-- A slot of the release buffer (R71). -/
inductive RelSlot where
  | free | filling | verified | draining
  deriving DecidableEq, Repr

/-- The release buffer with no frame in it: 16 slots (R49). -/
def freeRel : List RelSlot := List.replicate 16 .free

/-- Flit counts of the four credit pools: REQ, RSP, BULK, FOLD (R81). -/
structure Pools where
  req  : Nat := 0
  rsp  : Nat := 0
  bulk : Nat := 0
  fold : Nat := 0
  deriving DecidableEq, Repr

/-- A ridge engine and its port. -/
structure Link where
  state     : PortState := .off
  /-- qb_lnk_up (R378). No command lowers it and no rule gives it an effect: it is taken as high (DESIGN CHOICE, log entry
  136). -/
  phyUp     : Bool := true
  peerNode  : Nat := 0
  peerPort  : Nat := 0
  cableDly  : Nat := 0
  transit   : Nat := 0
  screeFM1  : Nat := 0
  screeCad  : Nat := 0
  txCur     : Option SKey := none
  txNext    : Option SKey := none
  rxCur     : Option SKey := none
  rxOther   : Option SKey := none
  /-- The other RX key is the previous one; frames verified and time since the switch (R68). -/
  rxPrev     : Bool := false
  prevFrames : Nat := 0
  prevSince  : Nat := 0
  /-- The change to the new epoch takes the next frame start (R69). -/
  epochFlip : Bool := false
  txFrames  : Nat := 0
  txFirst   : Option Nat := none
  txSeq     : BitVec 64 := 0
  lastSeq   : BitVec 64 := 0
  /-- Range epoch of the last session and the SEQ that its next frame would have had: a later session under that
  epoch goes on from it (R61). -/
  kept      : Option (BitVec 30 × BitVec 64) := none
  flipDue   : Bool := false
  lastFlip  : Option Nat := none
  wins      : List Win := []
  /-- A go-back retry is awaited; EPOCH and SEQ of the failed frame (R74). -/
  retrying  : Option (BitVec 30 × BitVec 64) := none
  peerLost  : Bool := false
  tagAlarm  : Bool := false
  lastTx    : Nat := 0
  lastRx    : Nat := 0
  /-- Start of PROBING or of the close's drain. -/
  since     : Nat := 0
  closing   : Bool := false
  /-- Link shares of the PIDs (R82). -/
  shares    : Tbl Nat := []
  /-- Buckets in 1/64 flit; clients 0 to 31 and 32 for transit (R82). -/
  buckets   : Tbl Nat := []
  /-- Control bucket in 1/128 flit. -/
  ctlBucket : Nat := 0
  /-- The client served last, and the pool each client was last served from. -/
  rrClient  : Nat := 0
  lastPool  : Tbl Nat := []
  credits   : Pools := {}
  /-- Credits to return to the peer. -/
  owed      : Pools := {}
  ctlq      : List OutFrame := []
  /-- Input capacity granted to the peer when the session opened (R81). -/
  grant     : Pools := {}
  /-- Transit frames that the router has handed over, and LCLK counted by the frame starts of the session. -/
  transitq  : List Handed := []
  lclk      : Nat := 0
  slots     : List RelSlot := freeRel
  replay    : List Replay := []
  ctr       : LinkCtr := {}
  deriving DecidableEq, Repr

/-- A held seam: the request and when it arrived (R84, R85). -/
structure Held where
  req : Ingress
  at_ : Nat
  deriving DecidableEq, Repr

/-- An entry of the stream table (R83). -/
structure Stream where
  used   : Bool := false
  inc    : BitVec 3 := 0
  src    : Nat := 0
  sptag  : BitVec 16 := 0
  dptag  : BitVec 16 := 0
  landed : Nat × Nat := (0, 0)
  fault  : Bool × Bool := (false, false)
  hold   : Option Held × Option Held := (none, none)
  idleAt : Nat := 0
  deriving DecidableEq, Repr

/-- A remote request presented to the memory engines in pieces that stay in a 256-byte block: pieces answered at
the grant, pieces over, whether one was denied or poisoned, and the data read. -/
structure Gather where
  accepted : Nat := 0
  ended    : Nat := 0
  bad      : Bool := false
  poison   : Bool := false
  got      : List (Nat × Bytes) := []
  deriving DecidableEq, Repr

/-- The ridge engines and what they share. -/
structure RidgeState where
  links   : Tbl Link := []
  streams : Tbl Stream := []
  /-- Verified transit frames in the router. -/
  router  : List Transit := []
  /-- Frames of this chip waiting for an egress engine. -/
  outq    : List OutFrame := []
  /-- Verified remote requests waiting in the ingress masters (R182). -/
  ingress : List Ingress := []
  ingressNum : Nat := 0
  /-- Requests of which a piece has been answered, by frame number. -/
  parts   : Tbl Gather := []
  /-- The ingress master that each engine served last, and the port that each master served last (R182). -/
  rrMaster : Tbl Nat := []
  rrPort   : Tbl Nat := []
  /-- SEQ sampled by a read of QB_LINK_TXSEQ_LO (R407). -/
  txSample : Tbl (BitVec 32) := []
  deriving DecidableEq, Repr

/-! ## Remote requests of this chip (06) -/

/-- A load, a bulk read or a remote fence signal in the load tracker (R173, R189): when it was sealed, and
the bulk data received so far. -/
structure LoadEnt where
  req    : RReq
  node   : Nat
  tag    : BitVec 40
  sealed : Option Nat := none
  got    : Bytes := []
  deriving DecidableEq, Repr

/-- A bulk-write frame awaiting its completion (R172); `xfer` is the tag of the first frame of its transfer. `lost`: its
context is lost, and the entry stays for the releases of others that noted it (R175, R208). -/
structure BulkEnt where
  req    : RReq
  node   : Nat
  tag    : BitVec 40
  xfer   : BitVec 40
  sealed : Option Nat := none
  lost   : Bool := false
  deriving DecidableEq, Repr

/-- An atomic in the tracker (R87): the DST_PTAG that it was formed with, which its retry keeps (R201, R220). -/
structure AtomEnt where
  req    : RReq
  node   : Nat
  id     : BitVec 40
  dptag  : BitVec 16 := 0
  sealed : Option Nat := none
  retried : Bool := false
  deriving DecidableEq, Repr

/-- A segment of a source stream (R170): STOREs sent; once closed, the SEAM that closed it, when that was
sealed, and whether its context has been lost (R208). -/
structure Seg where
  count  : Nat := 0
  seam   : Option RReq := none
  seamAt : Option Nat := none
  lost   : Bool := false
  deriving DecidableEq, Repr

/-- An outbound stream of the write tracker (R170), keyed by source partition and target node. `asked`: one of the 4096
that the chip holds; others wait for one to close. `closed`: closed with a SEAM outstanding, whose answer is awaited (R171). -/
structure SrcStream where
  pid     : Nat
  node    : Nat
  asked   : Bool := false
  closed  : Bool := false
  granted : Bool := false
  id      : BitVec 12 := 0
  inc     : BitVec 3 := 0
  sptag   : BitVec 16 := 0
  dptag   : BitVec 16 := 0
  seg     : Bool := false
  segs    : Seg × Seg := ({}, {})
  /-- The stream has to be asked for again from this time (R83: the grant carried BUSY). -/
  retryAt : Option Nat := none
  /-- Stores and seams waiting for the grant. -/
  waiting : List RReq := []
  lastUse : Nat := 0
  deriving DecidableEq, Repr

/-- A release or scoped atomic in progress (R175, R177), numbered like its SEAM: the SEAMs and releases, by
number, and the bulk transfers, by tag, that it waits for. -/
structure Release where
  num   : Nat
  req   : RReq
  waits : List Nat := []
  bulks : List (BitVec 40) := []
  /-- The ID of a scoped atomic; the tag of the acquire of one on this chip itself. -/
  atom  : Option (BitVec 40) := none
  near  : Option (BitVec 40) := none
  deriving DecidableEq, Repr

/-- A master port held by an acquire in progress (R176): its scope, and the load or atomic that ends it, after `left`
answers. -/
structure Acq where
  mport  : BitVec 8
  scope  : Nat
  tag    : BitVec 40
  atomic : Bool
  ctx    : BitVec 32
  left   : Nat := 1
  deriving DecidableEq, Repr

/-- The home chip as owner in the ownership table. -/
def homeOwner : Nat := 16385

/-- Counters of R192. -/
structure RmtCtr where
  loadTmo  : Nat := 0
  seamFail : Nat := 0
  releases : Nat := 0
  ownRefuse : Nat := 0
  hotWait  : Nat := 0
  perr     : Nat := 0
  deriving DecidableEq, Repr

/-- The remote request unit, and T4C ownership. -/
structure RmtState where
  loads    : List LoadEnt := []
  bulk     : List BulkEnt := []
  atomics  : List AtomEnt := []
  streams  : List SrcStream := []
  releases : List Release := []
  acquires : List Acq := []
  /-- Requests that an acquire, a kill or a full tracker holds, in order (R87, R173, R176, R210). -/
  held     : List RReq := []
  /-- Requests of which a value was free. -/
  frees    : Nat := 0
  nextTag  : BitVec 40 := 0
  nextId   : BitVec 40 := 0
  /-- Number of the next SEAM. -/
  nextSeam : Nat := 1
  /-- Ownership table (R187): page to owner node plus one, 16,385 for this chip; 0 is not in the table. -/
  own      : Tbl Nat := []
  /-- T4C pages of other chips that this chip owns: node * 2^20 + page (R188). -/
  owned    : List Nat := []
  /-- T4C pages of other chips that this chip has been told it owns no longer. -/
  disowned : List Nat := []
  ctr      : RmtCtr := {}
  deriving DecidableEq, Repr

end Sys2Proof.Machine
end

