-- ==== Sys2Proof/Machine/StateOut.lean ====
section
/-! DEFINITION. What leaves the block's ports, as the trace State.out keeps it (log entry 1). -/

namespace Sys2Proof.Machine

/-- A reply (R229) as its fields; `result` is bytes 8 to 31. -/
structure Reply where
  status : Status
  phase  : Bool
  ronce  : Bool := false
  opcode : BitVec 8
  form   : BitVec 8
  seq    : BitVec 16
  ptag   : BitVec 16
  result : BitVec 192 := 0
  deriving DecidableEq, Repr

/-- How the block reaches a ring area (R224): device memory through master port 0xE1 under a PID and its generation, or
the host, under the selective stream of a confidential tenant's TDI with the T bit set. -/
inductive RingPath where
  | device (pid : Nat) (gen : BitVec 11)
  | host (stream : Option Nat)
  deriving DecidableEq, Repr

/-- One thing that left the block. -/
inductive Out where
  /-- A command entry fetched, and a reply entry written: ring, entry. -/
  | fetch (ring idx : Nat) (by_ : RingPath)
  | reply (ring idx : Nat) (by_ : RingPath) (r : Reply)
  /-- An event entry written: function, entry. -/
  | event (fn idx : Nat) (by_ : RingPath) (e : BitVec 128)
  /-- An MSI-X vector raised, and the selective stream that its message goes on. -/
  | msix (fn vector : Nat) (stream : Option Nat)
  /-- A TLP on a selective IDE stream: sub-stream, encrypted bytes, MAC (R203). -/
  | ide (stream : Nat) (sub : Fin 3) (b : Bytes) (mac : BitVec 96)
  /-- An answer on qb_mx_gnt, and a response on qb_mx_rsp. -/
  | gnt (e : Nat) (tag : BitVec 10) (mport : BitVec 8) (g : Gnt)
  /-- A response: `bad` are the request's sectors returned with POISON, `data` what the others read. -/
  | rsp (e : Nat) (tag : BitVec 10) (mport : BitVec 8) (bad : List Nat) (data : Bytes)
  /-- A sector read asked of a memory controller, a sector written, a waiting sector promoted to IN_S: package,
  package-local address / 128 (R134). -/
  | mcRead (pkg sec : Nat) (pri : Pri)
  | mcWrite (pkg sec : Nat) (d : Sector) (pri : Pri)
  | mcPromote (pkg sec : Nat)
  /-- Every counter line of every package written: MAJOR 0, MINOR 0, LMAC (R282). -/
  | treeInit
  /-- An assignment register written (R123). -/
  | assign (mport pid : Nat) (gen : BitVec 11)
  /-- The tile scheduler is asked to stop a context's command; answers to a commit request. -/
  | schedStop (ctx : Nat)
  | schedCommit (ctx : Nat)
  /-- A waiter released with a status (R216). -/
  | schedWake (ctx : Nat) (status : BitVec 8)
  /-- A tile's reset asked of the T5. -/
  | tileReset (t : Nat)
  /-- Bytes written by the block to device or host memory for a PID. -/
  | memWrite (pid off : Nat) (b : Bytes)
  /-- A sealed frame handed to the link layer; a go-back retry asked of it (qb_lnk_retry_req). -/
  | frame (p : Nat) (f : Wire)
  | retry (p : Nat) (seq : BitVec 64)
  /-- This end's message of the admission exchange on a port (R64). -/
  | admission (p : Nat) (b : Bytes)
  /-- The remote request unit's answer to a master: access denied, data, bus error, done, and the
  report of ATOMIC_UNKNOWN. -/
  | rmtDeny (mport : BitVec 8) (ctx : BitVec 32)
  | rmtData (mport : BitVec 8) (ctx : BitVec 32) (b : Bytes)
  | rmtError (mport : BitVec 8) (ctx : BitVec 32)
  | rmtDone (mport : BitVec 8) (ctx : BitVec 32)
  | rmtUnknown (mport : BitVec 8) (ctx : BitVec 32)
  | rmtLocal (mport : BitVec 8) (ctx : BitVec 32) (off : BitVec 41)
  /-- A failed seam reported to its target partition: PID, source node, stream (R85). -/
  | seamReport (pid node stream : Nat)
  /-- A host TLP passed with the PID stamped, or completed as an Unsupported Request, or discarded. -/
  | tlp (fn pid : Nat)
  | tlpUr (fn : Nat)
  | tlpDrop (fn : Nat)
  /-- The reset of a virtual function is reported complete (R212). -/
  | resetDone (fn : Nat)
  /-- A register read's value. -/
  | regRead (off : Nat) (v : Bytes)
  /-- A response of the SPDM responder: mailbox number, response code, content (R302). -/
  | spdm (mb : Nat) (code : BitVec 8) (b : Bytes)
  /-- A response of the TDISP or IDE_KM responder on the physical function: response code, content; code
  0x7F is an error (R203, R204). -/
  | doe (fn : Nat) (code : BitVec 8) (b : Bytes)
  /-- Bits on QB_TDO, the first first (R377); bytes written over the boot-flash port at a flash offset (R284). -/
  | tdo (d : List Bool)
  | flashWrite (off : Nat) (b : Bytes)
  /-- The DOE mailbox of a function reports busy (R308). -/
  | doeBusy (fn : Nat)
  /-- The zeroise line pulsed to the T5 units outside the block; a chip reset asked of the board. -/
  | zeroiseLine
  | chipResetReq
  deriving DecidableEq, Repr

end Sys2Proof.Machine
end

