-- ==== Sys2Proof/Machine/StatePart.lean ====
section
/-! DEFINITION. State of partitions, contexts, fences, generations, TDIs and IDE streams (02, 07). -/

namespace Sys2Proof.Machine

/-- A partition descriptor (R194). PTAG is the PID with its current generation; PAGES, CONTEXTS and
FENCES are counts over the other tables. -/
structure Part where
  state     : PartState := .free
  ctag      : BitVec 16 := 0
  strict    : Bool := false
  conf      : Bool := false
  jobSet    : Bool := false
  mepoch    : BitVec 32 := 0
  job       : BitVec 64 := 0
  tiles     : BitVec 288 := 0
  kills     : Nat := 0
  lost      : Nat := 0
  /-- Tile-clear record (R326): HANDED, RELEASED, LAST_SCRUB, SCRUB_DIGEST. -/
  handed    : Nat := 0
  released  : Nat := 0
  lastScrub : Nat := 0
  digest    : BitVec 128 := 0
  /-- Fresh slots reserved (R146). -/
  freshRes  : Nat := 0
  /-- SAVESEQ of the next IRON_SAVE (R347). -/
  saveSeq   : BitVec 64 := 0
  deriving DecidableEq, Repr

/-- The TDISP interface of a virtual function (R204). -/
structure TdiSt where
  state      : Tdi := .unlocked
  stream     : Option Nat := none
  nonce      : Key := 0
  lockMsix   : Bool := false
  noFwUpdate : Bool := false
  deriving DecidableEq, Repr

/-- An IDE stream (R203): slots of the keys programmed, the keys in use (K_SET_GO), and the base and limit of its address
association register. -/
structure IdeSt where
  keys  : List (IdeKey × Nat) := []
  go    : List IdeKey := []
  assoc : Option (BitVec 64 × BitVec 64) := none
  deriving DecidableEq, Repr

/-- A peer entry (R198). -/
structure Peer where
  ptag   : BitVec 16 := 0
  valid  : Bool := false
  silent : Bool := false
  bound  : Bool := false
  deriving DecidableEq, Repr

/-- A context descriptor (R205, R206) and the command it runs (R210). The spec gives no event by which a queue sets WAIT_FENCE
and WAIT_VALUE or advances TAIL: nothing in the model sets them, and a wake or a loss clears the wait (DESIGN CHOICE, log
entry 134). -/
structure Ctx where
  state     : CtxState := .free
  inc       : BitVec 11 := 0
  pid       : Nat := 0
  ptag      : BitVec 16 := 0
  slot      : Nat := 0
  owner     : BitVec 16 := 0
  qbase     : BitVec 41 := 0
  qlog2     : Nat := 0
  head      : BitVec 32 := 0
  tail      : BitVec 32 := 0
  waitFence : BitVec 32 := 0xFFFFFFFF
  waitValue : BitVec 64 := 0
  fault     : CtxFault := .none
  faultAddr : BitVec 48 := 0
  faultNode : BitVec 14 := 0
  phase     : Phase := .none
  /-- Queue entry of the running command. -/
  entry     : BitVec 32 := 0
  /-- The tile scheduler has been asked to stop the context's command and has not acknowledged. -/
  stopping  : Bool := false
  /-- A commit request is held by a kill (R210). -/
  held      : Bool := false
  deriving DecidableEq, Repr

/-- A fence descriptor (R215). -/
structure Fence where
  state  : FenceState := .free
  inc    : BitVec 11 := 0
  pid    : Nat := 0
  value  : BitVec 64 := 0
  cookie : BitVec 32 := 0
  vector : BitVec 11 := 0
  owner  : BitVec 16 := 0
  ptag   : BitVec 16 := 0
  irq    : Bool := false
  strict : Bool := false
  err    : BitVec 8 := 0
  ooo    : Nat := 0
  deriving DecidableEq, Repr

/-- Why an advance of a generation is pending (R41). -/
inductive GenWhy where
  | kill | reset | teardown
  deriving DecidableEq, Repr

/-- Stage of a kill (R211): waiting for commits, for the scheduler's stops, for the advance. -/
inductive KillStage where
  | commits | stops | advance
  deriving DecidableEq, Repr

/-- A kill in progress. -/
structure Kill where
  stage   : KillStage
  /-- The context the kill names. -/
  ctx     : Nat
  /-- Contexts whose commands were in RUN. -/
  stopped : List Nat := []
  deriving DecidableEq, Repr

/-- A signal entry of a context's queue that a kill holds (R210). -/
structure HeldSignal where
  ctx    : BitVec 32
  fence  : BitVec 32
  value  : BitVec 64
  status : BitVec 8
  deriving DecidableEq, Repr

/-- A teardown in progress (R214): which steps have happened. -/
structure Tear where
  advanced : Bool := false
  /-- Steps 3 and 4 are done: slots, ring, TDI, fold, streams, shares, keys. -/
  cleared  : Bool := false
  deriving DecidableEq, Repr

/-- An assignment register (R123). -/
structure Asg where
  pid : Nat := 0
  gen : BitVec 11 := 0
  deriving DecidableEq, Repr

/-- Counters of R222. -/
structure PartCtr where
  ctxLost      : Nat := 0
  ctxKills     : Nat := 0
  genAdvance   : Nat := 0
  fenceSignals : Nat := 0
  fenceOoo     : Nat := 0
  fenceStale   : Nat := 0
  peerRefuse   : Nat := 0
  deriving DecidableEq, Repr

/-- Partitions and everything that hangs from them. Peer entries are keyed PID * 16384 + node. -/
structure PartsState where
  parts    : Tbl Part := []
  gens     : Tbl (BitVec 11) := []
  /-- Tarn microsecond of a PID's last advance, plus one. -/
  genAt    : Tbl Nat := []
  /-- Advances waiting for their Tarn microsecond. -/
  genWait  : List (Nat × GenWhy) := []
  mepochNext : BitVec 32 := 1
  peers    : Tbl Peer := []
  ctxs     : Tbl Ctx := []
  fences   : Tbl Fence := []
  kills    : List (Nat × Kill) := []
  tears    : List (Nat × Tear) := []
  /-- Signal entries that a kill holds (R210). -/
  heldSigs : List HeldSignal := []
  /-- Virtual functions whose STOP_INTERFACE_REQUEST is answered once their reset is complete (R212). -/
  stopDue  : List Nat := []
  /-- DMA engine to context index plus one. -/
  dma      : Tbl Nat := []
  asg      : Tbl Asg := []
  tdi      : Tbl TdiSt := []
  ide      : Tbl IdeSt := []
  /-- Scrub-complete of each tile, and its SCRUBSEQ (R326). -/
  scrubbed : BitVec 288 := 0
  scrubSeq : Tbl Nat := []
  scrubAt  : Tbl Nat := []
  /-- Tiles whose reset the block has asked for. -/
  tileReset : BitVec 288 := 0
  ctr      : PartCtr := {}
  deriving DecidableEq, Repr

end Sys2Proof.Machine
end

