-- ==== Sys2Proof/Machine/StateRange.lean ====
section
/-! DEFINITION. State of range membership and of the range protocol (02, 13). -/

namespace Sys2Proof.Machine

/-- A member of the range: the manifest entry of R307 and the time of its last accepted evidence (R366). -/
structure Member where
  node     : Nat
  lcs      : BitVec 8 := 0
  svn      : BitVec 8 := 0
  fuseSvn  : BitVec 8 := 0
  devId    : BitVec 128 := 0
  m        : BitVec 384 := 0
  /-- Epoch of admission. -/
  admitted : BitVec 32 := 0
  evidAt   : Nat := 0
  /-- Age in µs that the evidence had when `evidAt` was written: 0 but for an entry taken from a shadow. -/
  evidPre  : Nat := 0
  /-- Certificate chains of the admission, under which later evidence is verified. -/
  chains   : Bytes := []
  deriving DecidableEq, Repr

/-- A range message (R355) as this chip sends it; `data` is the content of a fragmented one. -/
structure Msg where
  dst    : Nat
  via    : Nat := 36
  opcode : BitVec 8 := 3
  form   : BitVec 8
  seq    : BitVec 16 := 0
  ptag   : BitVec 16 := 0
  params : BitVec 384 := 0
  data   : Bytes := []
  deriving DecidableEq, Repr

/-- What an outstanding request is for. -/
inductive Purpose where
  | bind (pid node : Nat)
  | join
  | leave
  | refresh (node : Nat)
  | shadow (num part : Nat)
  | setkey (pid : Nat)
  deriving DecidableEq, Repr

/-- A request that expects an answer (R355). -/
structure Sent where
  msg   : Msg
  why   : Purpose
  sends : Nat := 1
  at_   : Nat
  deriving DecidableEq, Repr

/-- One of the last 64 messages of a source node, and the answer it was given (R355). -/
structure Seen where
  src     : Nat
  via     : Nat
  seq     : BitVec 16
  answers : List Msg := []
  deriving DecidableEq, Repr

/-- A fragmented message being reassembled (R356). -/
structure Reasm where
  src   : Nat
  via   : Nat
  num   : BitVec 16
  count : Nat
  at_   : Nat
  frags : List (Nat × Bytes) := []
  deriving DecidableEq, Repr

/-- A PROBE awaiting its PROBE_ACK (R362, R367). -/
structure Probing where
  node  : Nat
  token : BitVec 64
  at_   : Nat
  /-- LOSS reports that its answer settles (R376). -/
  losses : Nat := 0
  deriving DecidableEq, Repr

/-- A join on the joiner's side (R358). -/
structure Joining where
  port     : Nat
  nodeId   : Nat
  shoulder : Bool
  at_      : Nat
  deriving DecidableEq, Repr

/-- A join as the Summit follows it: where it came from, what it asks, the nonce given, and, once admitted, its certificate
chains and the number of the shadow whose SHADOW_ACKs its JOIN_ADMIT waits for (R359). -/
structure Joiner where
  src      : Nat
  via      : Nat
  nodeId   : Nat
  shoulder : Bool
  nonce    : Key
  /-- Message number of its JOIN_EVID. -/
  evidSeq  : BitVec 16 := 0
  adm    : Option (Bytes × Nat) := none
  deriving DecidableEq, Repr

/-- A joiner that this member relays for (R358): its ADMIT port, the slot of the admission key, and the node ID that its
JOIN_REQ asks for. -/
structure Relay where
  port : Nat
  slot : Nat
  node : Nat := 0xFFFF
  deriving DecidableEq, Repr

/-- A joiner's request on its way to the Summit: ADMIT port, message form, node ID asked for, and when it was relayed. -/
structure RelayAsk where
  port : Nat
  form : BitVec 8
  node : Nat
  at_  : Nat
  deriving DecidableEq, Repr

/-- A request that waits for SWITCH (R374): a PEER bind, or a SETKEY_REQ. -/
structure LaterMsg where
  bind : Bool
  msg  : RMsg
  deriving DecidableEq, Repr

/-- An advance that the Summit runs (R365). The key it has drawn waits in a slot of the KSA until it is installed
(R23). -/
structure Advance where
  epoch   : BitVec 30
  keep    : List Nat
  removed : List Nat
  /-- Nodes that have answered PREPARE, and those that answered OK. -/
  answered : List Nat := []
  acked   : List Nat := []
  /-- The PREPAREs sent, which a resend repeats. -/
  msgs    : List Msg := []
  /-- Resends of PREPARE so far, and when the last PREPARE was sent. -/
  round   : Nat := 0
  at_     : Nat
  /-- Slot of the key drawn: 3, or a pool slot where slot 3 is BAD (R259). -/
  slot    : Nat := 3
  deriving DecidableEq, Repr

/-- A member's view of an advance: the epoch prepared, and when PREP_ACK was sent (R364). -/
structure Prepared where
  epoch : BitVec 30
  at_   : Nat
  deriving DecidableEq, Repr

/-- A shadow in the Shoulder's hands, not complete (R366). -/
structure ShadowIn where
  num   : Nat
  count : Nat
  /-- Part index, content, when it came. -/
  parts : List (Nat × Bytes × Nat) := []
  deriving DecidableEq, Repr

/-- An offer outstanding (R371). -/
structure Offer where
  seed : BitVec 384
  kem  : BitVec 512
  hash : BitVec 384
  bytes : Bytes
  at_  : Nat
  deriving DecidableEq, Repr

/-- The pairing of a Summit (R370, R371). -/
structure PairState where
  base    : Nat := 0
  peer    : BitVec 64 := 0
  outSeq  : Nat := 0
  inSeq   : Nat := 0
  /-- Last accepted record, or the pairing. -/
  heardAt : Nat := 0
  sentAt  : Nat := 0
  polledAt : Nat := 0
  offer   : Option Offer := none
  /-- The next advance clears PAIRED. -/
  clearing : Bool := false
  deriving DecidableEq, Repr

/-- Counters of R376. -/
structure RangeCtr where
  advances   : Nat := 0
  removed    : Nat := 0
  resends    : Nat := 0
  probes     : Nat := 0
  takeovers  : Nat := 0
  pairReject : Nat := 0
  deriving DecidableEq, Repr

/-- Range membership and protocol. -/
structure RangeState where
  memb     : Memb := .unbound
  role     : Role := .member
  paired   : Bool := false
  test     : Bool := false
  nodeId   : Nat := 0
  rangeId  : BitVec 64 := 0
  epoch    : BitVec 30 := 0
  summit   : Nat := 0
  shoulder : Option Nat := none
  members  : List Member := []
  minSvn   : BitVec 32 := 0
  /-- The accepted firmware set as its bytes (R357). -/
  afs      : Bytes := []
  nextSeq  : BitVec 16 := 0
  sent     : List Sent := []
  seen     : List Seen := []
  reasm    : List Reasm := []
  probes   : List Probing := []
  /-- Last heartbeat or SWITCH received; last HEARTBEAT sent; last time a port was OPEN (R361). -/
  heardAt  : Nat := 0
  beatAt   : Nat := 0
  openAt   : Nat := 0
  join     : Option Joining := none
  joiners  : List Joiner := []
  relays   : List Relay := []
  /-- The joiners' requests relayed and not answered yet, oldest first. -/
  relayQ   : List RelayAsk := []
  /-- Admissions of the last second (R358). -/
  admits   : List Nat := []
  leaveAt  : Option Nat := none
  /-- The Summit's advance, and what the next one is to do (R360). -/
  adv      : Option Advance := none
  toRemove : List Nat := []
  /-- First admission or LEAVE since the last advance; an advance is due at once. -/
  reasonAt : Option Nat := none
  advNow   : Bool := false
  advanced : Nat := 0
  /-- The chip has taken authority and its first advance has not committed (R367). -/
  takeover : Bool := false
  /-- As Shoulder: a PROBE of the Summit has gone unanswered. -/
  summitLost : Bool := false
  /-- The member's side of an advance. -/
  prep     : Option Prepared := none
  /-- A PREPARE whose receive keys wait for keys that still retire (R364). -/
  prepWait : Option RMsg := none
  /-- Requests that wait for SWITCH (R374). -/
  later    : List LaterMsg := []
  deltaEpoch : BitVec 30 := 0
  deltaRem : List Nat := []
  deltaAdd : List Nat := []
  /-- The epoch changed and old-epoch keys have still to go on the ports (R364). -/
  retiring : Bool := false
  /-- REFRESH of each member: when sent, with the nonce (R363). -/
  refreshing : List (Nat × Key × Nat) := []
  shadowNum : Nat := 0
  /-- The Summit's next shadow must be the full state; the members as the last shadow left them (R366). -/
  shadowAll : Bool := true
  shadowMem : List Member := []
  /-- Shadows in the Shoulder's hands, and the number of the one it adopted last. -/
  shadowIn : List ShadowIn := []
  shadowGot : Nat := 0
  /-- The Shoulder holds an adopted shadow (R366). -/
  shadowed : Bool := false
  pair     : PairState := {}
  ctr      : RangeCtr := {}
  deriving DecidableEq, Repr

end Sys2Proof.Machine
end

