-- ==== Sys2Proof/Machine/StateSvc.lean ====
section
/-! DEFINITION. State of the services: Iron (12), weight bundles (11), telemetry (11), SPDM (10). -/

namespace Sys2Proof.Machine

/-- An Iron context number of a PID (R345 to R348): the fields of STATE, and beside them where it stands. -/
structure IronCtx where
  state    : IronState := .free
  mode     : BitVec 8 := 0
  /-- 0 AAD, 1 DATA, 2 DONE. -/
  phase    : Nat := 0
  part     : Nat := 0
  key      : BitVec 32 := 0
  dataLen  : Nat := 0
  aadLen   : Nat := 0
  cb       : BitVec 128 := 0
  acc      : BitVec 128 := 0
  pbuf     : Bytes := []
  iv       : Bytes := []
  /-- SHA-384: chaining value and block buffer. -/
  hash     : BitVec 512 := 0
  buf      : Bytes := []
  /-- KMAC256: the Keccak state. -/
  keccak   : BitVec 1600 := 0
  dest     : Nat := 0
  /-- The hardware context that a bound number has (R345). -/
  hw       : Nat := 0
  /-- A held GCM decryption (R344): its output buffer, destination, end of its DATA update. -/
  heldBuf  : Nat := 0
  heldDst  : Nat := 0
  heldAt   : Nat := 0
  /-- LAST and CONSUMED (R347, R349). -/
  last     : BitVec 64 := 0
  consumed : Bool := false
  deriving DecidableEq, Repr

/-- A lane (R339, R353): out of service, retired, and its mismatches since QB_RDY. -/
structure Lane where
  oos     : Bool := false
  retired : Bool := false
  missed  : Nat := 0
  deriving DecidableEq, Repr

/-- The Iron service (R337). Context numbers are keyed PID * 16 + CTX, output buffers lane * 4 + buffer; `fw`: hardware
contexts 14 and 15, which serve firmware. -/
structure IronSt where
  ctxs  : Tbl IronCtx := []
  lanes : Tbl Lane := []
  bufs  : Tbl Bytes := []
  fw    : Tbl IronCtx := []
  dual  : Nat := 0
  kat   : Nat := 0
  deriving DecidableEq, Repr

/-- A weight bundle of a PID (R313, R322). `inc` is the incarnation of its handle, which outlives it. -/
structure Bundle where
  live  : Bool := false
  inc   : BitVec 11 := 0
  id    : BitVec 64 := 0
  nseg  : Nat := 0
  setid : BitVec 384 := 0
  /-- KSA slot of the bundle key, 0 before WB_GRANT. -/
  slot  : Nat := 0
  deriving DecidableEq, Repr

/-- A device-set key that a PID holds (R316). -/
structure DevSet where
  pid   : Nat
  setid : BitVec 384
  slot  : Nat
  deriving DecidableEq, Repr

/-- A WB_IMPORT that waits for its set key: number of its fetch, number of its request, the bundle it makes,
where the statement goes, and the time of the request (R316). -/
structure Import where
  num    : Nat
  pid    : Nat
  seq    : BitVec 16
  bundle : Bundle
  dest   : Nat
  at_    : Nat
  deriving DecidableEq, Repr

/-- A stream of WB_UNSEAL_STREAM (R320); the first of a PID runs. -/
structure WbStream where
  num   : Nat
  pid   : Nat
  idx   : Nat
  src   : Nat
  dst   : Nat
  first : Nat
  nseg  : Nat
  fence : BitVec 32
  deriving DecidableEq, Repr

/-- Weight bundles, device sets and streams. Bundles are keyed PID * 16 + index. -/
structure WbState where
  bundles   : Tbl Bundle := []
  sets      : List DevSet := []
  imports   : List Import := []
  streams   : List WbStream := []
  integrity : Nat := 0
  deriving DecidableEq, Repr

/-- Telemetry (R327, R328, R334, R335). Counters are keyed PID * 8 + counter. -/
structure TelState where
  cnt        : Tbl Nat := []
  latched    : Tbl Nat := []
  /-- LATCH of each PID. -/
  latchNo    : Tbl Nat := []
  /-- Tarn time of each PID's PART_CREATE, from which its counters count (R327, R408). -/
  since      : Tbl Nat := []
  latchAt    : Nat := 0
  sel        : Nat := 0
  power      : Nat := 0
  window     : Nat := 0
  rinsePages : Nat := 0
  tileScrubs : Nat := 0
  deriving DecidableEq, Repr

/-- An SPDM connection on a mailbox (R302): how far it has been negotiated, the transcripts that its signed
responses cover, the hash that the last CHALLENGE_AUTH and the last MEASUREMENTS signature covered (R304), and
the large messages under way. -/
structure SpdmConn where
  /-- 0 before GET_VERSION, then 1 VERSION, 2 CAPABILITIES, 3 ALGORITHMS answered. -/
  stage    : Nat := 0
  vca      : Bytes := []
  certs    : Bytes := []
  meas     : Bytes := []
  lastChal : Option Bytes := none
  lastMeas : Option Bytes := none
  chunkIn  : Bytes := []
  chunkNo  : Nat := 0
  bigOut   : Bytes := []
  deriving DecidableEq, Repr

/-- A secure session (R305): its identifier, the mailbox it is bound to, its handshake secret, whether FINISH
has been accepted, and the KEY_UPDATEs it has seen. -/
structure SpdmSess where
  id      : BitVec 32
  mb      : Nat
  secret  : BitVec 256
  ready   : Bool := false
  updates : Nat := 0
  deriving DecidableEq, Repr

/-- SPDM connections, by mailbox number (n for the DOE mailbox of function n, 32 + n for ATT_SPDM on ring n),
and sessions. -/
structure SpdmState where
  conns    : Tbl SpdmConn := []
  sessions : List SpdmSess := []
  nextSess : BitVec 32 := 0
  /-- DOE Error of the mailbox of each function (R404). -/
  doeErr   : BitVec 32 := 0
  deriving DecidableEq, Repr

end Sys2Proof.Machine
end

