-- ==== Sys2Proof/Machine/State.lean ====
section
/-! DEFINITION. The state of the block: one structure per chapter of the spec, the queue of waiting
commands, and the trace of what left the ports. -/

namespace Sys2Proof.Machine

/-- Why a step stops: no command of the block does. What the spec turns away it answers, and a value that it leaves open
is free. -/
inductive Fault where
  deriving DecidableEq, Repr

/-- Why a command has no meaning. -/
inductive Refusal where
  /-- A row of the table without a meaning yet. Raised by Dispatch.lean alone; safe. -/
  | notModelled (mnemonic : String)
  deriving DecidableEq, Repr

/-- The block. -/
structure State where
  boot    : BootState := {}
  tarn    : TarnState := {}
  fuse    : FuseState := {}
  keys    : KeyState := {}
  alarm   : AlarmState := {}
  cmd     : CmdState := {}
  part    : PartsState := {}
  mem     : MemState := {}
  ridge   : RidgeState := {}
  rmt     : RmtState := {}
  fold    : FoldState := {}
  range   : RangeState := {}
  iron    : IronSt := {}
  wb      : WbState := {}
  tel     : TelState := {}
  spdm    : SpdmState := {}
  pending : List Instr := []
  out     : List Out := []
  deriving DecidableEq, Repr

/-- The block right after reset: the Tarn domain has just started (R379, R397), chip reset is asserted,
and every other field stands at its default, which is its reset value (INVENTORY.md, State). -/
def State.reset : State := {}

/-- The answers of a meaning. -/
abbrev Result := Host.Outcome State Fault Refusal

end Sys2Proof.Machine
end

