-- ==== Sys2Proof/Machine/Access.lean ====
section
/-! DEFINITION. Reading and writing State: tables, tags and generations, draws, counters (02, 09). -/

namespace Sys2Proof.Machine

/-! ## Accessors -/

/-- Time in Tarn microseconds (R389). -/
def now (s : State) : Nat := s.tarn.now

/-- Append to what has left the block, newest first. -/
def emit (s : State) (o : Out) : State := { s with out := o :: s.out }

/-- The first `n` bytes of a list (request number `k`), and free values where it ends before. -/
def fillBytes (k n : Nat) (b : Bytes) : Bytes := (List.range n).map fun i => b.getD i (Config.freeByte k i)

/-- The first `n` mask bits, and free values where they end before; no mask stays none. -/
def fillMask (k n : Nat) (m : List Bool) : List Bool :=
  if m.isEmpty then [] else (List.range n).map fun i => m.getD i (Config.freeBit k i)

/-- The current generation of a PID (R41); PID 0 stays at 0. -/
def curGen (s : State) (pid : Nat) : BitVec 11 := tget 0 s.part.gens pid

/-- PID and generation as a partition tag (R39). -/
def mkTag (pid : Nat) (g : BitVec 11) : BitVec 16 := BitVec.ofNat 16 (pid * 2048 + g.toNat)

/-- The current partition tag of a PID. -/
def curTag (s : State) (pid : Nat) : BitVec 16 := mkTag pid (curGen s pid)

/-- The PID of a tag. -/
def tagPid (t : BitVec 16) : Nat := t.toNat / 2048

/-- The generation of a tag. -/
def tagGen (t : BitVec 16) : BitVec 11 := t.setWidth 11

/-- A tag of the current generation (R41). -/
def tagCurrent (s : State) (t : BitVec 16) : Bool := tagGen t == curGen s (tagPid t)

/-- A partition descriptor. -/
def part (s : State) (pid : Nat) : Part := tget {} s.part.parts pid

/-- Write a partition descriptor. -/
def setPart (s : State) (pid : Nat) (p : Part) : State :=
  { s with part := { s.part with parts := tset {} s.part.parts pid p } }

/-- Partition `pid` is ACTIVE. -/
def active (s : State) (pid : Nat) : Bool := (part s pid).state == .active

/-- The ring `n`. -/
def ring (s : State) (n : Nat) : Ring := tget {} s.cmd.rings n

/-- Write ring `n`. -/
def setRing (s : State) (n : Nat) (r : Ring) : State :=
  { s with cmd := { s.cmd with rings := tset {} s.cmd.rings n r } }

/-- Entries a ring holds. -/
def ringSize (r : Ring) : Nat := 2 ^ r.clog2

/-- The event ring of function `n`. -/
def evt (s : State) (n : Nat) : Evt := tget {} s.cmd.evts n

/-- Write the event ring of function `n`. -/
def setEvt (s : State) (n : Nat) (e : Evt) : State :=
  { s with cmd := { s.cmd with evts := tset {} s.cmd.evts n e } }

/-- The TDI of virtual function `n`. -/
def tdi (s : State) (n : Nat) : TdiSt := tget {} s.part.tdi n

/-- Write the TDI of virtual function `n`. -/
def setTdi (s : State) (n : Nat) (t : TdiSt) : State :=
  { s with part := { s.part with tdi := tset {} s.part.tdi n t } }

/-- An IDE stream. -/
def ide (s : State) (k : Nat) : IdeSt := tget {} s.part.ide k

/-- Write an IDE stream. -/
def setIde (s : State) (k : Nat) (x : IdeSt) : State :=
  { s with part := { s.part with ide := tset {} s.part.ide k x } }

/-- TDIs bound to a stream. -/
def tdisOn (s : State) (k : Nat) : List Nat :=
  (s.part.tdi.filter fun e => e.2.stream == some k).map (·.1)

/-- A stream that a tenant's TDI is bound to. -/
def tenantStream (s : State) (k : Option Nat) : Bool :=
  match k with
  | some k => !(tdisOn s k).isEmpty
  | none => false

/-- A context descriptor by index. -/
def ctx (s : State) (i : Nat) : Ctx := tget {} s.part.ctxs i

/-- Write a context descriptor. -/
def setCtx (s : State) (i : Nat) (c : Ctx) : State :=
  { s with part := { s.part with ctxs := tset {} s.part.ctxs i c } }

/-- A fence descriptor by index. -/
def fence (s : State) (i : Nat) : Fence := tget {} s.part.fences i

/-- Write a fence descriptor. -/
def setFence (s : State) (i : Nat) (f : Fence) : State :=
  { s with part := { s.part with fences := tset {} s.part.fences i f } }

/-- The peer entry of a partition for a node (R198). -/
def peer (s : State) (pid node : Nat) : Peer := tget {} s.part.peers (pid * 16384 + node)

/-- Write a peer entry. -/
def setPeer (s : State) (pid node : Nat) (p : Peer) : State :=
  { s with part := { s.part with peers := tset {} s.part.peers (pid * 16384 + node) p } }

/-- A POT entry (R125). -/
def pot (s : State) (page : Nat) : Pot := tget {} s.mem.pot page

/-- Write a POT entry. -/
def setPot (s : State) (page : Nat) (e : Pot) : State :=
  { s with mem := { s.mem with pot := tset {} s.mem.pot page e } }

/-- A memory engine. -/
def mx (s : State) (e : Nat) : Mx := tget {} s.mem.mx e

/-- Write a memory engine. -/
def setMx (s : State) (e : Nat) (m : Mx) : State :=
  { s with mem := { s.mem with mx := tset {} s.mem.mx e m } }

/-- A ridge engine. -/
def link (s : State) (p : Nat) : Link := tget {} s.ridge.links p

/-- Write a ridge engine. -/
def setLink (s : State) (p : Nat) (l : Link) : State :=
  { s with ridge := { s.ridge with links := tset {} s.ridge.links p l } }

/-- A KSA slot. -/
def slot (s : State) (i : Nat) : Slot := tget {} s.keys.slots i

/-- Write a KSA slot. -/
def setSlot (s : State) (i : Nat) (k : Slot) : State :=
  { s with keys := { s.keys with slots := tset {} s.keys.slots i k } }

/-- The entropy input of the next seeding: 768 samples (R256). -/
def entropyIn (s : State) : Bytes := leBytes 96 (Config.noise s.keys.seeds).toNat

/-- Instantiate the DRBG: entropy input, nonce, and DEV_ID as personalisation string (R256). -/
def seedDrbg (s : State) : State :=
  let nonce := leBytes 32 ((Config.noise s.keys.seeds).toNat / 2 ^ 768)
  { s with keys := { s.keys with
    drbg := drbgInit (entropyIn s ++ nonce ++ leBytes 16 s.fuse.devId.toNat)
    drbgSeeded := true, drbgGen := 0, drbgSeedAt := now s, seeds := s.keys.seeds + 1 } }

/-- Reseed the DRBG (R256). -/
def reseed (s : State) : State :=
  { s with keys := { s.keys with
    drbg := drbgReseed s.keys.drbg (entropyIn s), seeds := s.keys.seeds + 1
    drbgReseeds := inc32 s.keys.drbgReseeds, drbgGen := 0, drbgSeedAt := now s } }

/-- A reseed is due: 65,536 generate requests, or 100 ms of Tarn time (R256). -/
def reseedDue (s : State) : Bool := decide (65536 ≤ s.keys.drbgGen) || decide (s.keys.drbgSeedAt + 100000 ≤ now s)

/-- A generate request for `n` bytes (R256). -/
def drawBytes (s : State) (n : Nat) : State × Bytes :=
  let s1 := if reseedDue s then reseed s else s
  let g := drbgGenerate s1.keys.drbg n
  ({ s1 with keys := { s1.keys with drbg := g.2, draws := s1.keys.draws + 1, drbgGen := s1.keys.drbgGen + 1 } }, g.1)

/-- A draw of 256 bits. -/
def draw (s : State) : State × Key :=
  let d := drawBytes s 32
  (d.1, keyOf d.2)

/-- A draw of the list of R256: the DRBG reseeds first. -/
def freshDraw (s : State) : State × Key := draw (reseed s)

/-- Count for a PID in a telemetry counter (R327). -/
def telAdd (s : State) (pid i n : Nat) : State :=
  { s with tel := { s.tel with cnt := tmod 0 s.tel.cnt (pid * 8 + i) fun c => (c + n) % 2 ^ 64 } }

/-- Update the counters of R222. -/
def partCtr (s : State) (f : PartCtr → PartCtr) : State :=
  { s with part := { s.part with ctr := f s.part.ctr } }

/-- Update the counters of R192. -/
def rmtCtr (s : State) (f : RmtCtr → RmtCtr) : State :=
  { s with rmt := { s.rmt with ctr := f s.rmt.ctr } }

/-- Update the counters of an engine (R160). -/
def mxCtr (s : State) (e : Nat) (f : MxCtr → MxCtr) : State :=
  setMx s e { mx s e with ctr := f (mx s e).ctr }

/-- Update the counters of a port (R94). -/
def linkCtr (s : State) (p : Nat) (f : LinkCtr → LinkCtr) : State :=
  setLink s p { link s p with ctr := f (link s p).ctr }

/-- The status code of a reply (R240). -/
def statusCode : Status → Nat
  | .ok => 0 | .busy => 1 | .errOpcode => 2 | .errParam => 3 | .errState => 4 | .errPerm => 5
  | .errResource => 6 | .errIntegrity => 7 | .errStale => 8 | .errLost => 9 | .authFail => 10
  | .consumed => 11 | .atomicUnknown => 12 | .errLifecycle => 13 | .errUnattested => 14

/-- STATE of QB_RANGE_STATUS (R33). -/
def membCode : Memb → Nat
  | .unbound => 0 | .joining => 1 | .member => 2 | .reforming => 3 | .quarantined => 4 | .leaving => 5

/-- The chip is MEMBER or REFORMING. -/
def inRange (s : State) : Bool := s.range.memb == .member || s.range.memb == .reforming

end Sys2Proof.Machine
end

