-- ==== Sys2Proof/Machine/Place.lean ====
section
/-! DEFINITION. Where sectors lie in the packages (R133 to R135, R147), the POT entry as 64 bits (R126), and the fields
of a tag sector and a counter line. -/

namespace Sys2Proof.Machine

/-! ## Places (R133 to R135)

A place is package * 2^29 + package-local address / 128. -/

/-- Sectors of a page. -/
def pageSectors : Nat := 16384

/-- Page of a sector. -/
def sectorPage (sector : Nat) : Nat := sector / pageSectors

/-- IKEY, as the address decoders hold it (R136, R263). -/
def iKey (s : State) : BitVec 128 := s.mem.ikey

/-- F of R133: bits 4:0 of AES-128 under IKEY of a block for page and g[7:5] (log entry 98). -/
def interleave (s : State) (page gh : Nat) : BitVec 5 := (aes128 (iKey s) (Config.pkgBlock page gh)).setWidth 5

/-- Package of granule `g` of a page (R133). -/
def pkgOf (s : State) (page g : Nat) : Nat := (BitVec.ofNat 5 g ^^^ interleave s page (g / 32)).toNat

/-- Granule of a package by granule index: channel and bank bits combined with a keyed function of the rest (R133). -/
def bankPlace (s : State) (i : BitVec 23) : BitVec 23 :=
  let m : BitVec 23 := Config.bankBits.setWidth 23
  i ^^^ (Config.bankHash (iKey s) (i &&& ~~~m) &&& m)

/-- A place from package and package-local sector. -/
def placeAt (pkg sec : Nat) : Nat := pkg * 2 ^ 29 + sec
/-- Package of a place. -/
def placePkg (p : Nat) : Nat := p / 2 ^ 29
/-- Package-local sector of a place. -/
def placeSec (p : Nat) : Nat := p % 2 ^ 29
/-- The engine that fronts a place: four packages to an engine. -/
def placeEng (p : Nat) : Nat := p / 2 ^ 31

/-- Place of granule `g` of a page. -/
def granPlace (s : State) (page g : Nat) : Nat :=
  placeAt (pkgOf s page g) ((bankPlace s (BitVec.ofNat 23 (page * 8 + g / 32))).toNat * 64)

/-- Place of a data sector. -/
def dataPlace (s : State) (sector : Nat) : Nat :=
  granPlace s (sectorPage sector) (sector % pageSectors / 64) + sector % 64

/-- The engine that a device offset belongs to (R13, R133). -/
def engineOf (s : State) (off : Nat) : Nat := pkgOf s (off / 2 ^ 21) (off / 8192 % 256) / 4

/-- First package-local sector of the tag area, and of the counter lines of levels 0 to 2 (R134). -/
def tagBase : Nat := 0x1E000000
/-- The leaf lines. -/
def leafBase : Nat := 0x1FE00000
/-- The level-1 lines. -/
def level1Base : Nat := 0x1FF00000
/-- The level-2 lines. -/
def level2Base : Nat := 0x1FF04000

/-- Place of the tag sector of a data sector's place (R135). -/
def tagPlace (p : Nat) : Nat := placeAt (placePkg p) (tagBase + placeSec p / 16)

/-- Place of the leaf line of a sector of a Fresh page in slot `fslot` (R146). -/
def leafOf (s : State) (sector fslot : Nat) : Nat :=
  let g := sector % pageSectors / 64
  placeAt (pkgOf s (sectorPage sector) g) (leafBase + fslot * 8 + g / 32)

/-- A place of a counter line. -/
def isLine (p : Nat) : Bool := leafBase ≤ placeSec p
/-- Level of a counter line. -/
def lineLevel (p : Nat) : Nat := if level2Base ≤ placeSec p then 2 else if level1Base ≤ placeSec p then 1 else 0
/-- First package-local sector of a level. -/
def levelBase (n : Nat) : Nat := if n == 0 then leafBase else if n == 1 then level1Base else level2Base
/-- Number of a counter line in its level. -/
def lineNum (p : Nat) : Nat := placeSec p - levelBase (lineLevel p)
/-- The parent of a counter line; `none` at level 2, whose parent is the root (R147). -/
def parentOf (p : Nat) : Option Nat :=
  if lineLevel p == 2 then none
  else some (placeAt (placePkg p) (levelBase (lineLevel p + 1) + lineNum p / 64))
/-- Key of the root counter of a level-2 line. -/
def rootOf (p : Nat) : Nat := placePkg p * 256 + lineNum p
/-- Child `i` of an upper line. -/
def childOf (p i : Nat) : Nat := placeAt (placePkg p) (levelBase (lineLevel p - 1) + lineNum p * 64 + i)

/-! ## Fields of a tag sector and of a counter line (R135, R147) -/

/-- Replace the `w` bits from bit `lo` on. -/
def putBits (d : Sector) (lo : Nat) {w : Nat} (v : BitVec w) : Sector :=
  (d &&& ~~~((BitVec.allOnes w).setWidth 1024 <<< lo)) ||| (v.setWidth 1024 <<< lo)

/-- Tag `i` of a tag sector. -/
def tagIn (d : Sector) (i : Nat) : BitVec 64 := d.extractLsb' (64 * i) 64
/-- Write tag `i`. -/
def putTag (d : Sector) (i : Nat) (t : BitVec 64) : Sector := putBits d (64 * i) t
/-- MINOR[i] of a counter line. -/
def minorOf (d : Sector) (i : Nat) : Nat := (d.extractLsb' (14 * i) 14).toNat
/-- Write MINOR[i]. -/
def putMinor (d : Sector) (i n : Nat) : Sector := putBits d (14 * i) (BitVec.ofNat 14 n)
/-- MAJOR of a counter line. -/
def majorOf (d : Sector) : Nat := (d.extractLsb' 896 42).toNat
/-- LMAC of a counter line. -/
def lmacOf (d : Sector) : BitVec 64 := d.extractLsb' 960 64
/-- Write LMAC. -/
def putLmac (d : Sector) (t : BitVec 64) : Sector := putBits d 960 t
/-- A line of MAJOR `n` whose MINOR fields are 0. -/
def lineImage (n : Nat) : Sector := putBits 0 896 (BitVec.ofNat 42 n)
/-- MAJOR ‖ MINOR of entry `i`: the VERSION of what the entry counts. -/
def versionIn (d : Sector) (i : Nat) : Nat := majorOf d * 2 ^ 14 + minorOf d i

/-! ## The POT entry (R125, R126) -/

/-- Codes of MODE. -/
def modeCode : PMode → Nat
  | .none => 0 | .mangle => 1 | .seal => 2 | .fresh => 3
/-- Codes of STATE. -/
def stateCode : PState → Nat
  | .free => 0 | .fill => 1 | .live => 2 | .update => 3
/-- MODE of a code. -/
def modeOf (n : Nat) : PMode := if n == 1 then .mangle else if n == 2 then .seal else if n == 3 then .fresh else .none
/-- STATE of a code. -/
def stateOf (n : Nat) : PState := if n == 1 then .fill else if n == 2 then .live else if n == 3 then .update else .free

/-- The 64 bits of an entry. -/
def potBits (e : Pot) : BitVec 64 := BitVec.ofNat 64 (
  e.pid * 2 ^ 59 + modeCode e.mode * 2 ^ 57 + stateCode e.state * 2 ^ 55 + b2n e.clean * 2 ^ 54 + b2n e.conf * 2 ^ 53 +
  b2n e.t4c * 2 ^ 52 + e.rights.toNat * 2 ^ 42 + e.fslot * 2 ^ 25 + b2n e.used * 2 ^ 24 + b2n e.sys * 2 ^ 23)

/-- The entry that 64 bits spell. -/
def potOf (x : BitVec 64) : Pot :=
  let f := fun (lo n : Nat) => bits x.toNat lo n
  { pid := f 59 5, mode := modeOf (f 57 2), state := stateOf (f 55 2), clean := x.getLsbD 54, conf := x.getLsbD 53
    t4c := x.getLsbD 52, rights := BitVec.ofNat 10 (f 42 10), fslot := f 25 17, used := x.getLsbD 24, sys := x.getLsbD 23 }

/-- Device sector of the POT that holds a page's entry (R125). -/
def potSector (s : State) (page : Nat) : Nat := s.mem.potBase * pageSectors + page / 16

/-- The 128 bytes of that sector: sixteen entries. -/
def potImage (s : State) (page : Nat) : Sector :=
  (List.range 16).foldl (fun d i => putBits d (64 * i) (potBits (pot s (page / 16 * 16 + i)))) 0

/-- A page's entry out of its POT sector. -/
def potIn (d : Sector) (page : Nat) : Pot := potOf (tagIn d (page % 16))

end Sys2Proof.Machine
end

