-- ==== Sys2Proof/Machine/Float.lean ====
section
/-! DEFINITION. FP32 arithmetic by exact dyadic numbers and one rounding (R180 FADD, R102, R103). -/

namespace Sys2Proof.Machine

/-- The NaN that the block writes (R180, R102). -/
def nan32 : BitVec 32 := 0x7FC00000

/-- A number read from a format: NaN, infinity with its sign, or the exact value `n` times 2^(-k), with
the sign of a zero. -/
inductive Num where
  | nan
  | inf (neg : Bool)
  | fin (neg : Bool) (n : Int) (k : Nat)
  deriving DecidableEq, Repr

/-- Read an FP32 value: units of 2^(-149). -/
def num32 (x : BitVec 32) : Num :=
  let neg := x.getLsbD 31
  let e := (x.extractLsb' 23 8).toNat
  let m := (x.extractLsb' 0 23).toNat
  if e == 255 then (if m == 0 then .inf neg else .nan)
  else
    let a : Int := if e == 0 then m else (m + 2 ^ 23) * 2 ^ (e - 1)
    .fin neg (if neg then -a else a) 149

/-- Round `a` (a count of units) to a multiple of 2^sh, nearest even, and divide by 2^sh. -/
def rne (a sh : Nat) : Nat :=
  let q := a / 2 ^ sh
  let r := a % 2 ^ sh
  let half := 2 ^ sh / 2
  if sh == 0 then q
  else if r > half || (r == half && q % 2 == 1) then q + 1 else q

/-- Bits a number takes. -/
def bitLen (n : Nat) : Nat := if n == 0 then 0 else Nat.log2 n + 1

/-- Round the exact value n times 2^(-k), k at least 149, to FP32, nearest even. `zneg` is the sign of an
exact zero. -/
def round32 (zneg : Bool) (n : Int) (k : Nat) : BitVec 32 :=
  let a := n.natAbs
  let s : Nat := if n < 0 then 2 ^ 31 else 0
  if a == 0 then BitVec.ofNat 32 (if zneg then 2 ^ 31 else 0)
  else
    let sh0 := max (k - 149) (bitLen a - 24)
    let q0 := rne a sh0
    let sh := if q0 ≥ 2 ^ 24 then sh0 + 1 else sh0
    let q := if q0 ≥ 2 ^ 24 then q0 / 2 else q0
    let e := if q < 2 ^ 23 then 0 else sh + 1 - (k - 149)
    if e ≥ 255 then BitVec.ofNat 32 (s + 0x7F800000)
    else BitVec.ofNat 32 (s + e * 2 ^ 23 + q % 2 ^ 23)

/-- Infinity of a sign. -/
def inf32 (neg : Bool) : BitVec 32 := if neg then 0xFF800000 else 0x7F800000

/-- Exact sum of two numbers brought to one unit. -/
def addNum : Num → Num → Num
  | .nan, _ => .nan
  | _, .nan => .nan
  | .inf a, .inf b => if a == b then .inf a else .nan
  | .inf a, _ => .inf a
  | _, .inf b => .inf b
  | .fin sa a ka, .fin sb b kb =>
    let k := max ka kb
    .fin (sa && sb) (a * 2 ^ (k - ka) + b * 2 ^ (k - kb)) k

/-- Exact product of two numbers. -/
def mulNum : Num → Num → Num
  | .nan, _ => .nan
  | _, .nan => .nan
  | .inf a, .inf b => .inf (a != b)
  | .inf a, .fin sb b _ => if b == 0 then .nan else .inf (a != sb)
  | .fin sa a _, .inf b => if a == 0 then .nan else .inf (sa != b)
  | .fin sa a ka, .fin sb b kb => .fin (sa != sb) (a * b) (ka + kb)

/-- Round a number to FP32. -/
def toF32 : Num → BitVec 32
  | .nan => nan32
  | .inf neg => inf32 neg
  | .fin neg n k => if k ≥ 149 then round32 neg n k else round32 neg (n * 2 ^ (149 - k)) 149

/-- FP32 addition, nearest even; a NaN result is 0x7FC0_0000 (R180). -/
def fadd32 (x y : BitVec 32) : BitVec 32 := toF32 (addNum (num32 x) (num32 y))

/-- Exact order of two finite or infinite numbers: `a` is below `b`. -/
def ltNum : Num → Num → Bool
  | .inf a, .inf b => a && !b
  | .inf a, .fin _ _ _ => a
  | .fin _ _ _, .inf b => !b
  | .fin _ a ka, .fin _ b kb => a * 2 ^ kb < b * 2 ^ ka
  | _, _ => false

/-! ## Atomic operations (R180) -/

/-- Bytes of one operand, from SIZE: a CAS carries compare and swap values. `none` where the code or the
size is not in the table. -/
def amoBytes (code size : Nat) : Option Nat :=
  let n := if code == 2 then (size + 1) / 2 else size + 1
  if code == 0 || code > 0xB then none
  else if code == 2 && size % 2 == 0 then none
  else if code == 0xB then (if n == 4 then some 4 else none)
  else if n == 4 || n == 8 then some n else none

/-- The new value of an atomic on an `n`-byte location. `a` is the operand, or the compare value of a CAS
with swap value `b`. -/
def amoNew (code n old a b : Nat) : Nat :=
  let w := 8 * n
  let x := BitVec.ofNat w old
  let y := BitVec.ofNat w a
  let r : BitVec w :=
    if code == 1 then y
    else if code == 2 then (if x == y then BitVec.ofNat w b else x)
    else if code == 3 then x + y
    else if code == 4 then x &&& y
    else if code == 5 then x ||| y
    else if code == 6 then x ^^^ y
    else if code == 7 then (if x.slt y then y else x)
    else if code == 8 then (if y.slt x then y else x)
    else if code == 9 then (if x < y then y else x)
    else if code == 0xA then (if y < x then y else x)
    else if code == 0xB then (fadd32 (x.setWidth 32) (y.setWidth 32)).setWidth w
    else x
  r.toNat

end Sys2Proof.Machine
end

