-- ==== Sys2Proof/Machine/FoldMath.lean ====
section
/-! DEFINITION. Formats and arithmetic of the fold units (04 R99 to R103). -/

namespace Sys2Proof.Machine

/-! ## Formats (R100, R101) -/

/-- A format of the table. -/
def fmtOk (f : Nat) : Bool := f ≤ 8
/-- An MX format. -/
def fmtMx (f : Nat) : Bool := 4 ≤ f && f ≤ 8
/-- INT32. -/
def fmtInt (f : Nat) : Bool := f == 3
/-- Element bits. -/
def fmtBits (f : Nat) : Nat :=
  if f == 0 || f == 3 then 32 else if f ≤ 2 then 16 else if f ≤ 5 then 8 else if f ≤ 7 then 6 else 4
/-- Elements per full frame. -/
def fmtFull (f : Nat) : Nat :=
  if f == 0 || f == 3 then 1008 else if f ≤ 2 then 2016 else if f ≤ 5 then 3904 else if f ≤ 7 then 5120 else 7584
/-- Blocks per slot. -/
def fmtBlocks (f : Nat) : Nat := if f ≤ 3 then 1 else if f ≤ 5 then 2 else if f ≤ 7 then 3 else 4
/-- MX emax. -/
def fmtEmax (f : Nat) : Nat := if f == 4 then 8 else if f == 5 then 15 else if f == 7 then 4 else 2

/-- Scale bytes with their padding. -/
def scaleBytes (f n : Nat) : Nat := if fmtMx f then (n / 32 + 15) / 16 * 16 else 0
/-- Bytes of `n` elements. -/
def fmtBytes (f n : Nat) : Nat := scaleBytes f n + n * fmtBits f / 8
/-- Chunk stride in memory (R110). -/
def strideOf (f n : Nat) : Nat := (fmtBytes f n + 4095) / 4096 * 4096

/-- Shape of a small float: exponent bits, mantissa bits, bias, largest normal code. -/
structure Mini where
  eb   : Nat
  mb   : Nat
  bias : Nat
  top  : Nat

/-- Shape of a format's elements. -/
def miniOf (f : Nat) : Mini :=
  if f == 1 then ⟨8, 7, 127, 0x7F7F⟩ else if f == 2 then ⟨5, 10, 15, 0x7BFF⟩
  else if f == 4 then ⟨4, 3, 7, 0x7E⟩ else if f == 5 then ⟨5, 2, 15, 0x7B⟩
  else if f == 6 then ⟨2, 3, 1, 0x1F⟩ else if f == 7 then ⟨3, 2, 3, 0x1F⟩ else ⟨2, 1, 1, 0x7⟩

/-- Formats with infinities and NaNs as IEEE 754 codes them. -/
def fmtIeee (f : Nat) : Bool := f == 1 || f == 2 || f == 5

/-- Read an element. -/
def numOf (f x : Nat) : Num :=
  let c := miniOf f
  let neg := x / 2 ^ (c.eb + c.mb) % 2 == 1
  let e := x / 2 ^ c.mb % 2 ^ c.eb
  let m := x % 2 ^ c.mb
  if fmtIeee f && e == 2 ^ c.eb - 1 then (if m == 0 then .inf neg else .nan)
  else if f == 4 && x % 128 == 0x7F then .nan
  else
    let a : Int := if e == 0 then m else (m + 2 ^ c.mb) * 2 ^ (e - 1)
    .fin neg (if neg then -a else a) (c.bias - 1 + c.mb)

/-- Multiply a number by 2^x. -/
def scaleNum (x : Int) : Num → Num
  | .fin s n k => if x ≥ 0 then .fin s (n * 2 ^ x.toNat) k else .fin s n (k + (-x).toNat)
  | v => v

/-- Exact value a times 2^(-k) rounded to nearest even in a shape: the code without sign, its exponent
unbounded. -/
def encMini (c : Mini) (a k : Nat) : Nat :=
  let n := a * 2 ^ (c.bias - 1 + c.mb)
  let sh0 := max k (bitLen n - (c.mb + 1))
  let q0 := rne n sh0
  let sh := if q0 ≥ 2 ^ (c.mb + 1) then sh0 + 1 else sh0
  let q := if q0 ≥ 2 ^ (c.mb + 1) then q0 / 2 else q0
  (if q < 2 ^ c.mb then 0 else sh + 1 - k) * 2 ^ c.mb + q % 2 ^ c.mb

/-! ## Input (R101, R102) -/

/-- A converted value: the accumulator, and whether it sets NAN or INF. -/
structure Conv where
  v   : BitVec 32
  nan : Bool := false
  inf : Bool := false

/-- A number as an FP32 accumulator; INF is set by an overflow of a finite number. -/
def toAcc (x : Num) : Conv :=
  let v := toF32 x
  let big := v &&& 0x7FFFFFFF == 0x7F800000#32
  { v := v, nan := x == .nan, inf := big && match x with | .fin _ _ _ => true | _ => false }

/-- Element `i` of a payload. -/
def rawElem (f n : Nat) (b : Nat) (i : Nat) : Nat := bits b (8 * scaleBytes f n + i * fmtBits f) (fmtBits f)

/-- Element `i` of a payload, converted. -/
def convElem (f n b i : Nat) : Conv :=
  let x := rawElem f n b i
  if f == 3 then { v := BitVec.ofNat 32 x }
  else if f == 0 then { toAcc (num32 (BitVec.ofNat 32 x)) with inf := false }
  else if !fmtMx f then { toAcc (numOf f x) with inf := false }
  else
    let sc := bits b (8 * (i / 32)) 8
    if sc == 0xFF then { v := nan32, nan := true } else toAcc (scaleNum (sc - 127) (numOf f x))

/-- The elements of a payload, converted. -/
def convAll (f n : Nat) (payload : Bytes) : List Conv :=
  let b := leNat payload
  (List.range n).map (convElem f n b)

/-! ## Combining (R99) -/

/-- IEEE 754-2019 maximum: a NaN propagates, −0 below +0. -/
def maxNum (x y : BitVec 32) : BitVec 32 :=
  if num32 x == .nan || num32 y == .nan then nan32
  else if ltNum (num32 x) (num32 y) then y
  else if ltNum (num32 y) (num32 x) then x
  else if x.getLsbD 31 then y else x

/-- IEEE 754-2019 minimum. -/
def minNum (x y : BitVec 32) : BitVec 32 :=
  if num32 x == .nan || num32 y == .nan then nan32
  else if ltNum (num32 x) (num32 y) then x
  else if ltNum (num32 y) (num32 x) then y
  else if x.getLsbD 31 then x else y

/-- A times x plus y, one rounding. -/
def fma32 (a x y : BitVec 32) : BitVec 32 := toF32 (addNum (mulNum (num32 a) (num32 x)) (num32 y))

/-- Combine an accumulator with a further contribution. -/
def combine (op : Nat) (int : Bool) (a acc x : BitVec 32) : BitVec 32 :=
  if op == 0 then (if int then acc + x else fadd32 acc x)
  else if op == 1 then (if int then (if acc.slt x then x else acc) else maxNum acc x)
  else if op == 2 then (if int then (if x.slt acc then x else acc) else minNum acc x)
  else fma32 a x acc

/-- The first contribution of an element: an incoming AXPY one is A·x. -/
def firstVal (op : Nat) (a x : BitVec 32) : BitVec 32 := if op == 3 then fma32 a x 0 else x

/-- A value of an FP32 accumulator is a NaN. -/
def isNan32 (x : BitVec 32) : Bool := num32 x == .nan

/-! ## Output (R103) -/

/-- Converted output: the codes of the elements, and the flags. -/
structure OutConv where
  body : Bytes
  nan  : Bool := false
  inf  : Bool := false
  sat  : Bool := false

/-- Pack codes of `w` bits, first code in the low bits. -/
def pack (w : Nat) : List Nat → Nat
  | [] => 0
  | x :: t => x + 2 ^ w * pack w t

/-- One accumulator as BF16 or FP16: code, INF. -/
def outHalf (f : Nat) (v : BitVec 32) : Nat × Bool :=
  let c := miniOf f
  let top := (2 ^ c.eb - 1) * 2 ^ c.mb
  let sign := fun (s : Bool) => b2n s * 2 ^ (c.eb + c.mb)
  match num32 v with
  | .nan => (top + 2 ^ (c.mb - 1), false)
  | .inf s => (sign s + top, false)
  | .fin s n k =>
    let e := encMini c n.natAbs k
    if e ≥ top then (sign s + top, f == 2) else (sign s + e, false)

/-- Magnitude of a finite accumulator in units of 2^(-149). -/
def mag32 (v : BitVec 32) : Nat := match num32 v with
  | .fin _ n _ => n.natAbs
  | _ => 0

/-- One MX block: scale byte, element codes, NAN, SAT. -/
def outBlock (f : Nat) (vs : List (BitVec 32)) : Nat × List Nat × Bool × Bool :=
  let c := miniOf f
  let amax := (vs.map mag32).foldl max 0
  if vs.any fun v => v.toNat / 2 ^ 23 % 256 == 255 then (0xFF, vs.map fun _ => 0, true, false)
  else if amax == 0 then (0, vs.map fun _ => 0, false, false)
  else
    let x : Int := (Nat.log2 amax : Int) - 149 - fmtEmax f
    let one := fun (v : BitVec 32) => match scaleNum (-x) (num32 v) with
      | .fin s n k =>
        let e := encMini c n.natAbs k
        (b2n s * 2 ^ (c.eb + c.mb) + min e c.top, decide (e > c.top))
      | _ => (0, false)
    let l := vs.map one
    (min 254 (x + 127).toNat, l.map (·.1), false, l.any (·.2))

/-- Cut a list into groups of 32. -/
def groups32 : Nat → List (BitVec 32) → List (List (BitVec 32))
  | 0, _ => []
  | _ + 1, [] => []
  | n + 1, l => l.take 32 :: groups32 n (l.drop 32)

/-- A chunk's accumulators in the output format. The last chunk of a plan may have an element count that is no multiple of
32 where its input format is none of MX; in an MX output the spec then does not say what the short block holds: the model
takes the elements there are, with a scale byte of their own, and no element beyond them (DESIGN CHOICE, log entry 83). -/
def outAll (f : Nat) (vs : List (BitVec 32)) : OutConv :=
  let n := vs.length
  if f == 0 || f == 3 then { body := leBytes (4 * n) (pack 32 (vs.map BitVec.toNat)) }
  else if !fmtMx f then
    let l := vs.map (outHalf f)
    { body := leBytes (2 * n) (pack 16 (l.map (·.1))), nan := vs.any isNan32, inf := l.any (·.2) }
  else
    let l := (groups32 (n / 32 + 1) vs).map (outBlock f)
    { body := leBytes ((l.length + 15) / 16 * 16) (pack 8 (l.map (·.1))) ++
        leBytes ((n * fmtBits f + 7) / 8) (pack (fmtBits f) (l.map (·.2.1)).flatten)
      nan := l.any (·.2.2.1), sat := l.any (·.2.2.2) }

end Sys2Proof.Machine
end

