-- ==== Sys2Proof/Machine/Ops.lean ====
section
/-! DEFINITION. Operations that every family shares: the block's own accesses to memory, events and interrupts, replies,
and the path of a command from its ring to its reply (08). -/

namespace Sys2Proof.Machine

/-! ## POT rights as the block's own ports use them (R124, R127) -/

/-- Rights bits of R126 in `Pot.rights`. -/
def rTRD : Nat := 9
def rTWR : Nat := 8
def rDRD : Nat := 7
def rDWR : Nat := 6
def rRRD : Nat := 5
def rRWR : Nat := 4
def rHRD : Nat := 3
def rHWR : Nat := 2
def rGRD : Nat := 1
def rGWR : Nat := 0

/-- Page of a device offset. -/
def pageOf (off : Nat) : Nat := off / 2097152

/-- The page's POT sector has failed darn (R129). -/
def potBadPage (s : State) (page : Nat) : Bool := s.mem.potBad.contains (page / 16)

/-- The engines grant requests: from QB_RDY to zeroise (R15, R265). -/
def memServes (s : State) : Bool := s.boot.rdy && !s.keys.zeroised

/-- The engines grant a PID a right to a page: they serve requests, the page's POT sector is good, and its entry is LIVE
under the PID, of no system page, with the right (R127). -/
def pageOk (s : State) (pid page right : Nat) : Bool :=
  let e := pot s page
  memServes s && !potBadPage s page && e.state == .live && e.pid == pid && !e.sys && e.rights.getLsbD right

/-- Every page of a range of device bytes passes `pageOk`. -/
def rangeOk (s : State) (pid off len right : Nat) : Bool :=
  off + len ≤ 0x1E000000000 &&
  (len == 0 || spanAll (pageOf off) (pageOf (off + len - 1) - pageOf off + 1) fun p => pageOk s pid p right)

/-- The host path of a ring (R224): the ring of a confidential tenant has one while its TDI is bound to a selective stream.
A write by it is posted, so its failure in the host is not seen (PRESUMED, log entry 91). -/
def hostPathOk (s : State) (n : Nat) : Bool := n == 0 || !(part s n).conf || (tdi s n).stream.isSome

/-- Reply-ring and command-ring areas: host memory, or device memory that the POT grants (R224). -/
def ringAreaOk (s : State) (n : Nat) (base : BitVec 64) (off len right : Nat) : Bool :=
  if (ring s n).loc then hostPathOk s n else rangeOk s n (base.toNat + off) len right

/-- How the block reaches areas of a function's rings: the host, or device memory (R224, R237). -/
def pathOf (s : State) (n : Nat) (host : Bool) : RingPath :=
  if host then .host (if n != 0 && (part s n).conf then (tdi s n).stream else none) else .device n (curGen s n)

/-- How the block reaches the areas of a ring (R224). -/
def ringPath (s : State) (n : Nat) : RingPath := pathOf s n (ring s n).loc

/-- A range of device bytes stays in one page. -/
def onePage (off len : Nat) : Bool := pageOf off == pageOf (off + len - 1)

/-! ## Accesses of the block's own (R124, R154) -/

/-- Charge `n` sectors of a client in an engine; those that find no token and are not real-time count for its PID. -/
def charge (s : State) (e client n : Nat) (rt : Bool) : State :=
  let m := mx s e
  let k := tget 0 m.tokens client
  let s1 := setMx s e { m with tokens := tset 0 m.tokens client (k - n) }
  if rt || client == 32 then s1 else telAdd s1 client 1 (n - k)

/-- Sectors of a range of device bytes in granule `g`. -/
def granSectors (off len g : Nat) : Nat := min ((off + len - 1) / 128) (g * 64 + 63) + 1 - max (off / 128) (g * 64)

/-- Sectors in granule `g` of which a range of device bytes covers a part: at most its first and its last. -/
def granParts (off len g : Nat) : Nat :=
  (([off / 128, (off + len - 1) / 128].eraseDups).filter fun x =>
    x / 64 == g && (x * 128 < off || off + len < x * 128 + 128)).length

/-- Access `n` sectors for a PID in an engine, and read `k` of them first: a token each (R151, R154), and they count in
telemetry (R327). -/
def passSectors (s : State) (e pid n k : Nat) (rt : Bool) : State :=
  let s1 := telAdd (charge s e pid (n + k) rt) pid 0 n
  if k == 0 then s1 else telAdd (mxCtr s1 e fun c => { c with rmw := add32 c.rmw k }) pid 2 k

/-- The block reads or writes a range of device bytes for a PID through a port of its own: each sector passes its engine,
one written in part is read first. Their tag and counter sectors are taken to be in the cairn cache (DESIGN CHOICE, log
entry 112). `rt`: a real-time port (R124). -/
def passOwn (s : State) (pid off len : Nat) (write rt : Bool) : State :=
  if len == 0 then s
  else (span (off / 8192) ((off + len - 1) / 8192 - off / 8192 + 1)).foldl (fun s g =>
    passSectors s (engineOf s (g * 8192)) pid (granSectors off len g) (if write then granParts off len g else 0) rt) s

/-- The bytes a command's first read delivers, `none` where they are poisoned. -/
def firstRead (m : List ReadIn) (n : Nat) : Option Bytes :=
  match m with
  | [] => some (zeros n)
  | .data b :: _ => some (slice b 0 n)
  | .poison .. :: _ => none

/-- Bytes written by the block for a PID, through a real-time port or a DMA engine (R124). -/
def memPut (s : State) (pid off : Nat) (b : Bytes) (rt : Bool := true) : State :=
  if b.isEmpty then s else emit (passOwn s pid off b.length true rt) (.memWrite pid off b)

/-! ## TLPs and IDE streams (R5, R14, R203) -/

/-- Slot that holds a key of a stream. -/
def ideSlot (s : State) (k : Nat) (x : IdeKey) : Option Nat := ((ide s k).keys.find? fun e => e.1 == x).map (·.2)

/-- A key of a stream that is in use; a slot gone BAD delivers none (R259). -/
def ideInUse (s : State) (k : Nat) (x : IdeKey) : Option Key :=
  if (ide s k).go.contains x then ((ideSlot s k x).filter fun i => !(slot s i).bad).map fun i => (slot s i).key else none

/-- Number of a stream's key among all. -/
def ideNo (k : Nat) (x : IdeKey) : Nat := k * 8 + x.sub.val * 2 + b2n x.tx

/-- TLPs opened or sealed under a key in use. -/
def ideUsed (s : State) (k : Nat) (x : IdeKey) : Nat := tget 0 s.cmd.ideUse (ideNo k x)

/-- One more TLP under a key. -/
def ideCount (s : State) (k : Nat) (x : IdeKey) : State :=
  { s with cmd := { s.cmd with ideUse := tmod 0 s.cmd.ideUse (ideNo k x) (· + 1) } }

/-- A key set comes into use, or goes: its count starts anew. -/
def ideFresh (s : State) (k : Nat) (x : IdeKey) : State :=
  { s with cmd := { s.cmd with ideUse := tset 0 s.cmd.ideUse (ideNo k x) 0 } }

/-- The selective stream that a function's TLPs leave by: that of its TDI in RUN (R14). -/
def outStream (s : State) (fn : Nat) : Option Nat :=
  if fn != 0 && (tdi s fn).state == .run then (tdi s fn).stream else none

/-- A TLP of a function leaves by the host port. In RUN it goes on the function's selective stream, encrypted and with its
MAC under the key in use of its sub-stream, 0 posted, 1 non-posted, 2 completion (R5, R14, R203). The TLP's form and its
protection are PCIe's (PRESUMED, log entry 82). Without a key in use nothing leaves. -/
def sendTlp (s : State) (fn : Nat) (sub : Fin 3) (addr : Nat) (b : Bytes) : State :=
  match outStream s fn with
  | none => s
  | some k => match ideInUse s k ⟨sub, true⟩ with
    | none => s
    | some key =>
      let n := ideUsed s k ⟨sub, true⟩
      let c := Config.ideSeal key sub.val n (Config.tlpForm fn sub.val addr b)
      emit (ideCount s k ⟨sub, true⟩) (.ide k sub c (Config.ideMac key sub.val n c))

/-! ## Events and interrupts (R237, R238) -/

/-- Handle field of an event that is no fence signal. -/
def evHandle (pid type : Nat) : BitVec 32 := BitVec.ofNat 32 (pid * 2 ^ 27 + type * 65536 + 0xFFFF)

/-- An event entry: bytes 0-3, 4-7, 8-14, 15. -/
def evWord (b0 b4 : BitVec 32) (b8 : Nat) (b15 : Nat) : BitVec 128 :=
  BitVec.ofNat 8 b15 ++ BitVec.ofNat 56 b8 ++ b4 ++ b0

/-- The event ring is full (R237). -/
def evtFull (e : Evt) : Bool := (e.prod + 1) % 2 ^ e.elog2 == e.cons

/-- An MSI-X message leaves, on its function's stream (R14). -/
def sendVec (s : State) (fn vec : Nat) : State := emit (sendTlp s fn 0 vec []) (.msix fn vec (outStream s fn))

/-- Raise a vector of a function, at most once per MOD microseconds (R237). -/
def raiseVec (s : State) (fn vec : Nat) : State :=
  let k := fn * 2048 + vec
  let m := tget ({} : Moder) s.cmd.msix k
  if !m.raised || m.last + (evt s fn).mod ≤ now s then
    sendVec { s with cmd := { s.cmd with
      msix := tset {} s.cmd.msix k { last := now s, raised := true, deferred := false } } } fn vec
  else
    { s with cmd := { s.cmd with msix := tset {} s.cmd.msix k { m with deferred := true } } }

/-- The block can write the next entry of an event ring: in host memory by its function's path, in device memory through
master port 0xE2 where the engines grant it (R18, R124, R237). -/
def evtAreaOk (s : State) (fn : Nat) : Bool :=
  let e := evt s fn
  if e.loc then hostPathOk s fn else rangeOk s fn (e.base.toNat + 16 * e.prod) 16 rDWR

/-- The block writes bytes to a ring area of a function, in the host or in device memory (R224, R237). -/
def ringWrite (s : State) (n : Nat) (host : Bool) (addr : Nat) (b : Bytes) : State :=
  if host then sendTlp s n 0 addr b else passOwn s n addr b.length true true

/-- Write an event entry, or drop it (R237). One that the engines deny is dropped likewise (DESIGN CHOICE, log entry
116). -/
def putEvent (s : State) (fn : Nat) (w : BitVec 128) : State :=
  let e := evt s fn
  if e.en && !evtFull e && evtAreaOk s fn then
    emit (ringWrite (setEvt s fn { e with prod := (e.prod + 1) % 2 ^ e.elog2 }) fn e.loc (e.base.toNat + 16 * e.prod)
      (leBytes 16 w.toNat)) (.event fn e.prod (pathOf s fn e.loc) w)
  else setEvt s fn { e with overflow := true, dropped := inc16 e.dropped }

/-- Post an event that is no fence signal: the ring's VECTOR is raised while the ring is enabled. -/
def postEvent (s : State) (fn : Nat) (w : BitVec 128) : State :=
  let s1 := putEvent s fn w
  if (evt s fn).en then raiseVec s1 fn (evt s fn).vector else s1

/-- Post a fence event: the fence's VECTOR is raised when IRQ is set, dropped or not. -/
def postFence (s : State) (fn vec : Nat) (irq : Bool) (w : BitVec 128) : State :=
  let s1 := putEvent s fn w
  if irq then raiseVec s1 fn vec else s1

/-- Post an event on the operator's ring; of a confidential partition it carries type, PID and status
alone (R238). -/
def postOperator (s : State) (pid type : Nat) (b0 : BitVec 32) (b8 b15 : Nat) : State :=
  if (part s pid).conf then postEvent s 0 (evWord 0 (evHandle pid type) 0 b15)
  else postEvent s 0 (evWord b0 (evHandle pid type) b8 b15)

/-- Post an event on the tenant's ring and on the operator's. -/
def postBoth (s : State) (pid type : Nat) (b0 : BitVec 32) (b8 b15 : Nat) : State :=
  let s1 := if pid == 0 then s else postEvent s pid (evWord b0 (evHandle pid type) b8 b15)
  postOperator s1 pid type b0 b8 b15

/-- Set FAULT of a ring and post RING_FAULT (R224). -/
def ringFault (s : State) (n : Nat) : State :=
  let r := ring s n
  postEvent (setRing s n { r with fault := true }) n
    (evWord 0 (evHandle n 7) r.head (statusCode .errPerm))

/-! ## Frames handed to the egress engines -/

/-- Hand a frame of this chip to the router, or to the ADMIT port it leaves by (R55, R64, R165). -/
def push (s : State) (f : OutFrame) : State :=
  if f.via < 36 then setLink s f.via { link s f.via with ctlq := (link s f.via).ctlq ++ [f] }
  else { s with ridge := { s.ridge with outq := s.ridge.outq ++ [f] } }

/-- A RANGE frame of this chip (R57, R64): to a node, or through an ADMIT port with DST_NODE 0 (R55). -/
def pushRange (s : State) (dst via : Nat) (payload : Bytes) : State :=
  push s { client := 33, via := via, inner := {
    cls := 2, len := BitVec.ofNat 13 payload.length, srcNode := BitVec.ofNat 14 s.range.nodeId,
    dstNode := if via < 36 then 0 else BitVec.ofNat 14 dst, payload := payload } }

/-- The 32 bytes of a reply (R229). -/
def replyBytes (st : Status) (b1 : Nat) (opcode form : BitVec 8) (seq ptag : BitVec 16) (result : BitVec 192) :
    Bytes :=
  leBytes 1 (statusCode st) ++ leBytes 1 b1 ++ [opcode, form] ++ leBytes 2 seq.toNat ++ leBytes 2 ptag.toNat ++
  leBytes 24 result.toNat

/-! ## Replies -/

/-- Take one from a ring's INFLIGHT. -/
def lessInflight (s : State) (n : Nat) : State :=
  setRing s n { ring s n with inflight := (ring s n).inflight - 1 }

/-- The 32 bytes of a reply go to its ring's reply area; those of the internal ring stay in the SCU's data SRAM (R223). -/
def replyWrite (s : State) (t : Ticket) (b : Bytes) : State :=
  if t.ring == 33 then s else ringWrite s t.ring (ring s t.ring).loc ((ring s t.ring).rbase.toNat + t.idx * 32) b

/-- Write the reply entry of a command and complete it: reply, then COMPLETION (R226, R229, R237). -/
def finishWith (s : State) (t : Ticket) (st : Status) (ronce : Bool) (result : BitVec 192) : State :=
  let pid := tagPid t.ptag
  let tagAfter := if st == .ok && pid != 0 then curTag s pid else t.ptag
  let s0 := if t.opcode == 0x73 && st != .ok then
    { s with keys := { s.keys with dbgDeny := inc32 s.keys.dbgDeny } } else s
  let s1 := lessInflight s0 t.ring
  if t.ring == 32 then pushRange s1 t.src t.via (replyBytes st (b2n t.phase * 128) t.opcode t.form t.seq tagAfter result)
  else if t.mute then s1
  else
    let bytes := replyBytes st (b2n t.phase * 128 + b2n ronce * 64) t.opcode t.form t.seq tagAfter result
    let s2 :=
      if t.ring == 33 || ringAreaOk s t.ring (ring s t.ring).rbase (t.idx * 32) 32 rDWR then
        emit (replyWrite s1 t bytes) (.reply t.ring t.idx (ringPath s t.ring)
          { status := st, phase := t.phase, ronce := ronce, opcode := t.opcode, form := t.form,
            seq := t.seq, ptag := tagAfter, result := result })
      else ringFault s1 t.ring
    if t.irq && t.ring != 33 then
      postEvent s2 t.ring (evWord t.cookie (evHandle t.ring 1)
        (t.seq.toNat + t.opcode.toNat * 65536) (statusCode st))
    else s2

/-- Complete a command whose result is ordinary. -/
def finish (s : State) (t : Ticket) (st : Status) (result : BitVec 192 := 0) : State :=
  finishWith s t st false result

/-- Complete every started command that passes a test, with one status. -/
def finishWaits (s : State) (p : Wait → Bool) (st : Status) (result : BitVec 192 := 0) : State :=
  let hit := s.cmd.waits.filter p
  let s1 := { s with cmd := { s.cmd with waits := s.cmd.waits.filter fun w => !p w } }
  hit.foldl (fun s w => finish s w.tkt st result) s1

/-- The first started command that passes a test. -/
def findWait (s : State) (p : Wait → Bool) : Option Wait := s.cmd.waits.find? p

/-- Result bytes from byte 8 on, as a number: (reply byte, value) pairs. -/
def resultOf : List (Nat × Nat) → BitVec 192
  | [] => 0
  | (b, v) :: t => BitVec.ofNat 192 (v * 2 ^ (8 * (b - 8))) ||| resultOf t

/-! ## The path of a command -/

/-- Parameter of `n` bits at packet byte `b` (16 to 63). -/
def parm (p : Pkt) (b n : Nat) : Nat := bits p.params.toNat (8 * (b - 16)) n

/-- One bit of packet byte `b`. -/
def parmBit (p : Pkt) (b i : Nat) : Bool := p.params.getLsbD (8 * (b - 16) + i)

/-- Packet bytes `b` to `b + n - 1`. -/
def parmBytes (p : Pkt) (b n : Nat) : Bytes := leBytes n (parm p b (8 * n))

/-- A draw may be made now: the last health-test window passed, and the source has not failed (R255, R275). -/
def drawOk (s : State) : Bool := s.keys.entConsec == 0 && !s.keys.entFailed

end Sys2Proof.Machine
end

