-- ==== Sys2Proof/Machine/Frames.lean ====
section
/-! DEFINITION. Forming and reading the contents of ridge frames: inner header, descriptor, bodies
(R53, R57, R58, R189). -/

namespace Sys2Proof.Machine

/-! ## Class codes (R57) -/

def clsScree : BitVec 4 := 0x0
def clsCtrl : BitVec 4 := 0x1
def clsRange : BitVec 4 := 0x2
def clsLoad : BitVec 4 := 0x3
def clsResp : BitVec 4 := 0x4
def clsStore : BitVec 4 := 0x5
def clsSeam : BitVec 4 := 0x6
def clsAtomic : BitVec 4 := 0x7
def clsStream : BitVec 4 := 0x8
def clsOwn : BitVec 4 := 0x9
def clsBulkWr : BitVec 4 := 0xA
def clsBulkRd : BitVec 4 := 0xB
def clsBulkData : BitVec 4 := 0xC
def clsFold : BitVec 4 := 0xD

/-- Credit pool of a class (R57): 0 none, 1 REQ, 2 RSP, 3 BULK, 4 FOLD. -/
def poolOf (c : BitVec 4) : Nat :=
  if c == 0x0 || c == 0x1 || c == 0x2 then 0
  else if c == clsResp then 2
  else if c == clsBulkWr || c == clsBulkData then 3
  else if c == clsFold then 4
  else 1

/-- Flits of a pool. -/
def poolGet (p : Pools) (n : Nat) : Nat :=
  if n == 1 then p.req else if n == 2 then p.rsp else if n == 3 then p.bulk else if n == 4 then p.fold else 0

/-- Set the flits of a pool. -/
def poolSet (p : Pools) (n v : Nat) : Pools :=
  if n == 1 then { p with req := v } else if n == 2 then { p with rsp := v }
  else if n == 3 then { p with bulk := v } else if n == 4 then { p with fold := v } else p

/-- Credits of a pool go back to the peer of a port that has a session (R81). -/
def owe (s : State) (p : Nat) (cls : BitVec 4) (flits : Nat) : State :=
  let l := link s p
  let n := poolOf cls
  if l.state == .opened || l.state == .probing then
    setLink s p { l with owed := poolSet l.owed n (poolGet l.owed n + flits) }
  else s

/-- Longest frame a class may have outside scree mode (R57); 0 for a reserved class. -/
def maxFlits (c : BitVec 4) : Nat :=
  if c == clsBulkWr || c == clsBulkData || c == clsFold || c == clsScree then 16
  else if c == 0xE || c == 0xF then 0 else 1

/-- RESP kinds (R58). -/
def kLoad : BitVec 8 := 0x01
def kAtomic : BitVec 8 := 0x02
def kGrant : BitVec 8 := 0x03
def kSeamAck : BitVec 8 := 0x04
def kSeamFail : BitVec 8 := 0x05
def kBulkDone : BitVec 8 := 0x06
def kStoreFault : BitVec 8 := 0x07
def kFenceAck : BitVec 8 := 0x08
def kBulkRdFail : BitVec 8 := 0x09

/-- Bytes of a descriptor (R58). -/
def descBytes (d : Desc) : Bytes :=
  leBytes 6 d.off.toNat ++ leBytes 1 d.op.toNat ++ leBytes 1 d.size.toNat ++ leBytes 5 d.id40.toNat ++
  leBytes 2 (d.inc.toNat * 8192 + b2n d.seg * 4096 + d.stream.toNat) ++ leBytes 1 d.status.toNat

/-- The descriptor in a payload. -/
def descOf (b : Bytes) : Desc :=
  let w := le b 13 2
  { off := BitVec.ofNat 41 (le b 0 6), op := BitVec.ofNat 8 (le b 6 1), size := BitVec.ofNat 8 (le b 7 1),
    id40 := BitVec.ofNat 40 (le b 8 5), inc := BitVec.ofNat 3 (w / 8192), seg := w / 4096 % 2 == 1,
    stream := BitVec.ofNat 12 w, status := BitVec.ofNat 8 (le b 15 1) }

/-- Flits that a frame with a payload of `n` bytes takes outside scree mode (R51). -/
def flitsFor (n : Nat) : Nat := (n + 48 + 255) / 256

/-- The inner header of a frame that this chip originates (R53, R55). -/
def innerOf (s : State) (cls : BitVec 4) (dst : Nat) (sptag dptag : BitVec 16) (payload : Bytes) : Inner :=
  { cls := cls, len := BitVec.ofNat 13 payload.length, srcNode := BitVec.ofNat 14 s.range.nodeId,
    dstNode := BitVec.ofNat 14 dst, srcPtag := sptag, dstPtag := dptag, payload := payload }

/-- Send a frame with a descriptor and a body. -/
def sendFrame (s : State) (cls : BitVec 4) (dst : Nat) (sptag dptag : BitVec 16) (d : Desc) (body : Bytes)
    (track : Nat := 0) (retry poison : Bool := false) : State :=
  let payload := descBytes d ++ body
  push s { client := tagPid sptag, flits := flitsFor payload.length, track := track,
           inner := { innerOf s cls dst sptag dptag payload with retry := retry, poison := poison } }

/-- Send a RESP that answers a request of (node, tag) as partition `dptag` of this chip (R58). -/
def sendResp (s : State) (dst : Nat) (sptag dptag : BitVec 16) (kind : BitVec 8) (id : BitVec 40)
    (st : Status) (data : Bytes := []) (poison : Bool := false) (d : Desc := {}) : State :=
  sendFrame s clsResp dst sptag dptag
    { d with op := kind, id40 := id, status := BitVec.ofNat 8 (statusCode st),
             size := BitVec.ofNat 8 (data.length - 1) } data 0 false poison

/-- The RESP kind that answers a class's request when it fails, or `none` (R58). -/
def respKind (cls : BitVec 4) : Option (BitVec 8) :=
  if cls == clsLoad then some kLoad
  else if cls == clsAtomic then some kAtomic
  else if cls == clsStream then some kGrant
  else if cls == clsBulkWr then some kBulkDone
  else if cls == clsBulkRd then some kBulkRdFail
  else if cls == clsOwn then some kFenceAck
  else none

end Sys2Proof.Machine
end

