-- ==== Sys2Proof/Machine/PartOps.lean ====
section
/-! DEFINITION. Shared operations on contexts, fences and generations (07, 02). -/

namespace Sys2Proof.Machine

/-! ## Handles (R206) -/

/-- A handle: PID, incarnation, index. -/
def mkHandle (pid : Nat) (inc : BitVec 11) (idx : Nat) : BitVec 32 :=
  BitVec.ofNat 32 (pid * 2 ^ 27 + inc.toNat * 65536 + idx)

/-- PID of a handle. -/
def handlePid (h : BitVec 32) : Nat := h.toNat / 2 ^ 27

/-- Index of a context handle. -/
def ctxIdx (h : BitVec 32) : Nat := h.toNat % 16384

/-- Index of a fence handle. -/
def fenceIdx (h : BitVec 32) : Nat := h.toNat % 65536

/-- Handle of context `i` as its descriptor stands. -/
def ctxHandle (s : State) (i : Nat) : BitVec 32 := mkHandle (ctx s i).pid (ctx s i).inc i

/-- Handle of fence `i` as its descriptor stands. -/
def fenceHandle (s : State) (i : Nat) : BitVec 32 := mkHandle (fence s i).pid (fence s i).inc i

/-- A context handle matches its descriptor. -/
def ctxMatch (s : State) (h : BitVec 32) : Bool :=
  (ctx s (ctxIdx h)).state != .free && h == ctxHandle s (ctxIdx h)

/-- A fence handle matches a LIVE or ERROR descriptor. -/
def fenceMatch (s : State) (h : BitVec 32) : Bool :=
  (fence s (fenceIdx h)).state != .free && fenceIdx h != 0xFFFF && h == fenceHandle s (fenceIdx h)

/-- The lowest index from `i` on that is not used; `fuel` bounds the search. -/
def lowest (used : Nat → Bool) : Nat → Nat → Nat
  | 0, i => i
  | f + 1, i => if used i then lowest used f (i + 1) else i

/-- Contexts of a PID that are not FREE, by index. -/
def ctxsOf (s : State) (pid : Nat) : List Nat :=
  (s.part.ctxs.filter fun e => e.2.state != .free && e.2.pid == pid).map (·.1)

/-- Fences of a PID that are not FREE, by index. -/
def fencesOf (s : State) (pid : Nat) : List Nat :=
  (s.part.fences.filter fun e => e.2.state != .free && e.2.pid == pid).map (·.1)

/-- Resident contexts of the chip. -/
def residents (s : State) : List (Nat × Ctx) := s.part.ctxs.filter fun e => e.2.state == .resident

/-- Resident slots in use (R209, R221). -/
def residentCount (s : State) : Nat := (residents s).length

/-- Fence descriptors not FREE (R221). -/
def fenceCount (s : State) : Nat := tcount s.part.fences fun f => f.state != .free

/-- The lowest free resident slot (DESIGN CHOICE, log entry 10). -/
def freeSlot (s : State) : Nat :=
  lowest (fun n => (residents s).any fun e => e.2.slot == n) 64 0

/-- The lowest FREE context descriptor (DESIGN CHOICE, log entry 10). -/
def freeCtx (s : State) : Nat :=
  lowest (fun n => (ctx s n).state != .free) s.part.ctxs.length 0

/-- The lowest FREE fence descriptor (DESIGN CHOICE, log entry 10). -/
def freeFence (s : State) : Nat :=
  lowest (fun n => (fence s n).state != .free) s.part.fences.length 0

/-! ## Fences (R216 to R218) -/

/-- Release a waiter: its fence wait ends and the scheduler is told the status. -/
def wake (s : State) (i : Nat) (status : BitVec 8) : State :=
  emit (setCtx s i { ctx s i with waitFence := 0xFFFFFFFF, waitValue := 0 }) (.schedWake i status)

/-- Resident contexts that wait on a fence and pass a test. -/
def waiters (s : State) (h : BitVec 32) (p : Ctx → Bool) : List Nat :=
  ((residents s).filter fun e => e.2.waitFence == h && p e.2).map (·.1)

/-- The event of a fence signal (R218). -/
def fenceEvent (f : Fence) (h : BitVec 32) (v : BitVec 64) : BitVec 128 :=
  evWord f.cookie h (v.toNat % 2 ^ 56) f.err.toNat

/-- What a signal came to. -/
inductive Signal where
  | stale | applied | ooo | oooStrict
  deriving DecidableEq, Repr

/-- The signal sequence of R216. `status` 0 is a value signal. -/
def signalFence (s : State) (h : BitVec 32) (v : BitVec 64) (status : BitVec 8) (ptag : BitVec 16) :
    State × Signal :=
  let i := fenceIdx h
  let f := fence s i
  if !tagCurrent s ptag then
    (partCtr s fun c => { c with fenceStale := inc32 c.fenceStale }, .stale)
  else if status != 0 then
    let f1 := if f.state == .live then { f with state := .error, err := status } else f
    let s1 := setFence s i f1
    let s2 := (waiters s1 h fun _ => true).foldl (fun s c => wake s c f1.err) s1
    (postFence s2 f.pid f.vector.toNat f.irq (fenceEvent f1 h f.value), .applied)
  else if v ≤ f.value then
    (partCtr (setFence s i { f with ooo := inc32 f.ooo }) fun c => { c with fenceOoo := inc32 c.fenceOoo },
      if f.strict then .oooStrict else .ooo)
  else
    let f1 := { f with value := v }
    let s1 := partCtr (setFence s i f1) fun c => { c with fenceSignals := inc32 c.fenceSignals }
    let s2 := (waiters s1 h fun c => decide (c.waitValue ≤ v)).foldl (fun s c => wake s c f1.err) s1
    (postFence s2 f.pid f.vector.toNat f.irq (fenceEvent f1 h v), .applied)

/-- A fence returns to FREE; its incarnation advances (R206). -/
def dropFence (s : State) (i : Nat) : State :=
  setFence s i { inc := (fence s i).inc + 1 }

/-- A context descriptor returns to FREE; its incarnation advances (R206). -/
def dropCtx (s : State) (i : Nat) : State :=
  setCtx s i { inc := (ctx s i).inc + 1 }

/-- A fence wait that a context brings back at CTX_LOAD RESUME (R215, R216). -/
def resumeWait (s : State) (i : Nat) : State :=
  let c := ctx s i
  if c.waitFence == 0xFFFFFFFF then s
  else if !fenceMatch s c.waitFence then wake s i (BitVec.ofNat 8 (statusCode .errStale))
  else
    let f := fence s (fenceIdx c.waitFence)
    if f.state == .error || c.waitValue ≤ f.value then wake s i f.err else s

/-! ## Losing a context (R208) -/

/-- Fault codes of R207. -/
def faultCode : CtxFault → Nat
  | .none => 0 | .access => 1 | .integrity => 2 | .peer => 3 | .remote => 4 | .seam => 5 | .bulk => 6
  | .atomic => 7 | .store => 8 | .fence => 9 | .range => 10 | .alarm => 11 | .abandon => 12
  | .reset => 13

/-- Free the DMA-engine bindings of a context. -/
def unbindDma (s : State) (i : Nat) : State :=
  { s with part := { s.part with dma := tmapAll 0 s.part.dma fun _ c => if c == i + 1 then 0 else c } }

/-- The SEAM of a lost context stays in its segment until it is answered, and its answer does nothing more (R208). -/
def loseSeg (h : BitVec 32) (g : Seg) : Seg := { g with lost := g.lost || g.seam.any fun r => r.ctx == h }

/-- A release of another context that noted a SEAM by its number, or a bulk transfer (R175 step 1). -/
def noted (s : State) (h : BitVec 32) (p : Release → Bool) : Option Release :=
  s.rmt.releases.find? fun k => k.req.ctx != h && p k

/-- A waiting write of a lost context goes. A SEAM that another context's release noted becomes that release's flush, so
that the STOREs before it are still covered (R175 step 2). -/
def keepWaiting (s : State) (h : BitVec 32) (r : RReq) : Option RReq :=
  if r.ctx != h then some r
  else if r.cls != clsSeam then none
  else (noted s h fun k => k.waits.contains r.value.toNat).map fun k =>
    { r with op := 1, size := 0, data := [], mask := [], mport := k.req.mport, ctx := k.req.ctx }

/-- A bulk write of a lost context goes, or stays as lost while another context's release waits for it. -/
def keepBulk (s : State) (h : BitVec 32) (b : BulkEnt) : Option BulkEnt :=
  if b.req.ctx != h then some b
  else (noted s h fun k => k.bulks.contains b.xfer).map fun _ => { b with lost := true }

/-- Free a context's entries in the load, write and atomic trackers (R208 step 3). What the release of another context
has noted, that release still waits for (DEDUCED from R175, log entry 122). -/
def dropTracked (s : State) (h : BitVec 32) : State :=
  { s with rmt := { s.rmt with
      loads := s.rmt.loads.filter fun l => l.req.ctx != h
      bulk := s.rmt.bulk.filterMap (keepBulk s h)
      atomics := s.rmt.atomics.filter fun a => a.req.ctx != h
      releases := s.rmt.releases.filter fun r => r.req.ctx != h
      acquires := s.rmt.acquires.filter fun a => a.ctx != h
      held := s.rmt.held.filter fun r => r.ctx != h
      streams := s.rmt.streams.map fun t =>
        { t with waiting := t.waiting.filterMap (keepWaiting s h), segs := (loseSeg h t.segs.1, loseSeg h t.segs.2) } } }

/-- Held signal entries go (R208, R211). -/
def dropSignals (s : State) (p : HeldSignal → Bool) : State :=
  { s with part := { s.part with heldSigs := s.part.heldSigs.filter fun x => !p x } }

/-- The first kill of a PID, if any: the one that has started (R220). -/
def killOf (s : State) (pid : Nat) : Option Kill := (s.part.kills.find? fun k => k.1 == pid).map (·.2)

/-- Replace the first kill of a PID. -/
def setKill (s : State) (pid : Nat) (k : Kill) : State :=
  let l := s.part.kills
  { s with part := { s.part with
      kills := l.takeWhile (fun x => x.1 != pid) ++ (pid, k) :: (l.dropWhile fun x => x.1 != pid).drop 1 } }

/-- The kill in progress of the context's PID counts the command of the lost context as stopped (R220). -/
def countStopped (s : State) (i : Nat) : State :=
  let c := ctx s i
  match killOf s c.pid with
  | some k =>
    if c.phase == .none || k.stopped.contains i then s else setKill s c.pid { k with stopped := k.stopped ++ [i] }
  | none => s

/-- Mark a context lost (R208). -/
def loseCtx (s : State) (i : Nat) (f : CtxFault) (addr : BitVec 48 := 0) (node : BitVec 14 := 0) : State :=
  let c := ctx s i
  if c.state != .resident && c.state != .evicted then s
  else
    let h := ctxHandle s i
    let s1 := countStopped s i
    let s2 := if c.phase == .none then s1 else emit s1 (.schedStop i)
    let s3 := dropSignals (dropTracked (unbindDma s2 i) h) fun x => x.ctx == h
    let s4 := setCtx s3 i { c with
      state := .lost, slot := 0, fault := f, faultAddr := addr, faultNode := node,
      waitFence := 0xFFFFFFFF, waitValue := 0, held := false, stopping := c.phase != .none }
    let s5 := setPart s4 c.pid { part s4 c.pid with lost := inc32 (part s4 c.pid).lost }
    let s6 := partCtr s5 fun k => { k with ctxLost := inc32 k.ctxLost }
    let s7 := finishWaits s6 (fun w => w.kind == .save i) .errLost
    postBoth s7 c.pid 2 h (faultCode f + node.toNat * 256) 9

/-- Mark every context of a PID lost. -/
def losePid (s : State) (pid : Nat) (f : CtxFault) : State :=
  (ctxsOf s pid).foldl (fun s i => loseCtx s i f) s

/-- Mark lost the context that issued a request, given its handle (0 for none). -/
def loseHandle (s : State) (h : BitVec 32) (f : CtxFault) (addr : BitVec 48 := 0) (node : BitVec 14 := 0) :
    State :=
  if ctxMatch s h then loseCtx s (ctxIdx h) f addr node else s

/-! ## Running commands (R210) -/

/-- A kill of the PID is in progress. -/
def killing (s : State) (pid : Nat) : Bool := s.part.kills.any fun k => k.1 == pid

/-- A context's command starts with its first access (DESIGN CHOICE, log entry 11). -/
def startCmd (s : State) (h : BitVec 32) : State :=
  let i := ctxIdx h
  let c := ctx s i
  if ctxMatch s h && c.state == .resident && c.phase == .none then
    setCtx s i { c with phase := .run, entry := c.head }
  else s

/-- An access that puts its command into COMMIT is held by a kill of its PID (R210). -/
def commitHeld (s : State) (h : BitVec 32) : Bool :=
  let c := ctx s (ctxIdx h)
  ctxMatch s h && c.state == .resident && c.phase != .commit && killing s c.pid

/-- The command of a context enters COMMIT. -/
def enterCommit (s : State) (h : BitVec 32) : State :=
  let s1 := startCmd s h
  let i := ctxIdx h
  let c := ctx s1 i
  if ctxMatch s1 h && c.state == .resident && c.phase == .run then setCtx s1 i { c with phase := .commit }
  else s1

/-- A context leaves its resident slot for EVICTED (R207). -/
def evictCtx (s : State) (i : Nat) : State :=
  let c := ctx s i
  if c.state == .resident then
    setCtx (unbindDma s i) i { c with state := .evicted, slot := 0, phase := .none, held := false }
  else s

/-- The command that a SAVE of a context waited for has ended: the context is evicted and the SAVE completes (R207). -/
def endSave (s : State) (i : Nat) : State :=
  if s.cmd.waits.any fun w => w.kind == .save i then finishWaits (evictCtx s i) (fun w => w.kind == .save i) .ok else s

/-! ## Generations (R41, R232) -/

/-- An advance of a PID's generation is asked for. -/
def askAdvance (s : State) (pid : Nat) (w : GenWhy) : State :=
  { s with part := { s.part with genWait := s.part.genWait ++ [(pid, w)] } }

/-- A pending advance of a kill is withdrawn (R220), and what the kill held goes. -/
def withdrawKill (s : State) (pid : Nat) : State :=
  { s with part := { s.part with
      heldSigs := s.part.heldSigs.filter fun x => handlePid x.ctx != pid
      genWait := s.part.genWait.filter fun g => !(g.1 == pid && g.2 == .kill)
      kills := s.part.kills.filter fun k => k.1 != pid } }

/-- Record a ring's unfetched entries for a PID (R232). -/
def setPre (s : State) (n pid : Nat) : State :=
  let r := ring s n
  setRing s n { r with pre := tset 0 r.pre pid ((r.tail + ringSize r - r.head) % ringSize r) }

/-- Write the assignment registers of a PID's ports with its current generation: every one after a kill (R211 step 5),
those of the tile ports after a function reset (R212 step 5). -/
def restamp (s : State) (pid : Nat) (p : Nat → Bool) : State :=
  let regs := s.part.asg.filter fun e => e.2.pid == pid && p e.1
  regs.foldl (fun s e => emit
    { s with part := { s.part with asg := tset {} s.part.asg e.1 { pid := pid, gen := curGen s pid } } }
    (.assign e.1 pid (curGen s pid))) s

/-- Two entries are one stream: the open stream of a partition to a node, or one that has closed, by its ID and INC. -/
def sameStream (x t : SrcStream) : Bool :=
  x.pid == t.pid && x.node == t.node && x.closed == t.closed && (!t.closed || (x.id == t.id && x.inc == t.inc))

/-- Ask the target for a stream under the tags of now (R83, R165). -/
def askStream (s : State) (t : SrcStream) : State :=
  let t1 := { t with asked := true, retryAt := none, sptag := curTag s t.pid, dptag := (peer s t.pid t.node).ptag }
  sendFrame { s with rmt := { s.rmt with streams := s.rmt.streams.map fun x => if sameStream x t then t1 else x } }
    clsStream t1.node t1.sptag t1.dptag { op := 1 } []

/-- Streams that the chip holds (R170). -/
def heldStreams (s : State) : Nat := (s.rmt.streams.filter fun t => t.asked && !t.closed).length

/-- The peer entry of a stream stamps requests: it is valid and not SILENT (R165, R201). -/
def stamps (s : State) (t : SrcStream) : Bool := (peer s t.pid t.node).valid && !(peer s t.pid t.node).silent

/-- A write that waited for one of the 4096 streams opens its own (R170), where its peer entry stamps the request. -/
def askNext (s : State) : State :=
  match s.rmt.streams.find? fun t => !t.asked && !t.closed && !t.waiting.isEmpty && stamps s t with
  | some t => if heldStreams s < 4096 then askStream s t else s
  | none => s

/-- A segment awaits the answer of its SEAM. -/
def segWaits (g : Seg) : Bool := g.seam.isSome

/-- Close an outbound stream (R170): a STREAM close goes to its target if the stream was granted. A SEAM that has no
answer yet stays in the tracker (R171). -/
def closeStream (s : State) (t : SrcStream) : State :=
  let rest := s.rmt.streams.filter fun x => !sameStream x t
  let keep := if segWaits t.segs.1 || segWaits t.segs.2 then [{ t with closed := true, waiting := [] }] else []
  let s1 := { s with rmt := { s.rmt with streams := rest ++ keep } }
  askNext (if t.granted && !t.closed then
    sendFrame s1 clsStream t.node t.sptag t.dptag { op := 0x02, stream := t.id, inc := t.inc } []
  else s1)

/-- Close every outbound stream of a PID (R211 step 5). -/
def closeStreams (s : State) (pid : Nat) : State :=
  (s.rmt.streams.filter fun t => t.pid == pid && !t.closed).foldl closeStream s

/-- Empty a tenant ring (R212 step 3, R227): unfetched commands are dropped, HEAD, TAIL, the expected
sequence number and the pass return to 0, pre-advance counts are 0, and EN stays. -/
def emptyRing (s : State) (n : Nat) : State :=
  setRing s n { ring s n with head := 0, tail := 0, seqExp := 0, oddPass := false, pre := [] }

/-- No reply is written for a command of the ring fetched before now (R227). -/
def muteRing (s : State) (n : Nat) : State :=
  { s with cmd := { s.cmd with
      fwq := s.cmd.fwq.map fun q => if q.tkt.ring == n then { q with tkt := { q.tkt with mute := true } } else q
      waits := s.cmd.waits.map fun w => if w.tkt.ring == n then { w with tkt := { w.tkt with mute := true } } else w } }

/-- Clear the read-once window of a function. -/
def clearWindow (s : State) (n : Nat) : State :=
  { s with cmd := { s.cmd with windows := tset {} s.cmd.windows n {} } }

end Sys2Proof.Machine
end

