-- ==== Sys2Proof/Machine/FoldOps.lean ====
section
/-! DEFINITION. Shared operations on fold plans, blocks and input stages (04 R98, R112, R114). -/

namespace Sys2Proof.Machine

/-- A plan by number. -/
def plan (s : State) (n : Nat) : FoldPlan := tget {} s.fold.plans n

/-- Write a plan. -/
def setPlan (s : State) (n : Nat) (p : FoldPlan) : State :=
  { s with fold := { s.fold with plans := tset {} s.fold.plans n p } }

/-- Update the counters of a unit (R122). -/
def foldCtr (s : State) (u : Nat) (f : FoldCtr → FoldCtr) : State :=
  { s with fold := { s.fold with ctr := tmod {} s.fold.ctr u f } }

/-- Frames in the input stage of a unit. -/
def inputOf (s : State) (u : Nat) : List FoldFrame := tget [] s.fold.input u

/-- Set the input stage of a unit. -/
def setInput (s : State) (u : Nat) (l : List FoldFrame) : State :=
  { s with fold := { s.fold with input := tset [] s.fold.input u l } }

/-- FOLD credits go back to the peer of a unit's port (R81, R96). -/
def oweFold (s : State) (u flits : Nat) : State := owe s u clsFold flits

/-- Fault reason codes (R114). -/
def reasonCode : FoldReason → Nat
  | .none => 0 | .timeout => 1 | .source => 2 | .format => 3 | .dup => 4 | .window => 5 | .preload => 6
  | .output => 7 | .parity => 8 | .range => 9

/-- The plan's fence, where it is a live one of the plan's partition. -/
def planFence (s : State) (p : FoldPlan) : Option Nat :=
  if p.fence != 0xFFFFFFFF && fenceMatch s p.fence && (fence s (fenceIdx p.fence)).pid == p.pid then
    some (fenceIdx p.fence) else none

/-- Signal the plan's fence to its current value plus 1 (R112). -/
def planSignal (s : State) (p : FoldPlan) : State :=
  match planFence s p with
  | some i => (signalFence s p.fence ((fence s i).value + 1) 0 (curTag s p.pid)).1
  | none => s

/-- Signal the plan's fence with an error status, which the spec leaves open (log entry 20). -/
def planError (s : State) (p : FoldPlan) (r : FoldReason) : State :=
  match planFence s p with
  | some _ => (signalFence s p.fence 0 (BitVec.ofNat 8 ((Config.foldError (reasonCode r)).val + 1)) (curTag s p.pid)).1
  | none => s

/-! ## The accumulate SRAM (R97, R117) -/

/-- A line pair. -/
def pairAt (s : State) (k : Nat) : LinePair := tget {} s.fold.sram k

/-- Write a line pair. -/
def setPair (s : State) (k : Nat) (x : LinePair) : State :=
  { s with fold := { s.fold with sram := tset {} s.fold.sram k x } }

/-- The committed copy of a pair, and its parity bits. -/
def committed (x : LinePair) : List (BitVec 32) × List Bool := if x.sel then (x.copy1, x.par1) else (x.copy0, x.par0)

/-- Even parity bit of a word. -/
def parityOf (v : BitVec 32) : Bool := ((List.range 32).filter fun i => v.getLsbD i).length % 2 == 1

/-- A word of the committed copy does not agree with its parity bit. -/
def parityBad (x : LinePair) : Bool := (committed x).1.map parityOf != (committed x).2

/-- Words written to the uncommitted copy. -/
def writeOther (x : LinePair) (l : List (BitVec 32)) : LinePair :=
  if x.sel then { x with copy0 := l, par0 := l.map parityOf } else { x with copy1 := l, par1 := l.map parityOf }

/-- An upset inverts a bit of a copy. -/
def upset (s : State) (u : Nat) (f : Upset) : State :=
  let k := u * 4096 + f.pair.val
  let x := pairAt s k
  let turn := fun (l : List (BitVec 32)) => l.modify (f.bit.val / 32) fun v => v ^^^ (1#32 <<< (f.bit.val % 32))
  setPair s k (if f.copy then { x with copy1 := turn x.copy1 } else { x with copy0 := turn x.copy0 })

/-- Line pair `j` of the slot of a chunk (R97, R110). -/
def slotPair (p : FoldPlan) (chunk j : Nat) : Nat :=
  p.unit * 4096 + (p.blkFirst + chunk % p.slots * fmtBlocks p.inFmt) * 64 + j

/-- A slot opens: its INIT bits are cleared (R110). -/
def openSlot (s : State) (p : FoldPlan) (chunk : Nat) : State :=
  (List.range (64 * fmtBlocks p.inFmt)).foldl (fun s j =>
    let k := slotPair p chunk j
    setPair s k { pairAt s k with init := false }) s

/-- Both copies of every pair of a block, with SEL and INIT, become zero (R98). -/
def clearBlock (s : State) (b : Nat) : State :=
  { s with fold := { s.fold with sram := s.fold.sram.filter fun e => e.1 / 64 != b } }

/-- An armed plan faults: open slots abandoned, its fence signalled with an error (R112). Chunks already emitted are not
undone (R117). -/
def faultPlan (s : State) (n : Nat) (r : FoldReason) : State :=
  let p := plan s n
  if p.state != .armed then s
  else planError (foldCtr (setPlan s n { p with state := .faulted, reason := r, chunks := [] }) p.unit
    fun c => { c with faults := inc32 c.faults }) p r

/-- Blocks of a plan: unit * 64 + block. -/
def planBlocks (p : FoldPlan) : List Nat := span (p.unit * 64 + p.blkFirst) (p.slots * fmtBlocks p.inFmt)

/-- Blocks leave their PID and are zeroed (R98). -/
def zeroBlocks (s : State) (l : List Nat) : State :=
  let held := l.filter fun b => tget 0 s.fold.blocks b != 0
  { s with fold := { s.fold with
      blocks := held.foldl (fun t b => terase t b) s.fold.blocks
      zeroing := s.fold.zeroing ++ held.filter fun b => !s.fold.zeroing.contains b } }

/-- Started DISARM FORCE commands of a plan that something else has freed complete with a status. -/
def endDisarms (s : State) (n : Nat) (st : Status) : State :=
  finishWaits s (fun w => match w.kind with
    | .disarm _ k => k == n
    | _ => false) st

/-- Input-stage frames that pass a test are discarded and their credits returned. -/
def dropInput (s : State) (p : FoldFrame → Bool) : State :=
  allUnits.foldl (fun s u =>
    let l := inputOf s u
    let gone := l.filter p
    if gone.isEmpty then s
    else gone.foldl (fun s f => oweFold s u f.flits) (setInput s u (l.filter fun f => !p f))) s
where
  allUnits : List Nat := List.range 36

/-- Teardown of an owner: its plans are FREE, its input-stage frames discarded, its blocks zeroed (R112,
R214 step 4). -/
def foldTeardown (s : State) (pid : Nat) : State :=
  let ps := (s.fold.plans.filter fun e => e.2.state != .free && e.2.pid == pid).map (·.1)
  let s1 := ps.foldl (fun s n => endDisarms (setPlan s n {}) n .errLost) s
  let bs := (s1.fold.blocks.filter fun e => e.2 == pid + 1).map (·.1)
  zeroBlocks (dropInput s1 fun f => tagPid f.dptag == pid) bs

/-- What quarantine does to the fold units (R98, R112). -/
def foldQuarantine (s : State) : State :=
  let ps := (s.fold.plans.filter fun e => e.2.state != .free).map (·.1)
  let s1 := ps.foldl (fun s n => endDisarms (setPlan s n {}) n .errState) s
  zeroBlocks (dropInput s1 fun _ => true) (s1.fold.blocks.map (·.1))

/-- The chip leaves MEMBER and REFORMING: armed plans of confidential partitions fault with RANGE (R112). -/
def foldLeaveRange (s : State) : State :=
  let ps := (s.fold.plans.filter fun e => e.2.state == .armed && (part s e.2.pid).conf).map (·.1)
  ps.foldl (fun s n => faultPlan s n .range) s

end Sys2Proof.Machine
end

