-- ==== Sys2Proof/Machine/Alarm.lean ====
section
/-! DEFINITION. Security alarms, their levels and escalation, quarantine and zeroise (00 R12, 02 R31,
09 R265, 11 R323, 13 R369). -/

namespace Sys2Proof.Machine

/-- Class codes 0x01 to 0x0A (R238). -/
def alarmCode : AlarmClass → Nat
  | .memTag => 1 | .linkTag => 2 | .keySlot => 3 | .ironDual => 4 | .tarnV => 5 | .tarnT => 6
  | .tarnF => 7 | .glitch => 8 | .tamper => 9 | .fw => 10

/-- Level codes (R238). -/
def levelCode : Level → Nat
  | .notice => 0 | .partition => 1 | .quarantine => 2 | .zeroise => 3

/-- Tarn writes an entry: it takes its SEQ, and the ring keeps the last 64 (R393, R394). -/
def writeLog (s : State) (e : LogEntry) : State :=
  let t := s.tarn
  { s with tarn := { t with
    log := { e with seq := t.logTotal } :: t.log.take 63, logTotal := (t.logTotal + 1) % 65536 } }

/-- An entry for an event of now (R393). -/
def entryNow (s : State) (kind level source pid detail : Nat) : LogEntry :=
  { time := s.tarn.now, kind := kind, level := level, source := source, pid := pid, detail := detail, seq := 0 }

/-- An event of Tarn's own enters the log directly (R394). -/
def logEntry (s : State) (kind level source pid detail : Nat) : State :=
  writeLog s (entryNow s kind level source pid detail)

/-- An alarm of the block enters the 8-deep alarm-log FIFO; while that is full it is not logged and DROPPED counts it
(R388, R394). -/
def queueEntry (s : State) (kind level source pid detail : Nat) : State :=
  if s.alarm.fifo.length < 8 then
    { s with alarm := { s.alarm with fifo := s.alarm.fifo ++ [entryNow s kind level source pid detail] } }
  else { s with tarn := { s.tarn with logDropped := min 255 (s.tarn.logDropped + 1) } }

/-- Tarn writes what stands in the FIFO, in arrival order (R394). -/
def drainLog (s : State) : State :=
  s.alarm.fifo.foldl writeLog { s with alarm := { s.alarm with fifo := [] } }

/-- The higher of two levels. -/
def maxLevel (a b : Level) : Level := if levelCode a < levelCode b then b else a

/-- Post RANGE_STATE on the operator's ring and on those of confidential partitions (R238). -/
def postRangeState (s : State) : State :=
  let b8 := membCode s.range.memb + s.range.epoch.toNat * 256
  let tenants := (s.part.parts.filter fun e => e.2.state != .free && e.2.conf).map (·.1)
  tenants.foldl (fun s n => postEvent s n (evWord 0 (evHandle n 8) b8 0))
    (postEvent s 0 (evWord 0 (evHandle 0 8) b8 0))

/-- Move to a membership state and report it. -/
def setMemb (s : State) (m : Memb) : State :=
  if s.range.memb == m then s else postRangeState { s with range := { s.range with memb := m } }

/-- What a session leaves for the next one under its range epoch (R61): an ADMIT session, which has a key of its own,
leaves the former value. -/
def keptSeq (l : Link) : Option (BitVec 30 × BitVec 64) :=
  match l.state, l.txCur with
  | .opened, some k => some (k.epoch, l.txSeq)
  | .probing, some k => some (k.epoch, l.txSeq)
  | _, _ => l.kept

/-- A port's session ends: keys and every unit but the atomic replay cache are cleared (R49). -/
def dropSession (l : Link) (st : PortState) : Link :=
  { l with
    kept := keptSeq l, grant := {}, transitq := [], lclk := 0, slots := freeRel,
    state := st, txCur := none, txNext := none, rxCur := none, rxOther := none, rxPrev := false,
    prevFrames := 0, prevSince := 0, epochFlip := false, txFrames := 0, txFirst := none,
    txSeq := 0, flipDue := false, lastFlip := none, wins := [], retrying := none, closing := false,
    buckets := [], ctlBucket := 0, rrClient := 0, lastPool := [], credits := {}, owed := {}, ctlq := [] }

/-- A transit frame of an egress queue leaves it unsealed because the port is not in OPEN (R411). -/
def noRoute (p : Nat) (s : State) (h : Handed) : State :=
  linkCtr (owe s h.t.via h.t.inner.cls h.t.flits) p fun c => { c with noroute := inc32 c.noroute }

/-- Move a port to OFF or DOWN; the last time a port was OPEN is kept (R361), and transit frames handed to it are
discarded (R411). -/
def portTo (s : State) (p : Nat) (st : PortState) : State :=
  let l := link s p
  let s1 := if l.state == .opened then { s with range := { s.range with openAt := now s } } else s
  l.transitq.foldl (noRoute p) (setLink s1 p (dropSession l st))

/-- Every port of the chip. -/
def allPorts : List Nat := List.range 36

/-- Started LINK_SESSION OPEN and CLOSE commands of every port end with a status. -/
def endLinkWaits (s : State) (st : Status) : State :=
  finishWaits s (fun w => match w.kind with | .linkOpen _ => true | .linkClose _ => true | _ => false) st

/-- RINSE_DONE of a ticket (R238, R323); while the SCU is down it waits for the restart (R333). -/
def postRinseDone (s : State) (k : RinseTkt) (st : Status) : State :=
  if s.boot.scuUp then postEvent s 0 (evWord (BitVec.ofNat 32 k.id) (evHandle 0 6) k.rinsed (statusCode st))
  else { s with mem := { s.mem with doneDue := s.mem.doneDue ++ [(k, st)] } }

/-- What waited for the SCU's restart is posted (R333). -/
def postDue (s : State) : State :=
  s.mem.doneDue.foldl (fun s x => postRinseDone s x.1 x.2) { s with mem := { s.mem with doneDue := [] } }

/-- Quarantine or zeroise stops the running ticket and ends every queued one (R323). -/
def stopRinse (s : State) : State :=
  let live := s.mem.tickets.filter fun k => k.state == .queued || k.state == .running
  let s1 := { s with mem := { s.mem with
    rinseKey := none
    tickets := s.mem.tickets.map fun k =>
      if k.state == .queued || k.state == .running then { k with state := .stopped } else k } }
  live.foldl (fun s k => postRinseDone s k .errState) s1

/-- Clear a KSA slot: key, policy and check; its incarnation advances as at every write (R257), and BAD stays (R259). -/
def clearSlot (s : State) (i : Nat) : State := setSlot s i { inc := (slot s i).inc + 1, bad := (slot s i).bad }

/-- What a quarantined chip keeps of the range: its identity, the counters, the messages seen, and the outstanding
requests of commands that end by their own timer. It takes no part in a join, an advance or a probe any more (R31, R47). -/
def quarantineRange (r : RangeState) : RangeState :=
  { memb := r.memb, paired := r.paired, test := r.test, rangeId := r.rangeId, epoch := r.epoch, minSvn := r.minSvn,
    afs := r.afs, nextSeq := r.nextSeq, seen := r.seen, reasm := r.reasm, heardAt := r.heardAt, beatAt := r.beatAt,
    openAt := r.openAt, pair := { r.pair with offer := none }, ctr := r.ctr
    sent := r.sent.filter fun x => match x.why with | .bind _ _ => true | .setkey _ => true | _ => false }

/-- The slot that a drawn range key waits in (R23). -/
def advSlot (s : State) : List Nat := match s.range.adv with
  | some a => [a.slot]
  | none => []

/-- Slots of the range and of agreements that end with the membership: range keys, and admission keys: slot 6 as a joiner, a pool slot for each relay (R263). -/
def rangeSlots (s : State) : List Nat :=
  [2, 3, 6] ++ advSlot s ++ s.range.relays.map (·.slot)

/-- The chip enters QUARANTINED (R12, R31, R62, R195, R323). -/
def quarantine (s : State) : State :=
  if s.range.memb == .quarantined then s
  else
    let pids := (s.part.parts.filter fun e => e.2.state != .free).map (·.1)
    let s1 := pids.foldl (fun s n => losePid s n .alarm) s
    let s2 := endLinkWaits (allPorts.foldl (fun s p => portTo s p .off) s1) .errState
    let s3 := foldQuarantine (stopRinse s2)
    let s4 := (rangeSlots s3).foldl clearSlot s3
    let s5 := finishWaits s4 (fun w => match w.kind with
      | .rangeJoin => true | .rangeLeave => true | .epochAdvance _ => true | _ => false) .errState
    let s6 := { s5 with
      alarm := { s5.alarm with quar := true }
      boot := { s5.boot with alarmN := true }
      keys := { s5.keys with dbg := none }
      range := quarantineRange s5.range }
    setMemb s6 .quarantined

/-- A boot under way stops at its step with a cause (R280). -/
def bootStop (s : State) (cause : Nat) : State :=
  if s.boot.step == 0 || s.boot.rdy || s.boot.everReady || s.boot.failStep != 0 then s
  else { s with boot := { s.boot with failStep := s.boot.step, cause := cause, scuUp := false } }

/-- The flash-clear path of R265: every KSA slot, every key register of an engine, the Iron contexts, and the ephemeral keys
of a pairing offer in the PKE's operand memory. -/
def flashClear (s : State) : State :=
  let s1 := { s with
    keys := { s.keys with slots := tmapAll {} s.keys.slots (fun _ k => { inc := k.inc }), chkKey := 0 }
    mem := { s.mem with keys := [], rinseKey := none, tree := 0, ikey := 0 }
    part := { s.part with ide := tmapAll {} s.part.ide fun _ x => { assoc := x.assoc } }
    iron := { s.iron with bufs := [], fw := [], ctxs := tmapAll {} s.iron.ctxs fun _ c =>
      if c.state == .opened || c.state == .held then { last := c.last, consumed := c.consumed } else c }
    range := { s.range with pair := { s.range.pair with offer := none } } }
  allPorts.foldl (fun s p => setLink s p { link s p with
    txCur := none, txNext := none, rxCur := none, rxOther := none }) s1

/-- The zeroise line (R265); before QB_RDY boot stops with cause ZEROISE (R308). -/
def zeroise (s0 : State) : State :=
  let s1 := flashClear (bootStop s0 9)
  quarantine (emit { s1 with
    keys := { s1.keys with zeroised := true }, boot := { s1.boot with alarmN := true } } .zeroiseLine)

/-- Alarms of a class within a time, the newest included. -/
def recent (s : State) (cls : AlarmClass) (us : Nat) : List AlarmHist :=
  s.alarm.hist.filter fun h => h.cls == cls && decide (now s ≤ h.time + us)

/-- Distinct ports in a history. -/
def portsIn (l : List AlarmHist) : Nat := ((l.map (·.port)).eraseDups).length

/-- Hardware escalation by counts (R369, R260). -/
def escalate (s : State) (cls : AlarmClass) (pid : Nat) : Level :=
  match cls with
  | .memTag =>
    if (recent s .memTag 1000000).length ≥ 64 then .quarantine
    else if ((recent s .memTag 1000000).filter fun h => h.pid == pid).length ≥ 8 then .partition
    else .notice
  | .linkTag => if portsIn (recent s .linkTag 10000000) ≥ 4 then .quarantine else .notice
  | .keySlot => if (recent s .keySlot 1000000).length ≥ 5 then .zeroise else .notice
  | .fw => if (recent s .fw 60000000).length ≥ 3 then .quarantine else .notice
  | _ => .notice

/-- Raise an alarm of a class at least at a level, against a PID (0 for none), from a port (36 for
none): counts, log entry with its SOURCE and DETAIL, ALARM event, actions of the level reached (R12, R369,
R393). Tarn's own alarms enter the log directly, every other through the FIFO (R394); those at partition level or above
count since QB_RDY for measurement index 9 (R300). -/
def raiseAlarm (s : State) (cls : AlarmClass) (pid : Nat) (lvl : Level) (port : Nat := 36) (src : Nat := 0xFF)
    (detail : Nat := 0) (tarn : Bool := false) : State :=
  let h : AlarmHist := { cls := cls, pid := pid, port := port, time := now s }
  let keep := s.alarm.hist.filter fun x => decide (now s ≤ x.time + 60000000)
  let s1 := { s with alarm := { s.alarm with hist := h :: keep } }
  let l := maxLevel lvl (escalate s1 cls pid)
  let c := alarmCode cls
  let s2 := { s1 with alarm := { s1.alarm with
    seen := s1.alarm.seen ||| oneHot (c - 1)
    anyRaised := true
    maxLvl := max s1.alarm.maxLvl (levelCode l)
    counts := tmod 0 s1.alarm.counts c inc32
    highCnt := if levelCode l ≥ 1 && s1.boot.everReady then tmod 0 s1.alarm.highCnt c inc16 else s1.alarm.highCnt } }
  let log := if tarn then logEntry else queueEntry
  let s3 := postBoth (log s2 c (levelCode l) src pid detail) pid 5 0 (c + levelCode l * 256) 0
  match l with
  | .notice => s3
  | .partition => losePid s3 pid .alarm
  | .quarantine => quarantine s3
  | .zeroise => zeroise s3
where
  oneHot (n : Nat) : BitVec 10 := 1#10 <<< n

end Sys2Proof.Machine
end

