-- ==== Sys2Proof/Machine/Target.lean ====
section
/-! DEFINITION. What a target does with a verified remote request before and after its memory engine: the
stream table, seams, the atomic replay cache, answers (03 R83 to R86, 06 R162 to R187). -/

namespace Sys2Proof.Machine

/-- A pair's component for a segment. -/
def segGet {α : Type} (p : α × α) (seg : Bool) : α := if seg then p.2 else p.1

/-- Set a pair's component for a segment. -/
def segSet {α : Type} (p : α × α) (seg : Bool) (x : α) : α × α := if seg then (p.1, x) else (x, p.2)

/-- An entry of the stream table. -/
def stream (s : State) (id : Nat) : Stream := tget {} s.ridge.streams id

/-- Write an entry of the stream table. -/
def setStream (s : State) (id : Nat) (t : Stream) : State :=
  { s with ridge := { s.ridge with streams := tset {} s.ridge.streams id t } }

/-- The node of a request is itself this chip's own (a quad's other members are never). -/
def sameQuad (s : State) (node : Nat) : Bool := node / 4 == s.range.nodeId / 4

/-- Nodes of one rack (R175). -/
def sameRack (s : State) (node : Nat) : Bool := node / 64 == s.range.nodeId / 64

/-- A RESP for a verified request; a store fault names the offset of the STORE (DESIGN CHOICE, log entry 37). -/
def answer (s : State) (g : Ingress) (kind : BitVec 8) (st : Status) (data : Bytes := []) (poison : Bool := false) :
    State :=
  sendResp s g.src g.dptag g.sptag kind g.desc.id40 st data poison
    { off := if kind == kStoreFault then g.desc.off else 0, inc := g.desc.inc, seg := g.desc.seg, stream := g.desc.stream }

/-- The frame is part of a stream. -/
def inStream (g : Ingress) : Bool := g.desc.stream != 0xFFF

/-- The owner and INC of a STORE or SEAM match its stream entry (R83). -/
def ownsStream (s : State) (g : Ingress) : Bool :=
  let t := stream s g.desc.stream.toNat
  t.used && t.src == g.src && t.sptag == g.sptag && t.dptag == g.dptag && t.inc == g.desc.inc

/-- Count a landed STORE of a segment, and a fault of it (R84). -/
def landStore (s : State) (g : Ingress) (fault : Bool) : State :=
  let i := g.desc.stream.toNat
  let t := stream s i
  let seg := g.desc.seg
  setStream s i { t with
    landed := segSet t.landed seg ((segGet t.landed seg + 1) % 2 ^ 28)
    fault := segSet t.fault seg (segGet t.fault seg || fault)
    idleAt := now s }

/-- A segment starts again after its seam (R84). -/
def resetSeg (s : State) (i : Nat) (seg : Bool) : State :=
  let t := stream s i
  setStream s i { t with
    landed := segSet t.landed seg 0, fault := segSet t.fault seg false, hold := segSet t.hold seg none
    idleAt := now s }

/-- A seam ends with an acknowledgement or a failure (R84). The spec gives the RESP of a failure no STATUS: it is ERR_PERM
where the segment has faulted, and ERR_STALE where the stream is freed (DESIGN CHOICE, log entry 130). -/
def endSeam (s : State) (g : Ingress) (ok : Bool) : State :=
  answer (if ownsStream s g then resetSeg s g.desc.stream.toNat g.desc.seg else s) g (if ok then kSeamAck else kSeamFail)
    (if ok then .ok else .errPerm)

/-- Free a stream entry; a seam it held fails to its source (R83, R85, R213), with ERR_STALE (log entry 130). INC stays for the next
allocation. -/
def freeStream (s : State) (i : Nat) : State :=
  let t := stream s i
  let s1 := setStream s i { inc := t.inc }
  let s2 := match t.hold.1 with
    | some h => answer s1 h.req kSeamFail .errStale
    | none => s1
  match t.hold.2 with
  | some h => answer s2 h.req kSeamFail .errStale
  | none => s2

/-- Releases that a stream entry holds are discarded as stale, without an answer (R190). -/
def dropHeldReleases (s : State) (i : Nat) : State :=
  let t := stream s i
  let keep := fun (h : Held) => h.req.desc.op.toNat % 16 != 2 && h.req.desc.op.toNat % 16 != 3
  setStream s i { t with hold := (t.hold.1.filter keep, t.hold.2.filter keep) }

/-- Streams whose target partition is `pid` are freed at an advance of its generation (R83); a release that one holds is
discarded (R190). -/
def freeStreamsOf (s : State) (pid : Nat) : State :=
  ((s.ridge.streams.filter fun e => e.2.used && tagPid e.2.dptag == pid).map (·.1)).foldl
    (fun s i => freeStream (dropHeldReleases s i) i) s

/-- An entry of a replay cache is an atomic's own: source node, source tag, atomic ID (R86). -/
def isReplay (g : Ingress) (r : Replay) : Bool := r.src == g.src && r.sptag == g.sptag && r.id == g.desc.id40

/-- Entries of an atomic under way leave the cache of the port it came by. -/
def dropPending (s : State) (g : Ingress) : State :=
  let l := link s g.via
  setLink s g.via { l with replay := l.replay.filter fun r => !(isReplay g r && r.result.isNone) }

/-- An entry of the cache of the port that an atomic came by (R86). -/
def addReplay (s : State) (g : Ingress) (result : Option (BitVec 64)) : State :=
  let l := link s g.via
  setLink s g.via { l with replay :=
    { src := g.src, sptag := g.sptag, id := g.desc.id40, result := result, at_ := now s } :: l.replay }

/-- Keep an atomic's result for 100 microseconds from its application (R86). -/
def keepResult (s : State) (g : Ingress) (result : BitVec 64) : State := addReplay (dropPending s g) g (some result)

/-- The cached result of an atomic, in any of the 36 caches (R86). -/
def replayOf (s : State) (g : Ingress) : Option (BitVec 64) :=
  allPorts.findSome? fun p => (link s p).replay.findSome? fun r => if isReplay g r then r.result else none

/-- The atomic itself is under way in a memory engine, by any port (R86: applied at most once). -/
def replayPending (s : State) (g : Ingress) : Bool :=
  allPorts.any fun p => (link s p).replay.any fun r => isReplay g r && r.result.isNone

/-- The cache of a port has no room for a further result (R86). -/
def replayFull (s : State) (p : Nat) : Bool := (link s p).replay.length ≥ 4096

/-! ## Pieces of a request (R124, R127 check 1) -/

/-- Bytes of the location of an atomic: one operand, where CAS carries two (R180; DEDUCED, log entry 121). -/
def amoSpan (code size : Nat) : Nat := (amoBytes code size).getD (size + 1)

/-- Bytes that a request covers at the target. R58 gives SIZE's use for classes other than bulk: a BULK_WR covers its
payload, and a BULK_RD the bytes of its SIZE, at most 256 (DESIGN CHOICE, log entry 89). -/
def reqLen (g : Ingress) : Nat :=
  if g.cls == clsBulkWr then g.data.length
  else if g.cls == clsAtomic then amoSpan (g.desc.op.toNat % 16) g.desc.size.toNat
  else g.desc.size.toNat + 1

/-- Bytes of the piece that starts at `pos`: up to the next 256-byte boundary. -/
def pieceLen (g : Ingress) (pos : Nat) : Nat := min (reqLen g - pos) (256 - (g.desc.off.toNat + pos) % 256)

/-- Pieces of a request. -/
def pieces (g : Ingress) : Nat := (g.desc.off.toNat + reqLen g - 1) / 256 - g.desc.off.toNat / 256 + 1

/-- What is known of a request's pieces. -/
def gather (s : State) (num : Nat) : Gather := tget {} s.ridge.parts num

/-- Write what is known of a request's pieces. -/
def setGather (s : State) (num : Nat) (x : Gather) : State :=
  { s with ridge := { s.ridge with parts := tset {} s.ridge.parts num x } }

/-- The answer to a request that its target refuses (R77, R167, R200): a RESP of its kind; a store fault. -/
def refuse (s : State) (g : Ingress) (st : Status) : State :=
  if g.cls == clsStore then answer s g kStoreFault st
  else match respKind g.cls with
    | some k => answer s g k st
    | none => s

/-- Every piece of a request is over: its answer (R84, R172, R173, R180). -/
def finishReq (s : State) (g : Ingress) (x : Gather) : State :=
  let data := ((x.got.mergeSort fun a b => a.1 ≤ b.1).map (·.2)).flatten
  if x.bad then
    if g.cls == clsSeam then endSeam s g false
    else if g.cls == clsStore && inStream g then s
    else if g.cls == clsAtomic then refuse (dropPending s g) g .errPerm
    else refuse s g .errPerm
  else if g.cls == clsLoad then answer s g kLoad .ok (if x.poison then [] else data) x.poison
  else if g.cls == clsAtomic then
    if x.poison then answer (dropPending s g) g kAtomic .ok [] true
    else answer (keepResult s g (BitVec.ofNat 64 (leNat data))) g kAtomic .ok data
  else if g.cls == clsSeam then endSeam s g (!x.poison)
  else if g.cls == clsBulkWr then answer s g kBulkDone .ok [] x.poison
  else if g.cls == clsBulkRd then
    sendFrame s clsBulkData g.src g.dptag g.sptag { g.desc with op := 0, status := 0 }
      (if x.poison then [] else data) 0 false x.poison
  else s

/-- A piece is over; with the last one the request is answered. -/
def endPiece (s : State) (g : Ingress) (x : Gather) : State :=
  let x1 := { x with ended := x.ended + 1 }
  if x1.ended ≥ pieces g then finishReq (setGather s g.num {}) g x1 else setGather s g.num x1

/-- A piece is granted or denied; with the last one a STORE of a stream has landed, faulted where one was denied
(R84). -/
def acceptPiece (s : State) (g : Ingress) (bad : Bool) : State :=
  let x := gather s g.num
  let x1 := { x with accepted := x.accepted + 1, bad := x.bad || bad }
  let s1 := setGather s g.num x1
  if g.cls == clsStore && inStream g && ownsStream s g && x1.accepted ≥ pieces g then landStore s1 g x1.bad else s1

/-- The engine denied a piece of a verified request (R84, R85, R173, R200). -/
def targetDeny (s : State) (g : Ingress) : State :=
  let s1 := acceptPiece s g true
  endPiece s1 g (gather s1 g.num)

/-- The engine granted a piece of a verified request. -/
def targetGrant (s : State) (g : Ingress) : State := acceptPiece s g false

/-- The engine completed a piece of a verified request: read data or an old value, or poison. -/
def targetDone (s : State) (g : Ingress) (data : Bytes) (poison : Bool) : State :=
  let x := gather s g.num
  endPiece s g { x with poison := x.poison || poison, got := x.got ++ [(g.pos, data)] }

/-- A request of a former generation ends without an answer (R132). -/
def targetStale (s : State) (g : Ingress) : State :=
  setGather (if g.cls == clsAtomic then dropPending s g else s) g.num {}

end Sys2Proof.Machine
end

