-- ==== Sys2Proof/Machine/Cairn.lean ====
section
/-! DEFINITION. Sectors to and from the controller with their priority and tokens (R152 to R155), darn and its records
(R143, R144), and the cairn cache with the counter tree (R135, R147 to R149). -/

namespace Sys2Proof.Machine

/-! ## Priority and tokens (R153 to R155) -/

/-- Priority of a sector of a client: `token`, whether the client holds one. -/
def priOf (m : Mx) (client : Nat) (rt token : Bool) : Pri :=
  if rt then .rt
  else if !token then .over
  else if client == 32 then .rt
  else if m.latency.getLsbD client then .inL else .inS

/-- Priority of the next sector of a client in an engine. -/
def nextPri (s : State) (e client : Nat) (rt : Bool) : Pri :=
  priOf (mx s e) client rt (tget 0 (mx s e).tokens client != 0)

/-- A sector that goes at OVER waits for promotion (R155). -/
def noteLate (s : State) (pl : Nat) (write : Bool) (pri : Pri) : State :=
  if pri == .over then
    let m := mx s (placeEng pl)
    setMx s (placeEng pl) { m with late := m.late ++ [{ pl := pl, write := write, since := now s }] }
  else s

/-- Ask the controller for a sector on behalf of a client. -/
def mcRead (s : State) (client : Nat) (rt : Bool) (pl : Nat) : State :=
  let e := placeEng pl
  let p := nextPri s e client rt
  emit (noteLate (charge s e client 1 rt) pl false p) (.mcRead (placePkg pl) (placeSec pl) p)

/-- Pass a sector to the controller on behalf of a client. -/
def mcWrite (s : State) (client : Nat) (rt : Bool) (pl : Nat) (d : Sector) : State :=
  let e := placeEng pl
  let p := nextPri s e client rt
  emit (noteLate (charge s e client 1 rt) pl true p) (.mcWrite (placePkg pl) (placeSec pl) d p)

/-- Pass many sectors to the controllers on behalf of a client: in each engine, as many as it holds tokens for go in
budget. -/
def mcWriteAll (s : State) (client : Nat) (l : List (Nat × Sector)) : State :=
  (List.range 8).foldl (fun s e =>
    let ws := l.filter fun w => placeEng w.1 == e
    let k := tget 0 (mx s e).tokens client
    let pri := fun (i : Nat) => priOf (mx s e) client false (decide (i < k))
    let s1 := charge s e client ws.length false
    let m := mx s1 e
    let late := (ws.drop k).map fun w => ({ pl := w.1, write := true, since := now s } : Late)
    let s2 := if client == 32 && k == 0 && late.isEmpty then s1 else setMx s1 e { m with late := m.late ++ late }
    { s2 with out := (ws.mapIdx fun i w => Out.mcWrite (placePkg w.1) (placeSec w.1) w.2 (pri i)).reverse ++ s2.out }) s

/-! ## Darn (R143, R144) -/

/-- SA_MEM_TAG of an engine against an owner. -/
def memAlarm (s : State) (e pid : Nat) (lvl : Level := .notice) : State :=
  raiseAlarm (setMx s e { mx s e with alarm := true }) .memTag pid lvl 36 (0x10 + e)

/-- Record a darn correction (R144): SA_MEM_TAG where the sector has a live entry or the table is full, a new entry
otherwise. `key`: the device sector, or 2^34 + place of a counter line. -/
def darnRecord (s : State) (e key pid : Nat) : State :=
  let m := mx s e
  let s1 := mxCtr s e fun c => { c with darnFix := inc32 c.darnFix }
  if tget 0 m.darn key != 0 || m.darn.length ≥ 256 then memAlarm s1 e pid
  else setMx s1 e { mx s1 e with darn := tset 0 m.darn key 1 }

/-- A read of a recorded sector counts; the entry retires at 2^20 (R144). -/
def darnRead (s : State) (e key : Nat) : State :=
  let m := mx s e
  let n := tget 0 m.darn key
  if n == 0 then s
  else setMx s e { m with darn := tset 0 m.darn key (if n ≥ 2 ^ 20 then 0 else n + 1) }

/-- The darn records of a page retire in every engine (R144). -/
def retireDarn (s : State) (page : Nat) : State :=
  { s with mem := { s.mem with mx := tmapAll {} s.mem.mx fun _ m =>
      { m with darn := tmapAll 0 m.darn fun k v => if sectorPage k == page then 0 else v } } }

/-- A sector that has been read is verified under its MAC, by darn if need be: the sector and tag as they should be, or
`none` where it fails (R143). The read counts in the record table; a correction is recorded against `pid`. -/
def verifySector (s : State) (e key pid : Nat) (mac : Sector → BitVec 64) (ct : Sector) (tag : BitVec 64) :
    State × Option (Sector × BitVec 64) :=
  let s0 := darnRead s e key
  if mac ct == tag then (s0, some (ct, tag))
  else match darn mac ct tag with
    | some x => (darnRecord s0 e key pid, some x)
    | none => (s0, none)

/-! ## The cairn cache (R129, R135) -/

/-- A counter line of the POT pages' slots 0 to 3 and its parents, which are pinned (R129). -/
def pinLine (p : Nat) : Bool := isLine p && (if lineLevel p == 0 then lineNum p < 32 else lineNum p == 0)

/-- A line as the cache holds it: pinned, or among those that serve traffic. -/
def cairnGet (s : State) (p : Nat) : Option CLine :=
  let m := mx s (placeEng p)
  if pinLine p || m.pinned.any (fun x => x.1 == p) then some { pl := p, d := tget 0 m.pinned p }
  else m.cairn.find? fun c => c.pl == p

/-- The cache holds a line. -/
def cairnHas (s : State) (p : Nat) : Bool := (cairnGet s p).isSome

/-- Change a line that the cache holds. -/
def cairnSet (s : State) (c : CLine) : State :=
  let e := placeEng c.pl
  let m := mx s e
  if pinLine c.pl || m.pinned.any (fun x => x.1 == c.pl) then setMx s e { m with pinned := tput m.pinned c.pl c.d }
  else setMx s e { m with cairn := m.cairn.map fun x => if x.pl == c.pl then c else x }

/-- A line leaves the cache. -/
def cairnDrop (s : State) (p : Nat) : State :=
  let e := placeEng p
  setMx s e { mx s e with cairn := (mx s e).cairn.filter fun c => c.pl != p }

/-- The line is being re-tagged (R148). -/
def inOverflow (s : State) (p : Nat) : Bool := (mx s (placeEng p)).ovfs.any fun o => o.line == p

/-- Ask for a cairn sector on behalf of a client, unless it has been asked for. -/
def want (s : State) (client : Nat) (rt : Bool) (p : Nat) : State :=
  let e := placeEng p
  let m := mx s e
  if m.wants.any fun w => w.pl == p then s
  else mcRead (setMx s e { m with wants := m.wants ++ [{ pl := p, client := client, rt := rt }] }) client rt p

/-- Ask for a counter line, and for each parent up to one that the cache holds (R150: in parallel). A child of a line in
overflow is asked for once its re-tag has ended (R148). -/
def wantLine (s : State) (client : Nat) (rt : Bool) : Nat → Nat → State
  | 0, _ => s
  | f + 1, p =>
    if cairnHas s p then s
    else match parentOf p with
      | none => want s client rt p
      | some q => if inOverflow s q then s else wantLine (want s client rt p) client rt f q

/-! ## The counter tree (R147, R148) -/

/-- VERSION of a line: its parent's entry, where the cache holds the parent and it is not in overflow, or its root
counter. -/
def lineVersion (s : State) (p : Nat) : Option Nat :=
  match parentOf p with
  | none => some (tget 0 s.mem.roots (rootOf p))
  | some q => if inOverflow s q then none else (cairnGet s q).map fun c => versionIn c.d (lineNum p % 64)

/-- LMAC of a line under a version (R147). The rule gives A1 no widths or order, A2 no place of the VERSION and N no
number; the model takes 8, 1 and 1 bytes, the places of R140 and the address divided by 128 (DESIGN CHOICE, log entry
99). -/
def lineMac (s : State) (p v : Nat) (d : Sector) : BitVec 64 :=
  macOver s.mem.tree (sectorBytes (putLmac d 0))
    (leBytes 8 (placeSec p) ++ leBytes 1 (lineLevel p) ++ leBytes 1 (placePkg p) ++ zeros 6)
    (zeros 4 ++ leBytes 7 v ++ zeros 5)
    (tagN (placeSec p) v)

/-- What a re-tag has to read: the other sectors of the granule whose first is `base`, or the other children that the
cache does not hold. -/
def retagReads (s : State) (p i base : Nat) : List Nat :=
  let l := (List.range 64).filter fun k => k != i
  if lineLevel p == 0 then l.map fun k => dataPlace s (base + k)
  else (l.map fun k => childOf p k).filter fun c => !cairnHas s c

/-- A line overflows at entry `i`: MAJOR advances, every MINOR is 0 but the entry's, which is 1; the re-tag begins. A
child that had been asked for is read by the re-tag instead. -/
def overflow (s : State) (client : Nat) (c : CLine) (i base : Nat) : State :=
  let e := placeEng c.pl
  let todo := retagReads s c.pl i base
  let s1 := cairnSet s { c with d := putMinor (lineImage (majorOf c.d + 1)) i 1, dirty := true, by_ := client }
  let asked := (mx s1 e).wants.filter fun w => todo.contains w.pl
  let m := mx s1 e
  let o : Ovf := { line := c.pl, old := c.d, entry := i, base := base, client := client, todo := todo
                   got := asked.filterMap fun w => w.img.map fun d => (w.pl, d) }
  let s2 := setMx s1 e { m with ovfs := m.ovfs ++ [o], wants := m.wants.filter fun w => !todo.contains w.pl }
  (todo.filter fun p => !asked.any fun w => w.pl == p).foldl (fun s p => mcRead s client false p) s2

/-- Increment entry `i` of a line in the cache (R148): `none` where MAJOR cannot advance any more. -/
def bumpLine (s : State) (client : Nat) (c : CLine) (i base : Nat) : Option State :=
  let n := minorOf c.d i
  if n < 0x3FFF then some (cairnSet s { c with d := putMinor c.d i (n + 1), dirty := true, by_ := client })
  else if majorOf c.d + 1 < 2 ^ 42 then some (overflow s client c i base)
  else none

/-- A line goes to the cairn: its own entry in the parent, or its root counter, advances, and it is tagged under its new
version (R148). `none` where its parent is not at hand. -/
def lineOut (s : State) (c : CLine) : Option State :=
  let s1 := match parentOf c.pl with
    | none => some { s with mem := { s.mem with roots := tmod 0 s.mem.roots (rootOf c.pl) (· + 1) } }
    | some q => if inOverflow s q then none
      else (cairnGet s q).bind fun x => bumpLine s c.by_ x (lineNum c.pl % 64) 0
  s1.map fun s1 =>
    let v := match parentOf c.pl with
      | none => tget 0 s1.mem.roots (rootOf c.pl)
      | some q => match cairnGet s1 q with
        | some x => versionIn x.d (lineNum c.pl % 64)
        | none => 0
    mcWrite s1 c.by_ false c.pl (putLmac c.d (lineMac s1 c.pl v c.d))

/-- A line that the cache has given up leaves it once it can be written: a clean line at once, a tag sector when all its
tags are known, a counter line when its parent is at hand; until then it stays and what it lacks is fetched (DEDUCED, log
entry 101). -/
def giveUp (s : State) (c : CLine) : State :=
  let stay := fun (s : State) => cairnSet s { c with leaving := true }
  if !c.dirty then cairnDrop s c.pl
  else if isLine c.pl then
    match lineOut s c with
    | some s1 => cairnDrop s1 c.pl
    | none => match parentOf c.pl with
      | some q => wantLine (stay s) c.by_ false 3 q
      | none => stay s
  else if c.have_ == 0xFFFF then mcWrite (cairnDrop s c.pl) c.by_ false c.pl c.d
  else want (stay s) c.by_ false c.pl

/-- Lines of the cairn cache, and ways of a set (R135): 648 are pinned, and 7544 serve traffic. -/
def cairnLines : Nat := 7544
/-- Ways of a set. -/
def cairnWays : Nat := 16

/-- Places of an engine's pinned lines (R129): the counter lines over the POT pages, and the tag sectors of those. -/
def pinnedPlaces (m : Mx) (e : Nat) : List Nat :=
  ((span (4 * e) 4).flatMap fun k =>
    (List.range 32).map (fun n => placeAt k (leafBase + n)) ++ [placeAt k level1Base, placeAt k level2Base]) ++
  (m.pinned.map (·.1)).filter fun p => !pinLine p

/-- Two places fall into one of the 512 sets. -/
def sameSet (p q : Nat) : Bool := Config.cairnSet p % 512 == Config.cairnSet q % 512

/-- Bring a line into the cairn cache; a full set, or a full cache, gives one up (R135). The pinned lines of a set take ways
of it. A line given up that still has to be written stands in the eviction buffer and takes none (log entry 101). -/
def cairnPut (s : State) (c : CLine) : State :=
  let e := placeEng c.pl
  if cairnHas s c.pl then cairnSet s c
  else
    let m := mx s e
    let held := m.cairn.filter fun x => !x.leaving
    let mates := held.filter fun x => sameSet x.pl c.pl
    let s1 := setMx s e { m with cairn := m.cairn ++ [c] }
    let choose := fun (l : List CLine) => match l[Config.victim c.pl % l.length]? with
      | some v => giveUp s1 v
      | none => s1
    if !mates.isEmpty && mates.length + ((pinnedPlaces m e).filter fun p => sameSet p c.pl).length ≥ cairnWays then choose mates
    else if held.length ≥ cairnLines then choose held
    else s1

/-- Give up again what could not be written before. -/
def settleLeaving (s : State) (e : Nat) : State :=
  ((mx s e).cairn.filter (·.leaving)).foldl (fun s c => match cairnGet s c.pl with
    | some x => giveUp s x
    | none => s) s

/-! ## Tags (R135) -/

/-- The tag of a data place, where the cache holds it. -/
def tagGet (s : State) (p : Nat) : Option (BitVec 64) :=
  (cairnGet s (tagPlace p)).bind fun c =>
    if c.have_.getLsbD (placeSec p % 16) then some (tagIn c.d (placeSec p % 16)) else none

/-- Write the tag of a data place into the cache. -/
def tagSet (s : State) (client p : Nat) (t : BitVec 64) : State :=
  let i := placeSec p % 16
  let c := (cairnGet s (tagPlace p)).getD { pl := tagPlace p, d := 0, have_ := 0 }
  cairnPut s { c with d := putTag c.d i t, dirty := true, have_ := c.have_ ||| (1 <<< i), by_ := client }

/-- A tag sector arrives: the tags that the cache did not know are taken from it. -/
def tagsArrive (s : State) (client p : Nat) (d : Sector) : State :=
  match cairnGet s p with
  | some c =>
    let d1 := (List.range 16).foldl (fun x i => if c.have_.getLsbD i then putTag x i (tagIn c.d i) else x) d
    cairnSet s { c with d := d1, have_ := 0xFFFF }
  | none => cairnPut s { pl := p, d := d, by_ := client }

/-! ## Lines that arrive (R147, R149) -/

/-- The granules of LIVE Fresh pages that lie under a line (R149): page, granule, owner. -/
def underLine (s : State) (p : Nat) : List (Nat × Nat × Nat) :=
  let w := 64 ^ lineLevel p
  let pages := s.mem.pot.filter fun e => e.2.mode == .fresh && e.2.state != .free
  pages.flatMap fun e =>
    ((List.range 256).filter fun g =>
      pkgOf s e.1 g == placePkg p && (e.2.fslot * 8 + g / 32) / w == lineNum p).map fun g => (e.1, g, e.2.pid)

/-- A line is a line of the tree below another, or that line. -/
def isUnder (p q : Nat) : Bool :=
  isLine q && placePkg q == placePkg p && lineLevel q ≤ lineLevel p && lineNum q / 64 ^ (lineLevel p - lineLevel q) == lineNum p

/-- A counter line fails: every sector below it is poisoned until its page is rinsed, what the cache holds below it goes,
and SA_MEM_TAG is raised against each owner (R149). A fill that waits for the line goes on without it. -/
def lineFail (s : State) (p : Nat) : State :=
  let e := placeEng p
  let under := underLine s p
  let m := mx s e
  let s1 := setMx s e { m with
    cairn := m.cairn.filter fun c => !isUnder p c.pl, wants := m.wants.filter fun w => !isUnder p w.pl, alarm := true }
  let s2 := { s1 with mem := { s1.mem with
    badGran := s1.mem.badGran ++ under.map fun u => u.1 * 256 + u.2.1
    changes := s1.mem.changes.map fun c => (c.1, { c.2 with todo := c.2.todo.filter fun q => !isUnder p q }) } }
  ((under.map fun u => u.2.2).eraseDups).foldl (fun s pid => raiseAlarm s .memTag pid .notice 36 (0x10 + e)) s2

/-- A line that has come is verified against its parent once that is at hand, and is trusted while the cache holds it. -/
def tryLine (s : State) (w : Want) : State :=
  match w.img, lineVersion s w.pl with
  | some d, some v =>
    let e := placeEng w.pl
    let s0 := setMx s e { mx s e with wants := (mx s e).wants.filter fun x => x.pl != w.pl }
    match verifySector s0 e (2 ^ 34 + w.pl) (w.client % 32) (lineMac s w.pl v) (putLmac d 0) (lmacOf d) with
    | (s1, some x) =>
      let img := putLmac x.1 x.2
      let s2 := if img == d then s1 else mcWrite s1 w.client true w.pl img
      cairnPut s2 { pl := w.pl, d := img, by_ := w.client }
    | (s1, none) => lineFail s1 w.pl
  | _, _ => s

/-- Try what has come, parents first. -/
def tryLines (s : State) (e : Nat) : State :=
  [2, 1, 0].foldl (fun s n => ((mx s e).wants.filter fun w => lineLevel w.pl == n).foldl tryLine s) s

/-! ## Fills of Fresh pages (R131) -/

/-- Leaf lines of a page in a Fresh slot. -/
def leavesOf (s : State) (page fslot : Nat) : List Nat :=
  (List.range 256).map fun g => leafOf s (page * pageSectors + 64 * g) fslot

/-- A fill advances the MAJOR of a leaf line that the cache holds and sets its MINOR fields to 0. A MAJOR that cannot
advance leaves the granule poisoned (R148, log entry 102). -/
def fillLeaf (s : State) (page p : Nat) : State :=
  match s.mem.changes.find? fun c => c.1 == page, cairnGet s p with
  | some c, some x =>
    if !c.2.todo.contains p then s
    else
      let n := majorOf x.d + 1
      let c1 := { c.2 with todo := c.2.todo.erase p, majors := tput c.2.majors p n }
      let s1 := { s with mem := { s.mem with changes := tput s.mem.changes page c1 } }
      if n < 2 ^ 42 then cairnSet s1 { x with d := lineImage n, dirty := true, by_ := c.2.new.pid }
      else lineFail s1 p
  | _, _ => s

/-- Fills take the leaf lines that an engine's cache holds now, and ask for the others. -/
def fillLeaves (s : State) (e : Nat) : State :=
  s.mem.changes.foldl (fun s c => (c.2.todo.filter fun p => placeEng p == e).foldl (fun s p =>
    if cairnHas s p then fillLeaf s c.1 p else wantLine s c.2.new.pid false 3 p) s) s

end Sys2Proof.Machine
end

