-- ==== Sys2Proof/Machine/Mem.lean ====
section
/-! DEFINITION. Shared operations of the memory engines: the POT decision, sector transforms, poison, the service of
granted requests, and the changes of POT entries (05). -/

namespace Sys2Proof.Machine

/-! ## Decision of a request (R124, R127) -/

/-- Read and write rights of a master port's class; `none` where the port ID is reserved (R124). -/
def portRights (m : Nat) : Option (Nat × Nat) :=
  if m ≤ 0x8F then some (rTRD, rTWR)
  else if m ≤ 0xAF then some (rDRD, rDWR)
  else if m ≤ 0xB3 then some (rRRD, rRWR)
  else if m == 0xB8 then some (rDRD, rDWR)
  else if m == 0xC0 then some (rHRD, rHWR)
  else if 0xC8 ≤ m && m ≤ 0xCB then some (rGRD, rGWR)
  else if m == 0xE0 then some (rTRD, rTWR)
  else if m == 0xE1 || m == 0xE2 then some (rDRD, rDWR)
  else if m == 0xE3 then some (rRRD, rRWR)
  else none

/-- A debug-class master port. -/
def isDebug (m : Nat) : Bool := 0xC8 ≤ m && m ≤ 0xCB

/-- A real-time master port. -/
def isRealTime (m : Nat) : Bool := 0xE0 ≤ m && m ≤ 0xE3

/-- The debug gate holds a MEMDBG authorisation for the PID (R127 check 5, R272). -/
def dbgHolds (s : State) (pid : Nat) : Bool :=
  match s.keys.dbg with
  | some d => d.pid == pid && d.gen == curGen s pid && d.scope / 2 % 2 == 1
  | none => false

/-- Bytes that a request covers; an ATOM covers its location alone (R180; DEDUCED, log entry 121). -/
def mxSpan (r : MxReq) : Nat := if r.op == 3#4 then amoSpan r.amo.toNat r.size.toNat else r.size.toNat + 1

/-- Check 1 of R127, and the states in which every request is denied (R15, R265). An atomic that R180
does not allow is refused here (DESIGN CHOICE, log entry 12). -/
def shapeOk (s : State) (r : MxReq) : Bool :=
  let a := r.addr.toNat
  memServes s &&
  r.op ≤ 3#4 && (portRights r.mport.toNat).isSome && a % 256 + mxSpan r ≤ 256 &&
  a + mxSpan r ≤ 0x1E000000000 &&
  (r.op != 3#4 || match amoBytes r.amo.toNat r.size.toNat with
    | some n => a % n == 0
    | none => false)

/-- Checks 3 to 5 of R127 against an entry. -/
def entryOk (s : State) (r : MxReq) (e : Pot) : Bool :=
  let m := r.mport.toNat
  let rr := (portRights m).getD (rTRD, rTWR)
  e.state == .live && e.pid == r.pid.val && (!e.sys || m == 0xE0) &&
  (r.op == 1#4 || r.op == 2#4 || e.rights.getLsbD rr.1) && (r.op == 0#4 || e.rights.getLsbD rr.2) &&
  (!isDebug m || (!e.conf && dbgHolds s r.pid.val))

/-- A change of the page's entry is in progress (R130). -/
def changing (s : State) (page : Nat) : Bool := s.mem.changes.any fun c => c.1 == page

/-- The answer of R127 against an entry. -/
def decideIn (s : State) (r : MxReq) (e : Pot) : Gnt :=
  if !shapeOk s r then .deny
  else if r.pid.val != 0 && r.gen != curGen s r.pid.val then .stale
  else if potBadPage s (pageOf r.addr.toNat) then .deny
  else if entryOk s r e then .grant else .deny

/-- The answer of R127 against the entry as it stands. -/
def decideNow (s : State) (r : MxReq) : Gnt := decideIn s r (pot s (pageOf r.addr.toNat))

/-- A page's entry in an engine's POT cache slice. -/
def cached (s : State) (e page : Nat) : Option Pot := ((mx s e).cache.find? fun c => c.1 == page).map (·.2)

/-- The answer in the cycle of the request: checks 1 and 2 need no entry; then a page in UPDATE or not in
the cache slice, or one for which the same master already waits, stalls (R127, R128, R130). -/
def decideFirst (s : State) (e : Nat) (r : MxReq) : Gnt :=
  let page := pageOf r.addr.toNat
  if !shapeOk s r then .deny
  else if r.pid.val != 0 && r.gen != curGen s r.pid.val then .stale
  else if changing s page || (mx s e).missq.any (fun q => q.req.mport == r.mport && pageOf q.req.addr.toNat == page) then
    .stall
  else match cached s e page with
    | none => .stall
    | some x => decideIn s r x

/-- Set of the POT cache that a page falls into (R128). -/
def potCacheSet (s : State) (page : Nat) : Nat := Config.potSet (iKey s) page % 1024

/-- Put a page's entry into an engine's POT cache slice, eight ways to each of 1024 sets (R128). -/
def cacheIn (s : State) (e page : Nat) (x : Pot) : State :=
  let m := mx s e
  let c := m.cache.filter fun c => c.1 != page
  let mates := c.filter fun c => potCacheSet s c.1 == potCacheSet s page
  let c1 := if mates.length < 8 then c
    else match mates[Config.victim page % mates.length]? with
      | some v => c.erase v
      | none => c
  setMx s e { m with cache := c1 ++ [(page, x)] }

/-- Sectors of a page that one engine writes when it fills the page: its eighth of the data sectors, and of their
tag sectors where the mode has tags (R131, R154). -/
def fillCost (m : PMode) : Nat := if m == .mangle then 2048 else 2176

/-! ## Sectors (R137 to R145) -/

/-- Keys of a page's owner as the engines hold them. -/
def memKeys (s : State) (pid : Nat) : MemKeys := tget {} s.mem.keys pid

/-- CTAG and MEPOCH of an owner; PID 0 has 0 and 0 (R136). -/
def ctagOf (s : State) (pid : Nat) : BitVec 16 := if pid == 0 then 0 else (part s pid).ctag
/-- MEPOCH of an owner. -/
def mepochOf (s : State) (pid : Nat) : BitVec 32 := if pid == 0 then 0 else (part s pid).mepoch

/-- VERSION of a sector: 0 in Seal, from the leaf line in Fresh, which the cache holds by then (R140, R147). -/
def sectorVersion (s : State) (e : Pot) (sector : Nat) : Nat :=
  if e.mode == .fresh then match cairnGet s (leafOf s sector e.fslot) with
    | some c => versionIn c.d (sector % 64)
    | none => 0
  else 0

/-- The MAC of a sector's ciphertext under its page's entry and a version (R140). -/
def macOf (s : State) (e : Pot) (sector version : Nat) (ct : Sector) : BitVec 64 :=
  sectorTag (memKeys s e.pid).mac
    { sector := sector, ctag := ctagOf s e.pid, mode := if e.mode == .fresh then 3 else 2
      mepoch := mepochOf s e.pid, version := version } ct

/-- Encrypt a sector under its page's entry (R137, R139). -/
def encSector (s : State) (e : Pot) (sector : Nat) (pt : Sector) : Sector :=
  let k := memKeys s e.pid
  if e.mode == .mangle then
    sectorOf (xorBytes (sectorBytes pt) (mangleStream k.mgl (mepochOf s e.pid) sector))
  else sectorOf (xtsEnc k.xts1 k.xts2 (sectorTweak sector (ctagOf s e.pid)) (sectorBytes pt))

/-- Decrypt a sector under its page's entry. -/
def decSector (s : State) (e : Pot) (sector : Nat) (ct : Sector) : Sector :=
  let k := memKeys s e.pid
  if e.mode == .mangle then
    sectorOf (xorBytes (sectorBytes ct) (mangleStream k.mgl (mepochOf s e.pid) sector))
  else sectorOf (xtsDec k.xts1 k.xts2 (sectorTweak sector (ctagOf s e.pid)) (sectorBytes ct))

/-- The granule of a sector is poisoned (R149). -/
def granBad (s : State) (sector : Nat) : Bool :=
  s.mem.badGran.contains (sectorPage sector * 256 + sector % pageSectors / 64)

/-- Take the next version of a Fresh sector (R148): `none` where its line is not at hand or MAJOR cannot advance any
more. -/
def nextVersion (s : State) (client : Nat) (en : Pot) (sector : Nat) : Option State :=
  (cairnGet s (leafOf s sector en.fslot)).bind fun c => bumpLine s client c (sector % 64) (sector / 64 * 64)

/-- Pass a plaintext sector to the controller under its page's entry, its tag into the cairn cache. `none`: it has no
version to take. -/
def writeSector (s : State) (client : Nat) (rt : Bool) (en : Pot) (sector : Nat) (pt : Sector) : Option State :=
  let p := dataPlace s sector
  if en.mode == .mangle then some (mcWrite s client rt p (encSector s en sector pt))
  else
    (if en.mode == .fresh then nextVersion s client en sector else some s).map fun s1 =>
      let ct := encSector s1 en sector pt
      tagSet (mcWrite s1 client rt p ct) client p (macOf s1 en sector (sectorVersion s1 en sector) ct)

/-- SA_MEM_TAG for poison, unless it is muted for the owner (R145). The alarm of a failed counter line (R149) mutes nothing:
the first later read of a sector under it raises one more, which the spec leaves open (DESIGN CHOICE, log entry 132). -/
def poisonAlarm (s : State) (e pid : Nat) : State :=
  if s.mem.muted.contains pid then s
  else memAlarm { s with mem := { s.mem with muted := pid :: s.mem.muted } } e pid

/-- Poison of a sector of a request (R145): counted, and the owner's alarm; the requester is told by its response. -/
def poisonSector (s : State) (e pid : Nat) : State :=
  poisonAlarm (mxCtr s e fun c => { c with poison := inc32 c.poison }) e pid

/-- A read that the block makes for a command: whose it is, where it lies, and whether its port is real-time. -/
structure OwnRead where
  pid : Nat := 0
  off : Nat
  len : Nat
  rt  : Bool := true

/-- The block reads a range (R124, R154); each sector that the engines return with POISON is counted and raises the alarm
of its page's owner (R145). `first`, `more`: byte offsets in the range, one for each such sector. -/
def readOwn (s : State) (r : OwnRead) (x : ReadIn) : State :=
  let s1 := passOwn s r.pid r.off r.len false r.rt
  match x with
  | .data _ => s1
  | .poison first more => (first :: more).foldl (fun s k =>
      poisonSector s (engineOf s (r.off + k)) (pot s (pageOf (r.off + k))).pid) s1

/-- The reads of a command, in order, up to the first that is poisoned. -/
def readAll (s : State) : List OwnRead → List ReadIn → State
  | [], _ => s
  | r :: _, .poison a b :: _ => readOwn s r (.poison a b)
  | r :: l, m => readAll (readOwn s r (m.headD (.data []))) l m.tail

/-- Write back what darn corrected, at real-time priority (R143): the sector, or its tag in the cache and, where the cache
knows the whole tag sector, in the cairn. -/
def darnBack (s : State) (pid p : Nat) (old new : Sector × BitVec 64) : State :=
  if old.1 != new.1 then mcWrite s pid true p new.1
  else if old.2 != new.2 then
    let s1 := tagSet s pid p new.2
    match cairnGet s1 (tagPlace p) with
    | some c => if c.have_ == 0xFFFF then mcWrite s1 pid true c.pl c.d else s1
    | none => s1
  else s

/-- Open a sector that has arrived: the plaintext, or `none` where it poisons; darn on a mismatch (R141, R143). -/
def openSector (s : State) (e : Nat) (en : Pot) (sector : Nat) (ct : Sector) (tag : BitVec 64) :
    State × Option Sector :=
  if granBad s sector then (s, none)
  else if en.mode == .mangle then (s, some (decSector s en sector ct))
  else match verifySector s e sector en.pid (macOf s en sector (sectorVersion s en sector)) ct tag with
    | (s1, some x) => (darnBack s1 en.pid (dataPlace s sector) (ct, tag) x, some (decSector s en sector x.1))
    | (s1, none) => (s1, none)

/-! ## Granted requests (R132, R141, R151) -/

/-- The eight engines. -/
def allEngines : List Nat := List.range 8

/-- Requests of at most 256 bytes, each in its 256-byte block, that cover `n` bytes from a device offset: (offset from
the first byte, request) (R124). -/
def cutReqs (pid : Nat) (gen : BitVec 11) (op : BitVec 4) (off n : Nat) : List (Nat × MxReq) :=
  if n == 0 then []
  else (List.range ((off % 256 + n + 255) / 256)).map fun i =>
    let a := if i == 0 then off else off / 256 * 256 + 256 * i
    let m := min (256 - a % 256) (off + n - a)
    (a - off, { addr := BitVec.ofNat 41 a, pid := Fin.ofNat 32 pid, gen := gen, mport := 0xB8, op := op
                size := BitVec.ofNat 8 (m - 1) })

/-- Sectors of a request, first to last. -/
def sectorsOf (r : MxReq) : List Nat :=
  span (r.addr.toNat / 128) ((r.addr.toNat + mxSpan r - 1) / 128 - r.addr.toNat / 128 + 1)

/-- The request covers a whole sector with unmasked data. -/
def coversWhole (r : MxReq) (sector : Nat) : Bool :=
  let a := r.addr.toNat
  (r.op == 1#4 || (r.op == 2#4 && ((r.mask.drop (sector * 128 - a)).take 128).all id)) &&
  a ≤ sector * 128 && sector * 128 + 127 ≤ a + r.size.toNat

/-- Data of a request merged into a sector's bytes: byte `i` of the sector is replaced where the request
covers it and its mask bit is set. -/
def mergeBytes (r : MxReq) (sector : Nat) (old : Bytes) : Bytes :=
  (List.range 128).map fun i =>
    let at_ := sector * 128 + i
    let a := r.addr.toNat
    if a ≤ at_ && at_ ≤ a + r.size.toNat && (r.op != 2#4 || r.mask.getD (at_ - a) false) then
      r.data.getD (at_ - a) 0
    else old.getD i 0

/-- An ATOM applied to a sector: the new sector and the old value's bytes (R180). -/
def atomSector (r : MxReq) (sector : Nat) (old : Sector) : Sector × Bytes :=
  let n := (amoBytes r.amo.toNat r.size.toNat).getD 4
  let off := r.addr.toNat - sector * 128
  let b := sectorBytes old
  let v := le b off n
  let new := amoNew r.amo.toNat n v (le r.data 0 n) (le r.data n n)
  (sectorOf (b.take off ++ leBytes n new ++ b.drop (off + n)), leBytes n v)

/-- The sector of byte `i` of a request has not poisoned. -/
def byteGood (r : MxReq) (bad : List Nat) (i : Nat) : Bool := !bad.contains ((r.addr.toNat + i) / 128)

/-- Bytes of a read request out of the sectors it got; those of sectors that poison are not among them (R145). -/
def readBytes (r : MxReq) (got : List (Nat × Sector)) (bad : List Nat) : Bytes :=
  ((List.range (r.size.toNat + 1)).filter fun i => byteGood r bad i).map fun i =>
    let at_ := r.addr.toNat + i
    match got.find? fun g => g.1 == at_ / 128 with
    | some g => (sectorBytes g.2).getD (at_ % 128) 0
    | none => 0

/-- A response to a master; poison is a fault of its context (R145). -/
def toMaster (s : State) (e : Nat) (o : OpenReq) (data : Bytes) (read : Bool) : State :=
  let s1 := emit s (.rsp e o.req.tag o.req.mport o.bad (if read then data else []))
  if o.bad.isEmpty then s1 else loseHandle s1 o.req.ctx .integrity (BitVec.ofNat 48 o.req.addr.toNat)

/-- One answer of an acquire on this chip has come; with the last the acquire ends (R176). -/
def endNear (s : State) (k : BitVec 40) : State :=
  { s with rmt := { s.rmt with acquires := s.rmt.acquires.filterMap fun a =>
      if a.tag == k && !a.atomic then (if a.left ≤ 1 then none else some { a with left := a.left - 1 }) else some a } }

/-- The response of a request whose sectors are all complete (R123, R132, R145): POISON for the sectors that failed, and
the data of the others. `data` is what a read or an atomic returns. -/
def respond (s : State) (e : Nat) (o : OpenReq) (data : Bytes) : State :=
  let read := o.req.op == 0#4 || o.req.op == 3#4
  if read && o.gen != curGen s o.req.pid.val then
    let s1 := mxCtr s e fun c => { c with stale := inc32 c.stale }
    match o.who with
    | .remote g => targetStale s1 g
    | .near k => endNear s1 k
    | _ => s1
  else match o.who with
    | .own => s
    | .near k => toMaster (endNear s k) e o data read
    | .remote g => targetDone s g (if o.bad.isEmpty then data else []) (!o.bad.isEmpty)
    | .master =>
      toMaster (if o.req.mport == 0xC0 && read then sendTlp s o.req.pid.val 2 o.req.addr.toNat data else s) e o data read

/-- One sector of a request is complete: `got` is what was read, `old` an atomic's old value. -/
def sectorDone (s : State) (e rid sector : Nat) (got : Option Sector) (old : Bytes) (poison : Bool) : State :=
  let m := mx s e
  match m.reqs.find? fun o => o.rid == rid with
  | none => s
  | some o =>
    let o1 := { o with
      left := o.left - 1, bad := if poison then o.bad ++ [sector] else o.bad
      got := match got with | some x => o.got ++ [(sector, x)] | none => o.got }
    if o1.left == 0 then
      respond (setMx s e { m with reqs := m.reqs.filter fun x => x.rid != rid }) e o1
        (if o.req.op == 3#4 then old else readBytes o.req o1.got o1.bad)
    else setMx s e { m with reqs := m.reqs.map fun x => if x.rid == rid then o1 else x }

/-- Remove the first operation on a sector. -/
def popOp (s : State) (e sector : Nat) : State :=
  setMx s e { mx s e with ops := dropFirst (fun o => o.sector == sector) (mx s e).ops }

/-- A line of a Fresh sector is being re-tagged (R148): operations on the sector wait. -/
def lineBusy (s : State) (en : Pot) (sector : Nat) : Bool :=
  en.mode == .fresh && (mx s (engineOf s (sector * 128))).ovfs.any fun o => isUnder o.line (leafOf s sector en.fslot)

/-- An operation on a sector fails: the sector poisons (R145). -/
def failOp (s : State) (e : Nat) (en : Pot) (o : SecOp) : State :=
  sectorDone (poisonSector (popOp s e o.sector) e en.pid) e o.rid o.sector none [] true

/-- What an operation still needs is asked for, all in parallel: its sector, the tag where it reads, the leaf line of a
Fresh sector (R141, R150, R151). -/
def askFor (s : State) (e : Nat) (q : OpenReq) (en : Pot) (o : SecOp) : State :=
  let client := q.req.pid.val
  let rt := isRealTime q.req.mport.toNat
  let p := dataPlace s o.sector
  let s1 := if o.full || o.issued then s
    else mcRead (setMx s e { mx s e with ops := (mx s e).ops.map fun x =>
      if x.rid == o.rid && x.sector == o.sector then { x with issued := true } else x }) client rt p
  let s2 := if o.full || en.mode == .mangle || (tagGet s1 p).isSome then s1 else want s1 client rt (tagPlace p)
  if en.mode == .fresh then wantLine s2 client rt 3 (leafOf s o.sector en.fslot) else s2

/-- A sector that was asked for has been opened: a read delivers it, a partial write or an atomic writes it
back merged (R151). -/
def applyRead (s : State) (e : Nat) (q : OpenReq) (o : SecOp) (en : Pot) (pt : Sector) : State :=
  let r := q.req
  if r.op == 0#4 then sectorDone (popOp s e o.sector) e o.rid o.sector (some pt) [] false
  else
    let new := if r.op == 3#4 then atomSector r o.sector pt
      else (sectorOf (mergeBytes r o.sector (sectorBytes pt)), [])
    let s1 := telAdd (mxCtr s e fun k => { k with rmw := inc32 k.rmw }) r.pid.val 2 1
    match writeSector s1 r.pid.val (isRealTime r.mport.toNat) en o.sector new.1 with
    | some s2 => sectorDone (popOp s2 e o.sector) e o.rid o.sector none new.2 false
    | none => failOp s1 e en o

/-- A write of a whole sector (R151). -/
def applyWrite (s : State) (e : Nat) (q : OpenReq) (o : SecOp) (en : Pot) : State :=
  let r := q.req
  match writeSector s r.pid.val (isRealTime r.mport.toNat) en o.sector (sectorOf (mergeBytes r o.sector [])) with
  | some s1 => sectorDone (popOp s1 e o.sector) e o.rid o.sector none [] false
  | none => failOp s e en o

/-- An operation with all it needs at hand is done; `none` where something is missing. -/
def tryOp (s : State) (e : Nat) (q : OpenReq) (o : SecOp) (en : Pot) : Option State :=
  let p := dataPlace s o.sector
  if en.mode == .fresh && !cairnHas s (leafOf s o.sector en.fslot) then none
  else if o.full then some (applyWrite s e q o en)
  else match o.ct, (if en.mode == .mangle then some 0 else tagGet s p) with
    | some ct, some tag => match openSector s e en o.sector ct tag with
      | (s1, some pt) => some (applyRead s1 e q o en pt)
      | (s1, none) => some (failOp s1 e en o)
    | _, _ => none

/-- Serve the operations on a sector in grant order: the first is done where it has all it needs, and asks for what it lacks
(R141, R151). A sector under a failed line poisons at once (R149). -/
def pump (s : State) (e sector : Nat) : Nat → State
  | 0 => s
  | f + 1 =>
    let en := pot s (sectorPage sector)
    match (mx s e).ops.find? fun o => o.sector == sector with
    | none => s
    | some o =>
      match (mx s e).reqs.find? fun x => x.rid == o.rid with
      | none => pump (popOp s e sector) e sector f
      | some q =>
        if granBad s sector then pump (failOp s e en o) e sector f
        else if lineBusy s en sector then s
        else match tryOp s e q o en with
          | some s1 => pump s1 e sector f
          | none => askFor s e q en o

/-- Serve every sector of a list. -/
def pumpAll (s : State) (e : Nat) (l : List Nat) : State :=
  l.foldl (fun s x => pump s e x ((mx s e).ops.length + 1)) s

/-- What an engine has at hand goes on: lines that have come, fills, lines given up, operations. -/
def engineOn (s : State) (e : Nat) : State :=
  let s1 := settleLeaving (fillLeaves (tryLines s e) e) e
  pumpAll s1 e (((mx s1 e).ops.map (·.sector)).eraseDups)

/-- Enter a granted request: its sectors join the queues in grant order and are served. -/
def enterReq (s : State) (e : Nat) (r : MxReq) (w : Waiter) : State :=
  let l := sectorsOf r
  let rid := s.mem.nextRid
  let o : OpenReq := { rid := rid, req := r, who := w, gen := curGen s r.pid.val, left := l.length }
  let m := mx s e
  let s0 := telAdd s r.pid.val 0 l.length
  let s1 := setMx { s0 with mem := { s0.mem with nextRid := rid + 1 } } e { m with
    reqs := m.reqs ++ [o]
    ops := m.ops ++ l.map fun x => { rid := rid, sector := x, full := coversWhole r x } }
  pumpAll s1 e l

/-- A DMA engine of the block's own writes bytes for a PID, 256 at once from an aligned offset (R124, R320): the engines
encrypt and tag them in the page's mode, and charge them. -/
def dmaWrite (s : State) (pid : Pid) (off : Nat) (b : Bytes) : State :=
  (List.range (b.length / 256)).foldl (fun s i =>
    let a := off + 256 * i
    enterReq s (engineOf s a) { addr := BitVec.ofNat 41 a, pid := pid, gen := curGen s pid.val, mport := 0x90, op := 1, size := 255
                                data := slice b (256 * i) 256 } .own) s

/-- The answer of the cycle on a master's port (R123). -/
def tellMaster (s : State) (e : Nat) (q : Parked) (g : Gnt) : State :=
  match q.who with
  | .master | .near _ => emit s (.gnt e q.req.tag q.req.mport g)
  | _ => s

/-- A master's request is denied: a fault of its context (R127). -/
def denied (s : State) (r : MxReq) : State :=
  if r.pid.val == 0 then s else loseHandle s r.ctx .access (BitVec.ofNat 48 r.addr.toNat)

/-- The final answer of a request: GRANT enters it, DENY is a fault of its context, STALE is silent
(R127). -/
def settle (s : State) (e : Nat) (q : Parked) (g : Gnt) : State :=
  let r := q.req
  let s1 := tellMaster s e q g
  match g with
  | .grant =>
    let s2 := match q.who with
      | .remote i => targetGrant s1 i
      | _ => s1
    enterReq s2 e r q.who
  | .deny =>
    let s2 := mxCtr s1 e fun c => { c with deny := inc32 c.deny }
    match q.who with
    | .master => denied s2 r
    | .near k => denied (endNear s2 k) r
    | .own => s2
    | .remote i => targetDeny s2 i
  | .stale =>
    let s2 := mxCtr s1 e fun c => { c with stale := inc32 c.stale }
    match q.who with
    | .remote i => targetStale s2 i
    | .near k => endNear s2 k
    | _ => s2
  | .stall => s1

/-- A line over the POT sector of a page's entry is being re-tagged: accesses to the sector stall (R148). -/
def potBusy (s : State) (page : Nat) : Bool :=
  lineBusy s (pot s (sectorPage (potSector s page))) (potSector s page)

/-- A POT table walk for a page begins (R129): its VERSION and tag are taken from the pinned lines of the engine that
holds the POT sector, which is read at real-time priority. During a re-tag over the sector the walk is held (R148). -/
def startWalk (s : State) (e client page : Nat) : State :=
  let n := potSector s page
  let p := dataPlace s n
  let w : Walk := { page := page, client := client
                    version := sectorVersion s (pot s (sectorPage n)) n, tag := (tagGet s p).getD 0 }
  let add := fun (w : Walk) => setMx s e { mx s e with walks := (mx s e).walks ++ [w] }
  if potBusy s page then add { w with held := true } else mcRead (add w) client true p

/-- The held walks whose POT sector stalls no more begin (R148). -/
def wakeWalks (s : State) : State :=
  allEngines.foldl (fun s e => ((mx s e).walks.filter fun w => w.held && !potBusy s w.page).foldl (fun s w =>
    startWalk (setMx s e { mx s e with walks := (mx s e).walks.filter fun x => x.page != w.page }) e w.client w.page) s) s

/-- Park a request in the miss queue; a miss is counted when the page has no entry in the slice, and the first for a page
starts a walk. -/
def parkReq (s : State) (e : Nat) (q : Parked) : State :=
  let m := mx s e
  let page := pageOf q.req.addr.toNat
  let s2 := tellMaster (setMx s e { m with missq := m.missq ++ [q] }) e q .stall
  if changing s page || (cached s e page).isSome then s2
  else
    let s3 := mxCtr s2 e fun c => { c with potMiss := inc32 c.potMiss }
    if m.walks.any fun w => w.page == page then s3 else startWalk s3 e q.req.pid.val page

/-- Present a request to the engine that its address belongs to (R133). `none`: the port is not ready, the miss queue
being full (R128). -/
def present (s : State) (q : Parked) : Option State :=
  let e := engineOf s q.req.addr.toNat
  if (mx s e).missq.length ≥ 32 then none
  else
    let g := decideFirst s e q.req
    some (if g == .stall then parkReq s e q else settle s e q g)

/-- Decide again, in order, every request of a page that waits in an engine (R128, R130). -/
def redecide (s : State) (e page : Nat) : State :=
  let m := mx s e
  let l := m.missq.filter fun q => pageOf q.req.addr.toNat == page
  let x := (cached s e page).getD (pot s page)
  let s1 := setMx s e { m with missq := m.missq.filter fun q => pageOf q.req.addr.toNat != page }
  l.foldl (fun s q => settle s e q (decideIn s q.req x)) s1

/-! ## Changing entries (R130, R131) -/

/-- An entry of the POT as firmware changes it: its sector is written in Fresh memory (R130 step 3) as a whole, the
block's own copy of the other fifteen entries with it (DEDUCED, log entry 103). -/
def setEntry (s : State) (page : Nat) (x : Pot) : State :=
  let s1 := setPot s page x
  let n := potSector s1 page
  if s1.mem.potLive then
    (writeSector s1 0 true (pot s1 (sectorPage n)) n (potImage s1 page)).getD (memAlarm s1 (engineOf s1 (n * 128)) 0)
  else s1

/-- Broadcast a change of an entry: the page's requests stall from now on, and a walk's result is discarded (R130 step 1,
R157). -/
def beginChange (s : State) (page : Nat) (new : Pot) : State :=
  { s with mem := { s.mem with changes := tput s.mem.changes page { new := new } } }

/-- A granted request on the page is outstanding in some engine, or a granule of it is being re-tagged (R148). -/
def pageBusy (s : State) (page : Nat) : Bool :=
  allEngines.any fun e => (mx s e).reqs.any (fun o => pageOf o.req.addr.toNat == page) ||
    (mx s e).ovfs.any fun o => lineLevel o.line == 0 && sectorPage o.base == page

/-- Install an entry in all eight engines and decide the page's stalled requests again (R130 step 5). -/
def install (s : State) (page : Nat) : State :=
  let s1 := { s with mem := { s.mem with changes := terase s.mem.changes page } }
  allEngines.foldl (fun s e =>
    let s2 := setMx s e { mx s e with walks := (mx s e).walks.filter fun w => w.page != page }
    redecide (cacheIn s2 e page (pot s page)) e page) s1

/-- Pages LIVE under a PID (R194 PAGES). -/
def livePages (s : State) (pid : Nat) : Nat := tcount s.mem.pot fun e => e.state == .live && e.pid == pid

/-- A page named by a started page command is done; the command completes with its last page. -/
def pageDone (s : State) (page : Nat) : State :=
  let upd := s.cmd.waits.map fun w => match w.kind with
    | .pages pid todo count => { w with kind := .pages pid (todo.erase page) count }
    | _ => w
  let s1 := { s with cmd := { s.cmd with waits := upd } }
  let isDone := fun w : Wait => match w.kind with
    | .pages _ todo _ => todo.isEmpty
    | _ => false
  (upd.filter isDone).foldl (fun s w => match w.kind with
    | .pages pid _ count => finish s w.tkt .ok (resultOf [(8, if count == 0 then livePages s pid else count)])
    | _ => s) { s1 with cmd := { s1.cmd with waits := upd.filter fun w => !isDone w } }

/-- The fill of a page begins (R131): in Fresh, its leaf lines are advanced as the cairn caches hold them, and the others
fetched. -/
def beginFill (s : State) (page : Nat) (c : Change) : State :=
  let todo := if c.new.mode == .fresh then leavesOf s page c.new.fslot else []
  allEngines.foldl fillLeaves
    { s with mem := { s.mem with changes := tput s.mem.changes page { c with filling := true, todo := todo } } }

/-- Steps 3 to 5 of R130 for a page whose granted requests have completed: the entry is written; a page
that becomes LIVE goes to FILL, any other is installed. -/
def writeEntry (s : State) (page : Nat) (c : Change) : State :=
  let s1 := retireDarn s page
  if c.new.state == .live then beginFill (setEntry s1 page { c.new with state := .fill }) page c
  else pageDone (install (setEntry s1 page c.new) page) page

/-- VERSION of a sector of a page being filled: its leaf line's new MAJOR, MINOR 0 (R131). -/
def fillVersion (s : State) (c : Change) (sector : Nat) : Nat :=
  if c.new.mode == .fresh then tget 0 c.majors (leafOf s sector c.new.fslot) * 2 ^ 14 else 0

/-- Every sector of a page as zeros under an entry, with its place (R131). -/
def fillData (s : State) (page : Nat) (en : Pot) : List (Nat × Sector) :=
  (span (page * pageSectors) pageSectors).map fun n => (dataPlace s n, encSector s en n 0)

/-- The tag sectors of a page so filled, with their places. -/
def fillTags (s : State) (page : Nat) (c : Change) : List (Nat × Sector) :=
  (List.range 1024).map fun i =>
    let n := page * pageSectors + 16 * i
    (tagPlace (dataPlace s n), (List.range 16).foldl (fun d k =>
      putTag d k (macOf s c.new (n + k) (fillVersion s c (n + k)) (encSector s c.new (n + k) 0))) 0)

/-- Whole tag sectors written: the cache's own copies go, and those of the POT pages stay pinned (R129). -/
def putTagSectors (s : State) (l : List (Nat × Sector)) (pin : Bool) : State :=
  allEngines.foldl (fun s e =>
    let m := mx s e
    let mine := l.filter fun x => placeEng x.1 == e
    setMx s e { m with
      cairn := m.cairn.filter fun c => !(mine.any fun x => x.1 == c.pl)
      wants := m.wants.filter fun w => !(mine.any fun x => x.1 == w.pl)
      pinned := if pin then mine.foldl (fun t x => tput t x.1 x.2) m.pinned else m.pinned }) s

/-- A page's sectors are written as zeros under the new owner's keys and mode, with fresh tags, at the owner's charge
(R131, R154). -/
def fillPage (s : State) (page : Nat) (c : Change) : State :=
  let data := fillData s page c.new
  if c.new.mode == .mangle then mcWriteAll s c.new.pid data
  else
    let tags := fillTags s page c
    putTagSectors (mcWriteAll s c.new.pid (data ++ tags)) tags (c.new.sys && c.new.fslot < 4)

/-- The fill of a page ends: the page is LIVE, CLEAN 0, USED 1 (R131). -/
def endFill (s : State) (page : Nat) (c : Change) : State :=
  pageDone (install (setEntry (fillPage s page c) page
    { c.new with state := .live, clean := false, used := true }) page) page

end Sys2Proof.Machine
end

