-- ==== Sys2Proof/Machine/Path.lean ====
section
/-! DEFINITION. The path of a command from its ring to its reply (08 R223 to R234, R242 to R244). -/

namespace Sys2Proof.Machine

/-- What running a command comes to. -/
inductive Res where
  /-- A check fails: no side effect. -/
  | fail (st : Status)
  /-- Completes with another status than OK and the effects that R234 names. -/
  | failWith (st : Status) (result : BitVec 192) (s : State)
  /-- Completes with OK. -/
  | ok (s : State) (result : BitVec 192 := 0)
  /-- Completes with OK and the result in the read-once window (R235). -/
  | once (s : State)
  /-- Has started and waits. -/
  | wait (s : State) (pid : Nat) (k : WaitKind)
  /-- Ends without a reply (R395). -/
  | gone (s : State)

/-- An opcode and form: what the command processor and firmware check, and what it does. -/
structure Op where
  opcode : BitVec 8
  form   : BitVec 8 := 0
  fast   : Bool := false
  /-- Named parameters: (packet byte, first bit in it, width in bits). -/
  named  : List (Nat × Nat × Nat) := []
  /-- The command acts on the chip as a whole: PTAG must be 0x0000 (R231). -/
  whole  : Pkt → Bool := fun _ => false
  /-- Further reserved-field rules of check 3. -/
  form3  : Pkt → Bool := fun _ => true
  /-- Rings permitted (R239). -/
  rings  : Nat → Bool
  /-- A named handle matches its descriptor (check 5). -/
  handle : State → Pkt → Bool := fun _ _ => true
  /-- Checks 6 and 7. -/
  pre    : State → Nat → Pkt → Option Status := fun _ _ _ => none
  /-- Result bytes of a command that fails check 6 or 7. -/
  note   : State → Nat → Pkt → BitVec 192 := fun _ _ _ => 0
  /-- Check 8 beyond what every opcode shares (R266). -/
  lc     : State → Pkt → Bool := fun _ _ => true
  /-- What checks 6 and 7 find in the content that the command names. -/
  preMem : State → Pkt → List ReadIn → Option Status := fun _ _ _ => none
  /-- The reads that the command makes once it has come so far, in order (R145, R154). -/
  reads  : State → Ticket → Pkt → List ReadIn → List OwnRead := fun _ _ _ _ => []
  /-- Checks 9 to 12 and the effect. -/
  run    : State → Ticket → Pkt → List ReadIn → Res

/-- Operator ring only. -/
def opOnly (r : Nat) : Bool := r == 0
/-- Tenant rings, for their own PID. -/
def tenantOnly (r : Nat) : Bool := (1 ≤ r && r ≤ 31)
/-- Operator and tenant rings. -/
def opTenant (r : Nat) : Bool := r ≤ 31
/-- Every ring. -/
def anyRing (_ : Nat) : Bool := true

/-- Mask of an opcode's named parameters. -/
def namedMask (op : Op) : BitVec 384 :=
  maskOf 384 (op.named.map fun e => (8 * (e.1 - 16) + e.2.1, e.2.2))

/-- The command processor fetches from this ring now (R223 to R225, R404). -/
def fetchable (s : State) (n : Nat) : Bool :=
  let r := ring s n
  s.boot.rdy && r.en && !r.fault && r.head != r.tail && r.inflight < 8 &&
  (n == 0 || (active s n && (!(part s n).conf || (tdi s n).state == .run) && !s.cmd.tenantHold)) &&
  ringAreaOk s n r.cbase (r.head * 64) 64 rDRD

/-- A fetched command: state after the fetch, its ticket, and the ring's pre-advance count for its PID
before the fetch. -/
structure Taken where
  s   : State
  t   : Ticket
  pre : Nat

/-- Take the entry at HEAD of an operator or tenant ring (R225, R226, R232). -/
def takeEntry (s : State) (n : Nat) (pk : Packet) : Taken :=
  let r := ring s n
  let head := (r.head + 1) % ringSize r
  let s1 := setRing s n { r with
    head := head, oddPass := if head == 0 then !r.oddPass else r.oddPass,
    inflight := r.inflight + 1, pre := tmapAll 0 r.pre fun _ c => c - 1 }
  let at_ := r.cbase.toNat + r.head * 64
  let s2 := if r.loc then sendTlp s1 n 1 at_ [] else passOwn s1 n at_ 64 false true
  { s := emit { s2 with cmd := { s2.cmd with fetches := s2.cmd.fetches + 1 } } (.fetch n r.head (ringPath s n)),
    t := { ring := n, idx := r.head, phase := !r.oddPass, opcode := pk.opcode, form := pk.form,
           seq := pk.body.seq, ptag := pk.body.ptag, cookie := pk.body.cookie,
           irq := pk.body.flags.getLsbD 0, num := s.cmd.fetches },
    pre := if tagPid pk.body.ptag == 0 then 0 else tget 0 r.pre (tagPid pk.body.ptag) }

/-- HEAD of the range ring or the internal ring passes an entry: each holds 64 (R223, R226). -/
def passEntry (s : State) (n : Nat) : State :=
  let r := ring s n
  let head := (r.head + 1) % 64
  setRing s n { r with head := head, oddPass := if head == 0 then !r.oddPass else r.oddPass }

/-- Take a command of the range ring (with its source) or of the internal ring. -/
def takeOther (s : State) (n src via : Nat) (pk : Packet) : Taken :=
  let r := ring s n
  let s0 := passEntry s n
  let s1 := setRing s0 n { ring s0 n with inflight := r.inflight + 1 }
  { s := { s1 with cmd := { s1.cmd with fetches := s1.cmd.fetches + 1 } },
    t := { ring := n, idx := r.head, phase := !r.oddPass, opcode := pk.opcode, form := pk.form, seq := pk.body.seq,
           ptag := pk.body.ptag,
           cookie := pk.body.cookie, irq := pk.body.flags.getLsbD 0, num := s.cmd.fetches,
           src := src, via := via },
    pre := 0 }

/-- The range ring's packet at the front is this one. -/
def rangeFront (s : State) (pk : Packet) : Bool :=
  match s.cmd.rangeQ with
  | [] => false
  | q :: _ => q.packet == pk

/-- Fetch a command given as a row: the entry at HEAD of its ring, from QB_RDY on (R15), and from the start of firmware in
step 7 for the internal ring, whose 64 entries each hold one command until its reply (R223). `none` where the ring is not
fetched now. -/
def take (s : State) (n : Nat) (pk : Packet) : Option Taken :=
  if n ≤ 31 then (if fetchable s n then some (takeEntry s n pk) else none)
  else if n == 32 then
    match s.cmd.rangeQ with
    | [] => none
    | q :: t =>
      if s.boot.rdy && rangeFront s pk then
        some (takeOther { s with cmd := { s.cmd with rangeQ := t } } 32 q.src q.via pk)
      else none
  else if n == 33 then (if s.boot.scuUp && (ring s 33).inflight < 64 then some (takeOther s 33 0 36 pk) else none)
  else none

/-- Check 1 and its count (R230): the state with the expected number advanced, or `none`. -/
def seqCheck (s : State) (n : Nat) (p : Pkt) : Option State :=
  if n == 32 then some s
  else if p.seq == (ring s n).seqExp then
    some (setRing s n { ring s n with seqExp := (ring s n).seqExp + 1 })
  else none

/-- PTAG must be 0 (R231): for a command that acts on the chip as a whole, except on a tenant ring, which names its own
PID; on the range ring for every command but a BIND query. -/
def tagZero (op : Op) (n : Nat) (p : Pkt) : Bool :=
  (op.whole p && !tenantOnly n) || (n == 32 && !(op.opcode == 0x15 && op.form == 2))

/-- Check 3 of R233. -/
def check3 (op : Op) (n : Nat) (p : Pkt) : Bool :=
  p.flags &&& 0xFC#8 == 0 && p.rsvd3 == 0 && p.rsvd12 == 0 && p.params &&& ~~~ (namedMask op) == 0 &&
  op.form3 p && (!tagZero op n p || p.ptag == 0)

/-- Check 4 of R233. -/
def check4 (op : Op) (n : Nat) (p : Pkt) : Bool :=
  op.rings n && (!tenantOnly n || tagPid p.ptag == n)

/-- Check 5 of R233, with the ring's pre-advance count of the PID. -/
def check5 (op : Op) (s : State) (p : Pkt) (pre : Nat) : Option Status :=
  if !tagCurrent s p.ptag || pre != 0 then some .errStale
  else if !op.handle s p then some .errParam
  else none

/-- Checks 3 to 5. -/
def check35 (op : Op) (s : State) (n : Nat) (p : Pkt) (pre : Nat) : Option Status :=
  if !check3 op n p then some .errParam
  else if !check4 op n p then some .errPerm
  else check5 op s p pre

/-- Fill the read-once window of a ring's function with a reply and result data (R235). -/
def fillWindow (s : State) (n : Nat) (w : Window) : State :=
  { s with cmd := { s.cmd with windows := tset {} s.cmd.windows n w } }

/-- What a run comes to, on the state. -/
def conclude (s : State) (t : Ticket) : Res → State
  | .fail st => finish s t st
  | .failWith st r s' => finish s' t st r
  | .ok s' r => finish s' t .ok r
  | .once s' => finishWith s' t .ok true 0
  | .gone s' => s'
  | .wait s' pid k => { s' with cmd := { s'.cmd with waits := s'.cmd.waits ++ [⟨t, pid, k⟩] } }

/-- Check 8 of R233, in every state: SCRAPPED, and a chip of which a PEND towards RETURNED or SCRAPPED has
been programmed (R269), accepts LC_STATUS, RANGE_STATUS, PART_STATUS and DIAG_ECHO alone (R266). -/
def lcPermit (s : State) (opcode : BitVec 8) : Bool :=
  !(s.fuse.lcs == .scrapped || s.fuse.lockScrap) ||
  opcode == 0x71 || opcode == 0x04 || opcode == 0x15 || opcode == 0xE0

/-- Run a command that has passed checks 1 to 5: checks 6 to 12, effect, reply. Content that fails check 6 or 7 has been
read. -/
def runOp (op : Op) (s : State) (t : Ticket) (p : Pkt) (m : List ReadIn) : State :=
  match op.pre s t.ring p with
  | some st => finish s t st (op.note s t.ring p)
  | none =>
    match op.preMem s p m with
    | some st => finish (readAll s (op.reads s t p m) m) t st
    | none =>
      if lcPermit s op.opcode && op.lc s p then
        let s1 := readAll s (op.reads s t p m) m
        conclude s1 t (op.run s1 t p m)
      else finish s t .errLifecycle

/-- A command of the ring that was fetched before number `num` has not completed. -/
def earlier (s : State) (n num : Nat) : Bool :=
  s.cmd.fwq.any (fun q => q.tkt.ring == n && decide (q.tkt.num < num)) ||
  s.cmd.waits.any (fun w => w.tkt.ring == n && decide (w.tkt.num < num))

/-- No firmware command that the SCU takes before one of ring `n` is waiting (R242). -/
def firstInLine (s : State) (n : Nat) : Bool :=
  if n == 33 then s.cmd.fwq.all fun q => q.tkt.ring != 33
  else if n == 32 then s.cmd.fwq.all fun q => q.tkt.ring != 33 && q.tkt.ring != 32
  else s.cmd.fwq.isEmpty && s.cmd.rangeQ.isEmpty

/-- A started command of the fast path, which the command processor holds, not firmware (R241, R242). -/
def fastWait (k : WaitKind) : Bool :=
  match k with
  | .save _ | .kill _ | .teardown .. => true
  | _ => false

/-- Firmware commands started on the chip, and those of a ring (R242). -/
def startedAll (s : State) : Nat := (s.cmd.waits.filter fun w => !fastWait w.kind).length
/-- Started firmware commands of a ring. -/
def startedOf (s : State) (n : Nat) : Nat := (s.cmd.waits.filter fun w => w.tkt.ring == n && !fastWait w.kind).length

/-- A command names a context that a SAVE or a KILL is to evict: CTX_LOAD RESUME, or CTX_EVICT but for another KILL, which
has its own order (R220, R244). -/
def ctxAfter (t : Ticket) (pk : Pkt) (w : Wait) : Bool :=
  let evict := t.opcode == 0x17 && t.form != 1
  match w.kind with
  | .save i => ((t.opcode == 0x16 && t.form == 1) || evict) && parm pk 16 32 % 16384 == i
  | .kill p => (t.opcode == 0x16 || evict) && p == tagPid t.ptag
  | _ => false

/-- A command names the port that a LINK_SESSION opens or closes (R244). -/
def portAfter (t : Ticket) (pk : Pkt) (w : Wait) : Bool :=
  match w.kind with
  | .linkOpen p | .linkClose p => 0x30 ≤ t.opcode.toNat && t.opcode.toNat ≤ 0x32 && parm pk 16 8 == p
  | _ => false

/-- A command waits for a started one (R243, R244): a firmware command for one of its own ring, whose effects are not all
made, and for one of its partition; any command for one on the context or port it names. An advance of the epoch merges
those that come meanwhile (R360). -/
def serialAfter (fast : Bool) (t : Ticket) (pk : Pkt) (w : Wait) : Bool :=
  let pid := tagPid t.ptag
  let merged := t.opcode == 0x03 && match w.kind with
    | .epochAdvance _ => true
    | _ => false
  (!fast && !fastWait w.kind && ((w.tkt.ring == t.ring && !merged) || (pid != 0 && w.pid == pid))) ||
  ctxAfter t pk w || portAfter t pk w

/-- No started command holds a command back. -/
def serialOk (s : State) (fast : Bool) (t : Ticket) (pk : Pkt) : Bool :=
  s.cmd.waits.all fun w => !serialAfter fast t pk w

/-- The advance of a function reset or of a teardown of the command's partition is on its way: the command starts after it,
and so with ERR_STALE (R46, R233). -/
def advanceAhead (s : State) (t : Ticket) : Bool :=
  tagPid t.ptag != 0 && s.part.genWait.any fun g => g.1 == tagPid t.ptag && g.2 != .kill

/-- A signal or a transfer of ownership that a kill of the partition holds until it ends (R210; DEDUCED, log entry 93). -/
def killHolds (s : State) (t : Ticket) : Bool :=
  ((t.opcode == 0x1A && t.form != 2) || t.opcode == 0x25) && tagPid t.ptag != 0 &&
  s.part.kills.any fun k => k.1 == tagPid t.ptag

/-- The command draws under R256's reseed, and the last health-test window failed: its draw waits for a passing window, or
for the third failure, which turns it into ERR_STATE (R275). -/
def drawWaits (s : State) (t : Ticket) (p : Pkt) : Bool :=
  s.keys.entConsec != 0 && !s.keys.entFailed &&
  ((t.opcode == 0x01 && t.form == 1) || (t.opcode == 0x03 && t.form == 0) || t.opcode == 0x10 ||
   (t.opcode == 0x70 && parm p 16 8 ≤ 2) || (t.opcode == 0x72 && parm p 17 8 != 0))

/-- A fetched command may start as far as its own place goes: its WAIT is over, neither an advance nor a kill nor a started
command goes before it, and a firmware command has a running SCU and room among the started ones (R242 to R244). -/
def placeOk (s : State) (fast : Bool) (t : Ticket) (p : Pkt) : Bool :=
  (!p.flags.getLsbD 1 || !earlier s t.ring t.num) && !advanceAhead s t && !killHolds s t && !drawWaits s t p && serialOk s fast t p &&
  (fast || (s.boot.scuUp && startedAll s < 64 && startedOf s t.ring < 8))

/-- A fetched command may start now: a firmware command when nothing is queued before it. -/
def mayStart (s : State) (fast : Bool) (t : Ticket) (p : Pkt) : Bool :=
  placeOk s fast t p && (fast || firstInLine s t.ring)

/-- The shared turns after a firmware command of a ring starts (R242). -/
def noteTurn (s : State) (n : Nat) : State :=
  if n == 0 then { s with cmd := { s.cmd with opTurn := false } }
  else if n ≤ 31 then { s with cmd := { s.cmd with opTurn := true, lastTenant := n } }
  else s

/-- The state in which a command starts: a firmware command takes its ring's turn. -/
def begun (fast : Bool) (s : State) (t : Ticket) : State := if fast then s else noteTurn s t.ring

/-- Start a fetched command that passed checks 1 to 5, or queue it for firmware. -/
def startOrQueue (op : Op) (s : State) (t : Ticket) (pk : Packet) (m : List ReadIn) : State :=
  if mayStart s op.fast t pk.body then runOp op (begun op.fast s t) t pk.body m
  else { s with cmd := { s.cmd with fwq := s.cmd.fwq ++ [⟨t, pk, op.fast⟩] } }

/-- From the fetch to the reply: check 1, checks 3 to 5, start (R233). -/
def receive (op : Op) (k : Taken) (pk : Packet) (m : List ReadIn) : State :=
  match seqCheck k.s k.t.ring pk.body with
  | none => finish k.s k.t .errParam (resultOf [(8, (ring k.s k.t.ring).seqExp.toNat)])
  | some s1 =>
    match check35 op s1 k.t.ring pk.body k.pre with
    | some st => finish s1 k.t st
    | none => startOrQueue op s1 k.t pk m

/-- The meaning of a command row: the packet stands at HEAD of its ring and is fetched, checked and
run; where the ring is not fetched now, nothing happens. -/
def issue (op : Op) (s : State) (c : Cmd) : State :=
  match take s c.ring ⟨op.opcode, op.form, c.body⟩ with
  | none => s
  | some k => receive op k ⟨op.opcode, op.form, c.body⟩ c.mem

end Sys2Proof.Machine
end

