-- ==== Sys2Proof/Machine/KeyOps.lean ====
section
/-! DEFINITION. Shared operations on the key slot array and the derivation tree (09 R257 to R263). -/

namespace Sys2Proof.Machine

/-! ## Policy words (R258) -/

/-- CLASS codes. -/
def classCode : KClass → Nat
  | .empty => 0 | .identity => 1 | .fwlayer => 2 | .range => 3 | .chip => 4 | .agreed => 5
  | .partroot => 6 | .memory => 7 | .devset => 8 | .bundle => 9 | .iron => 10 | .ide => 11

/-- ENGINE codes. -/
def engineCode : KEngine → Nat
  | .none => 0 | .derivation => 1 | .pke => 2 | .iron => 3 | .memData => 4 | .memUnseal => 5
  | .hostIde => 6 | .decoders => 7

/-- A policy word; `use` holds WRAP, EXPORT, DERIVE, TENANT in bits 3 to 0. -/
def policy (c : KClass) (e : KEngine) (pid cgen use : Nat) : BitVec 32 :=
  BitVec.ofNat 32 (classCode c * 2 ^ 28 + engineCode e * 2 ^ 24 + pid * 2 ^ 19 + cgen * 2 ^ 8 + use * 16)

/-- CLASS of a policy word. -/
def polClass (p : BitVec 32) : Nat := bits p.toNat 28 4
/-- PID of a policy word. -/
def polPid (p : BitVec 32) : Nat := bits p.toNat 19 5
/-- CGEN of a policy word. -/
def polCgen (p : BitVec 32) : Nat := bits p.toNat 8 11
/-- ENGINE of a policy word. -/
def polEngine (p : BitVec 32) : Nat := bits p.toNat 24 4
/-- DERIVE of a policy word. -/
def polDerive (p : BitVec 32) : Bool := p.getLsbD 5
/-- TENANT of a policy word. -/
def polTenant (p : BitVec 32) : Bool := p.getLsbD 4
/-- WRAP of a policy word. -/
def polWrap (p : BitVec 32) : Bool := p.getLsbD 7
/-- EXPORT of a policy word. -/
def polExport (p : BitVec 32) : Bool := p.getLsbD 6

/-- The slot holds a key of a class for a PID whose CTAG generation matches (R258). -/
def slotIs (s : State) (i : Nat) (c : KClass) (pid : Nat) : Bool :=
  let p := (slot s i).policy
  polClass p == classCode c && polPid p == pid && (pid == 0 || polCgen p == (part s pid).ctag.toNat % 2048)

/-- The slot's key may go to an engine for a PID: class, PID, CGEN and ENGINE match, and the derivation logic takes
input keying material only from a key with DERIVE (R258). -/
def keyFits (s : State) (i : Nat) (c : KClass) (e : KEngine) (pid : Nat) : Bool :=
  let p := (slot s i).policy
  slotIs s i c pid && polEngine p == engineCode e && (e != .derivation || polDerive p)

/-! ## Writing and checking slots (R257, R259) -/

/-- The check value of a slot. -/
def slotCheck (s : State) (i : Nat) (k : Key) (p : BitVec 32) : BitVec 32 :=
  BitVec.ofNat 32 (leNat (kmac256 (keyBytes s.keys.chkKey) (leBytes 1 i ++ keyBytes k ++ leBytes 4 p.toNat)
    (asc "QBKSA") 4))

/-- The derivation logic writes a newly derived key: policy, check value, next incarnation, BAD clear. -/
def writeSlot (s : State) (i : Nat) (k : Key) (p : BitVec 32) : State :=
  setSlot s i { key := k, policy := p, check := slotCheck s i k p, inc := (slot s i).inc + 1 }

/-- The DRBG, an unwrap, a move between slots or IDE_KM writes a key: never into a BAD slot (R259). -/
def writeRaw (s : State) (i : Nat) (k : Key) (p : BitVec 32) : State :=
  if (slot s i).bad then s else writeSlot s i k p

/-- A key shorter than 256 bits occupies the low-order bytes (R257). -/
def lowKey (k : BitVec 128) : Key := k.setWidth 256

/-- Slots that reservations hold EMPTY (R261). -/
def heldSlots (s : State) : List Nat := (s.keys.parts.map fun e => e.2.held).filter fun n => n != 0

/-- Pool slots free for a derived key: EMPTY, not reserved (R259, R261). -/
def freeDerived (s : State) : List Nat :=
  (span 8 248).filter fun i => polClass (slot s i).policy == 0 && !(heldSlots s).contains i

/-- Pool slots free for any other key: the allocator skips BAD ones (R259, R261). -/
def freeSlots (s : State) : List Nat := (freeDerived s).filter fun i => !(slot s i).bad

/-- USED of QB_KSA_STATUS: slots not EMPTY. -/
def usedSlots (s : State) : Nat := tcount s.keys.slots fun k => polClass k.policy != 0

/-- Handle of a slot (R262). -/
def keyHandle (s : State) (pid i : Nat) : BitVec 32 :=
  BitVec.ofNat 32 (pid * 2 ^ 27 + (slot s i).inc.toNat * 65536 + i)

/-- Slot number of a key handle. -/
def keyIdx (h : BitVec 32) : Nat := h.toNat % 256

/-- A key handle names a slot of a class for the PID (R262). -/
def keyMatch (s : State) (h : BitVec 32) (pid : Nat) (c : KClass) : Bool :=
  h == keyHandle s pid (keyIdx h) && slotIs s (keyIdx h) c pid

/-- The 48 bytes of a salt. -/
def drawSalt (s : State) : State × Bytes := drawBytes (reseed s) 48

/-- The seed of a P-384 pair. -/
def drawEc (s : State) : State × BitVec 384 :=
  let a := drawBytes s 48
  (a.1, BitVec.ofNat 384 (beNat a.2))

/-- The seed of an ML-KEM pair. -/
def drawKem (s : State) : State × BitVec 512 :=
  let a := drawBytes s 64
  (a.1, BitVec.ofNat 512 (beNat a.2))

/-! ## A slot that fails verification (R259, R260) -/

/-- TDIs bound to the streams that use a slot. -/
def ideTdis (s : State) (i : Nat) : List Nat :=
  (s.part.ide.filter fun e => e.2.keys.any fun k => k.2 == i).flatMap fun e =>
    (s.part.tdi.filter fun t => t.2.stream == some e.1).map (·.1)

/-- Level of SA_KEY_SLOT for a slot (R260). -/
def slotLevel (s : State) (i : Nat) : Level :=
  let p := (slot s i).policy
  let c := polClass p
  if i == 2 || c == classCode .chip then .quarantine
  else if c == classCode .partroot || c == classCode .ide then .partition
  else if c == classCode .memory && (slot s (tget {} s.keys.parts (polPid p)).root).bad then .partition
  else .notice

/-- An Iron context number returns to FREE; what was saved of it stays (R346). -/
def ironFree (c : IronCtx) : IronCtx := { last := c.last, consumed := c.consumed }

/-- The context number is bound to a hardware context. -/
def ironBound (c : IronCtx) : Bool := c.state == .opened || c.state == .held

/-- Context numbers that pass a test return to FREE, and the buffers that they hold are zeroed (R344, R346). -/
def ironEndAll (s : State) (p : Nat → IronCtx → Bool) : State :=
  let held := fun (b : Nat) => s.iron.ctxs.any fun e => p e.1 e.2 && e.2.state == .held && e.2.heldBuf == b
  { s with iron := { s.iron with
      ctxs := tmapAll {} s.iron.ctxs fun k c => if p k c then ironFree c else c
      bufs := s.iron.bufs.filter fun b => !held b.1 } }

/-- Context numbers that use a key end (R346). -/
def ironDropKey (s : State) (h : BitVec 32) : State := ironEndAll s fun _ c => ironBound c && c.key == h

/-- A slot fails verification: BAD is set, SA_KEY_SLOT raised, and the rest of what its class brings is due. An IDE
slot's alarm is raised against the first of the partitions whose TDIs are bound to its stream; the others' contexts
are lost with it (DEDUCED, log entry 106). The Iron contexts that use an IRON slot are FREE at once (R346). Nothing is raised on a zeroised chip (R275). -/
def slotMark (s : State) (i : Nat) : State :=
  let k := slot s i
  if s.keys.zeroised || k.bad || polClass k.policy == 0 then s
  else
    let ts := ideTdis s i
    let ide := polClass k.policy == classCode .ide
    let s0 := if polClass k.policy == classCode .iron then ironDropKey s (keyHandle s (polPid k.policy) i) else s
    let s1 := setSlot { s0 with keys := { s0.keys with
      badCnt := inc32 s0.keys.badCnt, failing := s0.keys.failing ++ [i] } } i { k with bad := true }
    let s2 := raiseAlarm s1 .keySlot (if ide then ts.headD 0 else polPid k.policy) (slotLevel s i) 36 0x30 i
    if ide then (ts.drop 1).foldl (fun s n => losePid s n .alarm) s2 else s2

/-- A slot delivers no key: BAD, or its check fails. -/
def slotDead (s : State) (i : Nat) : Bool :=
  let k := slot s i
  k.bad || (polClass k.policy != 0 && k.check != slotCheck s i k.key k.policy)

/-- Read slots: `none` where each verifies; else the state with each failure marked (R259). -/
def readBad (s : State) (l : List Nat) : Option State :=
  if l.any (slotDead s) then some ((l.filter (slotDead s)).foldl slotMark s) else none

/-- The slot that holds the range key of an epoch (R263, R364): current in slot 2, previous in slot 3; a member
that has taken a PREPARE holds the new epoch's key as current already. While a Summit advances, slot 3 holds the key it
has drawn (DEDUCED, log entry 97). -/
def rkSlot (s : State) (epoch : Nat) : Option Nat :=
  match s.range.prep with
  | some q =>
    if epoch == q.epoch.toNat then some 2 else if epoch == s.range.epoch.toNat then some 3 else none
  | none =>
    if epoch == s.range.epoch.toNat then some 2
    else if epoch + 1 == s.range.epoch.toNat && s.range.adv.all (fun a => a.slot != 3) then some 3 else none

/-- The range key of an epoch. -/
def rkOf (s : State) (epoch : Nat) : Key :=
  match rkSlot s epoch with
  | some i => (slot s i).key
  | none => 0

/-! ## Derivations (R263) -/

/-- CTAG ‖ MEPOCH, as the info strings carry them. -/
def ctagMepoch (ctag : BitVec 16) (mepoch : BitVec 32) : Bytes := leBytes 2 ctag.toNat ++ leBytes 4 mepoch.toNat

/-- FWS, where the derivation logic may take it; a chip whose root is ABSENT has none, and the spec says nothing of what it
derives its system keys from (R253, R258; DESIGN CHOICE, log entry 114). -/
def fwsKey (s : State) : Key := if keyFits s 1 .fwlayer .derivation 0 then (slot s 1).key else Config.noRoot

/-- PARTROOT. -/
def derivePartroot (s : State) (salt : Bytes) (conf : Bool) (ctag : BitVec 16) (mepoch : BitVec 32) : Key :=
  let rk := if conf then keyBytes (slot s 2).key else []
  keyOf (hkdf salt (keyBytes (fwsKey s) ++ rk) (asc "part-root" ++ ctagMepoch ctag mepoch) 32)

/-- A MEMORY-class key from PARTROOT. -/
def deriveMem (root : Key) (label : Bytes) (ctag : BitVec 16) (mepoch : BitVec 32) : Key :=
  keyOf (hkdf (asc "QBMEM1") (keyBytes root) (label ++ ctagMepoch ctag mepoch) 32)

/-- K_MGL from PARTROOT. -/
def deriveMgl (root : Key) (ctag : BitVec 16) (mepoch : BitVec 32) : BitVec 128 :=
  BitVec.ofNat 128 (beNat (hkdf (asc "QBMEM1") (keyBytes root) (asc "mangle" ++ ctagMepoch ctag mepoch) 16))

/-- The memory keys of an owner from its PARTROOT. -/
def deriveAll (root : Key) (mangle : Bool) (ctag : BitVec 16) (mepoch : BitVec 32) : MemKeys :=
  { mgl := if mangle then deriveMgl root ctag mepoch else 0
    xts1 := deriveMem root (asc "xts1") ctag mepoch
    xts2 := deriveMem root (asc "xts2") ctag mepoch
    mac := deriveMem root (asc "mac") ctag mepoch }

/-- Load an owner's memory keys into the engines (R136). -/
def loadKeys (s : State) (pid : Nat) (k : MemKeys) : State :=
  { s with mem := { s.mem with keys := tset {} s.mem.keys pid k } }

/-- Write the five slots that PART_CREATE reserved (R261, R263). -/
def writePartKeys (s : State) (pid : Nat) (conf : Bool) (sl : List Nat) (ctag : BitVec 16)
    (mepoch : BitVec 32) : State :=
  let d := drawSalt s
  let root := derivePartroot d.1 d.2 conf ctag mepoch
  let k := deriveAll root (!conf) ctag mepoch
  let g := ctag.toNat % 2048
  let n := fun j => sl.getD j 0
  let memp := policy .memory .memData pid g 0
  let ps : PartSlots :=
    if conf then { root := n 0, xts1 := n 1, xts2 := n 2, mac := n 3, held := n 4 }
    else { root := n 0, mgl := n 1, xts1 := n 2, xts2 := n 3, mac := n 4 }
  let s1 := writeSlot d.1 ps.root root (policy .partroot .derivation pid g 2)
  let s2 := if conf then s1 else writeSlot s1 ps.mgl (lowKey k.mgl) memp
  let s3 := writeSlot (writeSlot (writeSlot s2 ps.xts1 k.xts1 memp) ps.xts2 k.xts2 memp) ps.mac k.mac memp
  { s3 with keys := { s3.keys with parts := tset {} s3.keys.parts pid ps } }

/-- Clear every KSA slot of a PID, its reservation too (R261). -/
def clearPidSlots (s : State) (pid : Nat) : State :=
  let l := (s.keys.slots.filter fun e => polClass e.2.policy != 0 && polPid e.2.policy == pid).map (·.1)
  let s1 := l.foldl clearSlot s
  { s1 with keys := { s1.keys with parts := tset {} s1.keys.parts pid {} } }

end Sys2Proof.Machine
end

