-- ==== Sys2Proof/Machine/Attest.lean ====
section
/-! DEFINITION. Identity keys, certificates, measurements and evidence (10 R287, R298 to R307, 09 R254,
R263, R267, R276). -/

namespace Sys2Proof.Machine

/-! ## What the fuses and the image say -/

/-- The fuse SVN (R254). -/
def fuseSvn (s : State) : Nat := if s.fuse.svn == 0 then 0 else Nat.log2 s.fuse.svn.toNat + 1

/-- Life-cycle state codes (R266). -/
def lcsCode : Lcs → Nat
  | .maker => 0 | .integrator => 1 | .fielded => 2 | .returned => 3 | .scrapped => 4

/-- TDISP state codes as TDISP numbers them (PRESUMED, log entry 13). -/
def tdiCode : Tdi → Nat
  | .unlocked => 0 | .locked => 1 | .run => 2 | .error => 3

/-- QB_ID (R403). -/
def qbId : Nat := 0x51420200

/-- M of an image (R287): header bytes 0–159, then the hash of bytes 160–2848. -/
def imageM (im : Image) : BitVec 384 :=
  BitVec.ofNat 384 (beNat (sha (slice im.header 0 160 ++ sha (slice im.header 160 2689))))

/-- M of the running firmware. -/
def fwM (s : State) : BitVec 384 :=
  match s.boot.run with
  | some im => imageM im
  | none => 0

/-- BUILD of the running image. -/
def runBuild (s : State) : BitVec 64 :=
  match s.boot.run with
  | some im => im.build
  | none => 0

/-- SVN of the running image. -/
def runSvn (s : State) : BitVec 8 :=
  match s.boot.run with
  | some im => im.svn
  | none => 0

/-! ## Keys regenerated on use (R263) -/

/-- FWS, the firmware-layer secret. -/
def fws (s : State) : Bytes := keyBytes (slot s 1).key
/-- DS, the device secret. -/
def devSecret (s : State) : Bytes := keyBytes (slot s 0).key
/-- Seed of a P-384 pair. -/
def ecSeed (ikm label : Bytes) : BitVec 384 := BitVec.ofNat 384 (beNat (hkdf [] ikm label 48))
/-- Seed of an ML-KEM-1024 pair. -/
def kemSeed (ikm label : Bytes) : BitVec 512 := BitVec.ofNat 512 (beNat (hkdf [] ikm label 64))

/-- Alias P-384 and ML-DSA-87 seeds. R263 gives "48 or 64" for the four labels: P-384 takes 48 bytes, the others 64 (DEDUCED,
log entry 109). -/
def aliasEc (s : State) : BitVec 384 := ecSeed (fws s) (asc "alias-ec")
def aliasMl (s : State) : Bytes := hkdf [] (fws s) (asc "alias-mldsa") 64
/-- Range-transport seeds. -/
def xportEc (s : State) : BitVec 384 := ecSeed (fws s) (asc "xport-ec")
def xportKem (s : State) : BitVec 512 := kemSeed (fws s) (asc "xport-kem")

/-- A certificate's serial number: the first 20 bytes of the SHA-384 of its subject public key, the top bit cleared (R299). -/
def certSerial (pub : Bytes) : Bytes :=
  let h := sha pub
  (h.take 1).map (fun x => x &&& 0x7F) ++ (h.drop 1).take 19

/-- A number as hexadecimal digits, the highest first. -/
def hexDigits : Nat → Nat → Bytes
  | 0, _ => []
  | n + 1, x => hexDigits n (x / 16) ++ [BitVec.ofNat 8 (if x % 16 < 10 then 48 + x % 16 else 87 + x % 16)]

/-- The TcbInfo extension of the alias certificates (R299): vendor, model, layer, version, svn, M, notSecure, debug. -/
def tcbInfo (s : State) : Bytes :=
  let l := s.fuse.lcs
  asc "Noravaqua" ++ asc "Queber" ++ [1] ++ hexDigits 16 (runBuild s).toNat ++ leBytes 1 (runSvn s).toNat ++
  beBytes 48 (fwM s).toNat ++ leBytes 1 (b2n (l != .fielded)) ++ leBytes 1 (b2n (l == .maker || l == .scrapped))

/-- DeviceID seeds: P-384, ML-DSA-87 (R263). -/
def devEc (s : State) : BitVec 384 := ecSeed (devSecret s) (asc "devid-ec")
def devMl (s : State) : Bytes := hkdf [] (devSecret s) (asc "devid-mldsa") 32

/-- The key of a layer in an algorithm slot (0 P-384, 1 ML-DSA-87): its public key, and how it signs what a certificate
states (R298). -/
structure CertKey where
  pub  : Bytes
  sign : Bytes → Bytes

/-- The DeviceID layer. -/
def devKey (s : State) (n : Fin 2) : CertKey :=
  if n == 0 then { pub := Config.ecPub (devEc s), sign := fun b => Config.ecSign (devEc s) (sha b) }
  else { pub := Config.mlPub (devMl s), sign := fun b => Config.mlSign (devMl s) [] b }

/-- The alias layer. -/
def aliasKey (s : State) (n : Fin 2) : CertKey :=
  if n == 0 then { pub := Config.ecPub (aliasEc s), sign := fun b => Config.ecSign (aliasEc s) (sha b) }
  else { pub := Config.mlPub (aliasMl s), sign := fun b => Config.mlSign (aliasMl s) [] b }

/-- The range-transport key that an algorithm slot certifies: P-384, or ML-KEM-1024 under ML-DSA-87 (R298). -/
def xportPub (s : State) (n : Fin 2) : Bytes := if n == 0 then Config.ecPub (xportEc s) else Config.kemPub (xportKem s)

/-- A certificate (R299): X.509 version 3, serial number, issuer's key, notBefore, notAfter, subject's key, extensions; in
DER, whose rules are the standard's (log entry 6). -/
def certOf (n : Fin 2) (issuer : CertKey) (subject notBefore ext : Bytes) : Bytes :=
  let b := [2] ++ certSerial subject ++ issuer.pub ++ notBefore ++ asc "99991231235959Z" ++ subject ++ ext
  Config.certDer n b (issuer.sign (Config.tbsDer n b))

/-- The certificate area holds a DeviceID certificate of the slot for the chip's key (R298). -/
def enrolled (s : State) (n : Fin 2) : Bool := Config.hasDeviceId n s.boot.flash.certs (devKey s n).pub

/-- notBefore of the DeviceID certificate, which every certificate of the chip copies (R299). -/
def devNotBefore (s : State) (n : Fin 2) : Bytes :=
  if enrolled s n then Config.notBefore n s.boot.flash.certs else Config.selfNotBefore

/-- The chain to the DeviceID certificate: the certificate area's, or a self-signed one (R298). -/
def devChain (s : State) (n : Fin 2) : Bytes :=
  if enrolled s n then Config.areaChain n s.boot.flash.certs
  else certOf n (devKey s n) (devKey s n).pub (devNotBefore s n) []

/-- The certificate chain of a slot, root to alias: the DeviceID key issues the alias certificate, which carries TcbInfo
(R298, R299, R302). -/
def chainOf (s : State) (n : Fin 2) : Bytes :=
  devChain s n ++ certOf n (devKey s n) (aliasKey s n).pub (devNotBefore s n) (tcbInfo s)

/-- The range-transport certificate of a slot, which the alias key issues (R298). -/
def xportCert (s : State) (n : Fin 2) : Bytes := certOf n (aliasKey s n) (xportPub s n) (devNotBefore s n) []

/-- Both chains to their range-transport certificates. -/
def certs (s : State) : Bytes := chainOf s 0 ++ xportCert s 0 ++ chainOf s 1 ++ xportCert s 1

/-- The two alias signatures over a message (R306): the P-384 one covers its hash. -/
def aliasSign (s : State) (label msg : Bytes) : Bytes :=
  Config.ecSign (aliasEc s) (sha msg) ++ Config.mlSign (aliasMl s) label msg

/-- Both signatures at the end of a message verify under the alias keys of a chain. -/
def aliasVerify (chains label body sigs : Bytes) : Bool :=
  Config.ecVerify (Config.chainAlias chains).1 (sha body) (slice sigs 0 96) &&
  Config.mlVerify (Config.chainAlias chains).2 label body (slice sigs 96 4627)

/-! ## Measurements (R300, R301) -/

/-- Tiles of a partition, counted. -/
def tileCount (t : BitVec 288) : Nat := ((List.range 288).filter fun i => t.getLsbD i).length

/-- Scope bits of the active authorisation. -/
def dbgScope (s : State) : Nat := match s.keys.dbg with
  | some d => d.scope
  | none => 0

/-- PID of the active authorisation. -/
def dbgPid (s : State) : Nat := match s.keys.dbg with
  | some d => d.pid
  | none => 0

/-- Role codes (R33). -/
def roleCode : Role → Nat
  | .member => 0 | .summit => 1 | .shoulder => 2

/-- Value of measurement index 5. -/
def measHw (s : State) : Bytes :=
  leBytes 4 qbId ++ leBytes 16 s.fuse.devId.toNat ++ leBytes 1 (lcsCode s.fuse.lcs) ++
  leBytes 1 (b2n s.fuse.pending + lcsCode s.fuse.ptarget * 16) ++ leBytes 1 (fuseSvn s) ++
  leBytes 1 (match s.boot.run with | some im => im.fuseSvn.toNat | none => 0) ++
  leBytes 1 (min 255 s.fuse.rootDis) ++
  leBytes 1 (b2n s.boot.trial + 2 * b2n s.boot.fallback + 4 * b2n s.boot.runSlot) ++ zeros 6

/-- Value of measurement index 6. -/
def measFw (s : State) : Bytes :=
  leBytes 1 (dbgScope s) ++ leBytes 1 s.keys.dbgEver.toNat ++ leBytes 1 (dbgPid s) ++
  leBytes 1 (b2n s.keys.zeroised) ++ leBytes 4 s.boot.scuResets

/-- Value of measurement index 7: all zero when UNBOUND. -/
def measRange (s : State) : Bytes :=
  let r := s.range
  if r.memb == .unbound then zeros 72
  else
    leBytes 8 r.rangeId.toNat ++ leBytes 2 r.nodeId ++ leBytes 1 (membCode r.memb) ++ leBytes 1 (roleCode r.role) ++
    leBytes 4 r.epoch.toNat ++ leBytes 1 (b2n r.test + 2 * b2n r.paired) ++ zeros 7 ++ sha r.afs

/-- The tile-clear record of a partition (R326). -/
def tileRecord (p : Part) : Bytes :=
  leBytes 2 p.handed ++ leBytes 2 p.released ++ zeros 4 ++ leBytes 8 p.lastScrub ++ beBytes 16 p.digest.toNat

/-- Value of measurement index 8 for a PID. -/
def measPart (s : State) (pid : Nat) : Bytes :=
  let p := part s pid
  leBytes 2 (curTag s pid).toNat ++ leBytes 2 p.ctag.toNat ++
  leBytes 1 (b2n p.conf + 2 * b2n p.jobSet + 4 * b2n p.strict) ++ leBytes 1 (tdiCode (tdi s pid).state) ++ zeros 2 ++
  leBytes 4 p.mepoch.toNat ++ leBytes 8 p.job.toNat ++ leBytes 36 p.tiles.toNat ++
  leBytes 4 (livePages s pid) ++ zeros 4 ++ tileRecord p

/-- Value of measurement index 9. -/
def measAlarm (s : State) : Bytes :=
  ((List.range 10).map fun c => leBytes 2 (tget 0 s.alarm.highCnt (c + 1))).flatten ++
  leBytes 1 s.alarm.maxLvl ++ zeros 3

/-- Type and value of a measurement index for a PID (0: the operator, which has no index 8). -/
def measValue (s : State) (pid i : Nat) : Option (BitVec 8 × Bytes) :=
  if i == 1 then some (0x00, sha Config.rom)
  else if i == 2 then some (0x01, beBytes 48 (fwM s).toNat)
  else if i == 3 then some (0x86, leBytes 8 (runBuild s).toNat)
  else if i == 4 then some (0x87, leBytes 8 (runSvn s).toNat)
  else if i == 5 then some (0x82, measHw s)
  else if i == 6 then some (0x83, measFw s)
  else if i == 7 then some (0x83, measRange s)
  else if i == 8 && pid != 0 then some (0x83, measPart s pid)
  else if i == 9 then some (0x83, measAlarm s)
  else none

/-- A measurement block (R301). -/
def measBlock (i : Nat) (ty : BitVec 8) (v : Bytes) : Bytes :=
  leBytes 1 i ++ [1] ++ leBytes 2 (v.length + 3) ++ [ty] ++ leBytes 2 v.length ++ v

/-- The block of an index, empty where the asker has none. -/
def measOf (s : State) (pid i : Nat) : Bytes :=
  match measValue s pid i with
  | some (ty, v) => measBlock i ty v
  | none => []

/-- All blocks of an asker in index order. -/
def measAll (s : State) (pid : Nat) : Bytes := ((span 1 9).map (measOf s pid)).flatten

/-! ## Evidence (R306) -/

/-- Bytes that the signatures of evidence cover. -/
def evidenceBody (s : State) (pid : Nat) (nonce : Bytes) : Bytes :=
  let blocks := measAll s pid
  asc "QEVD" ++ [1] ++ leBytes 1 (lcsCode s.fuse.lcs) ++ zeros 2 ++
  leBytes 4 (72 + blocks.length + 4723) ++ leBytes 2 (if pid == 0 then 8 else 9) ++
  leBytes 2 (curTag s pid).toNat ++ slice nonce 0 32 ++ leBytes 16 s.fuse.devId.toNat ++
  leBytes 2 (if s.range.memb == .unbound || s.range.memb == .joining then 0xFFFF else s.range.nodeId) ++
  zeros 6 ++ blocks

/-- Evidence of an asker over a nonce. -/
def evidence (s : State) (pid : Nat) (nonce : Bytes) : Bytes :=
  let b := evidenceBody s pid nonce
  b ++ aliasSign s (asc "QBEVD") b

/-- Length of the operator's evidence. -/
def evidLen : Nat := 5099

/-- The evidence of the operator form carries 8 blocks at fixed places: byte of a block's value. -/
def evidAt (b : Bytes) (off n : Nat) : Nat := le b (72 + off) n

/-- Facts that a Summit reads from a joiner's evidence: LCS, SVN, fuse SVN, DEV_ID, M (R307). -/
structure Facts where
  lcs     : Nat
  svn     : Nat
  fuseSvn : Nat
  devId   : Nat
  m       : BitVec 384
  deriving DecidableEq, Repr

/-- Read the facts: block 2 starts at byte 55, block 4 at 125, block 5 at 140 of the blocks. -/
def factsOf (b : Bytes) : Facts :=
  { lcs := le b 5 1, devId := le b 48 16, m := BitVec.ofNat 384 (beNat (slice b (72 + 55 + 7) 48)),
    svn := evidAt b (125 + 7) 1, fuseSvn := evidAt b (140 + 7 + 22) 1 }

/-- Evidence of the operator form over a nonce, signed by the alias keys of the chains that follow it, which
verify to the Noravaqua DICE root (R32, R358). -/
def evidenceGood (b : Bytes) (nonce : Bytes) : Bool :=
  let body := slice b 0 (evidLen - 4723)
  let sigs := slice b (evidLen - 4723) 4723
  let chains := b.drop evidLen
  slice b 0 4 == asc "QEVD" && slice b 16 32 == nonce && Config.chainOk chains &&
  aliasVerify chains (asc "QBEVD") body sigs

end Sys2Proof.Machine
end

