-- ==== Sys2Proof/Machine/Identity.lean ====
section
/-! DEFINITION. The root, and the identity keys that descend from it (09 R252, R259, R260, R263, R264). -/

namespace Sys2Proof.Machine

/-! ## Root and chip keys -/

/-- Ones of a number of `w` bits. -/
def ones {w : Nat} (x : BitVec w) : Nat := ((List.range w).filter fun i => x.getLsbD i).length

/-- The majority root (R252). -/
def majorityRoot (f : FuseState) : BitVec 256 :=
  (f.rootA &&& f.rootB) ||| (f.rootB &&& f.rootC) ||| (f.rootA &&& f.rootC)

/-- Positions where the copies disagree. -/
def rootDisagree (f : FuseState) : Nat := ones ((f.rootA ^^^ f.rootB) ||| (f.rootB ^^^ f.rootC))

/-- Classification of the root (R252). -/
def rootClass (f : FuseState) : RootKind :=
  if majorityRoot f == 0 then .absent
  else if majorityRoot f == BitVec.allOnes 256 then .destroyed
  else if rootDisagree f > 24 then .failed
  else .valid

/-- A 16-bit field is SET, or touched (R267). -/
def isSet (x : BitVec 16) : Bool := ones x ≥ 12
/-- A field is touched. -/
def touched (x : BitVec 16) : Bool := x != 0

/-- LC_R and LC_S are untouched (R264). -/
def lockClear (f : FuseState) : Bool := f.lcRPend == 0 && f.lcRConf == 0 && f.lcSPend == 0 && f.lcSConf == 0

/-- DS (R263, R264). -/
def deriveDs (s : State) : Key :=
  let f := s.fuse
  let salt := if f.lcs == .fielded && lockClear f then leBytes 32 f.fsalt.toNat else zeros 32
  keyOf (hkdf (asc "QBDEV1" ++ leBytes 1 (lcsCode f.lcs) ++ salt) (leBytes 32 (majorityRoot f).toNat)
    (asc "device") 32)

/-- FWS (R263). -/
def deriveFws (s : State) : Key :=
  keyOf (hkdf (beBytes 48 (fwM s).toNat) (keyBytes (slot s 0).key) (asc "fwlayer") 32)

/-- Write DS into slot 0. -/
def writeDs (s : State) : State := writeSlot s 0 (deriveDs s) (policy .identity .derivation 0 0 2)
/-- Write FWS into slot 1. -/
def writeFws (s : State) : State := writeSlot s 1 (deriveFws s) (policy .fwlayer .derivation 0 0 2)

/-! ## Reading them (R259, R260) -/

/-- FWS is derived again from DS, which is derived again itself where it fails too. -/
def rederiveFws (s : State) : State :=
  match readBad s [0] with
  | some t => writeFws (writeDs t)
  | none => if keyFits s 0 .identity .derivation 0 then writeFws s else s

/-- DS and FWS are read: one that fails its check is marked and derived again before it is delivered (R259, R260); a
zeroised chip has none. -/
def idKeys (s : State) : State :=
  match readBad s [0, 1] with
  | none => s
  | some t =>
    let t1 := if (slot t 0).bad then writeDs t else t
    if (slot t1 1).bad then rederiveFws t1 else t1

end Sys2Proof.Machine
end

