-- ==== Sys2Proof/Machine/RidgeOps.lean ====
section
/-! DEFINITION. Shared operations of a ridge engine: session keys, the wire form of a frame, sealing, phase
flips, the egress arbiter (03). -/

namespace Sys2Proof.Machine

/-! ## Directions and session keys (R59, R60, R64) -/

/-- The relay of an ADMIT port, where this chip is a relaying member (R358). -/
def relayOf (s : State) (p : Nat) : Option Relay := s.range.relays.find? fun k => k.port == p

/-- This end is the low end of the port pair (R59). -/
def lowEnd (s : State) (p : Nat) : Bool :=
  s.range.nodeId * 64 + p < (link s p).peerNode * 64 + (link s p).peerPort

/-- DIR of the frames that a port sends: 1 from the high end (R60); on an ADMIT port 1 from the relaying member
(DESIGN CHOICE, log entry 31). -/
def txDir (s : State) (p : Nat) : Bool :=
  if (link s p).state == .admitting then (relayOf s p).isSome else !lowEnd s p

/-- The info string of a session key (R59). -/
def sessionInfo (s : State) (p : Nat) (epoch : BitVec 30) (dir : Bool) (idx : Nat) : Bytes :=
  let l := link s p
  let own := leBytes 2 s.range.nodeId ++ leBytes 1 p
  let peer := leBytes 2 l.peerNode ++ leBytes 1 l.peerPort
  asc "ridge-session" ++ leBytes 4 epoch.toNat ++ (if lowEnd s p then own ++ peer else peer ++ own) ++
  leBytes 1 (b2n dir) ++ leBytes 4 idx

/-- Derive a session key (R59). -/
def sessionKey (s : State) (p : Nat) (epoch : BitVec 30) (dir : Bool) (idx : Nat) : SKey :=
  { epoch := epoch, idx := idx
    key := keyOf (hkdf (asc "QBRIDGE1" ++ leBytes 8 s.range.rangeId.toNat) (keyBytes (rkOf s epoch.toNat))
      (sessionInfo s p epoch dir idx) 32) }

/-- The TX key of an index; the RX key of an index. -/
def txKey (s : State) (p : Nat) (epoch : BitVec 30) (idx : Nat) : SKey := sessionKey s p epoch (txDir s p) idx
/-- The RX key of an index. -/
def rxKey (s : State) (p : Nat) (epoch : BitVec 30) (idx : Nat) : SKey := sessionKey s p epoch (!txDir s p) idx

/-- The range key of an epoch fails its check as it is read (R259). -/
def rkBad (s : State) (epoch : Nat) : Option State :=
  match rkSlot s epoch with
  | some i => readBad s [i]
  | none => none

/-- Install the RX key of a new epoch in the port's other register (R69, R364). -/
def epochRx (s : State) (p : Nat) (epoch : BitVec 30) : State :=
  match rkBad s epoch.toNat with
  | some t => t
  | none => setLink s p { link s p with rxOther := some (rxKey s p epoch 0), rxPrev := false }

/-- The TX key of a new epoch is ready and takes the next frame start (R69). -/
def epochTx (s : State) (p : Nat) (epoch : BitVec 30) : State :=
  match rkBad s epoch.toNat with
  | some t => t
  | none => setLink s p { link s p with txNext := some (txKey s p epoch 0), epochFlip := true }

/-! ## The wire form (R51 to R54) -/

/-- PHASE of a key. -/
def phaseOf (k : SKey) : Bool := k.idx % 2 == 1

/-- Header bytes 0 to 15. -/
def clearBytes (c : Clear) : Bytes :=
  leBytes 4 (c.epoch.toNat * 4 + b2n c.phase * 2 + b2n c.dir) ++ leBytes 8 c.seq.toNat ++
  leBytes 1 (c.hver.toNat * 16 + c.flitsM1.toNat) ++ leBytes 3 c.rsvd.toNat

/-- Header bytes 16 to 31. -/
def innerBytes (i : Inner) : Bytes :=
  leBytes 1 (b2n i.retry * 128 + b2n i.poison * 64 + i.cls.toNat) ++ leBytes 2 i.len.toNat ++
  leBytes 2 i.srcNode.toNat ++ leBytes 2 i.dstNode.toNat ++ leBytes 2 i.srcPtag.toNat ++
  leBytes 2 i.dstPtag.toNat ++ [i.age, i.crReq, i.crRsp, i.crBulk, i.crFold]

/-- The inner header and payload region in a plaintext. -/
def innerIn (b : Bytes) : Inner :=
  let h := le b 0 1
  { retry := h / 128 == 1, poison := h / 64 % 2 == 1, cls := BitVec.ofNat 4 h
    len := BitVec.ofNat 13 (le b 1 2), srcNode := BitVec.ofNat 14 (le b 3 2), dstNode := BitVec.ofNat 14 (le b 5 2)
    srcPtag := BitVec.ofNat 16 (le b 7 2), dstPtag := BitVec.ofNat 16 (le b 9 2), age := BitVec.ofNat 8 (le b 11 1)
    crReq := BitVec.ofNat 8 (le b 12 1), crRsp := BitVec.ofNat 8 (le b 13 1)
    crBulk := BitVec.ofNat 8 (le b 14 1), crFold := BitVec.ofNat 8 (le b 15 1)
    payload := (b.drop 16).take (le b 1 2 % 8192), padded := (b.drop (16 + le b 1 2 % 8192)).any fun x => x != 0 }

/-- Bytes of a frame of `f` flits between the clear header and the tag. -/
def bodyLen (f : Nat) : Nat := 256 * f - 32

/-- Seal a frame (R54). -/
def sealWire (k : SKey) (dir : Bool) (seq : BitVec 64) (i : Inner) (flits : Nat) : Wire :=
  let c : Clear := { epoch := k.epoch, phase := phaseOf k, dir := dir, seq := seq,
                     flitsM1 := BitVec.ofNat 4 (flits - 1) }
  let h := clearBytes c
  let pt := slice (innerBytes i ++ i.payload) 0 (bodyLen flits)
  let x := gcmSeal k.key (h.take 12) h pt
  { clear := c, ct := x.1, tag := x.2 }

/-- Flits of a frame on the wire. -/
def wireFlits (w : Wire) : Nat := w.clear.flitsM1.toNat + 1

/-- Open a frame whose clear header passes R52: `none` where the tag fails. -/
def openWire (k : SKey) (w : Wire) : Option Inner :=
  let h := clearBytes w.clear
  if w.ct.length != bodyLen (wireFlits w) then none
  else (gcmOpen k.key (h.take 12) h w.ct w.tag).map innerIn

/-! ## Sealing a frame (R61, R66, R67, R76, R81) -/

/-- A flip is due at the next frame start (R66, R69, R70). -/
def flipIsDue (s : State) (l : Link) : Bool :=
  l.epochFlip || l.flipDue || decide (l.txFrames ≥ 2 ^ 31) ||
  (match l.txFirst with
    | some t => decide (t + 60000000 ≤ now s)
    | none => false)

/-- Take a due flip at a frame start (R67, R69): the old key goes, the next one is used; SEQ starts at 0 under a
new epoch. -/
def flip (s : State) (p : Nat) : State :=
  let l := link s p
  match l.txNext with
  | none => s
  | some k =>
    if flipIsDue s l then
      let fresh := match l.txCur with
        | some c => c.epoch != k.epoch
        | none => true
      setLink s p { l with
        txCur := some k, txNext := none, epochFlip := false, flipDue := false, txFrames := 0, txFirst := none
        txSeq := if fresh then 0 else l.txSeq, lastFlip := some (now s)
        ctr := { l.ctr with rekeys := inc32 l.ctr.rekeys } }
    else s

/-- Credits of a pool that the next frame returns; REQ credits wait while the replay cache is full (R81, R86). -/
def creditsBack (l : Link) (n : Nat) : Nat :=
  if n == 1 && l.replay.length ≥ 4096 then 0 else min 255 (poolGet l.owed n)

/-- Seal one frame of `flits` flits and hand it to the link layer. -/
def sealOut (s0 : State) (p : Nat) (i : Inner) (flits : Nat) : State :=
  let s := flip s0 p
  let l := link s p
  match l.txCur with
  | none => s
  | some k =>
    let cr := creditsBack l
    let i1 := { i with
      crReq := BitVec.ofNat 8 (cr 1), crRsp := BitVec.ofNat 8 (cr 2), crBulk := BitVec.ofNat 8 (cr 3),
      crFold := BitVec.ofNat 8 (cr 4) }
    let owed : Pools := { req := l.owed.req - cr 1, rsp := l.owed.rsp - cr 2, bulk := l.owed.bulk - cr 3,
                          fold := l.owed.fold - cr 4 }
    let n := poolOf i.cls
    let l1 := { l with
      owed := owed, credits := poolSet l.credits n (poolGet l.credits n - flits), txSeq := l.txSeq + 1
      lastSeq := l.txSeq, txFrames := l.txFrames + 1, txFirst := some (l.txFirst.getD (now s)), lastTx := now s }
    emit (setLink s p l1) (.frame p (sealWire k (txDir s p) l.txSeq i1 flits))

/-- Credits held for `flits` flits of a class's pool. -/
def hasCredits (l : Link) (cls : BitVec 4) (flits : Nat) : Bool :=
  let n := poolOf cls
  n == 0 || flits ≤ poolGet l.credits n

/-! ## CTRL frames (R57; layout DESIGN CHOICE, log entry 32) -/

/-- Flits of a pool that frames received on a port still hold: in the router, in an egress queue, in the ingress
masters (R81, R182). -/
def heldFlits (s : State) (p n : Nat) : Nat :=
  let mine := fun (l : List Transit) => (l.filter fun t => t.via == p && poolOf t.inner.cls == n).map (·.flits)
  (mine s.ridge.router).sum + (mine ((s.ridge.links.map fun e => e.2.transitq.map (·.t)).flatten)).sum +
  ((s.ridge.ingress.filter fun g => g.via == p && poolOf g.cls == n).map (·.flits)).sum

/-- Flits that the input stage of a fold unit holds (R95). -/
def stageFlits (s : State) (u : Nat) : Nat := ((inputOf s u).map (·.flits)).sum

/-- Input capacity free for a pool of a port: of the T5 router, or of the fold unit's input stage (R81, R96). -/
def freeSpace (s : State) (p n : Nat) : Nat :=
  if n == 4 then 32 - stageFlits s p else Config.routerSpace p n - heldFlits s p n

/-- What an engine grants its peer when a session opens (R81, R96). -/
def grantOf (s : State) (p : Nat) : Pools :=
  { req := freeSpace s p 1, rsp := freeSpace s p 2, bulk := freeSpace s p 3, fold := freeSpace s p 4 }

/-- Payload of a CTRL frame: kind (0 keepalive, 1 probe, 2 close), port, answer flag, 0, and in a probe the
grants of the four pools. -/
def ctrlBytes (l : Link) (kind p : Nat) (ans : Bool) : Bytes :=
  [BitVec.ofNat 8 kind, BitVec.ofNat 8 p, BitVec.ofNat 8 (b2n ans), 0] ++
  (if kind == 1 then ((span 1 4).map fun n => leBytes 4 (poolGet l.grant n)).flatten else [])

/-- A CTRL frame of a port. On an ADMIT port a joiner's SRC_NODE is 0, as is its node ID (R55). -/
def ctrlFrame (s : State) (p kind : Nat) (ans : Bool) : OutFrame :=
  let b := ctrlBytes (link s p) kind p ans
  { client := 33, via := p, inner := {
      cls := clsCtrl, len := BitVec.ofNat 13 b.length, srcNode := BitVec.ofNat 14 s.range.nodeId,
      dstNode := if (link s p).state == .admitting then 0 else BitVec.ofNat 14 (link s p).peerNode, payload := b } }

/-- Queue a CTRL frame. -/
def sendCtrl (s : State) (p kind : Nat) (ans : Bool) : State := push s (ctrlFrame s p kind ans)

/-- A joiner's ADMIT port sends a CTRL close, behind the frames that wait on it, and ends with it (R62). -/
def sendClose (s : State) (p : Nat) : State :=
  let l := link s p
  if l.state == .admitting && !l.closing then
    setLink s p { l with closing := true, since := now s, ctlq := l.ctlq ++ [ctrlFrame s p 2 false] }
  else s

/-- An ADMIT port that has sent its CTRL close is OFF, and its admission key is destroyed (R62, R263). -/
def endClosed (s : State) (p : Nat) : State :=
  let l := link s p
  if l.state == .admitting && l.closing && l.ctlq.isEmpty then clearSlot (portTo s p .off) 6 else s

/-! ## Trackers learn when a request was sealed (R87, R171 to R173) -/

/-- A segment of a pair, and its replacement. -/
def segOf (p : Seg × Seg) (b : Bool) : Seg := if b then p.2 else p.1
/-- Replace a segment. -/
def segPut (p : Seg × Seg) (b : Bool) (x : Seg) : Seg × Seg := if b then (p.1, x) else (x, p.2)

/-- The stream that a SEAM of this chip or its answer names. -/
def seamStream (s : State) (pid node : Nat) (d : Desc) : Option SrcStream :=
  s.rmt.streams.find? fun t => t.pid == pid && t.node == node && t.granted && t.id == d.stream && t.inc == d.inc

/-- A release is complete for its master at sealing, and a release or release-wait is counted (R175, R192). -/
def releaseSealed (s : State) (g : Seg) : State :=
  match g.seam with
  | some r =>
    let k := r.op.toNat % 16
    if g.lost || (k != 2 && k != 3) then s
    else
      let s1 := rmtCtr s fun c => { c with releases := inc32 c.releases }
      if k == 2 then emit s1 (.rmtDone r.mport r.ctx) else s1
  | none => s

/-- The segment of a SEAM that this chip sends learns when it was sealed. -/
def seamSealed (s : State) (f : OutFrame) : State :=
  let d := descOf f.inner.payload
  match seamStream s f.client f.inner.dstNode.toNat d with
  | some t =>
    let t1 := { t with segs := segPut t.segs d.seg { segOf t.segs d.seg with seamAt := some (now s) } }
    releaseSealed { s with rmt := { s.rmt with streams := s.rmt.streams.map fun x => if sameStream x t then t1 else x } }
      (segOf t.segs d.seg)
  | none => s

/-- Stamp the tracker entry of a request of this chip. -/
def noteSealed (s : State) (f : OutFrame) : State :=
  if f.client ≥ 32 then s
  else if f.inner.cls == clsSeam then seamSealed s f
  else if f.track == 0 then s
  else
    let hit := fun (t : BitVec 40) => t.toNat + 1 == f.track
    let stamp := fun (t : BitVec 40) (x : Option Nat) => if hit t then some (x.getD (now s)) else x
    let bulk := s.rmt.bulk.map fun e => { e with sealed := stamp e.tag e.sealed }
    let atomics := s.rmt.atomics.map fun e => { e with sealed := stamp e.id e.sealed }
    let loads := s.rmt.loads.map fun e => { e with sealed := stamp e.tag e.sealed }
    let s1 := if f.inner.cls == clsBulkWr then { s with rmt := { s.rmt with bulk := bulk } }
      else if f.inner.cls == clsAtomic then { s with rmt := { s.rmt with atomics := atomics } }
      else { s with rmt := { s.rmt with loads := loads } }
    if f.inner.cls == clsOwn then
      match s.rmt.loads.find? fun e => hit e.tag with
      | some e => enterCommit s1 e.req.ctx
      | none => s1
    else s1

/-! ## The egress arbiter (R82, R89) -/

/-- Flits of a bucket's limit, in 1/64 flit. -/
def bucketCap : Nat := 1024

/-- Fill the buckets for a number of LCLK, which the port counts: share/32 × 0.5 flit per LCLK each, 1/128 flit for
control. -/
def fillBuckets (l : Link) (lclk : Nat) : Link :=
  let get := fun c => if c == 32 then l.transit else tget 0 l.shares c
  { l with
    lclk := l.lclk + lclk
    ctlBucket := min 128 (l.ctlBucket + lclk)
    buckets := (List.range 33).foldl (fun b c =>
      tset 0 b c (min bucketCap (tget 0 b c + get c * lclk))) l.buckets }

/-! ### Transit frames (R76, R411) -/

/-- Residence in the router in units of 0.25 µs, rounded up: one LCLK is 0.64 ns (R76). -/
def quarters (lclk : Nat) : Nat := (lclk * 64 + 24999) / 25000

/-- AGE of a transit frame were it sealed now (R76). -/
def handedAge (l : Link) (h : Handed) : Nat := h.t.inner.age.toNat + quarters (h.res + (l.lclk - h.at_))

/-- The transit frame as it would leave; a RANGE frame is a control frame (R82). -/
def handedFrame (l : Link) (h : Handed) : OutFrame :=
  { client := if h.t.inner.cls == clsRange then 33 else 32
    inner := { h.t.inner with age := BitVec.ofNat 8 (handedAge l h) }, flits := flitsFor h.t.inner.payload.length }

/-- The router has freed a transit frame's space: the ingress engine returns its credits (R81, R411). -/
def oweTransit (s : State) (t : Transit) : State := owe s t.via t.inner.cls t.flits

/-- A transit frame that has aged in an egress queue is discarded and counted (R411). -/
def agedOut (p : Nat) (s : State) (h : Handed) : State :=
  linkCtr (oweTransit s h.t) p fun c => { c with aged := inc32 c.aged }

/-- Discard the aged transit frames of a port. -/
def dropHanded (s : State) (p : Nat) : State :=
  let l := link s p
  let old := fun (h : Handed) => decide (160 ≤ handedAge l h)
  (l.transitq.filter old).foldl (agedOut p) (setLink s p { l with transitq := l.transitq.filter fun h => !old h })

/-- An offered frame with its place among the router's frames, or in the port's queue of transit frames (`handed`),
and the flits it takes on this port. -/
structure Offer1 where
  idx   : Nat
  frame : OutFrame
  flits : Nat
  handed : Bool := false
  deriving DecidableEq, Repr

/-- Flits of a frame on a port: the scree length in scree mode (R89). -/
def flitsOn (l : Link) (f : OutFrame) : Nat := if l.screeCad != 0 then l.screeFM1 + 1 else f.flits

/-- A remote fence signal of this chip whose sealing would put its command into COMMIT during a kill of its PID (R189,
R210). -/
def signalHeld (s : State) (f : OutFrame) : Bool :=
  f.inner.cls == clsOwn && s.rmt.loads.any fun e => e.tag.toNat + 1 == f.track && commitHeld s e.req.ctx

/-- The frames that the router offers, in order; a fence signal that a kill holds is not among them. -/
def routerOffers (s : State) (l : Link) (ix : List Nat) : List Offer1 :=
  ix.filterMap fun i => (s.ridge.outq[i]?).bind fun f =>
    if signalHeld s f then none else some ⟨i, f, flitsOn l f, false⟩

/-- The transit frames of a port, in order. -/
def transitOffers (l : Link) : List Offer1 :=
  l.transitq.mapIdx fun i h => ⟨i, handedFrame l h, flitsOn l (handedFrame l h), true⟩

/-- What may leave by an OPEN port: what has entered its queue, and, unless it is closing (R63), what the router
offers. -/
def offers (s : State) (l : Link) (ix : List Nat) : List Offer1 :=
  if l.state != .opened then []
  else transitOffers l ++ (if l.closing then [] else routerOffers s l ix)

/-- Frames that may leave now: the first of its client and pool, and credits held (R81, R82). -/
def eligible (l : Link) : List Offer1 → List (Nat × Nat) → List Offer1
  | [], _ => []
  | o :: t, before =>
    let k := (o.frame.client, poolOf o.frame.inner.cls)
    let rest := eligible l t (k :: before)
    if !before.contains k && hasCredits l o.frame.inner.cls o.flits then o :: rest else rest

/-- The next pool of a client in round robin after the one it was last served from. -/
def pickPool (l : Link) (c : Nat) (os : List Offer1) : Option Offer1 :=
  let last := tget 0 l.lastPool c
  (span (last + 1) 5).findSome? fun n => os.find? fun o => o.frame.client == c && poolOf o.frame.inner.cls == n % 5

/-- The client that goes next in round robin among those that pass a test. -/
def pickClient (l : Link) (os : List Offer1) (p : Nat → Offer1 → Bool) : Option Offer1 :=
  (span (l.rrClient + 1) 33).findSome? fun n =>
    match pickPool l (n % 33) os with
    | some o => if p (n % 33) o then some o else none
    | none => none

/-- A confidential partition's frame (R82: never beyond its bucket). -/
def confClient (s : State) (c : Nat) : Bool := c != 0 && c != 32 && (part s c).conf

/-- The choice at a frame start among client frames (R82): one whose bucket holds its flits, else one that may
go without a debit. The flag says whether it is debited. -/
def choose (s : State) (l : Link) (os : List Offer1) : Option (Offer1 × Bool) :=
  match pickClient l os fun c o => o.flits * 64 ≤ tget 0 l.buckets c with
  | some o => some (o, true)
  | none => (pickClient l os fun c _ => !confClient s c).map fun o => (o, false)

/-- The bytes that a frame of `f` flits carries after the descriptor. -/
def cutSpace (f : Nat) : Nat := 256 * f - 64

/-- A frame with another payload, its length and flits following. -/
def withPayload (f : OutFrame) (b : Bytes) : OutFrame :=
  { f with flits := flitsFor b.length, inner := { f.inner with len := BitVec.ofNat 13 b.length, payload := b } }

/-- A bulk frame in two: `n` bytes and the rest, each with its own offset (R89; log entry 16). -/
def cutBulk (f : OutFrame) (n : Nat) : OutFrame × OutFrame :=
  let d := descOf f.inner.payload
  let b := f.inner.payload.drop 16
  (withPayload f (descBytes d ++ b.take n), withPayload f (descBytes { d with off := d.off + BitVec.ofNat 41 n } ++ b.drop n))

/-- Elements of a format that fit a number of bytes: whole blocks in an MX format (R101). -/
def elemsIn (fmt room : Nat) : Nat :=
  if fmtMx fmt then 32 * (((List.range (room / 16 + 1)).reverse.find? fun b => fmtBytes fmt (32 * b) ≤ room).getD 0)
  else room * 8 / fmtBits fmt

/-- Elements `a` to `a + n - 1` of a fold payload of `total` elements, laid out as a payload of their own (R101). -/
def foldPart (fmt total a n : Nat) (b : Bytes) : Bytes :=
  let sc := if fmtMx fmt then slice b (a / 32) (n / 32) else []
  sc ++ zeros (scaleBytes fmt n - sc.length) ++ slice b (scaleBytes fmt total + a * fmtBits fmt / 8) (n * fmtBits fmt / 8)

/-- A FOLD frame in two (R89): each part has the frame's own fold descriptor with NELEM its elements (log entry 16). -/
def cutFold (f : OutFrame) (room : Nat) : OutFrame × OutFrame :=
  let p := f.inner.payload
  let fmt := le p 7 1 % 16
  let total := le p 8 2 % 8192
  let n := min total (elemsIn fmt room)
  let part := fun (a k : Nat) => p.take 8 ++ leBytes 2 k ++ slice p 10 6 ++ foldPart fmt total a k (p.drop 16)
  (withPayload f (part 0 n), withPayload f (part n (total - n)))

/-- A frame of a class that is cut into frames of the scree length (R89). -/
def cutClass (c : BitVec 4) : Bool := c == clsBulkWr || c == clsBulkData || c == clsFold

/-- A bulk or fold frame too long for the flits it is given is cut: what leaves now, and what stays (R89). -/
def cutFrame (f : OutFrame) (flits : Nat) : Option (OutFrame × OutFrame) :=
  if flitsFor f.inner.payload.length ≤ flits then none
  else some (if f.inner.cls == clsFold then cutFold f (cutSpace flits) else cutBulk f (cutSpace flits))

/-- A frame that fits the port, or one that can be cut to fit. -/
def fits (l : Link) (o : Offer1) : Bool :=
  flitsFor o.frame.inner.payload.length ≤ o.flits || (l.screeCad != 0 && cutClass o.frame.inner.cls)

/-- A transit frame leaves the port's queue, or leaves there what a cut left of it; its credits go back with the
last of it. Both parts of a transit BULK_WR keep the one ID40 of its source, since a transit frame's descriptor is the
source's; the spec does not say how the source tells the two answers apart (DESIGN CHOICE, log entry 125). -/
def takeHanded (s : State) (p : Nat) (o : Offer1) (rest : Option OutFrame) : State :=
  let l := link s p
  match l.transitq[o.idx]?, rest with
  | none, _ => s
  | some h, none => oweTransit (setLink s p { l with transitq := l.transitq.eraseIdx o.idx }) h.t
  | some h, some f =>
    let i := { h.t.inner with len := f.inner.len, payload := f.inner.payload }
    setLink s p { l with transitq := l.transitq.set o.idx { h with t := { h.t with inner := i } } }

/-- Remove a frame from the queue it stands in, or leave what a cut left of it. -/
def takeOut (s : State) (p : Nat) (o : Offer1) (rest : Option OutFrame) : State :=
  if o.handed then takeHanded s p o rest
  else { s with ridge := { s.ridge with outq := match rest with
      | some f => s.ridge.outq.set o.idx f
      | none => s.ridge.outq.eraseIdx o.idx } }

/-- What a cut leaves of a bulk write of this chip is a frame of its own in the write tracker (R89, R172). -/
def cutTracked (s : State) (f rest : OutFrame) : State × OutFrame :=
  match (if f.inner.cls == clsBulkWr then s.rmt.bulk.find? fun e => e.tag.toNat + 1 == f.track else none) with
  | some e =>
    let tag := s.rmt.nextTag
    let p := rest.inner.payload
    let s1 := { s with rmt := { s.rmt with
      nextTag := tag + 1, bulk := s.rmt.bulk ++ [{ e with tag := tag, sealed := none }] } }
    (s1, { withPayload rest (descBytes { descOf p with id40 := tag } ++ p.drop 16) with track := tag.toNat + 1 })
  | none => (s, rest)

/-- Seal a client's frame chosen by the arbiter. -/
def sealClient (s : State) (p : Nat) (o : Offer1) (debit : Bool) : State :=
  let l := link s p
  let c := o.frame.client
  let l1 := { l with
    rrClient := c, lastPool := tset 0 l.lastPool c (poolOf o.frame.inner.cls)
    buckets := if debit then tset 0 l.buckets c (tget 0 l.buckets c - o.flits * 64) else l.buckets }
  let s1 := telAdd (setLink s p l1) c 3 o.flits
  match cutFrame o.frame o.flits with
  | some (now_, rest) =>
    let c := cutTracked s1 o.frame rest
    sealOut (noteSealed (takeOut c.1 p o (some c.2)) now_) p now_.inner o.flits
  | none => sealOut (noteSealed (takeOut s1 p o none) o.frame) p o.frame.inner o.flits

/-- The first waiting control frame of a port, or of the router's offer (R82). -/
def ctlOf (l : Link) (os : List Offer1) : Option (OutFrame × Option Offer1) :=
  match l.ctlq with
  | f :: _ => some (f, none)
  | [] => (os.find? fun o => o.frame.client == 33).map fun o => (o.frame, some o)

/-- One frame start (R82, R411): control first, then clients, transit among them. `none`: nothing is eligible. -/
def frameStart (s : State) (p : Nat) (ix : List Nat) : Option State :=
  let l := link s p
  let os := offers s l ix
  match (if l.ctlBucket ≥ 128 then ctlOf l os else none) with
  | some (f, src) =>
    let l1 := { l with ctlBucket := 0, ctlq := match src with | none => l.ctlq.tail | some _ => l.ctlq }
    let s1 := setLink s p l1
    let s2 := match src with
      | some o => takeOut s1 p o none
      | none => s1
    some (endClosed (sealOut s2 p f.inner (flitsOn l f)) p)
  | none =>
    let el := eligible l ((os.filter fun o => o.frame.client < 33 && fits l o)) []
    (choose s l el).map fun c => sealClient s p c.1 c.2

end Sys2Proof.Machine
end

