-- ==== Sys2Proof/Machine/RangeOps.lean ====
section
/-! DEFINITION. Sending, resending and answering range messages (13 R355, R356), and leaving the range. -/

namespace Sys2Proof.Machine

/-! ## Packets -/

/-- Bytes of a message's packet (R228), without its parameters' meaning. -/
def packetBytes (opcode form : BitVec 8) (seq ptag : BitVec 16) (params : BitVec 384) : Bytes :=
  [opcode, 0, form, 0] ++ leBytes 2 seq.toNat ++ leBytes 2 ptag.toNat ++ zeros 8 ++ leBytes 48 params.toNat

/-- Parameters from (packet byte, value) pairs. -/
def paramsOf : List (Nat × Nat) → BitVec 384
  | [] => 0
  | (b, v) :: t => BitVec.ofNat 384 (v * 2 ^ (8 * (b - 16))) ||| paramsOf t

/-- Bytes of a parameter field as a number. -/
def num (b : Bytes) : Nat := leNat b

/-- Cut a message into fragments of 40 bytes (R355, R356). -/
def cut : Nat → Bytes → List Bytes
  | 0, _ => []
  | _ + 1, [] => []
  | n + 1, b => b.take 40 :: cut n (b.drop 40)

/-- Packets of a message: one, or its FRAG messages under the message's own number (R355, log entry 30); a message of more
than 49,152 bytes cannot go (R356). -/
def msgPackets (m : Msg) : List Bytes :=
  if m.data.length > 49152 then []
  else if m.data.isEmpty then [packetBytes m.opcode m.form m.seq m.ptag m.params]
  else
    let l := cut (m.data.length / 40 + 1) m.data
    l.mapIdx fun i d => packetBytes 0x01 0x10 m.seq 0
      (paramsOf [(16, m.seq.toNat), (18, i), (20, l.length), (22, d.length), (24, num d)])

/-- Put a message on its way. -/
def transmit (s : State) (m : Msg) : State :=
  (msgPackets m).foldl (fun s b => pushRange s m.dst m.via b) s

/-- The next message number of this chip. -/
def takeSeq (s : State) : State × BitVec 16 :=
  ({ s with range := { s.range with nextSeq := s.range.nextSeq + 1 } }, s.range.nextSeq)

/-- Send a message that expects no answer. -/
def sendMsg (s : State) (m : Msg) : State :=
  let n := takeSeq s
  transmit n.1 { m with seq := n.2 }

/-- Send a request: it is resent until it is answered (R355). -/
def sendReq (s : State) (m : Msg) (why : Purpose) : State :=
  let n := takeSeq s
  let m1 := { m with seq := n.2 }
  let s1 := n.1
  transmit { s1 with range := { s1.range with
    sent := s1.range.sent ++ [{ msg := m1, why := why, at_ := now s1 }] } } m1

/-- Requests of a purpose have their answer, or are abandoned. -/
def dropSent (s : State) (p : Purpose → Bool) : State :=
  { s with range := { s.range with sent := s.range.sent.filter fun r => !p r.why } }

/-- A request of a purpose is outstanding. -/
def awaiting (s : State) (p : Purpose → Bool) : Bool := s.range.sent.any fun r => p r.why

/-! ## Check 3 of a message (R228, R231, R233) -/

/-- The packet of a message. -/
def msgBody (m : RMsg) : Pkt :=
  { flags := m.flags, rsvd3 := m.rsvd3, seq := m.seq, ptag := m.ptag, cookie := m.cookie, rsvd12 := m.rsvd12
    params := m.params }

/-- A message form: opcode, form, and its named parameters (R355, R356). -/
structure MsgForm where
  opcode : BitVec 8
  form   : BitVec 8
  named  : List (Nat × Nat × Nat) := []

/-- FRAG. -/
def formFrag : MsgForm := { opcode := 0x01, form := 0x10, named := [(16, 0, 16), (18, 0, 16), (20, 0, 16), (22, 0, 8), (24, 0, 320)] }
/-- JOIN_REQ. -/
def formJoinReq : MsgForm := { opcode := 0x01, form := 0x11, named := [(16, 0, 16), (18, 0, 1)] }
/-- JOIN_NONCE. -/
def formJoinNonce : MsgForm := { opcode := 0x01, form := 0x12, named := [(16, 0, 256)] }
/-- JOIN_EVID. -/
def formJoinEvid : MsgForm := { opcode := 0x01, form := 0x13 }
/-- JOIN_ADMIT. -/
def formJoinAdmit : MsgForm := { opcode := 0x01, form := 0x14 }
/-- JOIN_REFUSE. -/
def formJoinRefuse : MsgForm := { opcode := 0x01, form := 0x15, named := [(16, 0, 8)] }
/-- LEAVE. -/
def formLeave : MsgForm := { opcode := 0x01, form := 0x16 }
/-- LEAVE_ACK. -/
def formLeaveAck : MsgForm := { opcode := 0x01, form := 0x17 }
/-- REFRESH. -/
def formRefresh : MsgForm := { opcode := 0x01, form := 0x18, named := [(16, 0, 256)] }
/-- REFRESH_EVID. -/
def formRefreshEvid : MsgForm := { opcode := 0x01, form := 0x19 }
/-- DELTA. -/
def formDelta : MsgForm := { opcode := 0x03, form := 0x10, named := [(16, 0, 32), (20, 0, 8), (21, 0, 8), (22, 0, 320)] }
/-- PREPARE. -/
def formPrepare : MsgForm := { opcode := 0x03, form := 0x11, named := [(16, 0, 32), (20, 0, 320), (60, 0, 16)] }
/-- PREP_ACK. -/
def formPrepAck : MsgForm := { opcode := 0x03, form := 0x12, named := [(16, 0, 32), (20, 0, 8)] }
/-- SWITCH. -/
def formSwitch : MsgForm := { opcode := 0x03, form := 0x13, named := [(16, 0, 32), (20, 0, 16), (22, 0, 1)] }
/-- ABORT. -/
def formAbort : MsgForm := { opcode := 0x03, form := 0x14, named := [(16, 0, 32)] }
/-- HEARTBEAT. -/
def formHeartbeat : MsgForm := { opcode := 0x03, form := 0x15, named := [(16, 0, 32), (20, 0, 16), (22, 0, 16)] }
/-- LOSS. -/
def formLoss : MsgForm := { opcode := 0x03, form := 0x16, named := [(16, 0, 16), (18, 0, 8)] }
/-- PROBE. -/
def formProbe : MsgForm := { opcode := 0x03, form := 0x17, named := [(16, 0, 64)] }
/-- PROBE_ACK. -/
def formProbeAck : MsgForm := { opcode := 0x03, form := 0x18, named := [(16, 0, 64)] }
/-- SHADOW. -/
def formShadow : MsgForm := { opcode := 0x03, form := 0x19 }
/-- SHADOW_ACK. -/
def formShadowAck : MsgForm := { opcode := 0x03, form := 0x1A, named := [(16, 0, 64), (24, 0, 16)] }
/-- SETKEY_REQ. -/
def formSetkeyReq : MsgForm := { opcode := 0x03, form := 0x1B }
/-- SETKEY_RSP. -/
def formSetkeyRsp : MsgForm := { opcode := 0x03, form := 0x1C, named := [(16, 0, 8), (20, 0, 320)] }
/-- PAIRKEY. -/
def formPairkey : MsgForm := { opcode := 0x03, form := 0x1D, named := [(16, 0, 32), (20, 0, 320)] }

/-- A message form as check 3 sees it: its named parameters, and PTAG 0x0000. -/
def msgOp (f : MsgForm) : Op where
  opcode := f.opcode
  form := f.form
  named := f.named
  whole _ := true
  rings n := n == 32
  run s _ _ _ := .ok s

/-- The status of a message that fails check 3, its values' check 6 (`vals`), or check 8. -/
def msgCheck (f : MsgForm) (vals : Bool) (m : RMsg) (s : State) : Option Status :=
  if !(check3 (msgOp f) 32 (msgBody m) && vals) then some .errParam
  else if !lcPermit s f.opcode then some .errLifecycle
  else none

/-- A message is checked like any command before it has an effect; one that fails gets a reply with the status (R227,
R233; DEDUCED, log entry 94). -/
def ringMsg (i : MsgForm) (vals : Bool) (m : RMsg) (f : State → State) (s : State) : Result :=
  if !(s.boot.rdy && s.boot.scuUp) then .next s
  else match msgCheck i vals m s with
    | none => .next (f s)
    | some st =>
      let k := takeOther s 32 m.src m.via ⟨i.opcode, i.form, msgBody m⟩
      .next (finish k.s k.t st)

/-! ## Answers to repeated messages (R355) -/

/-- Keep the last 64 messages of each source. -/
def keepSeen (l : List Seen) (x : Seen) : List Seen :=
  let mine := l.filter fun y => y.src == x.src && y.via == x.via
  let rest := l.filter fun y => !(y.src == x.src && y.via == x.via)
  x :: mine.take 63 ++ rest

/-- Act on a message once: a repeated one gets the answers it got before. `f` gives the state and the
answers, which are sent under message numbers of their own. -/
def onMsg (s : State) (m : RMsg) (f : State → State × List Msg) : State :=
  if !(s.boot.rdy && s.boot.scuUp) then s
  else match s.range.seen.find? fun x => x.src == m.src && x.via == m.via && x.seq == m.seq with
    | some x => x.answers.foldl transmit s
    | none =>
      let r := f s
      let step := fun (a : State × List Msg) (x : Msg) =>
        let n := takeSeq a.1
        let x1 := { x with seq := n.2 }
        (transmit n.1 x1, a.2 ++ [x1])
      let a := r.2.foldl step (r.1, [])
      let s1 := a.1
      { s1 with range := { s1.range with
        seen := keepSeen s1.range.seen { src := m.src, via := m.via, seq := m.seq, answers := a.2 } } }

/-- Parameter field of a message: `n` bytes from packet byte `b`. -/
def mp (m : RMsg) (b n : Nat) : Nat := bits m.params.toNat (8 * (b - 16)) (8 * n)

/-- Parameter bytes of a message. -/
def mpBytes (m : RMsg) (b n : Nat) : Bytes := leBytes n (mp m b n)

/-- An answer to a message, back the way it came. -/
def backTo (m : RMsg) (opcode form : BitVec 8) (params : BitVec 384 := 0) (data : Bytes := []) : Msg :=
  { dst := m.src, via := m.via, opcode := opcode, form := form, params := params, data := data }

/-! ## Members -/

/-- A member by node. -/
def memberOf (s : State) (n : Nat) : Option Member := s.range.members.find? fun x => x.node == n

/-- Nodes of the membership list. -/
def nodes (s : State) : List Nat := s.range.members.map (·.node)

/-- Put a member into the list, in ascending node ID. -/
def insertMember (x : Member) : List Member → List Member
  | [] => [x]
  | y :: t => if x.node = y.node then x :: t else if x.node < y.node then x :: y :: t else y :: insertMember x t

/-- This chip acts as Summit. -/
def isSummit (s : State) : Bool := inRange s && s.range.role == .summit

/-- RACK of a node ID (R30). -/
def rackOf (n : Nat) : Nat := n / 64

/-! ## Loss reports (R362) -/

/-- PROBE a node: its PROBE_ACK must echo a token drawn for it (DESIGN CHOICE, log entry 33), so none goes while no draw can
be made (R255). `loss`: how many LOSS reports it is to settle (R376). -/
def startProbe (s : State) (n loss : Nat) : State :=
  if s.range.probes.any fun x => x.node == n then
    { s with range := { s.range with
      probes := s.range.probes.map fun x => if x.node == n then { x with losses := x.losses + loss } else x } }
  else if !drawOk s then s
  else
    let d := drawBytes s 8
    let tok := BitVec.ofNat 64 (leNat d.2)
    let s1 := { d.1 with range := { d.1.range with
      probes := d.1.range.probes ++ [{ node := n, token := tok, at_ := now s, losses := loss }], ctr := { d.1.range.ctr with
        probes := inc32 d.1.range.ctr.probes } } }
    sendMsg s1 { dst := n, form := 0x17, params := paramsOf [(16, tok.toNat)] }

/-- This chip as Summit or Shoulder takes a loss report: it probes the named node, if that is a member. -/
def takeLoss (s : State) (n : Nat) : State :=
  if (isSummit s || (inRange s && s.range.role == .shoulder)) && (nodes s).contains n && n != s.range.nodeId then
    startProbe s n 1
  else s

/-- A port has lost its peer: LOSS to the Summit and to the Shoulder, itself included (R65, R362). -/
def reportLoss (s : State) (n p : Nat) : State :=
  if !inRange s then s
  else
    let dsts := (s.range.summit :: s.range.shoulder.toList).eraseDups
    let msg := fun (d : Nat) => ({ dst := d, form := 0x16, params := paramsOf [(16, n), (18, p)] } : Msg)
    dsts.foldl (fun s d => if d == s.range.nodeId then takeLoss s n else sendMsg s (msg d)) s

/-! ## The end of a reform at the ports (R69, R364) -/

/-- A port holds no key of an epoch older than the chip's. -/
def portMoved (s : State) (p : Nat) : Bool :=
  let l := link s p
  let at_ := fun (k : Option SKey) => match k with
    | some x => x.epoch == s.range.epoch
    | none => true
  l.state != .opened || (at_ l.txCur && at_ l.rxCur && at_ l.rxOther)

/-- Once every OPEN port has retired its old-epoch keys, the previous range key goes and the chip is MEMBER. -/
def endReform (s : State) : State :=
  if s.range.retiring && allPorts.all (portMoved s) then
    let s1 := clearSlot { s with range := { s.range with retiring := false } } 3
    if s1.range.memb == .reforming then setMemb s1 .member else s1
  else s

/-! ## Ports (R62, R63) -/

/-- STATE codes (R92). -/
def portCode : PortState → Nat
  | .off => 0 | .probing => 1 | .opened => 2 | .down => 3 | .admitting => 4

/-- Result of LINK_SESSION: the port's STATE after. -/
def portResult (s : State) (p : Nat) : BitVec 192 := resultOf [(8, portCode (link s p).state)]

/-- Started CLOSE commands of a port end; so do OPEN commands, with another status. -/
def endClose (s : State) (p : Nat) : State :=
  finishWaits s (fun w => w.kind == .linkClose p) .ok (portResult s p)

/-- A port leaves OPEN by a fault or by the loss of its session (R62): DOWN. Where a CLOSE was draining it, the spec
does not say which of R62's two rows holds; the model takes the port OFF and ends the CLOSE with OK (DESIGN CHOICE, log
entry 75). -/
def portLost (s : State) (p : Nat) : State :=
  if (link s p).closing then endClose (portTo s p .off) p else portTo s p .down

/-! ## Leaving (R31, R195, R361, R364) -/

/-- Contexts of confidential partitions are lost with fault RANGE (R195). -/
def loseConfidential (s : State) : State :=
  ((s.part.parts.filter fun e => e.2.state != .free && e.2.conf).map (·.1)).foldl (fun s n => losePid s n .range) s

/-- Pool slots of device-set keys are cleared (R263, R322). -/
def clearDevsets (s : State) : State :=
  ((s.keys.slots.filter fun e => polClass e.2.policy == classCode .devset).map (·.1)).foldl clearSlot
    { s with wb := { s.wb with sets := [] } }

/-- Ports that hold session keys lose them: an OPEN port goes DOWN, a PROBING one OFF with ERR_STATE (R62). -/
def dropPorts (s : State) : State :=
  allPorts.foldl (fun s p =>
    match (link s p).state with
    | .opened => portLost s p
    | .probing =>
      finishWaits (portTo s p .off) (fun w => w.kind == .linkOpen p) .errState (resultOf [(8, 0)])
    | _ => s) s

/-- A join ends without admission (R31, R62, R358): a CTRL close goes out, then the port, the admission key and the request go, and the chip
is UNBOUND. -/
def failJoin (s : State) (st : Status) : State :=
  match s.range.join with
  | none => s
  | some j =>
    let s1 := sendClose (dropSent s fun w => w == .join) j.port
    let s2 := setMemb { s1 with range := { s1.range with join := none } } .unbound
    finishWaits s2 (fun w => w.kind == .rangeJoin) st

/-- A relay ends: its port closes and its admission key is destroyed (R62, R263). -/
def dropRelay (s : State) (k : Relay) : State :=
  let s1 := clearSlot (portTo s k.port .off) k.slot
  { s1 with range := { s1.range with relays := s1.range.relays.filter fun x => x != k } }

/-- A range's sequence values are not those of the next one, whatever epoch number it has (R61). -/
def clearKept (s : State) : State :=
  { s with ridge := { s.ridge with links := tmapAll {} s.ridge.links fun _ l => { l with kept := none } } }

/-- The chip leaves the range on its own: its confidential contexts are lost before its range, pair and
session keys go, and it is UNBOUND (R31, R44, R361, R364, R365). -/
def leaveRange (s : State) : State :=
  let s1 := dropPorts (foldLeaveRange (loseConfidential s))
  let s2 := clearKept (clearDevsets (([2, 3, 7] ++ advSlot s1).foldl clearSlot s1))
  let s3 := finishWaits s2 (fun w => match w.kind with | .epochAdvance _ => true | _ => false) .errState
  let s4 := finishWaits s3 (fun w => w.kind == .rangeLeave) .ok
  let r := s4.range
  setMemb { s4 with range := {
    memb := r.memb, ctr := r.ctr, nextSeq := r.nextSeq, seen := r.seen, reasm := r.reasm, relays := r.relays
    openAt := r.openAt
    sent := r.sent.filter fun x => match x.why with | .bind _ _ => true | .setkey _ => true | _ => false } } .unbound

end Sys2Proof.Machine
end

