-- ==== Sys2Proof/Machine/CmdPart.lean ====
section
/-! DEFINITION. Commands that give partitions tiles and peers, and report their state (07, 08,
11 R326). -/

namespace Sys2Proof.Machine

/-! ## What a new partition starts from (R40, R198, R274, R327) -/

/-- A debug authorisation of a JTAG or SCU scope is active (R274). -/
def jtagScuActive (s : State) : Bool := dbgScope s / 1 % 2 == 1 || dbgScope s / 8 % 2 == 1

/-- PTAG names a PID from 1 to 31 (R40). -/
def pidNamed (p : Pkt) : Bool := tagPid p.ptag != 0

/-- Peer entries of a PID are cleared (R198). -/
def clearPeers (s : State) (pid : Nat) : State :=
  { s with part := { s.part with peers := s.part.peers.filter fun e => e.1 / 16384 != pid } }

/-- Telemetry of a PID starts from 0 (R327, R408). -/
def clearTel (s : State) (pid : Nat) : State :=
  { s with tel := { s.tel with
      cnt := s.tel.cnt.filter fun e => e.1 / 8 != pid
      latched := s.tel.latched.filter fun e => e.1 / 8 != pid
      latchNo := tset 0 s.tel.latchNo pid 0
      since := tset 0 s.tel.since pid (now s) } }

/-! ## PART_ASSIGN_TILES (R196, R326) -/

/-- TILES of the command. -/
def tilesOf (p : Pkt) : BitVec 288 := p.params.setWidth 288

/-- Tiles named in a mask. -/
def tileList (m : BitVec 288) : List Nat := (List.range 288).filter fun t => m.getLsbD t

/-- PID of the partition that holds a tile, 0 for none. -/
def tileOwner (s : State) (t : Nat) : Nat :=
  match s.part.parts.find? fun e => e.2.state != .free && e.2.tiles.getLsbD t with
  | some e => e.1
  | none => 0

/-- The other tile of a tile's port (R124). -/
def tileMate (t : Nat) : Nat := if t % 2 == 0 then t + 1 else t - 1

/-- One bit of a tile mask. -/
def tileBit (t : Nat) : BitVec 288 := 1#288 <<< t

/-- Hand a tile to a partition: its port's assignment register, SCRUBBED, the tile-clear record. -/
def handTile (s : State) (pid t : Nat) : State :=
  let q := part s pid
  let d := beBytes 16 q.digest.toNat ++ leBytes 2 t ++ leBytes 4 (tget 0 s.part.scrubSeq t)
  let s1 := setPart s pid { q with
    tiles := q.tiles ||| tileBit t, handed := inc16 q.handed
    lastScrub := max q.lastScrub (tget 0 s.part.scrubAt t)
    digest := BitVec.ofNat 128 (beNat ((sha d).take 16)) }
  let a : Asg := { pid := pid, gen := curGen s pid }
  emit { s1 with part := { s1.part with
    scrubbed := s1.part.scrubbed &&& ~~~ tileBit t
    asg := tset {} s1.part.asg (t / 2) a } } (.assign (t / 2) pid a.gen)

/-- Ask the T5 for a tile's reset (R326). -/
def resetTile (s : State) (t : Nat) : State :=
  emit { s with part := { s.part with tileReset := s.part.tileReset ||| tileBit t } } (.tileReset t)

/-- Take a tile from a partition. -/
def takeTile (s : State) (pid t : Nat) : State :=
  let q := part s pid
  resetTile (setPart s pid { q with tiles := q.tiles &&& ~~~ tileBit t, released := inc16 q.released }) t

/-- The partition has a resident context. -/
def hasResident (s : State) (pid : Nat) : Bool := (residents s).any fun e => e.2.pid == pid

/-- PART_ASSIGN_TILES ADD: all named tiles or none. -/
def runTilesAdd (s : State) (t : Ticket) (p : Pkt) (_ : List ReadIn) : Res :=
  let pid := tagPid t.ptag
  let l := tileList (tilesOf p)
  let good := fun i => tileOwner s i == 0 && s.part.scrubbed.getLsbD i &&
    (tileOwner s (tileMate i) == 0 || tileOwner s (tileMate i) == pid)
  if !active s pid || !l.all good then .fail .errState
  else
    let s1 := l.foldl (fun s i => handTile s pid i) s
    .ok s1 (resultOf [(8, tileCount (part s1 pid).tiles)])

/-- PART_ASSIGN_TILES REMOVE: all named tiles or none. -/
def runTilesRemove (s : State) (t : Ticket) (p : Pkt) (_ : List ReadIn) : Res :=
  let pid := tagPid t.ptag
  let l := tileList (tilesOf p)
  if !active s pid || hasResident s pid || !l.all (fun i => (part s pid).tiles.getLsbD i) then .fail .errState
  else
    let s1 := l.foldl (fun s i => takeTile s pid i) s
    .ok s1 (resultOf [(8, tileCount (part s1 pid).tiles)])

/-- PART_ASSIGN_TILES (0x11) ADD. -/
def opTilesAdd : Op where
  opcode := 0x11
  named := [(16, 0, 288)]
  rings := opOnly
  pre _ _ p := if pidNamed p then none else some .errPerm
  run := runTilesAdd

/-- PART_ASSIGN_TILES (0x11) REMOVE. -/
def opTilesRemove : Op where
  opcode := 0x11
  form := 1
  named := [(16, 0, 288)]
  rings := opOnly
  pre _ _ p := if pidNamed p then none else some .errPerm
  run := runTilesRemove

/-- PART_ASSIGN_TILES ADD. -/
def execPartAssignTilesAdd (c : Cmd) (s : State) : Result := .next (issue opTilesAdd s c)
/-- PART_ASSIGN_TILES REMOVE. -/
def execPartAssignTilesRemove (c : Cmd) (s : State) : Result := .next (issue opTilesRemove s c)

/-- TILE_SCRUB_DONE (R326): a pulse for a tile of a partition is counted and ignored. -/
def execTileScrubDone (t : Fin 288) (s : State) : Result :=
  let s1 := { s with
    part := { s.part with
      scrubSeq := tmod 0 s.part.scrubSeq t.val inc32
      tileReset := s.part.tileReset &&& ~~~ tileBit t.val }
    tel := { s.tel with tileScrubs := inc32 s.tel.tileScrubs } }
  if tileOwner s t.val != 0 then .next s1
  else .next { s1 with part := { s1.part with
    scrubbed := s1.part.scrubbed ||| tileBit t.val, scrubAt := tset 0 s1.part.scrubAt t.val (now s) } }

/-! ## PART_MAP PEER (R198, R199) -/

/-- A peer entry as the word of R198. -/
def peerWord (e : Peer) : Nat := e.ptag.toNat * 65536 + b2n e.valid * 32768 + b2n e.silent * 16384 + b2n e.bound * 8192

/-- PART_MAP PEER: an open partition's entry is written at once; a confidential one's is bound first. -/
def runMapPeer (s : State) (t : Ticket) (p : Pkt) (_ : List ReadIn) : Res :=
  let pid := tagPid t.ptag
  let node := parm p 16 16
  let q := part s pid
  let e : Peer := { ptag := BitVec.ofNat 16 (parm p 18 16), valid := true }
  if q.state != .active then .fail .errState
  else if parmBit p 20 0 then .ok (setPeer s pid node {}) 0
  else if !q.conf then .ok (setPeer s pid node e) (resultOf [(8, peerWord e)])
  else if !q.jobSet then .failWith .errState 0 (setPeer s pid node { e with valid := false })
  else
    .wait (sendReq s { dst := node, opcode := 0x15, form := 0x02, ptag := e.ptag
                       params := paramsOf [(16, q.job.toNat)] } (.bind pid node))
      pid (.peerBind pid node e.ptag)

/-- PART_MAP (0x12) PEER. -/
def opMapPeer : Op where
  opcode := 0x12
  form := 1
  named := [(16, 0, 16), (18, 0, 16), (20, 0, 1)]
  form3 p := !parmBit p 20 0 || parm p 18 16 == 0
  rings := opOnly
  pre _ _ p :=
    if parm p 16 16 ≥ 16384 then some .errParam else if pidNamed p then none else some .errPerm
  run := runMapPeer

/-- PART_MAP PEER. -/
def execPartMapPeer (c : Cmd) (s : State) : Result := .next (issue opMapPeer s c)

/-- The tag that a PEER write whose binding is pending gives its entry. -/
def bindTag (s : State) (pid node : Nat) : Option (BitVec 16) :=
  s.cmd.waits.findSome? fun w => match w.kind with
    | .peerBind p n tag => if p == pid && n == node then some tag else none
    | _ => none

/-- A bind ends: the entry takes its tag and is BOUND, or is left with VALID 0 (R199); until then it stands as it was
(R201). -/
def endBind (s : State) (pid node : Nat) (st : Status) : State :=
  match bindTag s pid node with
  | none => s
  | some tag =>
    let e : Peer := { ptag := tag, valid := st == .ok, bound := st == .ok }
    let s1 := setPeer (dropSent s fun w => w == .bind pid node) pid node e
    finishWaits s1 (fun w => w.kind == .peerBind pid node tag) st (if st == .ok then resultOf [(8, peerWord e)] else 0)

/-! ## PART_STATUS (R239) -/

/-- Partition state codes (R194); the system partition is always present (R40). -/
def partCode (s : State) (pid : Nat) : Nat :=
  if pid == 0 then 1 else match (part s pid).state with
  | .free => 0 | .active => 1 | .tearing => 2

/-- PART_STATUS SUMMARY. -/
def runPartSummary (s : State) (t : Ticket) (_ : Pkt) (_ : List ReadIn) : Res :=
  let pid := tagPid t.ptag
  let q := part s pid
  .ok s (resultOf [(8, partCode s pid), (9, b2n q.conf + 2 * b2n q.jobSet + 4 * b2n q.strict),
    (10, (curTag s pid).toNat), (12, q.ctag.toNat), (14, tileCount q.tiles), (16, livePages s pid),
    (20, (ctxsOf s pid).length), (22, (fencesOf s pid).length), (24, q.kills), (28, q.lost)])

/-- Ports that pass a test, as bits. -/
def portMask (f : Nat → Bool) : Nat := (allPorts.map fun p => b2n (f p) * 2 ^ p).sum

/-- PART_STATUS PORTS. -/
def runPartPorts (s : State) (t : Ticket) (_ : Pkt) (_ : List ReadIn) : Res :=
  let pid := tagPid t.ptag
  .ok s (resultOf [(8, portMask fun p => tget 0 (link s p).shares pid != 0),
    (13, portMask fun p => (link s p).screeCad != 0)])

/-- PART_STATUS (0x15) SUMMARY or PORTS. -/
def opPartStatus (ports : Bool) : Op where
  opcode := 0x15
  form := if ports then 1 else 0
  rings := opTenant
  run := if ports then runPartPorts else runPartSummary

/-- PART_STATUS SUMMARY or PORTS. -/
def execPartStatusSummary (ports : Bool) (c : Cmd) (s : State) : Result := .next (issue (opPartStatus ports) s c)

/-- PART_STATUS BIND (R199): EXISTS, CONF, JOB_MATCH. -/
def runPartBind (s : State) (t : Ticket) (p : Pkt) (_ : List ReadIn) : Res :=
  let pid := tagPid t.ptag
  let q := part s pid
  if s.range.takeover then .fail .busy
  else .ok s (resultOf [(8, b2n (active s pid) + 2 * b2n (active s pid && q.conf) +
    4 * b2n (active s pid && q.jobSet && q.job == BitVec.ofNat 64 (parm p 16 64)))])

/-- PART_STATUS (0x15) BIND. -/
def opPartBind : Op where
  opcode := 0x15
  form := 2
  named := [(16, 0, 64)]
  rings n := n == 32
  run := runPartBind

/-- A range-ring command from another chip's SCU, checked and run (R223, R233, R242). -/
def rangeCmd (op : Op) (s : State) (m : RMsg) : State :=
  if !(s.boot.rdy && s.boot.scuUp) then s
  else
    let pk : Packet := ⟨op.opcode, op.form, msgBody m⟩
    let k := takeOther s 32 m.src m.via pk
    match check35 op k.s 32 pk.body 0 with
    | some st => finish k.s k.t st
    | none => runOp op k.s k.t pk.body []

end Sys2Proof.Machine
end

