-- ==== Sys2Proof/Machine/CmdFold.lean ====
section
/-! DEFINITION. Fold plans: grants, arming, release, and the work of the fold units (04). -/

namespace Sys2Proof.Machine

/-! ## FOLD_PLAN GRANT (R98) -/

/-- A unit holds blocks of a partition other than `pid` that passes a test. -/
def unitHolds (s : State) (u pid : Nat) (f : Nat → Bool) : Bool :=
  s.fold.blocks.any fun e => e.1 / 64 == u && e.2 != pid + 1 && f (e.2 - 1)

/-- FOLD_PLAN GRANT. -/
def runPlanGrant (s : State) (t : Ticket) (p : Pkt) (_ : List ReadIn) : Res :=
  let pid := tagPid t.ptag
  let u := parm p 16 8
  let bs := span (u * 64 + parm p 17 8) (parm p 18 8)
  let taken := bs.any fun b => tget 0 s.fold.blocks b != 0 || s.fold.zeroing.contains b
  if !(pid == 0 || active s pid) then .fail .errState
  else if taken || unitHolds s u pid (fun q => (part s q).conf || (part s pid).conf) then .fail .errResource
  else .ok { s with fold := { s.fold with
    blocks := bs.foldl (fun l b => tset 0 l b (pid + 1)) s.fold.blocks } }

/-- UNIT, BLK_FIRST and COUNT in range. -/
def blockSpanOk (u first count : Nat) : Bool := u ≤ 35 && 1 ≤ count && count ≤ 64 && first + count ≤ 64

/-- FOLD_PLAN (0x33) GRANT. -/
def opPlanGrant : Op where
  opcode := 0x33
  form := 1
  named := [(16, 0, 8), (17, 0, 8), (18, 0, 8)]
  rings := opOnly
  pre _ _ p := if blockSpanOk (parm p 16 8) (parm p 17 8) (parm p 18 8) then none else some .errParam
  run := runPlanGrant

/-- FOLD_PLAN GRANT. -/
def execFoldPlanGrant (c : Cmd) (s : State) : Result := .next (issue opPlanGrant s c)

/-! ## FOLD_PLAN ARM (R108, R109) -/

/-- The plan that a descriptor describes for a PID. -/
def planOf (pid : Nat) (b : Bytes) : FoldPlan :=
  let inF := le b 6 1 % 16
  let ce := le b 44 2 % 8192
  { state := .armed, unit := le b 4 1 % 64, pid := pid, pinst := BitVec.ofNat 16 (le b 2 2)
    op := le b 5 1 % 4, nextContrib := le b 5 1 / 4 % 8, inFmt := inF, outFmt := le b 6 1 / 16
    ncontrib := le b 7 1 % 16, preload := le b 7 1 / 16 % 2 == 1, outMem := le b 7 1 / 32 % 2 == 1
    slots := le b 8 1 % 128, blkFirst := le b 9 1 % 64, tmo := le b 10 2, nchunk := le b 12 4
    a := BitVec.ofNat 32 (le b 16 4), fence := BitVec.ofNat 32 (le b 20 4)
    preBase := le b 24 6, outBase := le b 30 6, nextNode := le b 36 2, nextPtag := BitVec.ofNat 16 (le b 38 2)
    nextPlan := le b 40 2, nextPinst := BitVec.ofNat 16 (le b 42 2)
    ce := if ce == 0 then fmtFull inF else ce
    srcs := (List.range 8).map fun i => le b (48 + 2 * i) 2 }

/-- Reserved fields of a descriptor are 0 (R108). -/
def descClean (b : Bytes) : Bool :=
  le b 0 2 < 1024 && le b 4 1 < 64 && le b 5 1 < 32 && le b 7 1 < 64 && le b 8 1 < 128 && le b 9 1 < 64 &&
  le b 24 6 < 2 ^ 41 && le b 30 6 < 2 ^ 41 && le b 36 2 < 16384 && le b 40 2 < 1024 && le b 44 2 < 8192 &&
  le b 46 2 == 0 && (List.range 8).all fun i => le b (48 + 2 * i) 2 < 16384

/-- Values of a plan in range and its formats and operation legal (R109, R102, R103). The spec says that INT32 input
requires INT32 output and gives no conversion of FP32 accumulators to INT32: another input format with INT32 output is
refused with ERR_PARAM too. R108 aligns PRE_BASE and OUT_BASE to 4 KiB and R109 gives no status for one that is not: a base
off its alignment, used by the plan or not, gives ERR_PARAM (both DESIGN CHOICE, log entry 84). -/
def planOk (p : FoldPlan) : Bool :=
  fmtOk p.inFmt && fmtOk p.outFmt && (fmtInt p.inFmt == fmtInt p.outFmt) && !(p.op == 3 && fmtInt p.inFmt) &&
  p.unit ≤ 35 && 1 ≤ p.ncontrib && p.ncontrib ≤ 8 && 1 ≤ p.slots && p.slots ≤ 64 && 1 ≤ p.tmo && 1 ≤ p.nchunk &&
  p.ce ≤ fmtFull p.inFmt && (p.outMem || p.ce ≤ fmtFull p.outFmt) &&
  (!(fmtMx p.inFmt || fmtMx p.outFmt) || p.ce % 32 == 0) &&
  p.preBase % 4096 == 0 && p.outBase % 4096 == 0

/-- Every page of a range of device bytes is LIVE under the PID. -/
def recorded (s : State) (pid off len : Nat) : Bool :=
  let first := pageOf off
  let last := pageOf (off + len - 1)
  off + len ≤ 0x1E000000000 &&
  tcount (s.mem.pot.filter fun e => first ≤ e.1 && e.1 ≤ last) (fun e => e.state == .live && e.pid == pid && !e.sys)
    == last + 1 - first

/-- A plan is armed: its slots open (R110, R112). -/
def armPlan (s : State) (n : Nat) (q : FoldPlan) : State :=
  let s1 := setPlan { s with fold := { s.fold with arms := s.fold.arms + 1 } } n { q with num := s.fold.arms + 1 }
  (List.range q.slots).foldl (fun s c => openSlot s q c) s1

/-- The plan descriptor that a command's read delivers (R108), `none` where it is poisoned. -/
def planRead (m : List ReadIn) : Option Bytes :=
  match m with
  | .poison .. :: _ => none
  | .data d :: _ => some d
  | [] => some []

/-- What checks 6 and 7 find in the descriptor (R109). -/
def planCheck (s : State) (p : Pkt) (m : List ReadIn) : Option Status :=
  let pid := tagPid p.ptag
  (planRead m).bind fun b =>
    let q := planOf pid b
    if !(descClean b && planOk q) then some .errParam
    else if (q.preload && !recorded s pid q.preBase (q.nchunk * strideOf q.inFmt q.ce)) ||
        (q.outMem && !recorded s pid q.outBase (q.nchunk * strideOf q.outFmt q.ce)) then some .errPerm
    else none

/-- FOLD_PLAN ARM. -/
def runPlanArm (s : State) (t : Ticket) (_ : Pkt) (m : List ReadIn) : Res :=
  let pid := tagPid t.ptag
  match planRead m with
  | none => .fail .errIntegrity
  | some b =>
    let q := planOf pid b
    let n := le b 0 2 % 1024
    let mine := planBlocks q
    let conf := (part s pid).conf
    if !(pid == 0 || active s pid) || (conf && !inRange s) then .fail .errState
    else if (plan s n).state != .free ||
        tcount s.fold.plans (fun e => e.state != .free && e.unit == q.unit) ≥ 16 ||
        q.blkFirst + q.slots * fmtBlocks q.inFmt > 64 || !mine.all (fun k => tget 0 s.fold.blocks k == pid + 1) ||
        s.fold.plans.any (fun e => e.2.state == .armed && (planBlocks e.2).any fun k => mine.contains k) then
      .fail .errResource
    else .ok (armPlan s n q) (resultOf [(8, n), (10, q.unit)])

/-- For a confidential partition only its own tenant ring; else that ring or the operator's (R108). -/
def foldRing (s : State) (n : Nat) (pid : Nat) : Bool := !(part s pid).conf || n == pid

/-- FOLD_PLAN (0x33) ARM. -/
def opPlanArm : Op where
  opcode := 0x33
  named := [(16, 0, 48)]
  rings := opTenant
  pre s n p :=
    let d := parm p 16 48
    let pid := tagPid p.ptag
    if d % 64 != 0 || d ≥ 2 ^ 41 then some .errParam
    else if !foldRing s n pid || !rangeOk s pid d 64 rTRD then some .errPerm
    else none
  preMem := planCheck
  reads _ _ p _ := [{ pid := tagPid p.ptag, off := parm p 16 48, len := 64 }]
  run := runPlanArm

/-- FOLD_PLAN ARM. -/
def execFoldPlanArm (c : Cmd) (s : State) : Result := .next (issue opPlanArm s c)

/-! ## FOLD_RELEASE (R112) -/

/-- Plan state codes in the result, in R112's order (DESIGN CHOICE, log entry 21). -/
def planCode : PlanState → Nat
  | .free => 0 | .armed => 1 | .done => 2 | .faulted => 3

/-- Result of a release: the plan as it was before. -/
def releaseResult (p : FoldPlan) : BitVec 192 :=
  resultOf [(8, planCode p.state), (9, reasonCode p.reason), (10, b2n p.nan + 2 * b2n p.inf + 4 * b2n p.sat),
    (12, p.emitted)]

/-- Some slot of the plan holds a contribution: a frame's or the preload (R99). -/
def holding (p : FoldPlan) : Bool := p.chunks.any fun e => e.2.have_ != 0 || e.2.preloaded

/-- The plan that a DISARM names is on the unit and of the PID. The spec gives no status for a UNIT that is not the
plan's; it gives ERR_PARAM (DESIGN CHOICE, log entry 85). -/
def disarmCheck (s : State) (n : Nat) (p : Pkt) : Option Status :=
  let q := plan s (parm p 17 16)
  if parm p 16 8 > 35 || parm p 17 16 > 1023 then some .errParam
  else if q.state != .free && (q.unit != parm p 16 8) then some .errParam
  else if q.state != .free && (q.pid != tagPid p.ptag || !foldRing s n q.pid) then some .errPerm
  else none

/-- FOLD_RELEASE DISARM. -/
def runDisarm (s : State) (_ : Ticket) (p : Pkt) (_ : List ReadIn) : Res :=
  let n := parm p 17 16
  let q := plan s n
  if q.state == .free || (q.state == .armed && holding q) then .fail .errState
  else .ok (setPlan s n {}) (releaseResult q)

/-- FOLD_RELEASE DISARM FORCE: at the unit's next frame boundary. -/
def runDisarmForce (s : State) (t : Ticket) (p : Pkt) (_ : List ReadIn) : Res :=
  let n := parm p 17 16
  let q := plan s n
  if q.state == .free then .fail .errState
  else if q.state == .armed then .wait s (tagPid t.ptag) (.disarm q.unit n)
  else .ok (setPlan s n {}) (releaseResult q)

/-- FOLD_RELEASE (0x34) DISARM. -/
def opDisarm : Op where
  opcode := 0x34
  named := [(16, 0, 8), (17, 0, 16)]
  rings := opTenant
  pre s n p := disarmCheck s n p
  run := runDisarm

/-- FOLD_RELEASE (0x34) DISARM FORCE. -/
def opDisarmForce : Op where
  opcode := 0x34
  form := 1
  named := [(16, 0, 8), (17, 0, 16)]
  rings := opTenant
  pre s n p := disarmCheck s n p
  run := runDisarmForce

/-- Free a plan with its fence signalled where it was armed (R112). -/
def forceFree (s : State) (n : Nat) : State :=
  let p := plan s n
  let s1 := setPlan s n {}
  if p.state == .armed then planError s1 p .none else s1

/-- FOLD_RELEASE RECLAIM: every plan using a named block is freed, and its blocks leave their PID. A DISARM FORCE that waits
for such a plan ends with ERR_STATE, as at a quarantine: the spec gives no status (DESIGN CHOICE, log entry 133). -/
def runReclaim (s : State) (_ : Ticket) (p : Pkt) (_ : List ReadIn) : Res :=
  let named := span (parm p 16 8 * 64 + parm p 19 8) (parm p 20 8)
  let ps := s.fold.plans.filter fun e => e.2.state != .free && (planBlocks e.2).any fun b => named.contains b
  let blocks := named ++ (ps.map fun e => planBlocks e.2).flatten
  let s1 := ps.foldl (fun s e => endDisarms (forceFree s e.1) e.1 .errState) s
  .ok (zeroBlocks s1 blocks.eraseDups) (match ps with
    | e :: _ => releaseResult e.2
    | [] => 0)

/-- FOLD_RELEASE (0x34) RECLAIM. -/
def opReclaim : Op where
  opcode := 0x34
  form := 2
  named := [(16, 0, 8), (19, 0, 8), (20, 0, 8)]
  whole _ := true
  rings := opOnly
  pre _ _ p := if blockSpanOk (parm p 16 8) (parm p 19 8) (parm p 20 8) then none else some .errParam
  run := runReclaim

/-- FOLD_RELEASE DISARM. -/
def execFoldReleaseDisarm (c : Cmd) (s : State) : Result := .next (issue opDisarm s c)
/-- FOLD_RELEASE DISARM FORCE. -/
def execFoldReleaseDisarmForce (c : Cmd) (s : State) : Result := .next (issue opDisarmForce s c)
/-- FOLD_RELEASE RECLAIM. -/
def execFoldReleaseReclaim (c : Cmd) (s : State) : Result := .next (issue opReclaim s c)

/-- FOLD_DISARM_BOUNDARY (R112): forced disarms of the unit take effect. -/
def execFoldDisarmBoundary (u : Port) (s : State) : Result :=
  let l := s.cmd.waits.filterMap fun w => match w.kind with
    | .disarm k n => if k == u.val then some n else none
    | _ => none
  .next (l.foldl (fun s n =>
    let r := releaseResult (plan s n)
    finishWaits (forceFree s n) (fun w => w.kind == .disarm u.val n) .ok r) s)

/-- FOLD_BLOCK_ZEROED (R98): both copies of the block are zero, with SEL and INIT, and it can be granted again. -/
def execFoldBlockZeroed (u : Port) (block : Fin 64) (s : State) : Result :=
  let b := u.val * 64 + block.val
  if s.fold.zeroing.contains b then
    let s1 := clearBlock s b
    .next { s1 with fold := { s1.fold with zeroing := s1.fold.zeroing.filter fun x => x != b } }
  else .next s

/-! ## Emission and completion (R110 to R112) -/

/-- Every memory write of an arming of a plan has been accepted. -/
def allWritten (s : State) (n : Nat) (p : FoldPlan) : Bool :=
  !p.unwritten && s.fold.writing.all fun w => !(w.plan == n && w.num == p.num)

/-- An armed plan whose every chunk is emitted and written is DONE; its fence is signalled. -/
def checkDone (s : State) (n : Nat) : State :=
  let p := plan s n
  if p.state == .armed && p.base ≥ p.nchunk && allWritten s n p then
    planSignal (setPlan s n { p with state := .done }) p
  else s

/-- Lowest chunk not emitted, past those that have been. -/
def advanceBase (past : List Nat) : Nat → Nat → Nat
  | 0, b => b
  | f + 1, b => if past.contains b then advanceBase past f (b + 1) else b

/-- Fold descriptor of an output frame (R105, R111). -/
def foldDesc (p : FoldPlan) (chunk nelem : Nat) : Bytes :=
  leBytes 2 p.nextPlan ++ leBytes 4 chunk ++ leBytes 1 p.nextContrib ++ leBytes 1 p.outFmt ++ leBytes 2 nelem ++
  leBytes 2 p.nextPinst.toNat ++ zeros 4

/-- The committed accumulators of a chunk. -/
def accOf (s : State) (p : FoldPlan) (chunk n : Nat) : List (BitVec 32) :=
  (((List.range ((n + 31) / 32)).map fun j => (committed (pairAt s (slotPair p chunk j))).1).flatten).take n

/-- Progress of a plan that has emitted a chunk. -/
def emittedPlan (p : FoldPlan) (chunk : Nat) (o : OutConv) : FoldPlan :=
  let past := chunk :: p.past
  let base := advanceBase past past.length p.base
  { p with
    nan := p.nan || o.nan, inf := p.inf || o.inf, sat := p.sat || o.sat, emitted := p.emitted + 1
    base := base, past := past.filter fun x => base ≤ x, chunks := terase p.chunks chunk }

/-- Emit a complete chunk (R111): to the router, or towards memory; its slot opens for a later chunk (R110). -/
def emitChunk (s : State) (n chunk : Nat) (c : Chunk) : State :=
  let p := plan s n
  let o := outAll p.outFmt (accOf s p chunk c.nelem)
  let s1 := openSlot (foldCtr (setPlan s n (emittedPlan p chunk o)) p.unit fun k => { k with chunks := inc32 k.chunks })
    p chunk
  if p.outMem then
    let len := strideOf p.outFmt p.ce
    let w : FoldOut := { unit := p.unit, plan := n, num := p.num, chunk := chunk, pid := p.pid, gen := curGen s p.pid
                         off := p.outBase + chunk * len, bytes := o.body ++ zeros (len - o.body.length) }
    { s1 with fold := { s1.fold with writing := s1.fold.writing ++ [w] } }
  else
    let payload := foldDesc p chunk c.nelem ++ o.body
    let inner := innerOf s clsFold p.nextNode (curTag s p.pid) p.nextPtag payload
    checkDone (push s1 { client := p.pid, flits := flitsFor payload.length, inner := inner }) n

/-- The chunk has every contribution it needs. -/
def complete (p : FoldPlan) (c : Chunk) : Bool :=
  ((List.range 8).filter fun i => c.have_.getLsbD i).length ≥ p.ncontrib && (!p.preload || c.preloaded)

/-- A chunk has been emitted. -/
def chunkOut (p : FoldPlan) (chunk : Nat) : Bool := decide (chunk < p.base) || p.past.contains chunk

/-- The slot of a chunk is open: the chunk has not been emitted, and the one before it in the slot has (R110). -/
def slotIsOpen (p : FoldPlan) (chunk : Nat) : Bool :=
  decide (chunk < p.nchunk) && !chunkOut p chunk && (decide (chunk < p.slots) || chunkOut p (chunk - p.slots))

/-! ## Frames (R107, R117) -/

/-- The peer entry of R200 admits a source for a partition. -/
def peerAdmits (s : State) (pid node : Nat) (ptag : BitVec 16) : Bool :=
  let e := peer s pid node
  e.valid && !e.silent && e.ptag == ptag && (!(part s pid).conf || e.bound)

/-- What the checks of R107 say of a frame: take it, discard it, or discard it and fault its plan. -/
inductive FoldCheck where
  | take | drop
  | fault (r : FoldReason)
  deriving DecidableEq, Repr

/-- The checks of R107 in their order. -/
def foldCheck (s : State) (u : Nat) (f : FoldFrame) : FoldCheck :=
  let b := f.body
  let n := le b 0 2 % 1024
  let chunk := le b 2 4
  let contrib := le b 6 1 % 8
  let fmt := le b 7 1 % 16
  let nelem := le b 8 2 % 8192
  let p := plan s n
  let len := 16 + fmtBytes fmt nelem
  if p.state != .armed || p.pid != tagPid f.dptag || p.pinst != BitVec.ofNat 16 (le b 10 2) then .drop
  else if p.unit != u then .fault .source
  else if contrib ≥ p.ncontrib || p.srcs.getD contrib 0 != f.src || !peerAdmits s p.pid f.src f.sptag then .fault .source
  else if fmt != p.inFmt || chunk ≥ p.nchunk ||
      !(nelem == p.ce || (chunk + 1 == p.nchunk && 1 ≤ nelem && nelem ≤ p.ce && (!fmtMx fmt || nelem % 32 == 0))) ||
      f.len != len || f.flits < flitsFor len || f.padded then .fault .format
  else if chunk < p.base || p.past.contains chunk then .fault .dup
  else if chunk ≥ p.base + p.slots then .fault .window
  else if (tget ({} : Chunk) p.chunks chunk).have_.getLsbD contrib then .fault .dup
  else .take

/-- An abort (R117): the frame or preload is counted and every accumulator keeps its committed value; a reason faults the
plan. -/
def foldAbort (s : State) (u n : Nat) (r : Option FoldReason) : State :=
  let s1 := foldCtr s u fun c => { c with rollback := inc32 c.rollback }
  match r with
  | some x => faultPlan s1 n x
  | none => s1

/-- What one line pair's uncommitted copy takes from the elements of a frame or a preload that fall on it (R99, R117):
`first` says what an element becomes where it is the first contribution, `more` where it is not. -/
def pairTake (x : LinePair) (first : BitVec 32 → BitVec 32) (more : BitVec 32 → BitVec 32 → BitVec 32) (xs : List Conv) :
    List (BitVec 32) :=
  let old := (committed x).1
  (List.zipWith (fun v c => if x.init then more v c.v else first c.v) old xs) ++ old.drop xs.length

/-- Write elements into the uncommitted copies of a chunk's line pairs and commit them together (R117). -/
def commitPairs (s : State) (p : FoldPlan) (chunk : Nat) (first : BitVec 32 → BitVec 32)
    (more : BitVec 32 → BitVec 32 → BitVec 32) (xs : List Conv) : State :=
  (List.range ((xs.length + 31) / 32)).foldl (fun s j =>
    let k := slotPair p chunk j
    let x := pairAt s k
    let y := writeOther x (pairTake x first more ((xs.drop (32 * j)).take 32))
    setPair s k { y with sel := !x.sel, init := true }) s

/-- A pair that `n` elements of a chunk touch fails its parity (R117). -/
def parityError (s : State) (p : FoldPlan) (chunk n : Nat) : Bool :=
  (List.range ((n + 31) / 32)).any fun j => parityBad (pairAt s (slotPair p chunk j))

/-- Combine a frame into its chunk and commit (R117). Where the contributors' frames of the last chunk carry different NELEM,
the chunk has the largest: R111 gives NELEM of the emitted frame for equal ones (DESIGN CHOICE, log entry 128). -/
def applyFrame (s : State) (u : Nat) (f : FoldFrame) : State :=
  let b := f.body
  let n := le b 0 2 % 1024
  let chunk := le b 2 4
  let contrib := le b 6 1 % 8
  let nelem := le b 8 2 % 8192
  let p := plan s n
  let c := tget ({} : Chunk) p.chunks chunk
  let xs := convAll p.inFmt nelem (b.drop 16)
  let s0 := commitPairs s p chunk (firstVal p.op p.a) (combine p.op (fmtInt p.inFmt) p.a) xs
  let c1 : Chunk := { c with
    have_ := c.have_ ||| 1#8 <<< contrib, nelem := max c.nelem nelem
    firstAt := if c.firstAt.isSome then c.firstAt else some (now s) }
  let p1 := { p with
    nan := p.nan || xs.any (·.nan) || (!fmtInt p.inFmt && (accOf s0 p chunk nelem).any isNan32)
    inf := p.inf || xs.any (·.inf), lastAt := some (now s), chunks := tset {} p.chunks chunk c1 }
  let s1 := telAdd (foldCtr (setPlan s0 n p1) u fun k => { k with frames := inc32 k.frames }) p.pid 5 1
  if complete p c1 then emitChunk s1 n chunk c1 else s1

/-- A frame that R107 admits: aborted where a touched pair fails its parity, and folded otherwise (R117). -/
def foldFrame (s : State) (u : Nat) (f : FoldFrame) : State :=
  let n := le f.body 0 2 % 1024
  if parityError s (plan s n) (le f.body 2 4) (le f.body 8 2 % 8192) then foldAbort s u n (some .parity)
  else applyFrame s u f

/-- FOLD_FRAME_APPLY (R107, R117): the frame at the front of the unit's input stage. A frame whose owner's generation
has advanced since R77 passed it is aborted without a fault (R117, R213), before the checks of R107 are tried: the spec has
no order of the two (DESIGN CHOICE, log entry 129). One that waits for its preload keeps its place
(R110). -/
def execFoldFrameApply (u : Port) (upsets : List Upset) (s : State) : Result :=
  let s0 := upsets.foldl (fun s x => upset s u.val x) s
  match inputOf s0 u.val with
  | [] => .next s0
  | f :: rest =>
    let s1 := oweFold (setInput s0 u.val rest) u.val f.flits
    let n := le f.body 0 2 % 1024
    let reject := fun (s : State) => foldCtr s u.val fun c => { c with reject := inc32 c.reject }
    if !tagCurrent s0 f.dptag then .next (foldAbort s1 u.val n none)
    else match foldCheck s0 u.val f with
    | .drop => .next (reject s1)
    | .fault r => .next (faultPlan (reject s1) n r)
    | .take =>
      let p := plan s0 n
      if p.preload && !(tget ({} : Chunk) p.chunks (le f.body 2 4)).preloaded then .next s0
      else .next (foldFrame s1 u.val f)

/-- The reads of a chunk's local operand, from PRE_BASE + chunk × stride (R110). -/
def preReqs (s : State) (p : FoldPlan) (chunk : Nat) : List MxReq :=
  (cutReqs p.pid (curGen s p.pid) 0 (p.preBase + chunk * strideOf p.inFmt p.ce) (fmtBytes p.inFmt p.ce)).map (·.2)

/-- Commit a preload: the value written is always the operand (R117). -/
def applyPreload (s : State) (k chunk : Nat) (b : Bytes) : State :=
  let p := plan s k
  let xs := convAll p.inFmt p.ce (slice b 0 (fmtBytes p.inFmt p.ce))
  let s1 := commitPairs s p chunk id (fun _ x => x) xs
  let c1 : Chunk := { tget ({} : Chunk) p.chunks chunk with preloaded := true }
  setPlan s1 k { p with
    nan := p.nan || xs.any (·.nan), inf := p.inf || xs.any (·.inf), chunks := tset {} p.chunks chunk c1 }

/-- FOLD_PRELOAD_COMMIT (R110, R117): the local operand of an open chunk arrives. A page in change keeps its reads
waiting; the engine decides them as any request, and a read that it denies aborts the preload as a poisoned one does (DESIGN
CHOICE, log entry 86); poison has the engine's own effects too (R145). -/
def execFoldPreloadCommit (u : Port) (n : BitVec 10) (chunk : BitVec 32) (rd : PreRead) (s : State) : Result :=
  let s0 := rd.upsets.foldl (fun s x => upset s u.val x) s
  let k := n.toNat
  let p := plan s0 k
  let c := tget ({} : Chunk) p.chunks chunk.toNat
  let l := preReqs s0 p chunk.toNat
  if p.state != .armed || p.unit != u.val || !p.preload || !slotIsOpen p chunk.toNat || c.preloaded ||
      l.any (fun r => changing s0 (pageOf r.addr.toNat)) then .next s0
  else match l.find? fun r => decideNow s0 r != .grant with
    | some r => .next (foldAbort (settle s0 (engineOf s0 r.addr.toNat) { req := r } (decideNow s0 r)) u.val k (some .preload))
    | none =>
      let s1 := readOwn s0 { pid := p.pid, off := p.preBase + chunk.toNat * strideOf p.inFmt p.ce
                             len := fmtBytes p.inFmt p.ce, rt := false } rd.rd
      match rd.rd with
      | .poison .. => .next (foldAbort s1 u.val k (some .preload))
      | .data b =>
        if parityError s1 p chunk.toNat p.ce then .next (foldAbort s1 u.val k (some .parity))
        else .next (applyPreload s1 k chunk.toNat b)

/-! ## Output to memory (R111, R112, R117) -/

/-- One write of an emitted chunk is decided: a denial faults the plan that emitted it with OUTPUT, and one that is stale
is never accepted; the other writes of the chunk go on (R117). -/
def outPiece (w : FoldOut) (s : State) (r : MxReq) : State :=
  let g := decideNow s r
  let s1 := settle s (engineOf s r.addr.toNat) { req := r } g
  let p := plan s1 w.plan
  if g == .grant || p.num != w.num then s1
  else
    let s2 := setPlan s1 w.plan { p with unwritten := true }
    if g == .deny then faultPlan s2 w.plan .output else s2

/-- The writes of an emitted chunk: every sector of its stride (R111, R124). -/
def outReqs (w : FoldOut) : List MxReq :=
  (cutReqs w.pid w.gen 1 w.off w.bytes.length).map fun x =>
    { x.2 with data := slice w.bytes x.1 (x.2.size.toNat + 1) }

/-- FOLD_OUTPUT_WRITE_DONE (R111, R112, R117): the writes of an emitted chunk are decided by the engine; those of a page
being changed wait, and the rest of the chunk with them. -/
def execFoldOutputWriteDone (u : Port) (n : BitVec 10) (chunk : BitVec 32) (num : Nat) (s : State) : Result :=
  match s.fold.writing.find? fun w => w.unit == u.val && w.plan == n.toNat && w.chunk == chunk.toNat && w.num == num with
  | none => .next s
  | some w =>
    let l := outReqs w
    let go := l.takeWhile fun r => !changing s (pageOf r.addr.toNat)
    let s1 := go.foldl (outPiece w) s
    let k := (go.map fun r => r.size.toNat + 1).sum
    let rest := if k ≥ w.bytes.length then [] else [{ w with off := w.off + k, bytes := w.bytes.drop k }]
    .next (checkDone { s1 with fold := { s1.fold with
      writing := rest ++ s1.fold.writing.filter fun x => x != w } } w.plan)

/-- FOLD_PLAN_TIMEOUT (R113): a chunk, or the plan as a whole, has made no progress for TMO × 10 µs. -/
def execFoldPlanTimeout (u : Port) (n : BitVec 10) (s : State) : Result :=
  let k := n.toNat
  let p := plan s k
  let late := fun (t : Option Nat) => match t with
    | some x => decide (x + p.tmo * 10 ≤ now s)
    | none => false
  if p.state == .armed && p.unit == u.val && (late p.lastAt || p.chunks.any fun e => late e.2.firstAt) then
    .next (faultPlan s k .timeout)
  else .next s

end Sys2Proof.Machine
end

