-- ==== Sys2Proof/Machine/CmdMem.lean ====
section
/-! DEFINITION. Commands on pages, Fresh slots, budgets and the rinse, with the rinse's events (05, 07
R197, 11 R323). -/

namespace Sys2Proof.Machine

/-- Pages of the device space (R125). -/
def allPages : Nat := 983040

/-- Every page of a span is in the device space and the count is 1 to 512. -/
def spanOk (first count : Nat) : Bool := 1 ≤ count && count ≤ 512 && first + count ≤ allPages

/-- PID 0 exists always; another partition must be ACTIVE (R40, R195). -/
def present0 (s : State) (pid : Nat) : Bool := pid == 0 || active s pid

/-! ## Fresh slots (R146) -/

/-- Fresh slots reserved by all PIDs. -/
def freshReserved (s : State) : Nat := (s.part.parts.map fun e => e.2.freshRes).sum

/-- Pages of a PID that hold a Fresh slot, system pages apart. -/
def freshPages (s : State) (pid : Nat) : Nat :=
  (s.mem.pot.filter fun e =>
    !e.2.sys && e.2.pid == pid && e.2.state != .free && e.2.mode == .fresh &&
    !(changing s e.1)).length +
  (s.mem.changes.filter fun c => c.2.new.pid == pid && c.2.new.state != .free && c.2.new.mode == .fresh).length

/-- Reserved slots of a PID that no page holds. -/
def freshUnused (s : State) (pid : Nat) : Nat := (part s pid).freshRes - freshPages s pid

/-- Slots that pages hold now or will hold. -/
def slotsTaken (s : State) : List Nat :=
  ((s.mem.pot.filter fun e => e.2.state != .free && e.2.mode == .fresh).map fun e => e.2.fslot) ++
  ((s.mem.changes.filter fun c => c.2.new.mode == .fresh).map fun c => c.2.new.fslot)

/-- The `n` lowest free Fresh slots from slot 8 on (DESIGN CHOICE, log entry 10). -/
def takeSlots (taken : List Nat) : Nat → Nat → List Nat
  | 0, _ => []
  | n + 1, from_ =>
    let i := lowest (fun k => taken.contains k) taken.length from_
    i :: takeSlots taken n (i + 1)

/-- MEM_FRESH_REGION RESERVE. -/
def runFreshReserve (s : State) (t : Ticket) (p : Pkt) (_ : List ReadIn) : Res :=
  let pid := tagPid t.ptag
  let n := parm p 16 32
  if !present0 s pid then .fail .errState
  else if freshReserved s + n > 131064 then .fail .errResource
  else
    let q := part s pid
    .ok (setPart s pid { q with freshRes := q.freshRes + n }) (resultOf [(8, q.freshRes + n)])

/-- MEM_FRESH_REGION (0x21) RESERVE. -/
def opFreshReserve : Op where
  opcode := 0x21
  named := [(16, 0, 32)]
  rings := opOnly
  run := runFreshReserve

/-- MEM_FRESH_REGION RETURN. -/
def runFreshReturn (s : State) (t : Ticket) (p : Pkt) (_ : List ReadIn) : Res :=
  let pid := tagPid t.ptag
  let n := parm p 16 32
  if !present0 s pid then .fail .errState
  else
    let q := part s pid
    .ok (setPart s pid { q with freshRes := q.freshRes - n }) (resultOf [(8, q.freshRes - n)])

/-- MEM_FRESH_REGION (0x21) RETURN. -/
def opFreshReturn : Op where
  opcode := 0x21
  form := 1
  named := [(16, 0, 32)]
  rings := opOnly
  pre s _ p := if parm p 16 32 > freshUnused s (tagPid p.ptag) then some .errParam else none
  run := runFreshReturn

/-- MEM_FRESH_REGION RESERVE. -/
def execMemFreshRegionReserve (c : Cmd) (s : State) : Result := .next (issue opFreshReserve s c)
/-- MEM_FRESH_REGION RETURN. -/
def execMemFreshRegionReturn (c : Cmd) (s : State) : Result := .next (issue opFreshReturn s c)

/-! ## Pages (R130, R131, R197) -/

/-- A page of the span is a system page. -/
def anySys (s : State) (first count : Nat) : Bool := spanAny first count fun p => (pot s p).sys

/-- Begin the change of each page of a span; `l` gives Fresh slots to those that need one, in order. -/
def beginPages (f : Pot → Nat → Pot) (need : Pot → Bool) : List Nat → List Nat → State → State
  | [], _, s => s
  | p :: ps, l, s =>
    let e := pot s p
    if need e then beginPages f need ps (l.drop 1) (beginChange s p (f e (l.headD 0)))
    else beginPages f need ps l (beginChange s p (f e e.fslot))

/-- Create the ownership entries of T4C pages, the chip itself as owner (R187). -/
def ownPages (s : State) (l : List Nat) : State :=
  l.foldl (fun s p => { s with rmt := { s.rmt with own := tset 0 s.rmt.own p homeOwner } }) s

/-- PART_MAP PAGES. -/
def runMapPages (s : State) (t : Ticket) (p : Pkt) (_ : List ReadIn) : Res :=
  let pid := tagPid t.ptag
  let first := parm p 16 32
  let count := parm p 20 16
  let mode := modeOf (parm p 22 8)
  let t4c := parmBit p 23 0
  let conf := (part s pid).conf
  let asked := BitVec.ofNat 10 (parm p 24 10)
  let rights := if conf then asked &&& 0x3FC else asked
  let mappable := fun q =>
    let e := pot s q
    e.state == .free && !changing s q && (e.clean || (e.pid == pid && e.used))
  if !present0 s pid || !spanAll first count mappable then .fail .errState
  else if (t4c && s.rmt.own.length + count > 1024) || (mode == .fresh && freshUnused s pid < count) then
    .fail .errResource
  else
    let slots := if mode == .fresh then takeSlots (slotsTaken s) count 8 else []
    let new := fun (_ : Pot) (fs : Nat) =>
      { pid := pid, mode := mode, state := .live, conf := conf, t4c := t4c, rights := rights
        fslot := if mode == .fresh then fs else 0, used := true : Pot }
    let s1 := beginPages new (fun _ => mode == .fresh) (span first count) slots s
    .wait (if t4c then ownPages s1 (span first count) else s1) pid (.pages pid (span first count) 0)

/-- PART_MAP (0x12) PAGES. -/
def opMapPages : Op where
  opcode := 0x12
  named := [(16, 0, 32), (20, 0, 16), (22, 0, 8), (23, 0, 1), (24, 0, 10)]
  rings := opOnly
  pre s _ p :=
    let m := parm p 22 8
    if !spanOk (parm p 16 32) (parm p 20 16) || m == 0 || m > 3 || (parmBit p 23 0 && m != 1) then some .errParam
    else if anySys s (parm p 16 32) (parm p 20 16) || ((part s (tagPid p.ptag)).conf && m == 1) then some .errPerm
    else none
  run := runMapPages

/-- Every page of a span is LIVE under the PID and not being changed. -/
def allLive (s : State) (pid first count : Nat) : Bool :=
  spanAll first count fun q => (pot s q).state == .live && (pot s q).pid == pid && !changing s q

/-- PART_UNMAP. -/
def runUnmap (s : State) (t : Ticket) (p : Pkt) (_ : List ReadIn) : Res :=
  let pid := tagPid t.ptag
  let first := parm p 16 32
  let count := parm p 20 16
  if !present0 s pid || !allLive s pid first count then .fail .errState
  else
    let new := fun (e : Pot) (_ : Nat) => ({ pid := e.pid, used := e.used } : Pot)
    let s1 := beginPages new (fun _ => false) (span first count) [] s
    let s2 := { s1 with rmt := { s1.rmt with
      own := (span first count).foldl (fun o q => terase o q) s1.rmt.own } }
    .wait s2 pid (.pages pid (span first count) 0)

/-- PART_UNMAP (0x13). -/
def opUnmap : Op where
  opcode := 0x13
  named := [(16, 0, 32), (20, 0, 16)]
  rings := opOnly
  pre s _ p :=
    if !spanOk (parm p 16 32) (parm p 20 16) then some .errParam
    else if anySys s (parm p 16 32) (parm p 20 16) then some .errPerm else none
  run := runUnmap

/-- MEM_MODE. -/
def runMemMode (s : State) (t : Ticket) (p : Pkt) (_ : List ReadIn) : Res :=
  let pid := tagPid t.ptag
  let first := parm p 16 32
  let count := parm p 20 16
  let mode := modeOf (parm p 22 8)
  let need := fun e : Pot => mode == .fresh && e.mode != .fresh
  let n := ((span first count).filter fun q => need (pot s q)).length
  if !present0 s pid || !allLive s pid first count then .fail .errState
  else if n > freshUnused s pid then .fail .errResource
  else
    let new := fun (e : Pot) (fs : Nat) => { e with mode := mode, fslot := if mode == .fresh then fs else 0 }
    .wait (beginPages new need (span first count) (takeSlots (slotsTaken s) n 8) s) pid
      (.pages pid (span first count) count)

/-- MEM_MODE (0x20). -/
def opMemMode : Op where
  opcode := 0x20
  named := [(16, 0, 32), (20, 0, 16), (22, 0, 8)]
  rings := opOnly
  pre s _ p :=
    let m := parm p 22 8
    if !spanOk (parm p 16 32) (parm p 20 16) || m == 0 || m > 3 ||
      (m != 1 && spanAny (parm p 16 32) (parm p 20 16) fun q => (pot s q).t4c) then some .errParam
    else if anySys s (parm p 16 32) (parm p 20 16) || ((part s (tagPid p.ptag)).conf && m == 1) then some .errPerm
    else none
  run := runMemMode

/-- PART_MAP PAGES. -/
def execPartMapPages (c : Cmd) (s : State) : Result := .next (issue opMapPages s c)
/-- PART_UNMAP. -/
def execPartUnmap (c : Cmd) (s : State) : Result := .next (issue opUnmap s c)
/-- MEM_MODE. -/
def execMemMode (c : Cmd) (s : State) : Result := .next (issue opMemMode s c)

/-! ## Budgets (R154, R161) -/

/-- The client a REG_BUDGET names: the rinse channel, or the PID of PTAG. -/
def budgetClient (p : Pkt) : Nat := if parmBit p 17 0 then 32 else tagPid p.ptag

/-- The budgets of the other clients of an engine and this one fit. -/
def budgetFits (s : State) (e client n : Nat) : Bool :=
  ((mx s e).nextBudget.filter fun b => b.1 != client).foldl (fun a b => a + b.2) n ≤ 2352

/-- REG_BUDGET. -/
def runRegBudget (s : State) (_ : Ticket) (p : Pkt) (_ : List ReadIn) : Res :=
  let k := budgetClient p
  let n := parm p 18 16
  let es := allEngines.filter fun e => parmBit p 16 e
  if es.all fun e => budgetFits s e k n then
    .ok (es.foldl (fun s e =>
      let m := mx s e
      let lat := if k == 32 then m.nextLatency
        else if parmBit p 17 1 then m.nextLatency ||| oneBit 32 k else m.nextLatency &&& ~~~ (oneBit 32 k)
      setMx s e { m with nextBudget := tset 0 m.nextBudget k n, nextLatency := lat }) s)
  else .fail .errResource

/-- REG_BUDGET (0x24). -/
def opRegBudget : Op where
  opcode := 0x24
  named := [(16, 0, 8), (17, 0, 2), (18, 0, 16)]
  whole p := parmBit p 17 0
  form3 p := !(parmBit p 17 0 && parmBit p 17 1)
  rings := opOnly
  pre _ _ p := if parm p 18 16 > 2352 then some .errParam else none
  run := runRegBudget

/-- REG_BUDGET. -/
def execRegBudget (c : Cmd) (s : State) : Result := .next (issue opRegBudget s c)

/-! ## The rinse (R323) -/

/-- Tickets outstanding, the running one included. -/
def liveTickets (s : State) : List RinseTkt :=
  s.mem.tickets.filter fun k => k.state == .queued || k.state == .running

/-- Every page of a span is FREE and not being changed. -/
def allFree (s : State) (first count : Nat) : Bool :=
  (s.mem.pot.all fun e => !(decide (first ≤ e.1) && decide (e.1 < first + count)) || e.2.state == .free) &&
  s.mem.changes.all fun c => !(decide (first ≤ c.1) && decide (c.1 < first + count))

/-- RINSE: queue a ticket; the last 16 issued are kept. -/
def runRinse (s : State) (_ : Ticket) (p : Pkt) (_ : List ReadIn) : Res :=
  let first := parm p 16 32
  let count := parm p 20 32
  if s.range.memb == .quarantined || !allFree s first count then .fail .errState
  else if (liveTickets s).length ≥ 16 then .fail .busy
  else
    let k : RinseTkt := { id := s.mem.nextTkt, first := first, count := count }
    let l := s.mem.tickets ++ [k]
    .ok { s with mem := { s.mem with tickets := l.drop (l.length - 16), nextTkt := (k.id + 1) % 2 ^ 32 } }
      (resultOf [(8, k.id)])

/-- RINSE (0x22). -/
def opRinse : Op where
  opcode := 0x22
  named := [(16, 0, 32), (20, 0, 32)]
  whole _ := true
  rings := opOnly
  pre _ _ p :=
    if parm p 20 32 == 0 || parm p 16 32 + parm p 20 32 > allPages then some .errParam else none
  run := runRinse

/-- State codes of RINSE_STATUS. -/
def ticketCode : TicketState → Nat
  | .queued => 0 | .running => 1 | .done => 2 | .stopped => 3

/-- RINSE_STATUS. -/
def runRinseStatus (s : State) (_ : Ticket) (p : Pkt) (_ : List ReadIn) : Res :=
  match s.mem.tickets.find? fun k => k.id == parm p 16 32 with
  | none => .fail .errParam
  | some k => .ok s (resultOf [(8, ticketCode k.state), (12, k.turns), (16, k.count), (20, k.rinsed)])

/-- RINSE_STATUS (0x23). -/
def opRinseStatus : Op where
  opcode := 0x23
  fast := true
  named := [(16, 0, 32)]
  whole _ := true
  rings := opOnly
  pre s _ p := if s.mem.tickets.any fun k => k.id == parm p 16 32 then none else some .errParam
  run := runRinseStatus

/-- RINSE. -/
def execRinse (c : Cmd) (s : State) : Result := .next (issue opRinse s c)
/-- RINSE_STATUS. -/
def execRinseStatus (c : Cmd) (s : State) : Result := .next (issue opRinseStatus s c)

/-- Replace a ticket. -/
def setTicket (s : State) (k : RinseTkt) : State :=
  { s with mem := { s.mem with tickets := s.mem.tickets.map fun x => if x.id == k.id then k else x } }

/-- RINSE_TICKET_START (R323 step 1): the oldest queued ticket runs when none does, under a fresh key
pair. -/
def execRinseTicketStart (s : State) : Result :=
  if s.keys.entFailed || s.mem.tickets.any (fun k => k.state == .running) then .next s
  else match s.mem.tickets.find? fun k => k.state == .queued with
    | none => .next s
    | some k =>
      let a := draw s
      let b := draw a.1
      .next (setTicket { b.1 with mem := { b.1.mem with rinseKey := some (a.2, b.2) } } { k with state := .running })

/-- What the rinse writes to a sector: XTS of zeros under the rinse keys, its tweak the sector number and the ticket number
(R323 step 3). -/
def rinseSector (k : Key × Key) (ticket sector : Nat) : Sector :=
  sectorOf (xtsEnc k.1 k.2 (leBytes 16 (sector + ticket * 2 ^ 64)) (zeros 128))

/-- Every data sector of a page as the rinse writes it, with its place; no tag sector and no counter line (R323). -/
def rinseData (s : State) (ticket page : Nat) : List (Nat × Sector) :=
  let k := s.mem.rinseKey.getD (0, 0)
  (span (page * pageSectors) pageSectors).map fun n => (dataPlace s n, rinseSector k ticket n)

/-- A page is rinsed, and its entry set CLEAN under R130, last owner kept, USED 0 (R126, R323 steps 3 to 5). -/
def rinsePage (s : State) (ticket page : Nat) : State :=
  let e := pot s page
  let s1 := retireDarn (mcWriteAll s 32 (rinseData s ticket page)) page
  let s2 := { s1 with
    mem := { s1.mem with badGran := s1.mem.badGran.filter fun g => g / 256 != page }
    tel := { s1.tel with rinsePages := inc32 s1.tel.rinsePages } }
  install (setEntry s2 page { e with clean := true, used := false }) page

/-- qb_mc_nosr of an engine, one bit to a package: high while its rinse channel runs. The eight channels run together, from
the start of a ticket to its end (R152, R323, R325). -/
def mcNosr (s : State) (_e : Eng) : BitVec 4 := if s.mem.rinseKey.isSome then 0xF else 0

/-- RINSE_PAGE_DONE (R323 steps 2 to 6): the running ticket's present page turn ends, once no re-tag stalls its entry's
sector (R148); after the last the ticket is done. -/
def execRinsePageDone (s : State) : Result :=
  match s.mem.tickets.find? fun k => k.state == .running with
  | none => .next s
  | some k =>
    let page := k.first + k.turns
    if potBusy s page then .next s else
    let free := (pot s page).state == .free && !changing s page
    let s1 := if free then rinsePage s k.id page else s
    let k1 := { k with turns := k.turns + 1, rinsed := if free then k.rinsed + 1 else k.rinsed }
    if k1.turns < k.count then .next (setTicket s1 k1)
    else
      let s2 := setTicket { s1 with mem := { s1.mem with rinseKey := none } } { k1 with state := .done }
      .next (postRinseDone s2 k1 .ok)

end Sys2Proof.Machine
end

