-- ==== Sys2Proof/Machine/RemoteOps.lean ====
section
/-! DEFINITION. Shared operations of the remote request unit: addresses, scopes, streams, releases, failures
(06 R163 to R177). -/

namespace Sys2Proof.Machine

/-! ## Addresses and scopes (R164, R166, R175) -/

/-- A tile port; a DMA engine. -/
def isTile (m : Nat) : Bool := m ≤ 0x8F
/-- A DMA engine's master port. -/
def isDma (m : Nat) : Bool := 0x90 ≤ m && m ≤ 0xAF

/-- KIND and SCOPE of an OP byte (R166). -/
def kindOf (op : BitVec 8) : Nat := op.toNat % 16
/-- SCOPE. -/
def scopeOf (op : BitVec 8) : Nat := op.toNat / 16 % 4

/-- The class's accesses that the rack-flat space carries come from tiles; OWN, and everything a DMA engine
issues, names node and offset (R163). -/
def targetNode (s : State) (r : RReq) : Nat :=
  if isTile r.mport.toNat && r.cls != clsOwn then rackOf s.range.nodeId * 64 + bits r.flat.toNat 41 6 else r.node.toNat

/-- Device offset at the target. -/
def targetOff (r : RReq) : BitVec 41 :=
  if isTile r.mport.toNat && r.cls != clsOwn then r.flat.setWidth 41 else r.off

/-- A class that the master may issue (R163); a remote fence signal comes from either (log entry 36). -/
def classAllowed (r : RReq) : Bool :=
  let m := r.mport.toNat
  if isTile m then r.cls == clsLoad || r.cls == clsStore || r.cls == clsSeam || r.cls == clsAtomic ||
    (r.cls == clsOwn && r.op == 3#8)
  else isDma m && (r.cls == clsBulkWr || r.cls == clsBulkRd || r.cls == clsAtomic ||
    (r.cls == clsSeam && (kindOf r.op == 2 || kindOf r.op == 3)) || (r.cls == clsOwn && r.op == 3#8))

/-- The node lies in the scope set of this chip (R175): quad, rack, range. -/
def inScope (s : State) (scope node : Nat) : Bool :=
  if scope == 1 then sameQuad s node else if scope == 2 then sameRack s node
  else scope == 3 && (nodes s).contains node

/-- The request writes at its target. -/
def writes (r : RReq) : Bool :=
  r.cls == clsStore || r.cls == clsAtomic || r.cls == clsBulkWr || (r.cls == clsSeam && kindOf r.op != 1)

/-- Bytes that a request covers at its target. -/
def rreqLen (r : RReq) : Nat := if r.cls == clsBulkWr then r.data.length else r.size.toNat + 1

/-- Key of a page of another chip. -/
def farPage (node : Nat) (off : BitVec 41) : Nat := node * 1048576 + pageOf off.toNat

/-- The mask and data bytes of a STORE or SEAM (R58): every byte, where the master gives no mask. -/
def maskedBody (r : RReq) : Bytes :=
  if r.data.isEmpty then zeros 16
  else
    let m := if r.mask.isEmpty then r.data.map fun _ => true else r.mask
    leBytes 16 ((m.take 128).mapIdx fun i b => b2n b * 2 ^ i).sum ++ r.data

/-! ### Values that a request does not give (R58; DESIGN CHOICE, log entry 70) -/

/-- Largest number of bytes of a class's SIZE (R58). -/
def sizeLimit (c : BitVec 4) : Nat :=
  if c == clsLoad || c == clsStore || c == clsSeam then 128 else if c == clsAtomic then 16 else 256

/-- A class whose frames carry the request's data. -/
def givesData (r : RReq) : Bool :=
  r.cls == clsStore || r.cls == clsAtomic || (r.cls == clsSeam && kindOf r.op != 1 && !r.data.isEmpty)

/-- A request of number `k` with SIZE, data and mask as its class has them: a SIZE that the class does not allow, and bytes
and mask bits that SIZE covers and the request does not give, are free values. -/
def shapeReq (k : Nat) (r : RReq) : RReq :=
  let lim := sizeLimit r.cls
  let size : BitVec 8 := if r.size.toNat < lim then r.size else BitVec.ofNat 8 (Config.freeSize k % lim)
  let n := size.toNat + 1
  if r.cls == clsBulkWr then (if r.data.isEmpty then { r with data := fillBytes k 1 [] } else r)
  else if givesData r then { r with size := size, data := fillBytes k n r.data, mask := fillMask k n r.mask }
  else { r with size := size, data := [], mask := [] }

/-- Take a request as its class has it; a number is used where a value of it is free. -/
def takeShape (s : State) (r : RReq) : State × RReq :=
  let r1 := shapeReq s.rmt.frees r
  (if r1 == r then s else { s with rmt := { s.rmt with frees := s.rmt.frees + 1 } }, r1)

/-! ## Failures (R165, R171, R174, R201, R205) -/

/-- FAULT_ADDR of a request: the rack-flat address of a tile's, the device offset of another's (R205). -/
def reqAddr (r : RReq) : BitVec 48 :=
  if isTile r.mport.toNat && r.cls != clsOwn then r.flat.setWidth 48 else r.off.setWidth 48

/-- DENY at the source: no frame, and a fault of the context (R163, R165). -/
def sourceDeny (s : State) (r : RReq) : State :=
  loseHandle (emit s (.rmtDeny r.mport r.ctx)) r.ctx .peer (reqAddr r) (BitVec.ofNat 14 (targetNode s r))

/-- A peer entry goes SILENT, with the event: status 0 for a timeout or a removed node, 8 for a stale answer
(R174, R201, R238). -/
def silencePeer (s : State) (pid node st : Nat) : State :=
  let e := peer s pid node
  if e.valid && !e.silent then postBoth (setPeer s pid node { e with silent := true }) pid 3 0 node st else s

/-- A load or bulk frame has timed out (R174): its entry goes SILENT, and the event is posted at each timeout. -/
def targetSilent (s : State) (pid node : Nat) : State :=
  let e := peer s pid node
  postBoth (if e.valid then setPeer s pid node { e with silent := true } else s) pid 3 0 node 0

/-- A stale answer silences the entry that stamped the request, unless that has been rewritten (R201). -/
def staleAnswer (s : State) (pid node : Nat) (tag : BitVec 16) : State :=
  if (peer s pid node).ptag == tag then silencePeer s pid node 8 else s

/-- A bus error to the master and the loss of its context. -/
def failReq (s : State) (r : RReq) (node : Nat) (f : CtxFault) : State :=
  loseHandle (emit s (.rmtError r.mport r.ctx)) r.ctx f (reqAddr r) (BitVec.ofNat 14 node)

/-! ## Streams (R170) -/

/-- The open stream of a partition to a node. -/
def srcStream (s : State) (pid node : Nat) : Option SrcStream :=
  s.rmt.streams.find? fun t => t.pid == pid && t.node == node && !t.closed

/-- Replace an outbound stream. -/
def putStream (s : State) (t : SrcStream) : State :=
  { s with rmt := { s.rmt with streams := s.rmt.streams.map fun x => if sameStream x t then t else x } }

/-- The number of a SEAM, which it carries until it is answered. -/
def seamNum (r : RReq) : Nat := r.value.toNat

/-- Send one STORE or SEAM on a granted stream whose open segment takes writes. -/
def sendWrite (s : State) (t : SrcStream) (r : RReq) : State :=
  let g := segOf t.segs t.seg
  let d : Desc := { off := targetOff r, op := r.op, size := r.size, inc := t.inc, seg := t.seg, stream := t.id }
  if r.cls == clsStore then
    sendFrame (putStream s { t with segs := segPut t.segs t.seg { g with count := g.count + 1 }, lastUse := now s })
      clsStore t.node t.sptag t.dptag d (maskedBody r)
  else
    sendFrame (putStream s { t with segs := segPut t.segs t.seg { g with seam := some r }, seg := !t.seg, lastUse := now s })
      clsSeam t.node t.sptag t.dptag { d with id40 := BitVec.ofNat 40 g.count } (maskedBody r)

/-- An atomic leaves the atomic tracker, and an acquire that it was ends (R176, R177). -/
def dropAtomic (s : State) (id : BitVec 40) : State :=
  { s with rmt := { s.rmt with
    atomics := s.rmt.atomics.filter fun e => e.id != id
    acquires := s.rmt.acquires.filter fun a => !(a.tag == id && a.atomic) } }

/-- A release or scoped atomic ends without its seal: its context is lost, and an atomic leaves its tracker (R175, R190). -/
def failRelease (f : CtxFault) (node : Nat) (s : State) (k : Release) : State :=
  let s1 := { s with rmt := { s.rmt with
    releases := s.rmt.releases.filter fun x => x.num != k.num
    acquires := s.rmt.acquires.filter fun a => a.atomic || some a.tag != k.near } }
  let s2 := match k.atom with
    | some id => dropAtomic s1 id
    | none => s1
  loseHandle s2 k.req.ctx f (reqAddr k.req) (BitVec.ofNat 14 node)

/-- Releases that wait for a failed SEAM or bulk write do not land (R175). -/
def failWaiting (s : State) (p : Release → Bool) (f : CtxFault) (node : Nat) : State :=
  (s.rmt.releases.filter p).foldl (failRelease f node) s

/-- A write that waited for its stream meets a peer entry that stamps nothing: DENY at the source (R165, R201); a SEAM
fails the releases that noted it. -/
def denyWaiting (s : State) (r : RReq) (node : Nat) : State :=
  let s1 := sourceDeny s r
  if r.cls == clsSeam then failWaiting s1 (fun k => k.waits.contains (seamNum r)) .peer node else s1

/-- The issuing context of a request is not lost, and its generation is the current one. -/
def stillWanted (s : State) (r : RReq) : Bool :=
  r.gen == curGen s r.pid.val && (r.ctx == 0 || (ctxMatch s r.ctx && (ctx s (ctxIdx r.ctx)).state != .lost))

/-- Hand a STORE or SEAM to the stream of its partition and node; the first write opens one (R170), and one beyond 4096
waits until a stream closes. -/
def joinStream (s : State) (r : RReq) (node : Nat) : State :=
  let pid := r.pid.val
  match srcStream s pid node with
  | some t =>
    let s1 := putStream s { t with waiting := t.waiting ++ [r] }
    if t.asked then s1 else askNext s1
  | none =>
    let t : SrcStream := { pid := pid, node := node, waiting := [r], lastUse := now s }
    askNext { s with rmt := { s.rmt with streams := s.rmt.streams ++ [t] } }

/-- A stream closes while others still write to the target: what waited is asked for again (R170, R171). -/
def closeAndResume (s : State) (t : SrcStream) : State :=
  t.waiting.foldl (fun s r => if stillWanted s r then joinStream s r t.node else s) (closeStream s t)

/-- Send what waits on a stream, in order, until its open segment awaits an answer; where the other segment is answered
first, writes still wait for this one, whose turn it is (R170 speaks of both awaiting their answers alone: DESIGN CHOICE,
log entry 131). Each frame takes its tag from the peer
entry as it stands (R165, R201): none goes out from an entry that is not valid or is SILENT, and a stream opened under
another tag is closed and asked for again. -/
def pumpStream (s : State) (pid node : Nat) : Nat → State
  | 0 => s
  | f + 1 =>
    match srcStream s pid node with
    | none => s
    | some t =>
      let e := peer s pid node
      match t.waiting with
      | [] => s
      | r :: l =>
        let t1 := { t with waiting := l }
        if !e.valid || e.silent then pumpStream (denyWaiting (putStream s t1) r node) pid node f
        else if !t.granted || segWaits (segOf t.segs t.seg) then s
        else if e.ptag != t.dptag then closeAndResume s t
        else pumpStream (sendWrite (putStream s t1) t1 r) pid node f

/-- Send what waits on the stream of a partition to a node. -/
def pumpNow (s : State) (pid node : Nat) : State :=
  match srcStream s pid node with
  | some t => pumpStream s pid node (t.waiting.length + 1)
  | none => s

/-- A STORE or SEAM (R170). -/
def writeReq (s : State) (r : RReq) (node : Nat) : State := pumpNow (joinStream s r node) r.pid.val node

/-- A segment of a stream is free again; a closed stream with none outstanding leaves the tracker. -/
def freeSeg (s : State) (t : SrcStream) (seg : Bool) : State :=
  let t1 := { t with segs := segPut t.segs seg {} }
  if t1.closed && !segWaits t1.segs.1 && !segWaits t1.segs.2 then
    { s with rmt := { s.rmt with streams := s.rmt.streams.filter fun x => !sameStream x t } }
  else putStream s t1

/-- A SEAM fails or is not answered (R171): the context is lost and the stream closes. Of a context already lost nothing is
counted (R208). -/
def seamFailed (s : State) (t : SrcStream) (seg : Bool) (r : RReq) : State :=
  let lost := (segOf t.segs seg).lost
  let s0 := freeSeg s t seg
  let s1 := if lost then s0 else rmtCtr s0 fun c => { c with seamFail := inc32 c.seamFail }
  let s2 := if lost then s1 else loseHandle s1 r.ctx .seam (reqAddr r) (BitVec.ofNat 14 t.node)
  let s3 := failWaiting s2 (fun x => x.waits.contains (seamNum r)) .seam t.node
  match (if t.closed then none else srcStream s3 t.pid t.node) with
  | some t2 => closeAndResume s3 t2
  | none => s3

/-- A SEAM is acknowledged: its segment is free again; a plain seam or a release-wait is done (R171, R175). -/
def seamAcked (s : State) (t : SrcStream) (seg : Bool) (r : RReq) : State :=
  let s1 := freeSeg s t seg
  let s2 := if !(segOf t.segs seg).lost && (kindOf r.op == 0 || kindOf r.op == 3) then emit s1 (.rmtDone r.mport r.ctx)
    else s1
  pumpNow s2 t.pid t.node

/-! ## Releases and scoped atomics (R175, R177) -/

/-- SEAMs of a stream that have no answer: those sent, and those that wait. -/
def openSeams (t : SrcStream) : List RReq :=
  t.segs.1.seam.toList ++ t.segs.2.seam.toList ++ t.waiting.filter fun r => r.cls == clsSeam

/-- Numbers of the SEAMs and releases that have no answer. -/
def openNums (s : State) (pid : Nat) (scope : Nat) : List Nat :=
  (s.rmt.streams.filter fun t => t.pid == pid && inScope s scope t.node).flatMap fun t => (openSeams t).map seamNum

/-- Releases of a partition not yet sealed, and those sealed without an answer, by number. -/
def openReleases (s : State) (pid : Nat) : List Nat :=
  (s.rmt.releases.filter fun r => r.req.pid.val == pid).map (·.num) ++
  (s.rmt.streams.filter fun t => t.pid == pid).flatMap fun t =>
    ((openSeams t).filter fun r => kindOf r.op == 2 || kindOf r.op == 3).map seamNum

/-- STOREs of the stream's open segment that no SEAM covers yet, sent or waiting. -/
def uncovered (t : SrcStream) : Bool :=
  match t.waiting.reverse.find? fun r => r.cls == clsSeam || r.cls == clsStore with
  | some r => r.cls == clsStore
  | none => (segOf t.segs t.seg).count != 0 && !segWaits (segOf t.segs t.seg)

/-- A SEAM takes the next number. -/
def takeNum (s : State) (r : RReq) : State × RReq :=
  ({ s with rmt := { s.rmt with nextSeam := s.rmt.nextSeam + 1 } }, { r with value := BitVec.ofNat 64 s.rmt.nextSeam })

/-- Step 2 of R175: each noted segment closes with a SEAM flush of the context that releases. -/
def flushStreams (s : State) (r : RReq) (scope : Nat) : State :=
  (s.rmt.streams.filter fun t => t.pid == r.pid.val && inScope s scope t.node && !t.closed && uncovered t).foldl (fun s t =>
    let n := takeNum s { r with cls := clsSeam, op := 1, size := 0, data := [], mask := [] }
    writeReq n.1 n.2 t.node) s

/-- The frame of an atomic, or of its retry under the same tags (R58, R87, R180, R201). -/
def sendAtomic (s : State) (a : AtomEnt) (retry : Bool) : State :=
  let r := a.req
  sendFrame s clsAtomic a.node (mkTag r.pid.val r.gen) a.dptag
    { off := targetOff r, op := r.op, size := r.size, id40 := a.id } r.data (a.id.toNat + 1) retry

/-- An atomic is formed from its peer entry as it stands, or denied at the source (R165, R201). -/
def firstAtomic (s : State) (a : AtomEnt) : State :=
  let e := peer s a.req.pid.val a.node
  if !e.valid || e.silent then sourceDeny (dropAtomic s a.id) a.req
  else
    let a1 := { a with dptag := e.ptag }
    sendAtomic { s with rmt := { s.rmt with atomics := s.rmt.atomics.map fun x => if x.id == a.id then a1 else x } } a1 false

/-! ### Local accesses (R164) -/

/-- A rack-flat address of this chip itself, while it holds a node ID (R33, R164). -/
def ownAddress (s : State) (r : RReq) : Bool :=
  isTile r.mport.toNat && r.cls != clsOwn && (inRange s || s.range.memb == .leaving) && targetNode s r == s.range.nodeId

/-- The requests of a local access, one to each 256-byte block, and one alone of an atomic: device offset and request
(R123, R124, R180). -/
def localReqs (r : RReq) : List MxReq :=
  let off := (targetOff r).toNat
  let n := if r.cls == clsSeam && r.data.isEmpty then 0 else r.size.toNat + 1
  let mask := if r.mask.isEmpty then r.data.map fun _ => true else r.mask
  let wr := r.cls == clsStore || r.cls == clsSeam
  if r.cls == clsAtomic then
    [{ addr := targetOff r, pid := r.pid, gen := r.gen, mport := r.mport, op := 3, size := r.size
       amo := BitVec.ofNat 4 (kindOf r.op), data := r.data, ctx := r.ctx }]
  else (cutReqs r.pid.val r.gen (if wr then 2 else 0) off n).map fun x =>
    let m := x.2.size.toNat + 1
    { x.2 with
      mport := r.mport, ctx := r.ctx, data := if wr then slice r.data x.1 m else []
      mask := if wr then (mask.drop x.1).take m else [] }

/-- Present a local access to the memory engines of this chip; `none` where one is not ready. Its answers end the acquire
of a tag. A flush, which writes nothing, is done at once. -/
def presentLocal (s : State) (r : RReq) (near : Option (BitVec 40)) : Option State :=
  let w : Waiter := match near with | some k => .near k | none => .master
  let s1 := emit s (.rmtLocal r.mport r.ctx (targetOff r))
  if (localReqs r).isEmpty then some (emit s1 (.rmtDone r.mport r.ctx))
  else (localReqs r).foldlM (fun s q => present s { req := q, who := w }) s1

/-- Step 4 of R175: the release goes to its own stream, where its sealing completes it, or the scoped atomic is sent. One to
this chip itself is a local access (R164), which waits for its engine. -/
def sealRelease (s : State) (k : Release) : State :=
  let gone := fun (s : State) => { s with rmt := { s.rmt with releases := s.rmt.releases.filter fun x => x.num != k.num } }
  if ownAddress s k.req then ((presentLocal s k.req k.near).map gone).getD s
  else
    let s1 := gone s
    match k.atom with
    | some id =>
      match s1.rmt.atomics.find? fun a => a.id == id with
      | some a => firstAtomic s1 a
      | none => s1
    | none => writeReq s1 k.req (targetNode s k.req)

/-- Nothing that a release noted is outstanding (R175 step 3). -/
def releaseReady (s : State) (k : Release) : Bool :=
  k.bulks.all (fun t => s.rmt.bulk.all fun b => b.xfer != t) &&
  k.waits.all fun n =>
    (s.rmt.releases.all fun x => x.num != n) &&
    (s.rmt.streams.all fun t => (openSeams t).all fun r => seamNum r != n)

/-- Begin a release or a scoped atomic whose target lies in its scope (R175 steps 1 and 2, R177). -/
def beginRelease (s : State) (r : RReq) (atom : Option (BitVec 40)) (near : Option (BitVec 40) := none) : State :=
  let sc := scopeOf r.op
  let pid := r.pid.val
  let k0 := takeNum s r
  let rels := openReleases s pid
  let s1 := flushStreams k0.1 r sc
  let bulks := (s1.rmt.bulk.filter fun b => b.req.pid.val == pid && inScope s sc b.node).map (·.xfer)
  let k : Release := { num := seamNum k0.2, req := k0.2, waits := (openNums s1 pid sc ++ rels).eraseDups, bulks := bulks
                       atom := atom, near := near }
  let s2 := { s1 with rmt := { s1.rmt with releases := s1.rmt.releases ++ [k] } }
  if releaseReady s2 k then sealRelease s2 k else s2

end Sys2Proof.Machine
end

