-- ==== Sys2Proof/Machine/CmdRemote.lean ====
section
/-! DEFINITION. Remote requests of this chip, their answers and their timeouts; OWN_TRANSFER (06). -/

namespace Sys2Proof.Machine

/-! ## REMOTE_REQUEST (R163 to R177) -/

/-- A load, a bulk read or a remote fence signal enters the load tracker and is sent (R173, R189). -/
def sendTracked (s : State) (r : RReq) (node : Nat) (d : Desc) (body : Bytes) : State :=
  let tag := s.rmt.nextTag
  let s1 := { s with rmt := { s.rmt with
    nextTag := tag + 1, loads := s.rmt.loads ++ [{ req := r, node := node, tag := tag }] } }
  sendFrame s1 r.cls node (mkTag r.pid.val r.gen) (peer s r.pid.val node).ptag { d with id40 := tag } body (tag.toNat + 1)

/-- The request is an acquire, or a scoped atomic, whose own target lies in its scope (R176, R177). -/
def isAcquire (s : State) (r : RReq) : Bool :=
  ((r.cls == clsLoad && kindOf r.op == 1) || r.cls == clsAtomic) && inScope s (scopeOf r.op) (targetNode s r)

/-- The request is a release, or a scoped atomic, whose own target lies in its scope (R175, R177). -/
def isRelease (s : State) (r : RReq) : Bool :=
  ((r.cls == clsSeam && (kindOf r.op == 2 || kindOf r.op == 3)) || r.cls == clsAtomic) &&
  inScope s (scopeOf r.op) (targetNode s r)

/-- The master port is held by an acquire whose scope takes in the target (R176), under way or itself kept for later. -/
def acquireHolds (s : State) (r : RReq) (node : Nat) : Bool :=
  (s.rmt.acquires.any fun a => a.mport == r.mport && inScope s a.scope node) ||
  s.rmt.held.any fun q => q.mport == r.mport && isAcquire s q && inScope s (scopeOf q.op) node

/-- A release waits for the earlier writes of its partition into its scope that are themselves kept for later (DEDUCED from
R178, log entry 123). -/
def writeBefore (s : State) (r : RReq) : Bool :=
  isRelease s r && s.rmt.held.any fun q => q.pid == r.pid && writes q && inScope s (scopeOf r.op) (targetNode s q)

/-- An acquire, or a scoped atomic, holds its master's later accesses until its answer (R176, R177). -/
def addAcquire (s : State) (r : RReq) (tag : BitVec 40) (atomic : Bool) : State :=
  { s with rmt := { s.rmt with
    acquires := s.rmt.acquires ++ [{ mport := r.mport, scope := scopeOf r.op, tag := tag, atomic := atomic, ctx := r.ctx }] } }

/-- LOAD (R166, R173, R176). -/
def reqLoad (s : State) (r : RReq) (node : Nat) : State :=
  if s.rmt.loads.length ≥ 16384 then s
  else
    let s1 := if kindOf r.op == 1 && inScope s (scopeOf r.op) node then addAcquire s r s.rmt.nextTag false else s
    sendTracked s1 r node { off := targetOff r, op := r.op, size := r.size } []

/-- BULK_RD (R172, R173). -/
def reqBulkRd (s : State) (r : RReq) (node : Nat) : State :=
  if s.rmt.loads.length ≥ 16384 then s
  else sendTracked s r node { off := targetOff r, size := r.size } []

/-- The body of a remote fence signal: handle, VALUE, STATUS (R189). The request gives the handle in its offset
and the status in its size (log entry 36). -/
def fenceBody (r : RReq) : Bytes :=
  leBytes 4 r.off.toNat ++ leBytes 8 r.value.toNat ++ leBytes 1 r.size.toNat ++ zeros 3

/-- Remote fence signal (R189, R216). -/
def reqFence (s : State) (r : RReq) (node : Nat) : State :=
  if s.rmt.loads.length ≥ 16384 then s
  else sendTracked s r node { op := 3, size := 15 } (fenceBody r)

/-- Bytes that the longest BULK_WR frame carries beside its descriptor (R57). -/
def bulkFrame : Nat := 4032

/-- Frame `i` of a bulk write, in the write tracker under a tag of its own (R172). -/
def bulkPiece (r : RReq) (node : Nat) (xfer : BitVec 40) (s : State) (i : Nat) : State :=
  let tag := s.rmt.nextTag
  let s1 := { s with rmt := { s.rmt with
    nextTag := tag + 1, bulk := s.rmt.bulk ++ [{ req := r, node := node, tag := tag, xfer := xfer }] } }
  sendFrame s1 clsBulkWr node (mkTag r.pid.val r.gen) (peer s r.pid.val node).ptag
    { off := targetOff r + BitVec.ofNat 41 (bulkFrame * i), size := r.size, id40 := tag }
    ((r.data.drop (bulkFrame * i)).take bulkFrame) (tag.toNat + 1)

/-- BULK_WR (R57, R172): a transfer of the longest permitted frames. -/
def reqBulkWr (s : State) (r : RReq) (node : Nat) : State :=
  (List.range ((r.data.length + bulkFrame - 1) / bulkFrame)).foldl (bulkPiece r node s.rmt.nextTag) s

/-- STORE: in the stream, or a coherent write-back outside any; its ID40 then names the context (R85, R166, R170;
log entry 37). -/
def reqStore (s : State) (r : RReq) (node : Nat) : State :=
  if kindOf r.op == 8 then
    sendFrame s clsStore node (mkTag r.pid.val r.gen) (peer s r.pid.val node).ptag
      { off := targetOff r, op := r.op, size := r.size, id40 := r.ctx.setWidth 40 } (maskedBody r)
  else writeReq s r node

/-- SEAM: a release or release-wait in its scope runs R175; any other goes to its stream. -/
def reqSeam (s : State) (r : RReq) (node : Nat) : State :=
  let k := kindOf r.op
  if k == 2 || k == 3 then
    if inScope s (scopeOf r.op) node then beginRelease s r none
    else
      let n := takeNum s r
      sealRelease n.1 { num := seamNum n.2, req := n.2 }
  else
    let n := takeNum s r
    writeReq n.1 n.2 node

/-- ATOMIC (R87, R177): tracked by an ID; one whose scope takes in its target first runs steps 1 to 3 of R175. -/
def reqAtomic (s : State) (r : RReq) (node : Nat) : State :=
  if s.rmt.atomics.length ≥ 8192 then s
  else
    let id := s.rmt.nextId
    let a : AtomEnt := { req := r, node := node, id := id }
    let s1 := { s with rmt := { s.rmt with nextId := id + 1, atomics := s.rmt.atomics ++ [a] } }
    if inScope s (scopeOf r.op) node then beginRelease (addAcquire s1 r id true) r (some id)
    else firstAtomic s1 a

/-- A page of another chip that a request writes has been disowned (R188). -/
def writesDisowned (s : State) (r : RReq) (node : Nat) : Bool :=
  let a := (targetOff r).toNat
  writes r && spanAny (pageOf a) (pageOf (a + rreqLen r - 1) - pageOf a + 1) fun p =>
    s.rmt.disowned.contains (node * 1048576 + p)

/-- What the remote request unit refuses at the source (R163 to R165, R188). -/
def sourceRefuses (s : State) (r : RReq) (node : Nat) : Bool :=
  let e := peer s r.pid.val node
  !(inRange s || s.range.memb == .leaving) || r.pid.val == 0 || !e.valid || e.silent ||
  !(nodes s).contains node || writesDisowned s r node

/-- The access puts its command into COMMIT (R210); a remote fence signal does so at its sealing. -/
def commits (r : RReq) : Bool := r.cls == clsSeam || r.cls == clsAtomic

/-- The classes, once the request may be formed. -/
def formRequest (s : State) (r : RReq) (node : Nat) : State :=
  if r.cls == clsLoad then reqLoad s r node
  else if r.cls == clsStore then reqStore s r node
  else if r.cls == clsSeam then reqSeam s r node
  else if r.cls == clsAtomic then reqAtomic s r node
  else if r.cls == clsBulkWr then reqBulkWr s r node
  else if r.cls == clsBulkRd then reqBulkRd s r node
  else reqFence s r node

/-- A tracker has no room for the request now (R87, R173). -/
def noRoom (s : State) (r : RReq) : Bool :=
  if r.cls == clsLoad || r.cls == clsBulkRd || r.cls == clsOwn then s.rmt.loads.length ≥ 16384
  else r.cls == clsAtomic && s.rmt.atomics.length ≥ 8192

/-- A kill holds what would put a command into COMMIT (R210), and a release waits for what goes before it. -/
def keptBack (s : State) (r : RReq) : Bool :=
  ((commits r || r.cls == clsOwn) && commitHeld s r.ctx) || writeBefore s r

/-- The unit keeps the request for later: an acquire, a kill or an earlier write holds it, or its tracker is full. -/
def mustWait (s : State) (r : RReq) (node : Nat) : Bool := acquireHolds s r node || keptBack s r || noRoom s r

/-- Keep a request for later. -/
def holdReq (s : State) (r : RReq) : State := { s with rmt := { s.rmt with held := s.rmt.held ++ [r] } }

/-! ### Local accesses (R164) -/

/-- An acquire of `n` answers on this chip itself holds its master's later remote accesses (R176, R177): the tag that ends
it. -/
def addNear (s : State) (r : RReq) (n : Nat) : State × BitVec 40 :=
  let k := s.rmt.nextTag
  ({ s with rmt := { s.rmt with nextTag := k + 1, acquires := s.rmt.acquires ++
      [{ mport := r.mport, scope := scopeOf r.op, tag := k, atomic := false, ctx := r.ctx, left := n }] } }, k)

/-- A local access: no frame is formed (R164). A release and a scoped atomic run R175 first, and an acquire holds its master
(R176, R177). -/
def localReq (s : State) (r : RReq) : State :=
  let k := kindOf r.op
  if r.cls == clsSeam && (k == 2 || k == 3) then beginRelease s r none
  else if r.cls == clsAtomic && scopeOf r.op != 0 then
    let x := addNear s r 1
    beginRelease x.1 r none (some x.2)
  else if r.cls == clsLoad && k == 1 then
    let x := addNear s r (localReqs r).length
    (presentLocal x.1 r (some x.2)).getD (holdReq s r)
  else (presentLocal s r none).getD (holdReq s r)

/-! ### The request -/

/-- A request of the current generation (R163 to R177, R210). -/
def issueReq (s : State) (r : RReq) : State :=
  let node := targetNode s r
  if r.pid.val != 0 && r.gen != curGen s r.pid.val then s
  else if ownAddress s r then
    if keptBack s r then holdReq s r else localReq (if commits r then enterCommit s r.ctx else startCmd s r.ctx) r
  else if sourceRefuses s r node then sourceDeny (startCmd s r.ctx) r
  else if mustWait s r node then holdReq s r
  else formRequest (if commits r then enterCommit s r.ctx else startCmd s r.ctx) r node

/-- Requests that were held are issued again, in their order; those that must still wait are kept (R164, R170, R176,
R210). -/
def retryHeld (s : State) : State := s.rmt.held.foldl issueReq { s with rmt := { s.rmt with held := [] } }

/-- Streams that wait go on: what waits under a peer entry that stamps nothing is denied (R165, R201), and a stream not yet
asked for is asked for (R170). -/
def settleStreams (s : State) : State :=
  askNext ((s.rmt.streams.filter fun t => !t.closed && !t.waiting.isEmpty && !stamps s t).foldl
    (fun s t => pumpNow s t.pid t.node) s)

/-- REMOTE_REQUEST (R163 to R177): a request of a former generation goes nowhere (R41), a class that its master may not
issue is denied (R163). -/
def execRemoteRequest (r : RReq) (s : State) : Result :=
  if r.pid.val != 0 && r.gen != curGen s r.pid.val then .next s
  else if !classAllowed r then .next (sourceDeny (startCmd s r.ctx) r)
  else
    let x := takeShape s r
    .next (issueReq x.1 x.2)

/-- RELEASE_SEAL (R175): every acknowledgement and completion that the release noted is in. -/
def execReleaseSeal (n : Nat) (s : State) : Result :=
  match s.rmt.releases.find? fun k => k.num == n with
  | some k => if releaseReady s k then .next (sealRelease s k) else .next s
  | none => .next s

/-! ## Answers (R171 to R174) -/

/-- An acquire ends with its answer (R176). -/
def dropAcquire (s : State) (tag : BitVec 40) (atomic : Bool) : State :=
  { s with rmt := { s.rmt with acquires := s.rmt.acquires.filter fun a => !(a.tag == tag && a.atomic == atomic) } }

/-- A load, bulk read or fence signal leaves the load tracker. -/
def dropLoad (s : State) (tag : BitVec 40) : State :=
  dropAcquire { s with rmt := { s.rmt with loads := s.rmt.loads.filter fun e => e.tag != tag } } tag false

/-- A bulk-write frame leaves the write tracker. -/
def dropBulk (s : State) (tag : BitVec 40) : State :=
  { s with rmt := { s.rmt with bulk := s.rmt.bulk.filter fun e => e.tag != tag } }
/-- A bulk transfer leaves the write tracker. -/
def dropXfer (s : State) (xfer : BitVec 40) : State :=
  { s with rmt := { s.rmt with bulk := s.rmt.bulk.filter fun e => e.xfer != xfer } }

/-- What an answer gives a master (R173): data, or a bus error that loses the context. -/
def deliver (s : State) (r : RReq) (node : Nat) (st : Nat) (poison : Bool) (b : Bytes) : State :=
  if st != 0 then failReq s r node .remote
  else if poison then failReq s r node .integrity
  else emit s (.rmtData r.mport r.ctx b)

/-- A write whose stream the target refuses fails, and the releases that noted it (log entry 38). -/
def refuseWaiting (node : Nat) (s : State) (r : RReq) : State :=
  let s1 := loseHandle s r.ctx .remote (reqAddr r) (BitVec.ofNat 14 node)
  if r.cls == clsSeam then failWaiting s1 (fun k => k.waits.contains (seamNum r)) .remote node else s1

/-- An error answer to a stream open: what waits on the stream fails (log entry 38). -/
def grantRefused (s : State) (t : SrcStream) : State :=
  let s1 := { s with rmt := { s.rmt with streams := s.rmt.streams.filter fun x => !sameStream x t } }
  askNext (t.waiting.foldl (refuseWaiting t.node) s1)

/-- A stream grant (R83, R170). -/
def takeGrant (s : State) (pid node : Nat) (d : Desc) : State :=
  match srcStream s pid node with
  | none => s
  | some t =>
    if t.granted then s
    else if d.status == 0 then
      pumpNow (putStream s { t with granted := true, id := d.stream, inc := d.inc, retryAt := none, lastUse := now s }) pid node
    else if d.status == 1 then putStream s { t with retryAt := some (now s + 10) }
    else grantRefused s t

/-- The answer of a SEAM (R171). -/
def takeSeamAnswer (s : State) (pid node : Nat) (d : Desc) (ok : Bool) : State :=
  match seamStream s pid node d with
  | none => s
  | some t =>
    match (segOf t.segs d.seg).seam with
    | none => s
    | some r => if ok then seamAcked s t d.seg r else seamFailed s t d.seg r

/-- A bulk transfer fails: its frames leave the tracker, and releases that noted it do not land (R172, R175). -/
def failXfer (s : State) (e : BulkEnt) (f : CtxFault) : State :=
  failWaiting (dropXfer s e.xfer) (fun k => k.bulks.contains e.xfer) f e.node

/-- A bulk-write completion (R172): the transfer is complete with the last of its frames. -/
def takeBulkDone (s : State) (e : BulkEnt) (node st : Nat) (poison : Bool) : State :=
  let fail := fun (f : CtxFault) => if e.lost then failXfer s e f else failReq (failXfer s e f) e.req node f
  let s1 := dropBulk s e.tag
  if st != 0 then fail .remote
  else if poison then fail .integrity
  else if e.lost || s1.rmt.bulk.any fun x => x.xfer == e.xfer then s1
  else emit s1 (.rmtDone e.req.mport e.req.ctx)

/-- An entry of the load tracker that an answer of a class names. -/
def loadEnt (s : State) (tag : BitVec 40) (node : Nat) (cls : BitVec 4) : Option LoadEnt :=
  s.rmt.loads.find? fun e => e.tag == tag && e.node == node && e.req.cls == cls

/-- A RESP for a request of this chip (R58, R171 to R173, R201). One whose entry has gone is discarded. -/
def takeResp (s0 : State) (i : Inner) : State :=
  let d := descOf i.payload
  let body := i.payload.drop 16
  let node := i.srcNode.toNat
  let pid := tagPid i.dstPtag
  let st := d.status.toNat
  let s := if st == 8 then staleAnswer s0 pid node i.srcPtag else s0
  if d.op == kLoad then
    match loadEnt s d.id40 node clsLoad with
    | some e => deliver (dropLoad s e.tag) e.req node st i.poison body
    | none => s
  else if d.op == kBulkRdFail then
    match loadEnt s d.id40 node clsBulkRd with
    | some e => failReq (dropLoad s e.tag) e.req node .remote
    | none => s
  else if d.op == kFenceAck then
    match loadEnt s d.id40 node clsOwn with
    | some e => if st == 0 then emit (dropLoad s e.tag) (.rmtDone e.req.mport e.req.ctx)
                else failReq (dropLoad s e.tag) e.req node .remote
    | none => s
  else if d.op == kAtomic then
    match s.rmt.atomics.find? fun e => e.id == d.id40 && e.node == node with
    | some e => deliver (dropAtomic s e.id) e.req node st i.poison body
    | none => s
  else if d.op == kBulkDone then
    match s.rmt.bulk.find? fun e => e.tag == d.id40 && e.node == node with
    | some e => takeBulkDone s e node st i.poison
    | none => s
  else if d.op == kGrant then takeGrant s pid node d
  else if d.op == kSeamAck then takeSeamAnswer s pid node d true
  else if d.op == kSeamFail then takeSeamAnswer s pid node d false
  else if d.op == kStoreFault then loseHandle s (d.id40.setWidth 32) .store (d.off.setWidth 48) i.srcNode
  else s

/-- BULK_DATA for a BULK_RD of this chip, in one frame or in the pieces of scree mode (R89, R172). -/
def takeBulkData (s : State) (i : Inner) : State :=
  let d := descOf i.payload
  match loadEnt s d.id40 i.srcNode.toNat clsBulkRd with
  | none => s
  | some e =>
    if i.poison then failReq (dropLoad s e.tag) e.req e.node .integrity
    else
      let got := e.got ++ i.payload.drop 16
      if got.length > e.req.size.toNat then emit (dropLoad s e.tag) (.rmtData e.req.mport e.req.ctx got)
      else { s with rmt := { s.rmt with loads := s.rmt.loads.map fun x => if x.tag == e.tag then { x with got := got } else x } }

/-! ## Timeouts (R83, R87, R170 to R174) -/

/-- An instant that a tracker keeps lies at least `us` back. -/
def past (s : State) (t : Option Nat) (us : Nat) : Bool :=
  match t with
  | some x => x + us ≤ now s
  | none => false

/-- LOAD_TIMEOUT (R173, R174). R207 gives BULK for a bulk frame unanswered and REMOTE for a load timeout; a BULK_RD, which
the load tracker holds, is recorded as REMOTE (DESIGN CHOICE, log entry 88). -/
def execLoadTimeout (tag : BitVec 40) (s : State) : Result :=
  match s.rmt.loads.find? fun e => e.tag == tag with
  | some e =>
    if past s e.sealed 1000 then
      let s1 := rmtCtr (dropLoad s tag) fun c => { c with loadTmo := inc32 c.loadTmo }
      .next (retryHeld (targetSilent (failReq s1 e.req e.node .remote) e.req.pid.val e.node))
    else .next s
  | none => .next s

/-- BULK_WRITE_TIMEOUT (R172, R174). -/
def execBulkWriteTimeout (tag : BitVec 40) (s : State) : Result :=
  match s.rmt.bulk.find? fun e => e.tag == tag with
  | some e =>
    if !past s e.sealed 1000 then .next s
    else if e.lost then .next (retryHeld (failXfer s e .bulk))
    else
      let s1 := rmtCtr (failXfer s e .bulk) fun c => { c with loadTmo := inc32 c.loadTmo }
      .next (retryHeld (targetSilent (failReq s1 e.req e.node .bulk) e.req.pid.val e.node))
  | none => .next s

/-- The stream, open or closed, whose segment's SEAM has waited 2 ms (R171). -/
def overdue (s : State) (pid node : Nat) (seg : Bool) : Option (SrcStream × RReq) :=
  s.rmt.streams.findSome? fun t =>
    if t.pid == pid && t.node == node && past s (segOf t.segs seg).seamAt 2000 then
      (segOf t.segs seg).seam.map fun r => (t, r) else none

/-- SEAM_TIMEOUT (R171). -/
def execSeamTimeout (pid : Pid) (node : BitVec 14) (seg : Bool) (s : State) : Result :=
  match overdue s pid.val node.toNat seg with
  | some (t, r) => .next (retryHeld (seamFailed s t seg r))
  | none => .next s

/-- ATOMIC_RETRY_TIMER (R87): the one retry. -/
def execAtomicRetryTimer (id : BitVec 40) (s : State) : Result :=
  match s.rmt.atomics.find? fun a => a.id == id with
  | some a =>
    if past s a.sealed 45 && !a.retried then
      let s1 := { s with rmt := { s.rmt with atomics := s.rmt.atomics.map fun x =>
        if x.id == id then { x with retried := true } else x } }
      .next (sendAtomic s1 a true)
    else .next s
  | none => .next s

/-- ATOMIC_UNKNOWN_TIMER (R87). -/
def execAtomicUnknownTimer (id : BitVec 40) (s : State) : Result :=
  match s.rmt.atomics.find? fun a => a.id == id with
  | some a =>
    if past s a.sealed 130 then
      .next (retryHeld (loseHandle (emit (dropAtomic s id) (.rmtUnknown a.req.mport a.req.ctx)) a.req.ctx .atomic
        (reqAddr a.req) (BitVec.ofNat 14 a.node)))
    else .next s
  | none => .next s

/-- STREAM_IDLE_CLOSE_SOURCE (R170). -/
def execStreamIdleCloseSource (pid : Pid) (node : BitVec 14) (s : State) : Result :=
  match srcStream s pid.val node.toNat with
  | some t =>
    if t.granted && t.waiting.isEmpty && t.lastUse + 5000 ≤ now s then .next (closeStream s t) else .next s
  | none => .next s

/-- STREAM_GRANT_RETRY (R83). -/
def execStreamGrantRetry (pid : Pid) (node : BitVec 14) (s : State) : Result :=
  match srcStream s pid.val node.toNat with
  | some t =>
    if !past s t.retryAt 0 then .next s
    else if stamps s t then .next (askStream s t) else .next (pumpNow s pid.val node.toNat)
  | none => .next s

/-! ## OWN_TRANSFER (R188, R189) -/

/-- An ownership notice to a node about a page of this chip; a SILENT entry stamps none (R165). -/
def sendNotice (s : State) (pid node page new : Nat) (gain : Bool) : State :=
  let e := peer s pid node
  if node == homeOwner - 1 || !e.valid || e.silent then s
  else sendFrame s clsOwn node (curTag s pid) e.ptag { off := BitVec.ofNat 41 (page * 2097152), op := 1, size := 15 }
    (leBytes 2 new ++ leBytes 1 (b2n gain) ++ zeros 13)

/-- Checks 6 and 7 of OWN_TRANSFER: the new owner has a peer entry, and the page is not LIVE under another PID. -/
def ownPre (s : State) (_ : Nat) (p : Pkt) : Option Status :=
  let page := parm p 16 32
  let node := parm p 20 14
  let pid := tagPid p.ptag
  if page ≥ allPages || (node != s.range.nodeId && !(peer s pid node).valid) then some .errParam
  else if (pot s page).state == .live && (pot s page).pid != pid then some .errPerm
  else none

/-- OWN_TRANSFER (R188). A transfer to the present owner completes with OK and sends no notice: the rule names an old and a
new owner, and does not say what happens where they are one (DESIGN CHOICE, log entry 120). -/
def runOwnTransfer (s : State) (t : Ticket) (p : Pkt) (_ : List ReadIn) : Res :=
  let page := parm p 16 32
  let node := parm p 20 14
  let pid := tagPid t.ptag
  let e := pot s page
  if !(e.state == .live && e.t4c) then .fail .errState
  else
    let old := tget 0 s.rmt.own page - 1
    let new := if node == s.range.nodeId then homeOwner - 1 else node
    let s1 := { s with rmt := { s.rmt with own := tset 0 s.rmt.own page (new + 1) } }
    if old == new then .ok s1 else .ok (sendNotice (sendNotice s1 pid old page node false) pid new page node true)

/-- OWN_TRANSFER (0x25). -/
def opOwnTransfer : Op where
  opcode := 0x25
  named := [(16, 0, 32), (20, 0, 14)]
  rings := opTenant
  pre := ownPre
  run := runOwnTransfer

/-- OWN_TRANSFER. -/
def execOwnTransfer (c : Cmd) (s : State) : Result := .next (issue opOwnTransfer s c)

end Sys2Proof.Machine
end

