-- ==== Sys2Proof/Machine/CmdRidge.lean ====
section
/-! DEFINITION. The LINK_* commands and the timed events of a ridge engine (03 R62 to R70, R82, R89). -/

namespace Sys2Proof.Machine

/-! ## Ports -/

/-- The shares of the PIDs and of transit on a port (R82). -/
def shareSum (l : Link) : Nat := l.transit + (l.shares.map (·.2)).sum

/-- A port leaves OPEN by a fault (R62); a REFORM that waited for its old key may end (R364). -/
def portDown (s : State) (p : Nat) : State := endReform (portLost s p)

/-- SA_LINK_TAG (R75). -/
def linkAlarm (s : State) (p : Nat) : State :=
  let s1 := portDown (setLink s p { link s p with tagAlarm := true }) p
  raiseAlarm s1 .linkTag 0 .notice p 0x20 p

/-- An ADMIT port ends: the admission key goes (R62). -/
def admitOff (s : State) (p : Nat) : State :=
  match relayOf s p with
  | some k => dropRelay s k
  | none => clearSlot (portTo s p .off) 6

/-! ## LINK_SESSION (0x30) -/

/-- PORT is 0 to 35. -/
def portNamed (p : Pkt) : Bool := parm p 16 8 ≤ 35

/-- LINK_SESSION OPEN (R62, R63). -/
def runLinkOpen (s : State) (_ : Ticket) (p : Pkt) (_ : List ReadIn) : Res :=
  let n := parm p 16 8
  let l := link s n
  if l.state != .off || !inRange s then .fail .errState
  else if parm p 22 8 + (l.shares.map (·.2)).sum > 32 then .fail .errResource
  else match rkBad s s.range.epoch.toNat with
  | some t => .failWith .errIntegrity 0 t
  | none =>
    let l1 := { l with
      state := .probing, peerNode := parm p 18 14, peerPort := parm p 20 8, cableDly := parm p 21 8
      transit := parm p 22 8, ctr := {}, lastSeq := 0, since := now s, lastRx := now s, lastTx := now s
      grant := grantOf s n, txSeq := match l.kept with
        | some (e, q) => if e == s.range.epoch then q else 0
        | none => 0 }
    let s1 := setLink { s with ridge := { s.ridge with txSample := tset 0 s.ridge.txSample n 0 } } n l1
    let s2 := setLink s1 n { l1 with
      txCur := some (txKey s1 n s.range.epoch 0), rxCur := some (rxKey s1 n s.range.epoch 0) }
    .wait (sendCtrl s2 n 1 false) 0 (.linkOpen n)

/-- LINK_SESSION OPEN. -/
def opLinkOpen : Op where
  opcode := 0x30
  named := [(16, 0, 8), (18, 0, 14), (20, 0, 8), (21, 0, 8), (22, 0, 8)]
  whole _ := true
  rings := opOnly
  pre _ _ p :=
    if portNamed p && parm p 20 8 ≤ 35 && parm p 21 8 ≤ 15 && parm p 22 8 ≤ 32 then none else some .errParam
  run := runLinkOpen

/-- LINK_SESSION CLOSE (R62, R63). -/
def runLinkClose (s : State) (_ : Ticket) (p : Pkt) (_ : List ReadIn) : Res :=
  let n := parm p 16 8
  let l := link s n
  match l.state with
  | .opened => .wait (setLink s n { l with closing := true, since := if l.closing then l.since else now s }) 0
      (.linkClose n)
  | .down => .ok (portTo s n .off) (resultOf [(8, 0)])
  | .admitting => .ok (admitOff s n) (resultOf [(8, 0)])
  | _ => .fail .errState

/-- LINK_SESSION CLOSE. -/
def opLinkClose : Op where
  opcode := 0x30
  form := 1
  named := [(16, 0, 8)]
  whole _ := true
  rings := opOnly
  pre _ _ p := if portNamed p then none else some .errParam
  run := runLinkClose

/-- LINK_SESSION SHARE (R63, R82). -/
def runLinkShare (s : State) (t : Ticket) (p : Pkt) (_ : List ReadIn) : Res :=
  let n := parm p 16 8
  let l := link s n
  let l1 := { l with shares := tset 0 l.shares (tagPid t.ptag) (parm p 18 8) }
  if shareSum l1 > 32 then .fail .errResource else .ok (setLink s n l1) (portResult s n)

/-- LINK_SESSION SHARE. -/
def opLinkShare : Op where
  opcode := 0x30
  form := 2
  named := [(16, 0, 8), (18, 0, 8)]
  rings := opOnly
  pre _ _ p := if portNamed p && parm p 18 8 ≤ 32 then none else some .errParam
  run := runLinkShare

/-! ### The admission exchange (R64, R263; its layout and its roles DESIGN CHOICE, log entry 34) -/

/-- The shares of an end: P-384 public key, ML-KEM encapsulation key of a joiner or ciphertext of a relay. -/
def admitShares (b : Bytes) : Bytes := slice b 0 1665

/-- The other end's shares are signed by the alias keys of a chain that verifies, and hold a valid point (R64). -/
def admitSigned (b : Bytes) : Bool :=
  let chains := b.drop (1665 + 4723)
  Config.chainOk chains && aliasVerify chains (asc "QBADMIT") (admitShares b) (slice b 1665 4723) &&
  Config.ecValid (slice b 0 97)

/-- The admission key from the transcript and the two shared secrets (R263). -/
def admitKey (joiner relay zec zkem : Bytes) : Key :=
  keyOf (hkdf (sha (joiner ++ relay)) (slice zec 0 48 ++ slice zkem 0 32) (asc "admit") 32)

/-- This end's message on a port: its shares, both alias signatures over them, its certificate chains (R64). -/
def sendShares (s : State) (n : Nat) (shares : Bytes) : State :=
  emit s (.admission n (shares ++ aliasSign s (asc "QBADMIT") shares ++ chainOf s 0 ++ chainOf s 1))

/-- The exchange on a port as a relaying member or as a joiner: the state after its draws, with this end's signed shares
sent, and the key where both halves verify. The relay encapsulates to the joiner's key. A chip without an identity has
nothing to sign with, and no key counts. -/
def admitExchange (s0 : State) (n : Nat) (relay : Bool) : State × Option Key :=
  let s := idKeys s0
  let peer := Config.admitPeer s.keys.draws
  let theirs := admitShares peer
  let kem := slice peer 97 1568
  let good := admitSigned peer && s.fuse.rootKind == .valid
  let e := drawEc s
  let zec := Config.ecdh e.2 (slice peer 0 97)
  let say := fun (s : State) (b : Bytes) => if s.fuse.rootKind == .valid then sendShares s n b else s
  if relay then
    let r := draw e.1
    let c := Config.kemEncap kem r.2
    let ours := Config.ecPub e.2 ++ c.1
    (say r.1 ours, if good then some (admitKey theirs ours zec c.2) else none)
  else
    let k := drawKem e.1
    let ours := Config.ecPub e.2 ++ Config.kemPub k.2
    (say k.1 ours, if good then (Config.kemDecap k.2 kem).map fun z => admitKey ours theirs zec z else none)

/-- An ADMIT session starts under its key (R62, R64): key index 0 and epoch 0 (log entry 34). -/
def startAdmit (s : State) (n i : Nat) (relay : Bool) (k : Key) : State :=
  let s1 := writeSlot s i k (policy .agreed .none 0 0 0)
  let s2 := if relay then
      { s1 with range := { s1.range with relays := s1.range.relays ++ [{ port := n, slot := i }] } }
    else s1
  let sk : SKey := { epoch := 0, idx := 0, key := k }
  setLink s2 n { link s n with
    state := .admitting, txCur := some sk, rxCur := some sk, txSeq := 0, since := now s, lastRx := now s
    lastTx := now s }

/-- LINK_SESSION ADMIT (R62, R64, R263, R358), in any membership state: a member relays, any other chip joins. Where
a half of the exchange does not verify, no key counts: AUTH_FAIL, and the port stays OFF (log entry 34). -/
def runLinkAdmit (s : State) (_ : Ticket) (p : Pkt) (_ : List ReadIn) : Res :=
  let n := parm p 16 8
  let l := link s n
  if l.state != .off || s.keys.entFailed then .fail .errState
  else
    let relay := inRange s
    let free := if relay then (freeDerived s).head? else if polClass (slot s 6).policy == 0 then some 6 else none
    match free with
    | none => .fail .errResource
    | some i =>
      if relay && s.range.relays.length ≥ 4 then .fail .errResource
      else
        let x := admitExchange s n relay
        match x.2 with
        | some k => .ok (startAdmit x.1 n i relay k) (resultOf [(8, 4)])
        | none => .failWith .authFail (resultOf [(8, 0)]) x.1

/-- LINK_SESSION ADMIT. -/
def opLinkAdmit : Op where
  opcode := 0x30
  form := 3
  named := [(16, 0, 8)]
  whole _ := true
  rings := opOnly
  pre _ _ p := if portNamed p then none else some .errParam
  run := runLinkAdmit

/-- LINK_SESSION OPEN. -/
def execLinkSessionOpen (c : Cmd) (s : State) : Result := .next (issue opLinkOpen s c)
/-- LINK_SESSION CLOSE. -/
def execLinkSessionClose (c : Cmd) (s : State) : Result := .next (issue opLinkClose s c)
/-- LINK_SESSION SHARE. -/
def execLinkSessionShare (c : Cmd) (s : State) : Result := .next (issue opLinkShare s c)
/-- LINK_SESSION ADMIT. -/
def execLinkSessionAdmit (c : Cmd) (s : State) : Result := .next (issue opLinkAdmit s c)

/-! ## LINK_REKEY (0x31), LINK_SCREE (0x32) -/

/-- LINK_REKEY (R70). -/
def runLinkRekey (s : State) (_ : Ticket) (p : Pkt) (_ : List ReadIn) : Res :=
  let n := parm p 16 8
  let l := link s n
  let soon := match l.lastFlip with
    | some t => decide (now s < t + 10000)
    | none => false
  if l.state != .opened then .fail .errState
  else if l.txNext.isNone || soon then .fail .busy
  else .ok (setLink s n { l with flipDue := true })

/-- LINK_REKEY. -/
def opLinkRekey : Op where
  opcode := 0x31
  named := [(16, 0, 8)]
  whole _ := true
  rings := opOnly
  pre _ _ p := if portNamed p then none else some .errParam
  run := runLinkRekey

/-- LINK_SCREE (R89). -/
def runLinkScree (s : State) (_ : Ticket) (p : Pkt) (_ : List ReadIn) : Res :=
  let n := parm p 16 8
  .ok (setLink s n { link s n with screeFM1 := parm p 17 8 - 1, screeCad := parm p 18 8 })

/-- LINK_SCREE. -/
def opLinkScree : Op where
  opcode := 0x32
  named := [(16, 0, 8), (17, 0, 8), (18, 0, 8)]
  whole _ := true
  rings := opOnly
  pre _ _ p :=
    if portNamed p && 1 ≤ parm p 17 8 && parm p 17 8 ≤ 16 && parm p 18 8 ≤ 32 then none else some .errParam
  run := runLinkScree

/-- LINK_REKEY. -/
def execLinkRekey (c : Cmd) (s : State) : Result := .next (issue opLinkRekey s c)
/-- LINK_SCREE. -/
def execLinkScree (c : Cmd) (s : State) : Result := .next (issue opLinkScree s c)

/-! ## Frame starts (R82, R89, R411) -/

/-- FRAME_SEAL (R82): a frame start outside scree mode, from QB_RDY on (R15). -/
def execFrameSeal (p : Port) (lclk : Nat) (offer : List Nat) (s : State) : Result :=
  let l := link s p.val
  if !s.boot.rdy || l.screeCad != 0 || l.txCur.isNone then .next s
  else
    let s1 := dropHanded (setLink s p.val (fillBuckets l lclk)) p.val
    .next ((frameStart s1 p.val offer).getD s1)

/-- LCLK between scree slots: ⌈64 · F / C⌉ (R89). -/
def screeGap (l : Link) : Nat := (64 * (l.screeFM1 + 1) + l.screeCad - 1) / l.screeCad

/-- A scree cell (R89). -/
def screeCell (s : State) (p : Nat) : Inner :=
  { cls := clsScree, srcNode := BitVec.ofNat 14 s.range.nodeId, dstNode := BitVec.ofNat 14 (link s p).peerNode }

/-- SCREE_SLOT (R89): every slot carries a frame, a cell where nothing is eligible. A port in ADMIT carries CTRL and RANGE
frames alone (R64), so a slot of it with nothing queued sends no cell: R89 makes no exception, and the model chooses
(DESIGN CHOICE, log entry 124). -/
def execScreeSlot (p : Port) (offer : List Nat) (s : State) : Result :=
  let l := link s p.val
  if !s.boot.rdy || l.screeCad == 0 || l.txCur.isNone then .next s
  else
    let s1 := dropHanded (setLink s p.val (fillBuckets l (screeGap l))) p.val
    match frameStart s1 p.val offer with
    | some s2 => .next s2
    | none => .next (if l.state == .admitting then s1 else sealOut s1 p.val (screeCell s p.val) (l.screeFM1 + 1))

/-- A transit frame leaves the router's own queue. -/
def fromRouter (s : State) (i : Nat) : State :=
  { s with ridge := { s.ridge with router := s.ridge.router.eraseIdx i } }

/-- TRANSIT_HANDOFF (R411): the router hands a transit frame to an egress engine. It is discarded as without a route or as
aged; else it joins the port's egress queue, from which a frame start of the port seals it as client transit (R82, R89). A
closing port takes no frame into its queue (R63). -/
def execTransitHandoff (p : Port) (idx lclk : Nat) (s : State) : Result :=
  match s.ridge.router[idx]? with
  | none => .next s
  | some t =>
    let l := link s p.val
    let h : Handed := { t := t, res := lclk, at_ := l.lclk }
    if l.state != .opened then .next (noRoute p.val (fromRouter s idx) h)
    else if 160 ≤ handedAge l h then .next (agedOut p.val (fromRouter s idx) h)
    else if l.closing then .next s
    else .next (setLink (fromRouter s idx) p.val { l with transitq := l.transitq ++ [h] })

/-! ## Keys (R66 to R69) -/

/-- TX_REKEY_TIMER (R66): 60 s since the first frame under the current TX key. -/
def execTxRekeyTimer (p : Port) (s : State) : Result :=
  let l := link s p.val
  match l.txFirst with
  | some t =>
    if l.state == .opened && t + 60000000 ≤ now s then .next (setLink s p.val { l with flipDue := true }) else .next s
  | none => .next s

/-- The epoch that a port's keys are to have next (R69, R364). -/
def nextEpoch (s : State) : BitVec 30 :=
  match s.range.prep with
  | some q => q.epoch
  | none => s.range.epoch

/-- TX_KEY_DERIVED (R67, R68, R364): the next TX key, or the next RX key, of a port that holds keys. -/
def execTxKeyDerived (p : Port) (rx : Bool) (s : State) : Result :=
  let l := link s p.val
  if l.state != .opened && l.state != .probing then .next s
  else if rx then
    match l.rxCur, l.rxOther with
    | some k, none =>
      let e := nextEpoch s
      match rkBad s e.toNat with
      | some t => .next t
      | none => .next (setLink s p.val { l with
        rxOther := some (if k.epoch == e then rxKey s p.val e (k.idx + 1) else rxKey s p.val e 0), rxPrev := false })
    | _, _ => .next s
  else
    match l.txCur, l.txNext with
    | some k, none => match rkBad s k.epoch.toNat with
      | some t => .next t
      | none => .next (setLink s p.val { l with txNext := some (txKey s p.val k.epoch (k.idx + 1)) })
    | _, _ => .next s

/-- The previous RX key is destroyed, and its epoch's window where the epoch is over (R68, R69). -/
def retireRx (s : State) (p : Nat) : State :=
  let l := link s p
  let keep := match l.rxCur with
    | some k => l.wins.filter fun w => w.epoch == k.epoch
    | none => []
  endReform (setLink s p { l with rxOther := none, rxPrev := false, prevFrames := 0, wins := keep })

/-- RX_PREV_RETIRE (R68): 1 ms since the switch. -/
def execRxPrevRetire (p : Port) (s : State) : Result :=
  let l := link s p.val
  if l.rxPrev && l.prevSince + 1000 ≤ now s then .next (retireRx s p.val) else .next s

/-! ## Timers (R62, R63, R65, R74) -/

/-- KEEPALIVE_TIMER (R65): an OPEN port sends a keepalive; a PROBING port repeats its probe (DEDUCED, log entry
35). -/
def execKeepaliveTimer (p : Port) (s : State) : Result :=
  let l := link s p.val
  if l.lastTx + 10 ≤ now s && l.ctlq.isEmpty then
    match l.state with
    | .opened => .next (sendCtrl s p.val 0 false)
    | .probing => .next (sendCtrl s p.val 1 false)
    | _ => .next s
  else .next s

/-- PEER_LOSS (R65): PEER_LOST, DOWN, the event, and the loss report of R362. -/
def execPeerLoss (p : Port) (s : State) : Result :=
  let l := link s p.val
  if l.state == .opened && l.lastRx + 40 ≤ now s then
    let s1 := portDown (setLink s p.val { l with peerLost := true }) p.val
    let s2 := postEvent s1 0 (evWord 0 (evHandle 0 4) (p.val + l.peerNode * 256) 0)
    .next (reportLoss s2 l.peerNode p.val)
  else .next s

/-- PROBE_TIMEOUT (R62). -/
def execProbeTimeout (p : Port) (s : State) : Result :=
  let l := link s p.val
  if l.state == .probing && l.since + 1000 ≤ now s then
    let s1 := portTo s p.val .off
    .next (finishWaits s1 (fun w => w.kind == .linkOpen p.val) .authFail (portResult s1 p.val))
  else .next s

/-- ADMIT_IDLE_TIMEOUT (R62). -/
def execAdmitIdleTimeout (p : Port) (s : State) : Result :=
  let l := link s p.val
  if l.state == .admitting && l.lastRx + 20000000 ≤ now s then .next (admitOff s p.val) else .next s

/-- Nothing waits in a port's egress queue. -/
def drained (l : Link) : Bool := l.ctlq.isEmpty && l.transitq.isEmpty

/-- CLOSE_DRAIN_DONE (R63): nothing is queued, or 50 µs have passed. -/
def execCloseDrainDone (p : Port) (s : State) : Result :=
  let l := link s p.val
  if l.state == .opened && l.closing && (drained l || decide (l.since + 50 ≤ now s)) then
    .next (endReform (endClose (portTo s p.val .off) p.val))
  else .next s

/-- LINK_RETRY_FAIL (R74 step 6). -/
def execLinkRetryFail (p : Port) (s : State) : Result :=
  if (link s p.val).state == .opened && (link s p.val).retrying.isSome then .next (linkAlarm s p.val) else .next s

end Sys2Proof.Machine
end

