-- ==== Sys2Proof/Machine/CmdFrame.lean ====
section
/-! DEFINITION. FRAME_RECEIVE: the ingress side of a ridge engine, and what a target does with a verified frame
until a memory engine is asked (03 R68, R71 to R77, R83 to R88, 06 R162, R167, R182, R186 to R189, 07 R200). -/

namespace Sys2Proof.Machine

/-! ## Replay windows (R72) -/

/-- The window of an epoch; one whose frames none has verified is not valid. -/
def winOf (l : Link) (e : BitVec 30) : Win := (l.wins.find? fun w => w.epoch == e).getD { epoch := e }

/-- A window rejects a sequence number: too old, or seen. -/
def winRejects (w : Win) (q : Nat) : Bool :=
  w.valid && (decide (q + 1024 ≤ w.top) || (decide (q ≤ w.top) && w.seen.getLsbD (q % 1024)))

/-- SEEN with the entries of `n` numbers from `a` on cleared. -/
def clearSeen (m : BitVec 1024) (a : Nat) : Nat → BitVec 1024
  | 0 => m
  | n + 1 => clearSeen (m &&& ~~~ (1#1024 <<< (a % 1024))) (a + 1) n

/-- A window after a verified sequence number. -/
def winTake (w : Win) (q : Nat) : Win :=
  let w1 : Win :=
    if !w.valid then { epoch := w.epoch, valid := true, top := q }
    else if w.top < q then
      { w with seen := if q - w.top ≥ 1024 then 0 else clearSeen w.seen (w.top + 1) (q - w.top - 1), top := q }
    else w
  { w1 with seen := w1.seen ||| (1#1024 <<< (q % 1024)) }

/-- Write the window of an epoch; an engine has two (R49). -/
def putWin (l : Link) (w : Win) : Link := { l with wins := w :: (l.wins.filter fun x => x.epoch != w.epoch).take 1 }

/-! ## Key selection (R68) -/

/-- The RX key that a header names; whether it is the one in the other register. -/
def selectKey (l : Link) (c : Clear) : Option (SKey × Bool) :=
  let hit := fun (k : Option SKey) => match k with
    | some x => if x.epoch == c.epoch && phaseOf x == c.phase then some x else none
    | none => none
  match hit l.rxCur with
  | some x => some (x, false)
  | none => (hit l.rxOther).map fun x => (x, true)

/-- The first frame under the next key makes it current, and the former one previous (R68). -/
def switchRx (s : State) (p : Nat) (other : Bool) : State :=
  let l := link s p
  if other && !l.rxPrev then
    setLink s p { l with rxCur := l.rxOther, rxOther := l.rxCur, rxPrev := true, prevFrames := 0, prevSince := now s }
  else if l.rxPrev then
    let l1 := { l with prevFrames := l.prevFrames + 1 }
    if l1.prevFrames ≥ 1024 then retireRx (setLink s p l1) p else setLink s p l1
  else s

/-! ## Failures (R52, R56, R74) -/

/-- What a verified frame must be (R56). -/
def classOk (i : Inner) : Bool :=
  if i.cls == clsScree then i.len == 0
  else maxFlits i.cls != 0 && decide (i.len.toNat ≤ 256 * maxFlits i.cls - 48)

/-- The clear header passes R52, and the frame comes from the other end. -/
def clearOk (s : State) (p : Nat) (c : Clear) : Bool :=
  c.hver == 1#4 && c.rsvd == 0#24 && c.dir == !txDir s p

/-- The slots of the release buffer that a frame takes are in a state (R71). -/
def relSlots (s : State) (p flits : Nat) (x : RelSlot) : State :=
  let l := link s p
  setLink s p { l with slots := List.replicate flits x ++ l.slots.drop flits }

/-- A frame fails its tag or its checks (R74). -/
def frameFailed (s : State) (p : Nat) (f : Wire) : State :=
  let l := link s p
  if l.state != .opened then linkCtr s p fun c => { c with tagfail := inc32 c.tagfail }
  else if l.retrying.isSome then linkAlarm s p
  else
    emit (setLink s p { l with
      retrying := some (f.clear.epoch, f.clear.seq), ctr := { l.ctr with tagfail := inc32 l.ctr.tagfail } })
      (.retry p f.clear.seq)

/-! ## CTRL (R62, R65, R81) -/

/-- A probe verifies on a PROBING port and names the expected end: the port is OPEN with the grants in it, beside what
frames received before it have returned (R81). -/
def openPort (s : State) (p : Nat) (b : Bytes) : State :=
  let l := link s p
  let l1 := { l with state := .opened, credits := {
    req := l.credits.req + le b 4 4, rsp := l.credits.rsp + le b 8 4, bulk := l.credits.bulk + le b 12 4
    fold := l.credits.fold + le b 16 4 } }
  let s1 := setLink s p l1
  let moved := match l.txCur with
    | some k => k.epoch == s.range.epoch
    | none => true
  let s2 := if moved then s1 else epochTx (epochRx s1 p s.range.epoch) p s.range.epoch
  finishWaits s2 (fun w => w.kind == .linkOpen p) .ok (resultOf [(8, 2)])

/-- A verified CTRL frame. An OPEN or PROBING port answers a probe that is no answer with one of its own. -/
def takeCtrl (s : State) (p : Nat) (i : Inner) : State :=
  let l := link s p
  let b := i.payload
  let kind := le b 0 1
  if kind == 1 && (l.state == .probing || l.state == .opened) then
    if i.srcNode.toNat == l.peerNode && le b 1 1 == l.peerPort then
      let s1 := if l.state == .probing then openPort s p b else s
      if le b 2 1 == 0 then sendCtrl s1 p 1 true else s1
    else s
  else if kind == 2 && l.state == .admitting then
    match relayOf s p with
    | some k => dropRelay s k
    | none => s
  else s

/-! ## RANGE (R223) -/

/-- The reply to a range-ring command of this chip: the bind query of a PART_MAP PEER (R199, R227). -/
def takeRangeReply (s : State) (src : Nat) (seq : BitVec 16) (st : Nat) (result : BitVec 192) : State :=
  match s.range.sent.find? fun r => r.msg.seq == seq && r.msg.dst == src with
  | some r =>
    match r.why with
    | .bind pid node =>
      let s1 := { s with range := { s.range with sent := s.range.sent.filter fun x => x.msg.seq != seq } }
      let ans : Status :=
        if st == 1 then .busy
        else if st != 0 then .errStale
        else if !result.getLsbD 0 then .errStale
        else if !(result.getLsbD 1 && result.getLsbD 2) then .errPerm else .ok
      endBind s1 pid node ans
    | _ => s
  | none => s

/-- A RANGE frame is discarded and counted while the range ring's 64 entries are full (R227); its packet joins the ring,
and a reply completes what waits for it. -/
def takeRange (s : State) (p : Nat) (i : Inner) : State :=
  let b := i.payload
  if s.cmd.rangeQ.length ≥ 64 then { s with cmd := { s.cmd with rangeDropped := inc16 s.cmd.rangeDropped } }
  else if b.length == 32 then
    takeRangeReply s i.srcNode.toNat (BitVec.ofNat 16 (le b 4 2)) (le b 0 1) (BitVec.ofNat 192 (le b 8 24))
  else if b.length != 64 then s
  else
    let pk : Packet := {
      opcode := BitVec.ofNat 8 (le b 0 1), form := BitVec.ofNat 8 (le b 2 1)
      body := { flags := BitVec.ofNat 8 (le b 1 1), rsvd3 := BitVec.ofNat 8 (le b 3 1), seq := BitVec.ofNat 16 (le b 4 2)
                ptag := BitVec.ofNat 16 (le b 6 2), cookie := BitVec.ofNat 32 (le b 8 4)
                rsvd12 := BitVec.ofNat 32 (le b 12 4), params := BitVec.ofNat 384 (le b 16 48) } }
    let via := if (link s p).state == .admitting then p else 36
    { s with cmd := { s.cmd with rangeQ := s.cmd.rangeQ ++ [{ src := i.srcNode.toNat, via := via, packet := pk }] } }

/-! ## Streams, seams, atomics, OWN at the target -/

/-- STREAM open and close (R83). -/
def takeStream (s : State) (g : Ingress) : State :=
  if g.desc.op == 2 then
    if ownsStream s g then freeStream s g.desc.stream.toNat else s
  else
    let i := lowest (fun n => (stream s n).used) 4095 0
    if i ≥ 4095 then answer s g kGrant .busy
    else
      let inc := (stream s i).inc + 1
      let s1 := setStream s i { used := true, inc := inc, src := g.src, sptag := g.sptag, dptag := g.dptag, idleAt := now s }
      answer s1 { g with desc := { g.desc with inc := inc, stream := BitVec.ofNat 12 i } } kGrant .ok

/-- A SEAM waits in its segment's slot for its count (R84). A second one for the segment has no slot: the spec says nothing
of it, and the model discards it, uncounted and unanswered (DESIGN CHOICE, log entry 126). -/
def holdSeam (s : State) (g : Ingress) : State :=
  let i := g.desc.stream.toNat
  let t := stream s i
  if (segGet t.hold g.desc.seg).isSome then s
  else setStream s i { t with hold := segSet t.hold g.desc.seg (some { req := g, at_ := now s }), idleAt := now s }

/-- A SEAM that its target denies is held with its segment's FAULT set, and so fails at its count (R84, R167, R187,
R200). -/
def denySeam (s : State) (g : Ingress) : State :=
  let i := g.desc.stream.toNat
  let t := stream s i
  holdSeam (setStream s i { t with fault := segSet t.fault g.desc.seg true }) g

/-- A STORE that its target refuses is answered with a store fault; in a stream its segment counts it as faulted
(R84, R187, R200; log entry 39). -/
def refuseStore (s : State) (g : Ingress) (st : Status) : State :=
  let s1 := refuse s g st
  if inStream g && ownsStream s g then landStore s1 g true else s1

/-- A request that fails R200, or R187. An ownership notice has no answer (R189). -/
def refuseReq (s : State) (g : Ingress) : State :=
  if g.cls == clsOwn && g.desc.op != 3 then s
  else if g.cls == clsStore then refuseStore s g .errPerm
  else if g.cls == clsSeam then (if ownsStream s g then denySeam s g else s)
  else refuse s g .errPerm

/-- OP and SCOPE are defined for the class (R166); an OWN body is whole (R189). -/
def opOk (g : Ingress) : Bool :=
  let op := g.desc.op
  let k := kindOf op
  let sc := scopeOf op
  let hi := op.toNat / 64 == 0
  if g.cls == clsLoad then hi && ((k == 1 && sc != 0) || ((k == 0 || k == 8 || k == 9) && sc == 0))
  else if g.cls == clsStore then hi && (k == 0 || k == 8) && sc == 0
  else if g.cls == clsSeam then hi && (((k == 0 || k == 1) && sc == 0) || ((k == 2 || k == 3) && sc != 0))
  else if g.cls == clsAtomic then hi && 1 ≤ k && k ≤ 11
  else if g.cls == clsStream then op == 1 || op == 2
  else if g.cls == clsOwn then op == 1 || op == 3
  else op == 0

/-- A frame that R167 turns away. -/
def badOp (s : State) (g : Ingress) : State :=
  let s1 := rmtCtr s fun c => { c with perr := inc32 c.perr }
  if g.cls == clsStore || g.cls == clsBulkWr || g.cls == clsOwn then s1
  else if g.cls == clsSeam then (if ownsStream s g then denySeam s1 g else s1)
  else refuse s1 g .errParam

/-- Pages that a request covers. -/
def pagesOfReq (g : Ingress) : List Nat :=
  let first := pageOf g.desc.off.toNat
  span first (pageOf (g.desc.off.toNat + reqLen g - 1) - first + 1)

/-- The request writes (R187). -/
def isWrite (g : Ingress) : Bool :=
  g.cls == clsStore || g.cls == clsAtomic || g.cls == clsBulkWr || (g.cls == clsSeam && kindOf g.desc.op != 1)

/-- The source does not own a T4C page that it writes (R187). -/
def notOwner (s : State) (g : Ingress) : Bool :=
  isWrite g && (pagesOfReq g).any fun p => (pot s p).state == .live && (pot s p).t4c && tget 0 s.rmt.own p != g.src + 1

/-- A verified request joins the ingress masters (R182). -/
def enqueue (s : State) (g : Ingress) : State :=
  { s with ridge := { s.ridge with ingress := s.ridge.ingress ++ [g] } }

/-- An atomic's operand is one that R180 allows. -/
def amoOk (g : Ingress) : Bool :=
  match amoBytes (kindOf g.desc.op) g.desc.size.toNat with
  | some n => g.desc.off.toNat % n == 0
  | none => false

/-- A retry's result in any port's cache (R86). -/
def retryHit (s : State) (g : Ingress) : Option (BitVec 64) := if g.retry then replayOf s g else none

/-- A retry is answered from the cache and not applied (R86); its flits are free again. -/
def answerHit (s : State) (g : Ingress) (r : BitVec 64) : State :=
  owe (answer s g kAtomic .ok (leBytes ((amoBytes (kindOf g.desc.op) g.desc.size.toNat).getD 4) r.toNat)) g.via g.cls
    g.flits

/-- ATOMIC: a retry finds its result in any port's cache, or is applied (R86, R180). -/
def takeAtomic (s : State) (g : Ingress) : State :=
  if !amoOk g then owe (refuse s g .errParam) g.via g.cls g.flits
  else match retryHit s g with
    | some r => answerHit s g r
    | none => enqueue s g

/-- Ownership notice (R188, R189). -/
def takeNotice (s : State) (g : Ingress) : State :=
  let b := g.data
  let k := farPage g.src g.desc.off
  let gain := le b 2 1 == 1
  let bad := g.desc.off.toNat % 2097152 != 0 || g.desc.size != 15 || g.desc.id40 != 0 || g.desc.stream != 0xFFF ||
    le b 2 1 > 1 || le b 3 13 != 0 || b.length < 16 || (gain && le b 0 2 != s.range.nodeId) ||
    (!gain && !s.rmt.owned.contains k)
  if bad then rmtCtr s fun c => { c with perr := inc32 c.perr }
  else if gain then { s with rmt := { s.rmt with
    owned := k :: s.rmt.owned.filter fun x => x != k, disowned := s.rmt.disowned.filter fun x => x != k } }
  else { s with rmt := { s.rmt with
    owned := s.rmt.owned.filter fun x => x != k, disowned := k :: s.rmt.disowned.filter fun x => x != k } }

/-- Remote fence signal (R189, R216, R217). -/
def takeFence (s : State) (g : Ingress) : State :=
  let b := g.data
  let h : BitVec 32 := BitVec.ofNat 32 (le b 0 4)
  let st : BitVec 8 := BitVec.ofNat 8 (le b 12 1)
  let bad := g.desc.off != 0 || g.desc.size != 15 || g.desc.stream != 0xFFF || st > 0x0E || le b 13 3 != 0 || b.length < 16
  if bad || !fenceMatch s h then answer s g kFenceAck .errParam
  else if (fence s (fenceIdx h)).pid != tagPid g.dptag then answer s g kFenceAck .errPerm
  else
    let r := signalFence s h (BitVec.ofNat 64 (le b 4 8)) st g.dptag
    answer r.1 g kFenceAck (match r.2 with
      | .stale => .errStale
      | .oooStrict => .errParam
      | _ => .ok)

/-- A FOLD frame is discarded before its unit folds it. That it is counted in QB_FOLD_REJECT is the model's choice: R122
counts the frames that R107 discards (DESIGN CHOICE, log entry 127). -/
def dropFold (s : State) (g : Ingress) : State :=
  oweFold (foldCtr s g.via fun c => { c with reject := inc32 c.reject }) g.via g.flits

/-- A verified FOLD frame enters the input stage of its port's unit (R96, R107), which holds 32 flits (R95). The credits
of R96 keep a peer within them; a frame beyond them, and one whose data is poisoned (R53), is discarded (DESIGN CHOICE, log
entries 76 and 77). -/
def takeFold (s : State) (g : Ingress) : State :=
  if g.poison || stageFlits s g.via + g.flits > 32 then dropFold s g
  else setInput s g.via (inputOf s g.via ++
    [{ src := g.src, sptag := g.sptag, dptag := g.dptag, flits := g.flits, len := g.len, body := g.data, padded := g.padded }])

/-- A stale frame (R77): counted, and answered where it is a request. R77 answers a STREAM request and R58 has a kind for
a STREAM open alone; a stale STREAM close is given no answer (DESIGN CHOICE, log entry 78). -/
def staleFrame (s : State) (g : Ingress) : State :=
  let s1 := linkCtr s g.via fun c => { c with stale := inc32 c.stale }
  if g.cls == clsStore || g.cls == clsBulkWr || (g.cls == clsStream && g.desc.op == 2) ||
      (g.cls == clsOwn && g.desc.op != 3) then s1
  else refuse s1 g .errStale

/-- The PID of a tag has a partition on this chip (R77). -/
def pidPresent (s : State) (pid : Nat) : Bool := pid == 0 || (part s pid).state != .free

/-- A frame of a class that carries data to be written. -/
def carriesData (g : Ingress) : Bool :=
  g.cls == clsStore || g.cls == clsSeam || g.cls == clsAtomic || g.cls == clsBulkWr || g.cls == clsOwn

/-- A request whose data is poisoned writes nothing, and its source learns of it (R53; the answers DESIGN CHOICE, log
entry 76). -/
def poisonedReq (s : State) (g : Ingress) : State :=
  if g.cls == clsStore then refuseStore s g .errIntegrity
  else if g.cls == clsSeam then denySeam s g
  else if g.cls == clsAtomic then answer s g kAtomic .ok [] true
  else if g.cls == clsBulkWr then answer s g kBulkDone .ok [] true
  else if g.desc.op == 3 then answer s g kFenceAck .errParam
  else rmtCtr s fun c => { c with perr := inc32 c.perr }

/-- A STORE of a stream, or a SEAM, whose stream entry is another's (R83). -/
def lostStream (s : State) (g : Ingress) : Bool :=
  (g.cls == clsSeam || (g.cls == clsStore && inStream g)) && !ownsStream s g

/-- A request admitted by R77, R200, R167, R186 and R187 goes to its unit. Those that wait in an ingress master keep
their credits (R182). -/
def dispatchReq (s : State) (g : Ingress) : State :=
  let back := fun (x : State) => owe x g.via g.cls g.flits
  if g.cls == clsStream then back (takeStream s g)
  else if lostStream s g then back (linkCtr s g.via fun c => { c with stale := inc32 c.stale })
  else if g.poison && carriesData g then back (poisonedReq s g)
  else if g.cls == clsOwn then back (if g.desc.op == 1 then takeNotice s g else takeFence s g)
  else if g.cls == clsAtomic then takeAtomic s g
  else if g.cls == clsSeam then back (holdSeam s g)
  else enqueue s g

/-- The coherent kinds come from one quad alone (R186). -/
def outsideQuad (s : State) (g : Ingress) : Bool :=
  (g.cls == clsLoad || g.cls == clsStore) && kindOf g.desc.op ≥ 8 && !sameQuad s g.src

/-- A verified request for this chip: R77, R200, R167, R186, R187 in turn. -/
def takeRequest (s : State) (g : Ingress) : State :=
  let pid := tagPid g.dptag
  let back := fun (x : State) => owe x g.via g.cls g.flits
  if !tagCurrent s g.dptag || !pidPresent s pid then back (staleFrame s g)
  else if g.cls == clsFold then takeFold s g
  else if !peerAdmits s pid g.src g.sptag then
    back (refuseReq (partCtr s fun c => { c with peerRefuse := inc32 c.peerRefuse }) g)
  else if !opOk g then back (badOp s g)
  else if outsideQuad s g then back (if g.cls == clsStore then refuseStore s g .errPerm else refuse s g .errPerm)
  else if notOwner s g then
    back (refuseReq (rmtCtr s fun c => { c with ownRefuse := inc32 c.ownRefuse }) g)
  else dispatchReq s g

/-- A verified frame with this chip as its target. Answers find their request; the rest are requests. -/
def takeLocal (s : State) (p : Nat) (i : Inner) (age flits : Nat) : State :=
  let pid := tagPid i.dstPtag
  let s0 := if pid == 0 then s else telAdd s pid 4 flits
  if i.cls == clsResp || i.cls == clsBulkData then
    let s1 := owe s0 p i.cls flits
    if !tagCurrent s i.dstPtag || !pidPresent s pid then linkCtr s1 p fun c => { c with stale := inc32 c.stale }
    else retryHeld (if i.cls == clsResp then takeResp s1 i else takeBulkData s1 i)
  else
    let n := s.ridge.ingressNum
    let fold := i.cls == clsFold
    let g : Ingress := {
      num := n, via := p, src := i.srcNode.toNat, sptag := i.srcPtag, dptag := i.dstPtag, cls := i.cls, age := age
      at_ := now s, desc := if fold then {} else descOf i.payload, data := if fold then i.payload else i.payload.drop 16
      flits := flits, len := i.len.toNat, padded := fold && i.padded, retry := i.retry, poison := i.poison }
    takeRequest { s0 with ridge := { s0.ridge with ingressNum := n + 1 } } g

/-! ## FRAME_RECEIVE -/

/-- Credits that a frame returns (R81). -/
def takeCredits (s : State) (p : Nat) (i : Inner) : State :=
  let l := link s p
  setLink s p { l with credits := {
    req := l.credits.req + i.crReq.toNat, rsp := l.credits.rsp + i.crRsp.toNat, bulk := l.credits.bulk + i.crBulk.toNat
    fold := l.credits.fold + i.crFold.toNat } }

/-- A frame of an OPEN port goes to its consumer, or to the router (R57, R71, R411). -/
def takeOpen (s : State) (p : Nat) (i : Inner) (age flits : Nat) : State :=
  if i.cls == clsScree then s
  else if i.cls == clsCtrl then takeCtrl s p i
  else if i.dstNode.toNat != s.range.nodeId then
    { s with ridge := { s.ridge with router := s.ridge.router ++
      [{ via := p, inner := { i with age := BitVec.ofNat 8 age }, flits := flits }] } }
  else if i.cls == clsRange then takeRange s p i
  else takeLocal s p i age flits

/-- The frame names this chip as its source, which no port but one in ADMIT accepts (R55). -/
def ownSource (s : State) (p : Nat) (i : Inner) : Bool :=
  (link s p).state != .admitting && i.srcNode.toNat == s.range.nodeId

/-- A verified frame drains (R55, R62, R64, R71, R76): the node check, the credits it returns, its age with the
CABLE_DLY of the port, and what its port's state does with it. A PROBING port acts on CTRL alone. -/
def takeVerified (s : State) (p : Nat) (i : Inner) (flits : Nat) : State :=
  let l := link s p
  let age := i.age.toNat + l.cableDly
  let back := fun (x : State) => owe x p i.cls flits
  if ownSource s p i then back s
  else
    let s1 := if l.state == .admitting then s else takeCredits s p i
    if age ≥ 160 then back (linkCtr s1 p fun c => { c with aged := inc32 c.aged })
    else match l.state with
      | .opened => takeOpen s1 p i age flits
      | .probing => if i.cls == clsCtrl then takeCtrl s1 p i else back s1
      | .admitting =>
        if i.cls == clsCtrl then takeCtrl s1 p i else if i.cls == clsRange then takeRange s1 p i else s1
      | _ => s1

/-- A frame has verified (R72): a gap on an OPEN port raises SA_LINK_TAG; else the window and the keys are updated, its
slots are VERIFIED and drain (R71). R74 limits the alarm to OPEN, and the spec does not say whether a frame behind a gap is
accepted on a PROBING or ADMIT port; the model accepts it and moves the window (DESIGN CHOICE, log entries 15 and 79). -/
def verified (s : State) (p : Nat) (f : Wire) (other : Bool) (i : Inner) : State :=
  let l := link s p
  let q := f.clear.seq.toNat
  let w := winOf l f.clear.epoch
  if w.valid && w.top + 1 < q && l.state == .opened then linkAlarm s p
  else
    let s1 := setLink s p { putWin l (winTake w q) with retrying := none, lastRx := now s }
    let n := wireFlits f
    relSlots (takeVerified (relSlots (relSlots (switchRx s1 p other) p n .verified) p n .draining) p i n) p n .free

/-- The frame is opened into FILLING slots (R71). A failed frame's slots return to FREE and nothing of it is taken. -/
def openFrame (s : State) (p : Nat) (f : Wire) (k : SKey) (other : Bool) : State :=
  let n := wireFlits f
  let s1 := relSlots s p n .filling
  let failed := frameFailed (relSlots s1 p n .free) p f
  match openWire k f with
  | none => failed
  | some i => if classOk i then verified s1 p f other i else failed

/-- FRAME_RECEIVE (R62, R68, R72, R74), from QB_RDY on (R15). A frame whose header names no held key, or a SEQ that the window rejects, counts
as REPLAY even where HVER or a reserved byte is wrong too: R72's sequence tests the key and the window first, R79's table the
header, and the spec does not say which failure counts (DESIGN CHOICE, log entry 80). -/
def execFrameReceive (p : Port) (f : Wire) (s : State) : Result :=
  let l := link s p.val
  let replay := linkCtr s p.val fun c => { c with replay := inc32 c.replay }
  if !s.boot.rdy || l.state == .off || l.state == .down then .next s
  else if l.retrying.isSome && l.retrying != some (f.clear.epoch, f.clear.seq) then .next s
  else match selectKey l f.clear with
    | none => .next (if l.retrying.isSome then linkAlarm s p.val else replay)
    | some (k, other) =>
      if winRejects (winOf l f.clear.epoch) f.clear.seq.toNat then .next replay
      else if !clearOk s p.val f.clear then .next (frameFailed s p.val f)
      else .next (openFrame s p.val f k other)

/-! ## Ingress masters (R76, R182) -/

/-- Replace or remove a waiting request. -/
def setIngress (s : State) (idx : Nat) (g : Option Ingress) : State :=
  { s with ridge := { s.ridge with ingress := match g with
      | some x => s.ridge.ingress.set idx x
      | none => s.ridge.ingress.eraseIdx idx } }

/-- The next piece of a request, as its ingress master presents it (R124, R181, R182). -/
def ingressReq (g : Ingress) : MxReq :=
  let a := g.desc.off.toNat + g.pos
  let n := pieceLen g g.pos
  let pid := tagPid g.dptag
  let masked := g.cls == clsStore || g.cls == clsSeam
  let mask := (List.range n).map fun i => (BitVec.ofNat 128 (le g.data 0 16)).getLsbD (g.pos + i)
  { addr := BitVec.ofNat 41 a, pid := Fin.ofNat 32 pid, gen := tagGen g.dptag
    mport := if g.cls == clsAtomic then 0xE3 else BitVec.ofNat 8 (0xB0 + g.via % 4)
    op := if masked then 2 else if g.cls == clsAtomic then 3 else if g.cls == clsBulkWr then 1 else 0
    size := if g.cls == clsAtomic then g.desc.size else BitVec.ofNat 8 (n - 1), amo := if g.cls == clsAtomic then BitVec.ofNat 4 (kindOf g.desc.op) else 0
    data := if masked then slice g.data (16 + g.pos) n
            else if g.cls == clsAtomic then slice g.data 0 (g.desc.size.toNat + 1)
            else if g.cls == clsBulkWr then slice g.data g.pos n else []
    mask := if masked then mask else [] }

/-- A read-modify-write of a sector is in progress in an engine (R151): an operation on it that reads, of a request
that writes. -/
def rmwRuns (s : State) (e sector : Nat) : Bool :=
  (mx s e).ops.any fun o => o.sector == sector && !o.full && (mx s e).reqs.any fun q => q.rid == o.rid && q.req.op != 0#4

/-- A write or atomic to a sector of which a read-modify-write is in progress; writes of whole sectors are not held
(R182). -/
def hotSector (s : State) (e : Nat) (r : MxReq) : Bool :=
  r.op != 0#4 && (sectorsOf r).any fun x => !coversWhole r x && rmwRuns s e x

/-- A sector holds bytes of a request that have still to be presented. -/
def restHolds (h : Ingress) (sector : Nat) : Bool :=
  decide ((h.desc.off.toNat + h.pos) / 128 ≤ sector) && decide (sector ≤ (h.desc.off.toNat + reqLen h - 1) / 128)

/-- An earlier write of the same port to a sector of the request still waits, any of its pieces (R182, R184). -/
def portOrder (s : State) (idx : Nat) (g : Ingress) (r : MxReq) : Bool :=
  r.op != 0#4 && (s.ridge.ingress.take idx).any fun h =>
    h.via == g.via && isWrite h && (sectorsOf r).any fun x => restHolds h x

/-- An atomic may be presented (R86): its port's cache has room for the result, and a retry is behind no copy of itself
that waits or is under way. -/
def atomicReady (s : State) (idx : Nat) (g : Ingress) : Bool :=
  g.cls != clsAtomic || (!replayFull s g.via && !(g.retry && (replayPending s g ||
    (s.ridge.ingress.take idx).any fun h =>
      h.cls == clsAtomic && h.src == g.src && h.sptag == g.sptag && h.desc.id40 == g.desc.id40)))

/-- Nothing but its turn keeps a request from an engine. -/
def ingressReady (s : State) (e idx : Nat) (g : Ingress) : Bool :=
  let r := ingressReq g
  !hotSector s e r && !portOrder s idx g r && atomicReady s idx g

/-- Ports whose front write to a sector of `r` is ready for an engine (R182). -/
def contenders (s : State) (e : Nat) (r : MxReq) : List Nat :=
  (s.ridge.ingress.mapIdx fun i h => (i, h)).filterMap fun x =>
    let q := ingressReq x.2
    if q.op != 0#4 && (sectorsOf q).any (fun y => (sectorsOf r).contains y) && ingressReady s e x.1 x.2 then some x.2.via
    else none

/-- The port that an engine serves next for a sector: masters in round robin, and the ports of the master in round robin
(R182). The spec gives no start: each engine goes on from the master it served last, and each master from its port (DESIGN
CHOICE, log entry 81). -/
def nextPort (s : State) (e : Nat) (r : MxReq) : Option Nat :=
  let l := contenders s e r
  (span (tget 0 s.ridge.rrMaster e + 1) 4).findSome? fun m =>
    (span (tget 0 s.ridge.rrPort (m % 4) + 1) 9).findSome? fun k =>
      if l.contains (4 * (k % 9) + m % 4) then some (4 * (k % 9) + m % 4) else none

/-- A read has no turn to wait for; a write has its port's (R182). -/
def myTurn (s : State) (e : Nat) (g : Ingress) : Bool :=
  let r := ingressReq g
  r.op == 0#4 || nextPort s e r == some g.via

/-- An engine has served a port's write. -/
def served (s : State) (e : Nat) (g : Ingress) : State :=
  if (ingressReq g).op == 0#4 then s
  else { s with ridge := { s.ridge with
    rrMaster := tset 0 s.ridge.rrMaster e (g.via % 4), rrPort := tset 0 s.ridge.rrPort (g.via % 4) (g.via / 4) } }

/-- An atomic that is presented takes its place in its port's cache (R86). -/
def reserve (s : State) (g : Ingress) : State := if g.cls == clsAtomic then addReplay s g none else s

/-- Present a piece of a request; the request stays for its next piece, or leaves. -/
def presentPiece (s : State) (idx : Nat) (g : Ingress) : State :=
  match present (reserve s g) { req := ingressReq g, who := .remote g } with
  | none => s
  | some s1 =>
    let s2 := served s1 (engineOf s (ingressReq g).addr.toNat) g
    let pos := g.pos + pieceLen g g.pos
    if pos < reqLen g then setIngress s2 idx (some { g with pos := pos })
    else owe (setIngress s2 idx none) g.via g.cls g.flits

/-- A waiting request whose AGE reaches 160 before it acts (R76); one with a piece already presented has acted, and a
released seam is the exception of R76. -/
def agedNow (g : Ingress) (quarter : Nat) : Bool := g.cls != clsSeam && g.pos == 0 && g.age + quarter ≥ 160

/-- Discard an aged request. -/
def dropAged (s : State) (idx : Nat) (g : Ingress) : State :=
  linkCtr (owe (setIngress s idx none) g.via g.cls g.flits) g.via fun c => { c with aged := inc32 c.aged }

/-- A request waits behind a hot sector, and is counted once (R182). -/
def waitHot (s : State) (idx : Nat) (g : Ingress) : State :=
  if g.hot then s
  else setIngress (rmtCtr s fun c => { c with hotWait := inc32 c.hotWait }) idx (some { g with hot := true })

/-- An ingress master presents a request, or keeps it (R86, R182): behind a hot sector, in its port's order, for an atomic's
place in the cache, for its turn, or for an engine that is not ready. -/
def tryPresent (s : State) (idx : Nat) (g : Ingress) : State :=
  let e := engineOf s (ingressReq g).addr.toNat
  match (if g.cls == clsAtomic then retryHit s g else none) with
  | some r => answerHit (setIngress s idx none) g r
  | none =>
    if hotSector s e (ingressReq g) then waitHot s idx g
    else if ingressReady s e idx g && myTurn s e g then presentPiece s idx g
    else s

/-- INGRESS_PRESENT (R76, R182): master 0xB0 + m presents requests of the ports n with n mod 4 = m, and no others. -/
def execIngressPresent (m : Fin 4) (idx lclk : Nat) (s : State) : Result :=
  match s.ridge.ingress[idx]? with
  | none => .next s
  | some g => .next (if g.via % 4 != m.val then s else if agedNow g (quarters lclk) then dropAged s idx g else tryPresent s idx g)

/-- INGRESS_FRAME_AGED (R76): by the clock, 40 µs since the frame's age began. -/
def execIngressFrameAged (idx : Nat) (s : State) : Result :=
  match s.ridge.ingress[idx]? with
  | none => .next s
  | some g => if agedNow g (4 * (now s - g.at_)) then .next (dropAged s idx g) else .next s

/-! ## Streams and seams over time (R83 to R86) -/

/-- SEAM_RELEASE (R84): the count is reached; a fault fails the seam, a flush has nothing to write, any other joins its
port's writes in the ingress master and is presented from there (R182). A seam of another COUNT is not this one. -/
def execSeamRelease (id : BitVec 12) (seg : Bool) (count : BitVec 28) (s : State) : Result :=
  let i := id.toNat
  let t := stream s i
  match segGet t.hold seg with
  | none => .next s
  | some h =>
    let g := { h.req with flits := 0 }
    if g.desc.id40.toNat % 2 ^ 28 != count.toNat || segGet t.landed seg != count.toNat then .next s
    else if segGet t.fault seg then .next (endSeam s g false)
    else if kindOf g.desc.op == 1 then .next (endSeam s g true)
    else
      let s1 := setStream s i { t with hold := segSet t.hold seg none, idleAt := now s }
      .next (tryPresent (enqueue s1 g) s1.ridge.ingress.length g)

/-- A seam's failure is reported to its target partition (R85; how is DESIGN CHOICE, log entry 69). -/
def reportSeam (s : State) (id : Nat) (g : Ingress) : State :=
  emit s (.seamReport (tagPid g.dptag) g.src id)

/-- SEAM_HOLD_TIMEOUT (R85). -/
def execSeamHoldTimeout (id : BitVec 12) (seg : Bool) (s : State) : Result :=
  match segGet (stream s id.toNat).hold seg with
  | some h =>
    if h.at_ + 1000 ≤ now s then .next (freeStream (reportSeam s id.toNat h.req) id.toNat) else .next s
  | none => .next s

/-- STREAM_IDLE_TIMEOUT (R83): 10 ms with neither segment open. -/
def execStreamIdleTimeout (id : BitVec 12) (s : State) : Result :=
  let t := stream s id.toNat
  if t.used && t.landed == (0, 0) && t.hold == (none, none) && t.idleAt + 10000 ≤ now s then
    .next (freeStream s id.toNat)
  else .next s

/-- ATOMIC_CACHE_EXPIRY (R86): results live 100 µs from their application. -/
def execAtomicCacheExpiry (p : Port) (s : State) : Result :=
  let l := link s p.val
  .next (setLink s p.val { l with replay := l.replay.filter fun r => r.result.isNone || decide (now s < r.at_ + 100) })

end Sys2Proof.Machine
end

