-- ==== Sys2Proof/Machine/AdvanceOps.lean ====
section
/-! DEFINITION. Shared operations of range membership: range keys and their wraps, manifest entries, shadows,
removals, and the Summit's advance (13 R359 to R367). -/

namespace Sys2Proof.Machine

/-! ## Range keys (R263, R364) -/

/-- Policy of a range key; policy of an agreed key that derivations use. -/
def rangePolicy : BitVec 32 := policy .range .derivation 0 0 2
/-- Policy of the pair key. -/
def pairPolicy : BitVec 32 := policy .agreed .derivation 0 0 2

/-- Install a range key as current; the former current key becomes previous (R275). Neither is newly derived here, so a
BAD slot takes none (R259). -/
def installRk (s : State) (k : Key) : State :=
  writeRaw (writeRaw s 3 (slot s 2).key rangePolicy) 2 k rangePolicy

/-- Draw a range key (R256). -/
def drawRk (s : State) : State × Key := freshDraw s

/-- Key that wraps what goes to node `n` of epoch `e` under a range key (R364). -/
def nodeWrap (rk : Key) (label : String) (n e : Nat) : Key :=
  keyOf (hkdf (asc "QBRNG1") (keyBytes rk) (asc label ++ leBytes 2 n ++ leBytes 4 e) 32)

/-- A key wrapped into 40 bytes, as parameters from a packet byte. -/
def wrapped (w k : Key) : Nat := num (kwWrap w (keyBytes k))

/-- A 40-byte wrapped key of a message. -/
def unwrapped (w : Key) (b : Bytes) : Option Key := (kwUnwrap w b).map keyOf

/-! ## Members and the manifest (R307, R366) -/

/-- Age of a member's evidence in µs. -/
def evidAge (s : State) (x : Member) : Nat := x.evidPre + (now s - x.evidAt)

/-- The 80-byte manifest entry of a member. -/
def manifestEntry (s : State) (x : Member) : Bytes :=
  leBytes 2 x.node ++ [x.lcs] ++
  leBytes 1 (b2n (x.node == s.range.summit) + 2 * b2n (s.range.shoulder == some x.node)) ++ [x.svn, x.fuseSvn] ++
  zeros 2 ++ leBytes 16 x.devId.toNat ++ beBytes 48 x.m.toNat ++ leBytes 4 x.admitted.toNat ++ zeros 4

/-- A member from an entry of a shadow and its evidence age in ms. -/
def entryMember (b : Bytes) (at_ : Nat) : Member :=
  { node := le b 0 2, lcs := BitVec.ofNat 8 (le b 2 1), svn := BitVec.ofNat 8 (le b 4 1)
    fuseSvn := BitVec.ofNat 8 (le b 5 1), devId := BitVec.ofNat 128 (le b 8 16)
    m := BitVec.ofNat 384 (beNat (slice b 24 48)), admitted := BitVec.ofNat 32 (le b 72 4)
    evidAt := at_, evidPre := 1000 * le b 80 4 }

/-- This chip as a member of its own range. -/
def selfMember (s : State) (node : Nat) (admitted : BitVec 32) : Member :=
  { node := node, lcs := BitVec.ofNat 8 (lcsCode s.fuse.lcs), svn := runSvn s, fuseSvn := BitVec.ofNat 8 (fuseSvn s)
    devId := s.fuse.devId, m := fwM s, admitted := admitted, evidAt := now s }

/-- The accepted firmware set holds a measurement (R357). -/
def inAfs (s : State) (m : BitVec 384) : Bool :=
  (List.range (le s.range.afs 5 1)).any fun i => slice s.range.afs (8 + 48 * i) 48 == beBytes 48 m.toNat

/-- The rule of R32 for the life-cycle state that evidence states. -/
def lcsAdmits (s : State) (lcs : Nat) : Bool := lcs == 2 || (lcs == 1 && s.range.test)

/-- Nodes other than this chip. -/
def others (s : State) (l : List Nat) : List Nat := l.filter fun n => n != s.range.nodeId

/-- A node ID, or 0xFFFF for none. -/
def nodeCode : Option Nat → Nat
  | some n => n
  | none => 0xFFFF

/-- A node ID that a field names, 0xFFFF for none. -/
def nodeNamed (n : Nat) : Option Nat := if n == 0xFFFF then none else some n

/-- A role follows from the Shoulder that the Summit names. -/
def takeShoulder (s : State) (sh : Option Nat) : State :=
  let r := s.range
  { s with range := { r with
    shoulder := sh
    role := if r.role == .summit then .summit else if sh == some r.nodeId then .shoulder else .member } }

/-! ## Shadows (R366; layout of part 0 DESIGN CHOICE, log entry 41) -/

/-- Members that the next shadow carries: all, or those that have changed since the last one. -/
def shadowNew (s : State) : List Member :=
  if s.range.shadowAll then s.range.members else s.range.members.filter fun x => !s.range.shadowMem.contains x

/-- Nodes that a shadow of the changes takes out of the list. -/
def shadowGone (s : State) : List Nat :=
  if s.range.shadowAll then []
  else (s.range.shadowMem.map (·.node)).filter fun n => !(s.range.members.any fun x => x.node == n)

/-- A list of node IDs: their number, and each. -/
def nodeBytes (l : List Nat) : Bytes := leBytes 2 l.length ++ (l.map fun n => leBytes 2 n).flatten

/-- The range-wide fields, whether the shadow is one of changes, the nodes that have gone and those to be removed, the pair
state and the mailbox base. -/
def shadowHead (s : State) : Bytes :=
  let r := s.range
  leBytes 8 r.rangeId.toNat ++ leBytes 4 r.epoch.toNat ++ leBytes 4 r.minSvn.toNat ++
  leBytes 1 (b2n r.test + 2 * b2n r.paired + 4 * b2n (!r.shadowAll)) ++ leBytes 6 r.pair.base ++ leBytes 8 r.pair.peer.toNat ++
  leBytes 8 r.pair.outSeq ++ leBytes 8 r.pair.inSeq ++ nodeBytes r.toRemove ++ nodeBytes (shadowGone s) ++
  r.afs

/-- Bytes of a list cut into groups of 512 entries. -/
def groups : Nat → List Bytes → List Bytes
  | 0, _ => []
  | _ + 1, [] => []
  | n + 1, l => (l.take 512).flatten :: groups n (l.drop 512)

/-- The parts of a shadow, without their headers. -/
def shadowParts (s : State) : List Bytes :=
  let es := (shadowNew s).map fun x => manifestEntry s x ++ leBytes 4 (evidAge s x / 1000)
  shadowHead s :: groups (es.length / 512 + 1) es

/-- Send the admission state to the Shoulder: the changes, or the full state to one that is new or has missed a shadow. -/
def sendShadow (s : State) : State :=
  match s.range.shoulder with
  | none => s
  | some d =>
    if !isSummit s || d == s.range.nodeId then s
    else
      let n := s.range.shadowNum + 1
      let s1 := { s with range := { s.range with shadowNum := n, shadowAll := false, shadowMem := s.range.members } }
      let ps := shadowParts s
      (ps.zipIdx).foldl (fun s e =>
        sendReq s { dst := d, form := 0x19, data := leBytes 4 n ++ leBytes 2 e.2 ++ leBytes 2 ps.length ++ e.1 }
          (.shadow n e.2)) s1

/-- Every part of a shadow has been acknowledged. -/
def shadowDone (s : State) (n : Nat) : Bool := !awaiting s fun w => match w with
  | .shadow k _ => k == n
  | _ => false

/-- Answer a message that was taken earlier, and keep the answer for its repetition (R355). -/
def answerLate (s : State) (src via : Nat) (seq : BitVec 16) (m : Msg) : State :=
  let n := takeSeq s
  let m1 := { m with seq := n.2 }
  let s1 := n.1
  let seen := s1.range.seen.map fun x =>
    if x.src == src && x.via == via && x.seq == seq then { x with answers := x.answers ++ [m1] } else x
  transmit { s1 with range := { s1.range with seen := seen } } m1

/-! ## Removals -/

/-- A node is to be removed by the next advance, which starts at once where `at_once` (R360, R362, R363). -/
def markRemoved (s : State) (n : Nat) (at_once : Bool) : State :=
  let r := s.range
  { s with range := { r with
    toRemove := if r.toRemove.contains n then r.toRemove else r.toRemove ++ [n]
    advNow := r.advNow || at_once } }

/-- Every peer entry that names a node goes silent (R174, R364). -/
def silenceNode (s : State) (n : Nat) : State :=
  ((s.part.peers.filter fun e => e.1 % 16384 == n).map fun e => e.1 / 16384).foldl
    (fun s pid => silencePeer s pid n 0) s

/-- Removed nodes: silent peer entries, and OPEN ports to them go DOWN (R364). -/
def dropNodes (s : State) (l : List Nat) : State :=
  let s1 := l.foldl silenceNode s
  (allPorts.filter fun p => (link s1 p).state == .opened && l.contains (link s1 p).peerNode).foldl portDown s1

/-- The new epoch's keys go to the OPEN ports: receive keys where no key retires, and transmit keys (R69, R364). -/
def rekeyPorts (s : State) (rx tx : Bool) : State :=
  (allPorts.filter fun p => (link s p).state == .opened).foldl (fun s p =>
    let e := nextEpoch s
    let s1 := if rx && !(link s p).rxPrev then epochRx s p e else s
    if tx then epochTx s1 p e else s1) s

/-- The range is paired and this chip holds the pair key, which UNPAIR has not destroyed (R371). -/
def pairHeld (s : State) : Bool := s.range.paired && polClass (slot s 7).policy == classCode .agreed

/-- The pair key goes, and PAIRED with it (R371, R372). -/
def unpair (s : State) : State :=
  let s1 := clearSlot s 7
  { s1 with range := { s1.range with paired := false, pair := { offer := s.range.pair.offer } } }

/-! ## The pair mailbox (R370; record layout DESIGN CHOICE, log entry 42) -/

/-- The key of a range's state stream. -/
def stateKey (s : State) (rid : BitVec 64) : Key :=
  keyOf (hkdf (asc "QBPAIR1") (keyBytes (slot s 7).key) (asc "state" ++ leBytes 8 rid.toNat) 32)

/-- IV of a record. -/
def recordIv (rid : BitVec 64) (seq : Nat) : Bytes := (leBytes 8 rid.toNat).take 4 ++ leBytes 8 seq

/-- Write a record of a kind (0 HEARTBEAT, 1 MEMBERSHIP, 2 EPOCH) into the OUT half; the POT decides each write (R18), and
one that it denies does not land. -/
def putRecord (s : State) (kind : Nat) : State :=
  let r := s.range
  if !(r.paired && isSummit s) || r.pair.clearing then s
  else match readBad s [7] with
  | some t => t
  | none =>
    let q := r.pair.outSeq + 1
    let pt := leBytes 1 kind ++ [0] ++ leBytes 2 r.summit ++ leBytes 4 r.epoch.toNat ++
      leBytes 4 r.members.length ++ zeros 28
    let x := gcmSeal (stateKey s r.rangeId) (recordIv r.rangeId q) (leBytes 8 q) pt
    let s1 := { s with range := { r with pair := { r.pair with
      outSeq := q, sentAt := if kind == 0 then now s else r.pair.sentAt } } }
    let off := r.pair.base + 64 * (q % 512)
    if rangeOk s 0 off 64 rTWR then memPut s1 0 off (leBytes 8 q ++ x.1 ++ blkBytes x.2) else s1

/-- PAIRKEY to a node under the current epoch (R364). -/
def sendPairKey (s : State) (n : Nat) : State :=
  match readBad s [2, 7] with
  | some t => t
  | none =>
    let e := s.range.epoch.toNat
    let p := paramsOf [(16, e), (20, wrapped (nodeWrap (slot s 2).key "pair-wrap" n e) (slot s 7).key)]
    sendMsg s { dst := n, form := 0x1D, params := p }

/-! ## The Summit's advance (R365) -/

/-- A message to a node under a number of its own, which a resend keeps; the state and the message. -/
def sendKept (s : State) (m : Msg) : State × Msg :=
  let n := takeSeq s
  let m1 := { m with seq := n.2 }
  (transmit n.1 m1, m1)

/-- DELTA messages of a list of nodes: 20 to a message. -/
def deltaParams (e kind : Nat) : Nat → List Nat → List (BitVec 384)
  | 0, _ => []
  | _ + 1, [] => []
  | n + 1, l =>
    let g := l.take 20
    paramsOf ([(16, e), (20, g.length), (21, kind)] ++ g.mapIdx fun i x => (22 + 2 * i, x)) ::
      deltaParams e kind n (l.drop 20)

/-- The highest epoch (R29). -/
def lastEpoch (s : State) : Bool := s.range.epoch == 0x3FFFFFFF#30

/-- Where a drawn range key waits: slot 3, or a pool slot where slot 3 is BAD (R23, R259; DEDUCED, log entry 97). -/
def drawnSlot (s : State) : Option Nat := if (slot s 3).bad then (freeSlots s).head? else some 3

/-- Start an advance: a previous key still held goes first (R275), and the key drawn takes its slot until the advance
commits (R23; DEDUCED, log entry 97). -/
def beginAdvance (s : State) (w : Nat) : State :=
  let r := s.range
  let e := r.epoch.toNat + 1
  let d := drawRk s
  let aged := (r.members.filter fun x => x.node != r.nodeId && decide (evidAge s x > 1800000000)).map (·.node)
  let gone := r.toRemove ++ aged.filter fun n => !r.toRemove.contains n
  let keep := (nodes s).filter fun n => !gone.contains n
  let added := (r.members.filter fun x => x.admitted.toNat == r.epoch.toNat && keep.contains x.node).map (·.node)
  let ds := deltaParams e 0 (gone.length + 1) gone ++ deltaParams e 1 (added.length + 1) added
  let dsts := others s keep
  let s1 := d.1
  let s2 := setMemb { s1 with range := { s1.range with
    toRemove := [], advNow := false, reasonAt := none, prep := none, retiring := false } } .reforming
  let s3 := dsts.foldl (fun s n => ds.foldl (fun s p => sendMsg s { dst := n, form := 0x10, params := p }) s) s2
  let prep := fun n => paramsOf [(16, e),
    (20, wrapped (nodeWrap (rkOf s r.epoch.toNat) "epoch-wrap" n e) d.2), (60, ds.length)]
  let step := fun (a : State × List Msg) (n : Nat) =>
    let q := sendKept a.1 { dst := n, form := 0x11, params := prep n }
    (q.1, a.2 ++ [q.2])
  let a := dsts.foldl step (s3, [])
  let s4 := writeRaw a.1 w d.2 rangePolicy
  { s4 with range := { s4.range with adv := some {
      slot := w, epoch := BitVec.ofNat 30 e, keep := keep, removed := gone, msgs := a.2
      at_ := now s + 40 * (dsts.length - 1) } } }

/-- Start an advance, where the current range key can be read and the new one has a slot to wait in. -/
def startAdvance (s : State) : State :=
  match rkBad s s.range.epoch.toNat, drawnSlot s with
  | some t, _ => t
  | none, some w => beginAdvance s w
  | none, none => s

/-- Shoulder after an advance: the one there is while it stays, else the member with the lowest node ID outside the
Summit's rack (R359). A range that has none yet waits for an admission. -/
def nextShoulder (s : State) (members : List Nat) : Option Nat :=
  let pick := members.find? fun n => rackOf n != rackOf s.range.nodeId
  match s.range.shoulder with
  | some d => if members.contains d && d != s.range.nodeId then some d else pick
  | none => if s.range.takeover then pick else none

/-- The advance commits: the key is installed, SWITCH and the shadow go out, and those that asked for it have their
answer (R365). -/
def commitAdvance (s : State) (a : Advance) : State :=
  let r := s.range
  let stay := (nodes s).filter fun n => n == r.nodeId || a.acked.contains n
  let late := (others s a.keep).filter fun n => !a.acked.contains n
  let sh := nextShoulder s stay
  let s0 := installRk s (slot s a.slot).key
  let s1 := if a.slot == 3 then s0 else clearSlot s0 a.slot
  let s2 := { s1 with range := { s1.range with
    epoch := a.epoch, members := r.members.filter fun x => stay.contains x.node, adv := none, shoulder := sh
    shadowAll := r.shadowAll || sh != r.shoulder
    refreshing := if r.takeover then r.refreshing.map fun e => (e.1, e.2.1, now s) else r.refreshing
    takeover := false, retiring := true, advanced := now s, advNow := r.advNow || !late.isEmpty
    toRemove := late ++ (r.toRemove.filter fun n => !late.contains n && stay.contains n)
    ctr := { r.ctr with advances := inc32 r.ctr.advances, removed := add32 r.ctr.removed a.removed.length } } }
  let s3 := if r.pair.clearing then unpair s2 else s2
  let s4 := rekeyPorts (dropNodes s3 a.removed) true true
  let p := paramsOf [(16, a.epoch.toNat), (20, nodeCode sh), (22, b2n s4.range.paired)]
  let switch := fun n => ({ dst := n, form := 0x13, params := p } : Msg)
  let s5 := a.acked.mergeSort.foldl (fun s n => sendMsg s (switch n)) s4
  let s6 := if s5.range.paired then a.acked.mergeSort.foldl sendPairKey s5 else s5
  let s7 := finishWaits (putRecord (sendShadow s6) 2) (fun w => w.kind == .epochAdvance false) .ok
    (resultOf [(8, a.epoch.toNat)])
  let next := s7.cmd.waits.map fun w =>
    if w.kind == .epochAdvance true then { w with kind := .epochAdvance false } else w
  endReform { s7 with cmd := { s7.cmd with waits := next } }

/-- The advance aborts for lack of a majority (R365). -/
def abortAdvance (s : State) (a : Advance) : State :=
  leaveRange ((others s a.keep).foldl (fun s n =>
    sendMsg s { dst := n, form := 0x14, params := paramsOf [(16, a.epoch.toNat)] }) s)

/-- Commit with a majority of the previous epoch's members, or abort; where the drawn key or the current one fails its
check there is nothing to commit (R259, R260). A chip that the failure of its range key has quarantined is out of the range (R31). -/
def settleAdvance (s : State) (a : Advance) : State :=
  if 2 * (a.acked.length + 1) ≤ s.range.members.length then abortAdvance s a
  else match readBad s [2, a.slot] with
    | some t => if t.range.memb == .quarantined then t else abortAdvance t a
    | none => commitAdvance s a

/-- The wait of an advance ends: at first once every node has answered OK, in a resend once every node has answered
(R365). -/
def waitOver (s : State) (a : Advance) : Bool :=
  (others s a.keep).all (if a.round == 0 then a.acked else a.answered).contains

/-- An advance whose wait is over is settled. -/
def checkAdvance (s : State) : State :=
  match s.range.adv with
  | none => s
  | some a => if waitOver s a then settleAdvance s a else s

end Sys2Proof.Machine
end

