-- ==== Sys2Proof/Machine/CmdRange.lean ====
section
/-! DEFINITION. Commands of range membership, and the messages of joining and leaving (02 R28 to R36, 13 R355 to
R360). -/

namespace Sys2Proof.Machine

/-! ## RANGE_JOIN FORM (R357) -/

/-- A run of bytes in pages LIVE under PID 0 with TRD: the read right of the SCU's master port (R124, R357). -/
def scuReadable (s : State) (off len : Nat) : Bool :=
  off + len ≤ 0x1E000000000 && memServes s &&
  (len == 0 || spanAll (pageOf off) (pageOf (off + len - 1) - pageOf off + 1) fun p =>
    !potBadPage s p && (pot s p).state == .live && (pot s p).pid == 0 && (pot s p).rights.getLsbD rTRD)

/-- The chip may belong to a range of this kind (R32, R266, R357). -/
def lcJoin (s : State) (test : Bool) : Bool := s.fuse.lcs == .fielded || (s.fuse.lcs == .integrator && test)

/-- Header of an accepted firmware set. -/
def afsHeadOk (h : Bytes) : Bool :=
  slice h 0 4 == asc "QAFS" && le h 4 1 == 1 && 1 ≤ le h 5 1 && le h 5 1 ≤ 64 && le h 6 2 == 0

/-- Result of RANGE_JOIN. -/
def joinResult (s : State) : BitVec 192 :=
  resultOf [(8, s.range.rangeId.toNat), (16, s.range.nodeId), (20, s.range.epoch.toNat)]

/-- The chip is Summit of a new range at epoch 1. -/
def formRange (s : State) (node : Nat) (minSvn : BitVec 32) (test : Bool) (afs : Bytes) : State :=
  let a := drawBytes s 8
  let k := drawRk a.1
  let s1 := writeRaw k.1 2 k.2 rangePolicy
  let s2 := { s1 with range := { s1.range with
    role := .summit, test := test, nodeId := node, rangeId := BitVec.ofNat 64 (leNat a.2), epoch := 1, summit := node
    shoulder := none, members := [selfMember s node 1], minSvn := minSvn, afs := afs
    heardAt := now s, openAt := now s, beatAt := now s, advanced := now s } }
  setMemb (clearKept s2) .member

/-- Checks 6 and 7 of the accepted firmware set, whose header the first read delivers (R357). -/
def afsCheck (s : State) (p : Pkt) (m : List ReadIn) : Option Status :=
  let base := parm p 24 48
  match firstRead m 8 with
  | none => none
  | some h =>
    if !afsHeadOk h then some .errParam
    else if scuReadable s (base + 8) (48 * le h 5 1) then none else some .errPerm

/-- RANGE_JOIN FORM: the first read delivers the header of the set, the second its measurements. -/
def runJoinForm (s : State) (_ : Ticket) (p : Pkt) (m : List ReadIn) : Res :=
  if s.range.memb != .unbound || jtagScuActive s || s.keys.entFailed then .fail .errState
  else match firstRead m 8 with
    | none => .fail .errIntegrity
    | some h => match firstRead (m.drop 1) (48 * le h 5 1) with
      | none => .fail .errIntegrity
      | some b =>
        let s1 := formRange s (parm p 16 16) (BitVec.ofNat 32 (parm p 20 32)) (parmBit p 19 1) (h ++ b)
        .ok s1 (joinResult s1)

/-- Node IDs have 14 bits (R30). -/
def nodeOk (p : Pkt) : Bool := parm p 16 16 < 16384

/-- RANGE_JOIN (0x01) FORM. -/
def opJoinForm : Op where
  opcode := 0x01
  form := 1
  named := [(16, 0, 16), (19, 1, 1), (20, 0, 32), (24, 0, 48)]
  whole _ := true
  rings := opOnly
  pre s _ p :=
    if !nodeOk p then some .errParam else if scuReadable s (parm p 24 48) 8 then none else some .errPerm
  preMem := afsCheck
  reads s _ p m :=
    let base := parm p 24 48
    if s.range.memb != .unbound || jtagScuActive s || s.keys.entFailed then []
    else { off := base, len := 8 } :: ((firstRead m 8).map fun h => ({ off := base + 8, len := 48 * le h 5 1 } : OwnRead)).toList
  lc s p := lcJoin s (parmBit p 19 1)
  run := runJoinForm

/-- RANGE_JOIN FORM. -/
def execRangeJoinForm (c : Cmd) (s : State) : Result := .next (issue opJoinForm s c)

/-! ## RANGE_JOIN JOIN (R358) -/

/-- Send JOIN_REQ. -/
def sendJoinReq (s : State) : State :=
  match s.range.join with
  | none => s
  | some j => sendReq s { dst := 0, via := j.port, opcode := 0x01, form := 0x11
                          params := paramsOf [(16, j.nodeId), (18, b2n j.shoulder)] } .join

/-- RANGE_JOIN JOIN. -/
def runJoinJoin (s : State) (_ : Ticket) (p : Pkt) (_ : List ReadIn) : Res :=
  let port := parm p 18 8
  if s.range.memb != .unbound || (link s port).state != .admitting || jtagScuActive s then .fail .errState
  else
    let j : Joining := { port := port, nodeId := parm p 16 16, shoulder := parmBit p 19 0, at_ := now s }
    let s1 := setMemb { s with range := { s.range with join := some j } } .joining
    .wait (sendJoinReq s1) 0 .rangeJoin

/-- RANGE_JOIN (0x01) JOIN. -/
def opJoinJoin : Op where
  opcode := 0x01
  named := [(16, 0, 16), (18, 0, 8), (19, 0, 1)]
  whole _ := true
  rings := opOnly
  pre _ _ p := if nodeOk p && parm p 18 8 < 36 then none else some .errParam
  lc s _ := lcJoin s true
  run := runJoinJoin

/-- RANGE_JOIN JOIN. -/
def execRangeJoinJoin (c : Cmd) (s : State) : Result := .next (issue opJoinJoin s c)

/-! ## RANGE_LEAVE, RANGE_EPOCH ADVANCE, RANGE_STATUS -/

/-- A tenant partition exists (R31). -/
def tenantExists (s : State) : Bool := s.part.parts.any fun e => e.2.state != .free

/-- RANGE_LEAVE (R31): a Summit leaves only as the last member; any other member tells the Summit and waits. -/
def runRangeLeave (s : State) (_ : Ticket) (_ : Pkt) (_ : List ReadIn) : Res :=
  if !inRange s || tenantExists s then .fail .errState
  else if s.range.role == .summit then
    if s.range.memb == .member && (others s (nodes s)).isEmpty then .ok (leaveRange s) else .fail .errState
  else
    let s1 := setMemb { s with range := { s.range with leaveAt := some (now s) } } .leaving
    .wait (sendReq s1 { dst := s.range.summit, opcode := 0x01, form := 0x16 } .leave) 0 .rangeLeave

/-- RANGE_LEAVE (0x02). -/
def opRangeLeave : Op where
  opcode := 0x02
  whole _ := true
  rings := opOnly
  run := runRangeLeave

/-- RANGE_LEAVE. -/
def execRangeLeave (c : Cmd) (s : State) : Result := .next (issue opRangeLeave s c)

/-- RANGE_EPOCH ADVANCE (R29, R360): the advance is due at once; during a running one, the next. -/
def runEpochAdvance (s : State) (_ : Ticket) (_ : Pkt) (_ : List ReadIn) : Res :=
  let running := s.range.adv.isSome
  if !isSummit s || !(s.range.memb == .member || running) then .fail .errState
  else if s.keys.entFailed then .fail .errState
  else if s.range.epoch.toNat + b2n running ≥ 0x3FFFFFFF then .fail .errResource
  else .wait { s with range := { s.range with advNow := true } } 0 (.epochAdvance running)

/-- RANGE_EPOCH (0x03) ADVANCE. -/
def opEpochAdvance : Op where
  opcode := 0x03
  whole _ := true
  rings n := opOnly n || n == 32
  run := runEpochAdvance

/-- RANGE_EPOCH ADVANCE. -/
def execRangeEpochAdvance (c : Cmd) (s : State) : Result := .next (issue opEpochAdvance s c)

/-- Result of RANGE_STATUS: all 0 when UNBOUND. -/
def rangeStatus (s : State) : BitVec 192 :=
  let r := s.range
  if r.memb == .unbound then 0
  else resultOf [(8, r.rangeId.toNat), (16, r.members.length), (18, r.summit), (20, nodeCode r.shoulder),
    (22, membCode r.memb), (23, roleCode r.role), (24, r.epoch.toNat)]

/-- RANGE_STATUS (0x04). -/
def opRangeStatus : Op where
  opcode := 0x04
  whole _ := true
  rings := opTenant
  run s _ _ _ := .ok s (rangeStatus s)

/-- RANGE_STATUS. -/
def execRangeStatus (c : Cmd) (s : State) : Result := .next (issue opRangeStatus s c)

/-! ## Relaying (R358; which request an answer answers, DESIGN CHOICE, log entry 43) -/

/-- A joiner's message came by one of this member's relays. -/
def fromRelay (s : State) (m : RMsg) : Bool := decide (m.via < 36) && (relayOf s m.via).isSome

/-- The node ID that a joiner's request is about: JOIN_REQ names it, and the relay keeps it. -/
def askedNode (s : State) (m : RMsg) (form : BitVec 8) : Nat :=
  if form == 0x11 then mp m 16 2 else ((relayOf s m.via).map (·.node)).getD 0xFFFF

/-- Requests relayed that may still have an answer: the joiner has one at a time, which fails 10 ms after it was first sent
(R355). -/
def liveAsks (s : State) : List RelayAsk :=
  s.range.relayQ.filter fun q => decide (now s < q.at_ + 10000) && (relayOf s q.port).isSome

/-- Send a joiner's message on to the Summit. -/
def relayUp (s : State) (m : RMsg) (form : BitVec 8) : State × List Msg :=
  if fromRelay s m && inRange s then
    let n := askedNode s m form
    let q : RelayAsk := { port := m.via, form := form, node := n, at_ := now s }
    ({ s with range := { s.range with
        relays := s.range.relays.map fun k => if k.port == m.via then { k with node := n } else k
        relayQ := ((liveAsks s).filter fun x => x.port != m.via) ++ [q] } },
      [{ dst := s.range.summit, opcode := 0x01, form := form, params := m.params, data := m.data }])
  else (s, [])

/-- An answer fits a request: JOIN_NONCE a JOIN_REQ, JOIN_ADMIT the JOIN_EVID of the node that it names. -/
def answers (m : RMsg) (form : BitVec 8) (q : RelayAsk) : Bool :=
  if form == 0x12 then q.form == 0x11
  else if form == 0x14 then q.form == 0x13 && le m.data 8 2 == q.node
  else true

/-- Send the Summit's answer on to the joiner whose request it fits and has waited longest. -/
def relayDown (s : State) (m : RMsg) (form : BitVec 8) : State × List Msg :=
  let l := liveAsks s
  match l.find? (answers m form) with
  | none => ({ s with range := { s.range with relayQ := l } }, [])
  | some q => ({ s with range := { s.range with relayQ := l.filter fun x => x != q } },
      [{ dst := 0, via := q.port, opcode := 0x01, form := form, params := m.params, data := m.data }])

/-- The message came from the range that this chip is joining. -/
def forJoin (s : State) (m : RMsg) : Bool := match s.range.join with
  | some j => s.range.memb == .joining && j.port == m.via
  | none => false

/-- A status by its code (R240); `none` for OK and codes that name none. -/
def failureOf (n : Nat) : Option Status :=
  [Status.busy, .errOpcode, .errParam, .errState, .errPerm, .errResource, .errIntegrity, .errStale, .errLost,
    .authFail, .consumed, .atomicUnknown, .errLifecycle, .errUnattested].find? fun x => statusCode x == n

/-! ## JOIN_REQ and JOIN_NONCE -/

/-- JOIN_REFUSE with a status. -/
def refuseJoin (m : RMsg) (st : Status) : Msg := backTo m 0x01 0x15 (paramsOf [(16, statusCode st)])

/-- An advance or a takeover is running (R32, R367). -/
def advancing (s : State) : Bool := s.range.adv.isSome || s.range.takeover

/-- A joiner takes its place among at most four that come the same way. -/
def putJoiner (l : List Joiner) (j : Joiner) : List Joiner :=
  let mine := l.filter fun x => x.src == j.src && x.via == j.via
  (l.filter fun x => !(x.src == j.src && x.via == j.via)) ++ mine.drop (mine.length - 3) ++ [j]

/-- The Summit's answer to JOIN_REQ (R32, R35). -/
def summitJoinReq (s : State) (m : RMsg) : State × List Msg :=
  let node := mp m 16 2
  let sh := m.params.getLsbD 16
  if advancing s then (s, [refuseJoin m .busy])
  else if sh && rackOf node == rackOf s.range.nodeId then (s, [refuseJoin m .errParam])
  else if s.keys.entFailed then (s, [refuseJoin m .errState])
  else
    let d := draw s
    let s1 := d.1
    let j : Joiner := { src := m.src, via := m.via, nodeId := node, shoulder := sh, nonce := d.2 }
    ({ s1 with range := { s1.range with joiners := putJoiner s1.range.joiners j } },
      [backTo m 0x01 0x12 (paramsOf [(16, num (keyBytes d.2))])])

/-- A Summit's draw waits for a passing health-test window: the request is left for its resend (R275, R355). -/
def drawLate (s : State) : Bool := isSummit s && s.keys.entConsec != 0 && !s.keys.entFailed

/-- JOIN_REQ at the Summit, or at a member that relays it. -/
def onJoinReq (s : State) (m : RMsg) : State :=
  if drawLate s then s else onMsg s m fun s => if isSummit s then summitJoinReq s m else relayUp s m 0x11

/-- JOIN_REQ. -/
def execJoinReq (m : RMsg) (s : State) : Result :=
  ringMsg formJoinReq true m (s := s) (onJoinReq · m)

/-- JOIN_NONCE: the joiner returns JOIN_EVID; a relay sends the nonce on. -/
def onJoinNonce (s : State) (m : RMsg) : State :=
  onMsg s m fun s =>
    if forJoin s m then
      let s0 := idKeys s
      let s1 := dropSent s0 fun w => w == .join
      (sendReq s1 { dst := 0, via := m.via, opcode := 0x01, form := 0x13
                    data := evidence s0 0 (mpBytes m 16 32) ++ certs s0 } .join, [])
    else relayDown s m 0x12

/-- JOIN_NONCE. -/
def execJoinNonce (m : RMsg) (s : State) : Result :=
  ringMsg formJoinNonce true m (s := s) (onJoinNonce · m)

/-! ## JOIN_EVID and JOIN_ADMIT (layout of JOIN_ADMIT DESIGN CHOICE, log entry 44) -/

/-- The membership list as node IDs. -/
def nodeList (s : State) : Bytes := (nodes s).flatMap fun n => leBytes 2 n

/-- JOIN_ADMIT up to the ephemeral key: fixed fields, accepted firmware set, membership list, certificates. -/
def admitHead (s : State) (node : Nat) : Bytes :=
  let r := s.range
  leBytes 8 r.rangeId.toNat ++ leBytes 2 node ++ leBytes 4 r.epoch.toNat ++ leBytes 2 r.summit ++
  leBytes 2 (nodeCode r.shoulder) ++ leBytes 4 r.minSvn.toNat ++ leBytes 1 (b2n r.test + 2 * b2n (pairHeld s)) ++
  leBytes 1 (lcsCode s.fuse.lcs) ++ leBytes 4 r.afs.length ++ leBytes 4 r.members.length ++
  leBytes 4 (certs s).length ++ r.afs ++ nodeList s ++ certs s

/-- The key that wraps the range key for a joiner (R358). -/
def admitWrap (head zec zkem : Bytes) : Key := keyOf (hkdf (sha head) (zec ++ zkem) (asc "range-key") 32)

/-- Build JOIN_ADMIT for a joiner whose certificate chains are given; the state after the draws, and the bytes. -/
def makeAdmit (s0 : State) (node : Nat) (chains : Bytes) : State × Bytes :=
  let s := idKeys s0
  let pubs := Config.chainTransport chains
  let e := drawEc s
  let q := draw e.1
  let c := Config.kemEncap pubs.2 q.2
  let head := admitHead s node ++ slice (Config.ecPub e.2) 0 97 ++ slice c.1 0 1568
  let w := admitWrap head (slice (Config.ecdh e.2 pubs.1) 0 48) (slice c.2 0 32)
  let body := head ++ kwWrap w (keyBytes (slot s 2).key) ++
    (if pairHeld s then kwWrap w (keyBytes (slot s 7).key) else [])
  (q.1, body ++ aliasSign s (asc "QBJOIN") body)

/-- The conditions of R32 on a joiner's evidence, in their order. -/
def joinCheck (s : State) (j : Joiner) (b : Bytes) : Option Status :=
  let f := factsOf b
  let rest := s.range.members.filter fun x => x.node != j.nodeId
  if !lcsAdmits s f.lcs then some .errLifecycle
  else if !evidenceGood b (keyBytes j.nonce) || !inAfs s f.m || f.svn < s.range.minSvn.toNat then some .errUnattested
  else if rest.length ≥ 16384 || j.nodeId ≥ 16384 ||
      s.range.members.any (fun x => x.node == j.nodeId && x.devId != BitVec.ofNat 128 f.devId) ||
      (rest.filter fun x => rackOf x.node == rackOf j.nodeId).length ≥ 64 then some .errResource
  else if advancing s then some .busy
  else none

/-- Record an admitted member; the first one of another rack becomes the Shoulder of a range that has none (R34,
R359). -/
def recordMember (s : State) (j : Joiner) (b : Bytes) : State :=
  let f := factsOf b
  let r := s.range
  let x : Member := {
    node := j.nodeId, lcs := BitVec.ofNat 8 f.lcs, svn := BitVec.ofNat 8 f.svn
    fuseSvn := BitVec.ofNat 8 f.fuseSvn, devId := BitVec.ofNat 128 f.devId, m := f.m
    admitted := r.epoch.setWidth 32, evidAt := now s, chains := b.drop evidLen }
  { s with range := { r with
    members := insertMember x r.members
    shoulder := if r.shoulder.isNone && rackOf j.nodeId != rackOf r.nodeId then some j.nodeId else r.shoulder
    shadowAll := r.shadowAll || (r.shoulder.isNone && rackOf j.nodeId != rackOf r.nodeId)
    reasonAt := some (r.reasonAt.getD (now s)), admits := now s :: r.admits } }

/-- Admit a joiner: JOIN_ADMIT at once where the range had no Shoulder, else once the shadow is acknowledged (R359). -/
def admitJoiner (s : State) (m : RMsg) (j : Joiner) : State × List Msg :=
  let chains := m.data.drop evidLen
  let s1 := recordMember s j m.data
  let waits := match s.range.shoulder with
    | some d => d != j.nodeId
    | none => false
  let gone := fun (s : State) => s.range.joiners.filter fun x => x != j
  if waits then
    let s2 := sendShadow s1
    let j1 := { j with evidSeq := m.seq, adm := some (chains, s2.range.shadowNum) }
    ({ s2 with range := { s2.range with joiners := gone s2 ++ [j1] } }, [])
  else
    let a := makeAdmit s1 j.nodeId chains
    let s2 := sendShadow a.1
    ({ s2 with range := { s2.range with joiners := gone s2 } }, [backTo m 0x01 0x14 0 a.2])

/-- Slots that JOIN_ADMIT reads. -/
def admitSlots (s : State) : List Nat := if pairHeld s then [2, 7] else [2]

/-- JOIN_ADMIT goes to the joiners whose shadow has been acknowledged (R359), with the range key that is current now
(R360); where that fails its check, or no draw can be made, the joiner has to ask again. -/
def releaseAdmits (s : State) : State :=
  let free := fun (j : Joiner) => match j.adm with
    | some (_, n) => shadowDone s n
    | none => false
  let out := s.range.joiners.filter free
  let s1 := { s with range := { s.range with joiners := s.range.joiners.filter fun j => !free j } }
  out.foldl (fun s j => match j.adm, readBad s (admitSlots s) with
    | _, some t => t
    | some (c, _), none =>
      if !drawOk s then s
      else
        let a := makeAdmit s j.nodeId c
        answerLate a.1 j.src j.via j.evidSeq { dst := j.src, via := j.via, opcode := 0x01, form := 0x14, data := a.2 }
    | none, none => s) s1

/-- JOIN_EVID at the Summit, which knows the joiner by its nonce. -/
def summitJoinEvid (s : State) (m : RMsg) : State × List Msg :=
  let nonce := slice m.data 16 32
  match s.range.joiners.find? fun j =>
      j.src == m.src && j.via == m.via && keyBytes j.nonce == nonce && j.adm.isNone with
  | none => (s, [])
  | some j => match joinCheck s j m.data with
    | some st => ({ s with range := { s.range with joiners := s.range.joiners.filter fun x => x != j } },
        [refuseJoin m st])
    | none => match readBad s (admitSlots s) with
      | some t => (t, [])
      | none => if s.keys.entFailed then (s, [refuseJoin m .errState]) else admitJoiner s m j

/-- Admissions of the last second. -/
def recentAdmits (s : State) : List Nat := s.range.admits.filter fun t => decide (now s < t + 1000000)

/-- JOIN_EVID: the Summit admits at most 100 chips per second, and a joiner beyond that has to ask again (R358). -/
def onJoinEvid (s0 : State) (m : RMsg) : State :=
  let s := { s0 with range := { s0.range with admits := recentAdmits s0 } }
  if (isSummit s && s.range.admits.length ≥ 100) || drawLate s then s
  else onMsg s m fun s => if isSummit s then summitJoinEvid s m else relayUp s m 0x13

/-- JOIN_EVID. -/
def execJoinEvid (m : RMsg) (s : State) : Result :=
  ringMsg formJoinEvid true m (s := s) (onJoinEvid · m)

/-- What JOIN_ADMIT carries, once verified and unwrapped. -/
structure Admission where
  head : Bytes
  afs  : Bytes
  list : Bytes
  rk   : Key
  pk   : Option Key

/-- Verify JOIN_ADMIT and unwrap its keys; `none` where the signatures, the chain or an unwrap fail. -/
def openAdmit (s : State) (b : Bytes) : Option Admission :=
  let na := le b 24 4
  let nm := 2 * le b 28 4
  let nc := le b 32 4
  let cert := slice b (36 + na + nm) nc
  let eph := 36 + na + nm + nc
  let w := eph + 97 + 1568
  let two := le b 22 1 / 2 % 2 == 1
  let fin := w + 40 + (if two then 40 else 0)
  if b.length != fin + 4723 || !Config.chainOk cert ||
      !aliasVerify cert (asc "QBJOIN") (b.take fin) (b.drop fin) || !Config.ecValid (slice b eph 97) then none
  else match Config.kemDecap (xportKem s) (slice b (eph + 97) 1568) with
    | none => none
    | some z =>
      let wk := admitWrap (b.take w) (slice (Config.ecdh (xportEc s) (slice b eph 97)) 0 48) (slice z 0 32)
      match unwrapped wk (slice b w 40), unwrapped wk (slice b (w + 40) 40) with
      | some k, pk =>
        if two && pk.isNone then none
        else some { head := b.take 36, afs := slice b 36 na, list := slice b (36 + na) nm, rk := k
                    pk := if two then pk else none }
      | none, _ => none

/-- Nodes of a membership list. -/
def nodesOf (b : Bytes) : List Nat := (List.range (b.length / 2)).map fun i => le b (2 * i) 2

/-- The joiner becomes a member; its ADMIT port closes (R31, R62, R358). -/
def becomeMember (s : State) (j : Joining) (a : Admission) : State :=
  let h := a.head
  let s1 := sendClose (dropSent s fun w => w == .join) j.port
  let s2 := writeRaw s1 2 a.rk rangePolicy
  let s3 := match a.pk with
    | some k => writeRaw s2 7 k pairPolicy
    | none => s2
  let node := le h 8 2 % 16384
  let sh := nodeNamed (le h 16 2)
  let s4 := { s3 with range := { s3.range with
    join := none, rangeId := BitVec.ofNat 64 (le h 0 8), nodeId := node, epoch := BitVec.ofNat 30 (le h 10 4)
    summit := le h 14 2, shoulder := sh, role := if sh == some node then .shoulder else .member
    minSvn := BitVec.ofNat 32 (le h 18 4), test := le h 22 1 % 2 == 1, paired := a.pk.isSome
    members := (nodesOf a.list).map fun n => { node := n }
    afs := a.afs, heardAt := now s, openAt := now s } }
  let s5 := setMemb (clearKept s4) .member
  finishWaits s5 (fun w => w.kind == .rangeJoin) .ok (joinResult s5)

/-- JOIN_ADMIT at the joiner (R358 step 5). -/
def takeAdmit (s0 : State) (j : Joining) (b : Bytes) : State :=
  let s := idKeys s0
  match openAdmit s b with
  | none => failJoin s .authFail
  | some a =>
    if le b 23 1 == 2 || (le b 23 1 == 1 && le b 22 1 % 2 == 1) then becomeMember s j a
    else failJoin s .errUnattested

/-- JOIN_ADMIT: the joiner takes it; a relay sends it on. -/
def onJoinAdmit (s : State) (m : RMsg) : State :=
  onMsg s m fun s => match s.range.join with
    | some j => if forJoin s m then (takeAdmit s j m.data, []) else (s, [])
    | none => relayDown s m 0x14

/-- JOIN_ADMIT. -/
def execJoinAdmit (m : RMsg) (s : State) : Result :=
  ringMsg formJoinAdmit true m (s := s) (onJoinAdmit · m)

/-- JOIN_REFUSE: RANGE_JOIN completes with the Summit's status; a relay sends it on. -/
def onJoinRefuse (s : State) (m : RMsg) : State :=
  onMsg s m fun s =>
    if forJoin s m then match failureOf (mp m 16 1) with
      | some st => (failJoin s st, [])
      | none => (s, [])
    else relayDown s m 0x15

/-- JOIN_REFUSE. -/
def execJoinRefuse (m : RMsg) (s : State) : Result :=
  ringMsg formJoinRefuse true m (s := s) (onJoinRefuse · m)

/-- JOIN_TIMEOUT (R31). -/
def execJoinTimeout (s : State) : Result :=
  match s.range.join with
  | some j => if j.at_ + 10000000 ≤ now s then .next (failJoin s .busy) else .next s
  | none => .next s

/-! ## LEAVE (R31, R360) -/

/-- LEAVE: the Summit acknowledges at once and removes the leaver at the next advance. -/
def onLeave (s : State) (m : RMsg) : State :=
  onMsg s m fun s =>
    if isSummit s && (nodes s).contains m.src && m.src != s.range.nodeId then
      let s1 := markRemoved s m.src false
      ({ s1 with range := { s1.range with reasonAt := some (s1.range.reasonAt.getD (now s)) } },
        [backTo m 0x01 0x17])
    else (s, [])

/-- LEAVE. -/
def execLeave (m : RMsg) (s : State) : Result :=
  ringMsg formLeave true m (s := s) (onLeave · m)

/-- LEAVE_ACK. -/
def execLeaveAck (m : RMsg) (s : State) : Result :=
  ringMsg formLeaveAck true m (s := s) (fun s => onMsg s m fun s =>
    if s.range.memb == .leaving && m.src == s.range.summit then (leaveRange (dropSent s fun w => w == .leave), []) else (s, []))

/-- LEAVE_TIMEOUT (R31). -/
def execLeaveTimeout (s : State) : Result :=
  match s.range.leaveAt with
  | some t => if s.range.memb == .leaving && t + 1000000 ≤ now s then .next (leaveRange s) else .next s
  | none => .next s

end Sys2Proof.Machine
end

