-- ==== Sys2Proof/Machine/IronOps.lean ====
section
/-! DEFINITION. Iron contexts: what its algorithms do to a context, and where contexts end (12). -/

namespace Sys2Proof.Machine

/-! ## Contexts and lanes (R339, R345, R346) -/

/-- An Iron context number of a PID. -/
def ironCtx (s : State) (pid n : Nat) : IronCtx := tget {} s.iron.ctxs (pid * 16 + n)

/-- Write an Iron context number. -/
def setIron (s : State) (pid n : Nat) (c : IronCtx) : State :=
  { s with iron := { s.iron with ctxs := tset {} s.iron.ctxs (pid * 16 + n) c } }

/-- Bound context numbers of a PID, and of the chip (R345). -/
def boundOf (s : State) (pid : Nat) : Nat := (s.iron.ctxs.filter fun e => e.1 / 16 == pid && ironBound e.2).length
def boundAll (s : State) : Nat := tcount s.iron.ctxs ironBound

/-- A lane. -/
def lane (s : State) (n : Nat) : Lane := tget {} s.iron.lanes n

/-- Write a lane. -/
def setLane (s : State) (n : Nat) (l : Lane) : State :=
  { s with iron := { s.iron with lanes := tset {} s.iron.lanes n l } }

/-- A lane in service. -/
def laneUp (s : State) (n : Nat) : Bool := !(lane s n).oos

/-- The lane that takes a command (R339): the one in service; with both in service the choice is free. -/
def laneFor (s : State) (num : Nat) : Nat :=
  if !laneUp s 0 then 1 else if !laneUp s 1 then 0 else (Config.lane num).val

/-- Neither lane is in service. -/
def noLane (s : State) : Bool := !laneUp s 0 && !laneUp s 1

/-- Buffers a lane holds for GCM decryptions (R344). -/
def heldBy (s : State) (n : Nat) : Nat := tcount s.iron.ctxs fun c => c.state == .held && c.heldBuf / 4 == n

/-- An output buffer of a lane that no context holds (DESIGN CHOICE: the lowest, log entry 10). -/
def freeBuf (s : State) (n : Nat) : Nat :=
  lowest (fun k => s.iron.ctxs.any fun e => e.2.state == .held && e.2.heldBuf == k) 3 (4 * n)

/-- A free hardware context of the 14 that serve tenants (DESIGN CHOICE: the lowest, log entry 10). -/
def freeHw (s : State) : Nat := lowest (fun k => s.iron.ctxs.any fun e => ironBound e.2 && e.2.hw == k) 13 0

/-- The plaintext that a HELD context's buffer has. -/
def heldBytes (s : State) (c : IronCtx) : Bytes := tget [] s.iron.bufs c.heldBuf

/-- Write an output buffer; zeroed, it holds nothing. -/
def putBuf (s : State) (k : Nat) (b : Bytes) : State := { s with iron := { s.iron with bufs := tset [] s.iron.bufs k b } }

/-- A context number ends: it is FREE, and a buffer it held is zeroed (R343, R344). -/
def ironEnd (s : State) (pid n : Nat) : State :=
  let c := ironCtx s pid n
  setIron (if c.state == .held then putBuf s c.heldBuf [] else s) pid n (ironFree c)

/-- A function reset: every context number of the PID is FREE, saved images survive (R346). -/
def ironReset (s : State) (pid : Nat) : State := ironEndAll s fun k c => k / 16 == pid && c.state != .free

/-- A teardown: every context number of the PID is FREE and no image survives. -/
def ironTeardown (s : State) (pid : Nat) : State :=
  let s1 := ironReset s pid
  { s1 with iron := { s1.iron with ctxs := s1.iron.ctxs.filter fun e => e.1 / 16 != pid } }

/-! ## MODE (R340) -/

/-- ALG. -/
def ialg (m : BitVec 8) : Nat := m.toNat % 16
/-- DEC. -/
def idec (m : BitVec 8) : Bool := m.getLsbD 4
/-- Bytes of an XTS data unit. -/
def iunit (m : BitVec 8) : Nat := if m.toNat / 32 % 4 == 0 then 512 else 4096

/-- MODE is defined. -/
def modeOk (m : BitVec 8) : Bool :=
  let a := ialg m
  !m.getLsbD 7 && 1 ≤ a && a ≤ 6 &&
  (if a == 3 then m.toNat / 32 % 4 ≤ 1 else m.toNat / 32 % 4 == 0) && (!idec m || a == 1 || a == 3 || a == 4)

/-- ALG writes a digest at FINAL. -/
def ihash (m : BitVec 8) : Bool := ialg m == 5 || ialg m == 6

/-! ## Algorithms (R341, R342) -/

/-- GHASH absorbs bytes: full blocks into the accumulator, the rest pending. -/
def gAbsorb (h acc : Block) (buf : Bytes) : Block × Bytes :=
  let n := buf.length / 16
  ((blocks (buf.take (16 * n))).foldl (fun y b => gmul (y ^^^ b) 128 h 0) acc, buf.drop (16 * n))

/-- GHASH takes a pending block, filled with zeros. -/
def gFlush (h acc : Block) (buf : Bytes) : Block :=
  if buf.isEmpty then acc else gmul (acc ^^^ blk (slice buf 0 16)) 128 h 0

/-- The counter block `n` after another: GCM counts in the last 32 bits, CTR in all 128 (R341). -/
def cbAdd (gcm : Bool) (c : Block) (n : Nat) : Block :=
  if gcm then (c.extractLsb' 32 96) ++ (c.extractLsb' 0 32 + BitVec.ofNat 32 n) else c + BitVec.ofNat 128 n

/-- Keystream of `n` blocks from a counter block on. -/
def ironStream (k : Key) (gcm : Bool) (c : Block) (n : Nat) : Bytes :=
  (List.range n).flatMap fun i => blkBytes (Config.aes256 k (cbAdd gcm c i))

/-- Counter-mode output for bytes that start `part` bytes into the block of `c.cb`. -/
def ironCrypt (k : Key) (gcm : Bool) (c : IronCtx) (part : Nat) (b : Bytes) : Bytes :=
  xorBytes b ((ironStream k gcm c.cb ((part + b.length) / 16 + 1)).drop part)

/-- K2 of XTS (R341). -/
def xtsK2 (k : Key) : Key :=
  let c := asc "QBIRON-XTS-K2"
  keyOf (blkBytes (Config.aes256 k (blk (c ++ [0, 0, 0]))) ++ blkBytes (Config.aes256 k (blk (c ++ [0, 0, 1]))))

/-- XTS over consecutive data units of `u` bytes from unit number `n` on. -/
def ironXts (k : Key) (dec : Bool) (u : Nat) : Nat → Nat → Bytes → Bytes
  | 0, _, _ => []
  | f + 1, n, b =>
    if b.isEmpty then []
    else
      let x := b.take u
      (if dec then xtsDec k (xtsK2 k) (leBytes 16 n) x else xtsEnc k (xtsK2 k) (leBytes 16 n) x) ++
      ironXts k dec u f (n + 1) (b.drop u)

/-- What a DATA update does: the context after, and the bytes for DST; `none` where a KW unwrap fails. -/
def ironData (k : Key) (c : IronCtx) (b : Bytes) : Option (IronCtx × Bytes) :=
  let c1 := { c with phase := 1, dataLen := c.dataLen + b.length }
  match ialg c.mode with
  | 1 =>
    let h := Config.aes256 k 0
    let part := if c.phase == 0 then 0 else c.part
    let acc := if c.phase == 0 then gFlush h c.acc c.pbuf else c.acc
    let pend := if c.phase == 0 then [] else c.pbuf
    let o := ironCrypt k true c part b
    let g := gAbsorb h acc (pend ++ if idec c.mode then b else o)
    some ({ c1 with cb := cbAdd true c.cb ((part + b.length) / 16), part := g.2.length, acc := g.1, pbuf := g.2 }, o)
  | 2 =>
    let o := ironCrypt k false c c.part b
    let part := (c.part + b.length) % 16
    let tail := (c.pbuf.take c.part) ++ o
    some ({ c1 with cb := cbAdd false c.cb ((c.part + b.length) / 16), part := part,
                    pbuf := tail.drop (tail.length - part) }, o)
  | 3 =>
    let u := iunit c.mode
    let n := leNat (blkBytes c.cb)
    some ({ c1 with cb := blk (leBytes 16 (n + b.length / u)) }, ironXts k (idec c.mode) u b.length n b)
  | 4 =>
    if idec c.mode then (kwUnwrap k b).map fun o => ({ c1 with phase := 2 }, o)
    else some ({ c1 with phase := 2 }, kwWrap k b)
  | 5 =>
    let x := shaAbsorb ⟨c.hash, c.buf⟩ b
    some ({ c1 with hash := x.h, buf := x.buf, part := x.buf.length }, [])
  | _ =>
    let x := spAbsorb ⟨c.keccak, c.part⟩ b
    some ({ c1 with keccak := x.st, part := x.pos }, [])

/-- What an AAD update does. -/
def ironAad (k : Key) (c : IronCtx) (b : Bytes) : IronCtx :=
  let g := gAbsorb (Config.aes256 k 0) c.acc (c.pbuf ++ b)
  { c with aadLen := c.aadLen + b.length, acc := g.1, pbuf := g.2, part := g.2.length }

/-- The tag of a GCM message that ends now. -/
def ironTag (k : Key) (c : IronCtx) : Block :=
  let h := Config.aes256 k 0
  let y := gFlush h c.acc c.pbuf
  let len := BitVec.ofNat 64 (8 * c.aadLen) ++ BitVec.ofNat 64 (8 * c.dataLen)
  gmul (y ^^^ len) 128 h 0 ^^^ Config.aes256 k (gcmJ0 c.iv)

/-- The digest of a hash context that ends now. -/
def ironDigest (c : IronCtx) : Bytes :=
  if ialg c.mode == 5 then shaEnd ⟨c.hash, c.buf⟩ c.dataLen else kmacEnd ⟨c.keccak, c.part⟩ 64

/-- A context as IRON_OPEN makes it (R341): `iv` is bytes 24 to 39 of the packet. -/
def ironInit (k : Key) (mode : BitVec 8) (key : BitVec 32) (iv : Bytes) : IronCtx :=
  let c : IronCtx := { state := .opened, mode := mode, key := key }
  match ialg mode with
  | 1 => { c with cb := cbAdd true (gcmJ0 iv) 1, iv := slice iv 0 12 }
  | 2 => { c with phase := 1, cb := blk iv }
  | 3 => { c with phase := 1, cb := blk iv }
  | 4 => { c with phase := 1 }
  | 5 => { c with phase := 1, hash := shaInit, dest := le iv 0 6 }
  | _ => { c with phase := 1, keccak := (kmacInit (keyBytes k) (slice iv 7 (le iv 6 1))).st, dest := le iv 0 6 }

/-! ## Images (R347, R348) -/

/-- Put bytes at a place of a byte string. -/
def putAt (b : Bytes) (off : Nat) (x : Bytes) : Bytes := slice b 0 off ++ x ++ b.drop (off + x.length)

/-- STATE of a context. -/
def stateImage (c : IronCtx) : Bytes :=
  let b := putAt (zeros 256) 0 (leBytes 1 c.mode.toNat ++ leBytes 1 c.phase ++ leBytes 1 c.part ++ [0] ++
    leBytes 4 c.key.toNat ++ leBytes 8 c.dataLen)
  if ialg c.mode == 5 then
    putAt (putAt (putAt b 24 (beBytes 64 c.hash.toNat)) 88 (slice c.buf 0 128)) 216 (leBytes 6 c.dest)
  else if ialg c.mode == 6 then putAt (putAt b 24 (leBytes 200 c.keccak.toNat)) 224 (leBytes 6 c.dest)
  else
    putAt b 16 (leBytes 8 c.aadLen ++ blkBytes c.cb ++ blkBytes c.acc ++ slice c.pbuf 0 16 ++ slice c.iv 0 12)

/-- The context that a STATE field describes. -/
def imageState (b : Bytes) : IronCtx :=
  let mode := BitVec.ofNat 8 (le b 0 1)
  let part := le b 2 1
  let c : IronCtx := { state := .opened, mode := mode, phase := le b 1 1, part := part
                       key := BitVec.ofNat 32 (le b 4 4), dataLen := le b 8 8 }
  if ialg mode == 5 then
    { c with hash := BitVec.ofNat 512 (beNat (slice b 24 64)), buf := slice b 88 part, dest := le b 216 6 }
  else if ialg mode == 6 then { c with keccak := BitVec.ofNat 1600 (leNat (slice b 24 200)), dest := le b 224 6 }
  else
    { c with aadLen := le b 16 8, cb := blk (slice b 24 16), acc := blk (slice b 40 16)
             pbuf := slice b 56 part, iv := if ialg mode == 1 then slice b 72 12 else [] }

/-- The Iron context-wrap key of a partition (R263). -/
def wrapKey (s : State) (pid : Nat) : Key :=
  deriveMem (slot s (tget {} s.keys.parts pid).root).key (asc "iron-wrap") (part s pid).ctag (part s pid).mepoch

/-- IV of a wrapped image. -/
def wrapIv (n seq : Nat) : Bytes := leBytes 1 n ++ zeros 3 ++ leBytes 8 seq

/-- The 296 bytes that IRON_SAVE writes. -/
def saveImage (s : State) (pid n seq : Nat) (c : IronCtx) : Bytes :=
  let p := part s pid
  let wrapped := s.fuse.lcs != .maker
  let hd := asc "QIRC" ++ [1] ++ leBytes 1 (b2n wrapped) ++ leBytes 1 n ++ [0] ++ leBytes 2 p.ctag.toNat ++ zeros 2 ++
    leBytes 4 p.mepoch.toNat ++ leBytes 8 seq
  if wrapped then
    let r := gcmSeal (wrapKey s pid) (wrapIv n seq) hd (stateImage c)
    hd ++ r.1 ++ blkBytes r.2
  else hd ++ stateImage c ++ (sha (hd ++ stateImage c)).take 16

/-- The STATE field that an image carries, `none` where its TAG does not verify (R347). -/
def openImage (s : State) (pid n : Nat) (b : Bytes) : Option Bytes :=
  let hd := slice b 0 24
  let body := slice b 24 256
  let tag := slice b 280 16
  if le b 5 1 != 0 then gcmOpen (wrapKey s pid) (wrapIv n (le b 16 8)) hd body (blk tag)
  else if (sha (hd ++ body)).take 16 == tag then some body else none

end Sys2Proof.Machine
end

