-- ==== Sys2Proof/Machine/CmdIron.lean ====
section
/-! DEFINITION. The commands of the Iron cipher service (12). -/

namespace Sys2Proof.Machine

/-- CTX of a command. -/
def ictxNo (p : Pkt) : Nat := parm p 16 8

/-- The context that a command names. -/
def ictxOf (s : State) (p : Pkt) : IronCtx := ironCtx s (tagPid p.ptag) (ictxNo p)

/-- CTX is from 0 to 15. -/
def ictxOk (p : Pkt) : Bool := ictxNo p < 16

/-- A key that Iron may use for a PID (R350). -/
def ironKeyOk (s : State) (h : BitVec 32) (pid : Nat) : Bool :=
  let p := (slot s (keyIdx h)).policy
  keyFits s (keyIdx h) .iron .iron pid && polTenant p

/-- The handle names a slot by PID, incarnation and IRON class (R262). -/
def ironNamed (s : State) (h : BitVec 32) (pid : Nat) : Bool :=
  h == keyHandle s pid (keyIdx h) && polClass (slot s (keyIdx h)).policy == classCode .iron &&
  polPid (slot s (keyIdx h)).policy == pid

/-- The key of a context. -/
def ctxKey (s : State) (c : IronCtx) : Key := (slot s (keyIdx c.key)).key

/-- The key slot that an algorithm reads through its key port, SHA-384 none; and the state where it fails its check, so that
the command ends with ERR_INTEGRITY (R259, R260). -/
def ctxBad (s : State) (mode : BitVec 8) (h : BitVec 32) : Option State :=
  if ialg mode == 5 then none else readBad s [keyIdx h]

/-- The PARTROOT of a PID fails its check as the context-wrap key is derived from it; an image in the clear needs none
(R259, R263, R266). -/
def wrapBad (s : State) (pid : Nat) : Option State :=
  if s.fuse.lcs == .maker then none else readBad s [(tget {} s.keys.parts pid).root]

/-- Datapaths A and B differ (R339): the command ends with ERR_INTEGRITY, SA_IRON_DUAL is raised and the
lane leaves service, for good at its second mismatch. -/
def dualFault (s : State) (n pid : Nat) : State :=
  let l := lane s n
  let l1 := { l with oos := true, missed := l.missed + 1, retired := l.missed ≥ 1 }
  let s1 := setLane { s with iron := { s.iron with dual := inc32 s.iron.dual } } n l1
  raiseAlarm s1 .ironDual pid (if (lane s1 0).retired && (lane s1 1).retired then .quarantine else .notice) 36 0x31

/-- Conclude an Iron computation that passed its checks: the result, or a mismatch. -/
def dualRes (dual : Bool) (s : State) (t : Ticket) (r : Res) : Res :=
  if dual then .failWith .errIntegrity 0 (dualFault s (laneFor s t.num) (tagPid t.ptag)) else r

/-! ## IRON_OPEN (R340, R341, R345) -/

/-- The IV field fits the algorithm (R341). -/
def ivOk (m : BitVec 8) (iv : Bytes) : Bool :=
  match ialg m with
  | 1 => le iv 12 4 == 0
  | 4 => leNat iv == 0
  | 5 => le iv 0 6 % 64 == 0 && le iv 0 6 < 0x1E000000000 && leNat (iv.drop 6) == 0
  | 6 => le iv 0 6 % 64 == 0 && le iv 0 6 < 0x1E000000000 && le iv 6 1 ≤ 9 && leNat (iv.drop (7 + le iv 6 1)) == 0
  | _ => true

/-- Check 12 of a binding: the PID's limit, then the hardware contexts (R345). -/
def bindable (s : State) (pid : Nat) : Option Status :=
  if boundOf s pid ≥ 4 then some .errResource else if boundAll s ≥ 14 then some .busy else none

/-- IRON_OPEN: its end-of-command context state is compared (R338), and a SAVED number's image can no longer be restored
(R346). -/
def runIronOpen (dual : Bool) (s : State) (t : Ticket) (p : Pkt) (_ : List ReadIn) : Res :=
  let pid := tagPid t.ptag
  let n := ictxNo p
  let h := BitVec.ofNat 32 (parm p 20 32)
  let mode := BitVec.ofNat 8 (parm p 17 8)
  let old := ironCtx s pid n
  if noLane s || ironBound old then .fail .errState
  else match bindable s pid with
    | some st => .fail st
    | none =>
      match ctxBad s mode h with
      | some t => .failWith .errIntegrity 0 t
      | none =>
        let c := ironInit (slot s (keyIdx h)).key mode h (parmBytes p 24 16)
        dualRes dual s t (.ok (setIron s pid n { c with
          hw := freeHw s, last := old.last, consumed := old.consumed || old.state == .saved }))

/-- IRON_OPEN (0x60). -/
def opIronOpen (dual : Bool) : Op where
  opcode := 0x60
  named := [(16, 0, 8), (17, 0, 8), (20, 0, 32), (24, 0, 128)]
  rings := tenantOnly
  handle s p := parm p 17 8 % 16 == 5 || ironNamed s (BitVec.ofNat 32 (parm p 20 32)) (tagPid p.ptag)
  pre s _ p :=
    let mode := BitVec.ofNat 8 (parm p 17 8)
    let h := BitVec.ofNat 32 (parm p 20 32)
    if !ictxOk p || !modeOk mode || !ivOk mode (parmBytes p 24 16) || (ialg mode == 5 && h != 0xFFFFFFFF) then
      some .errParam
    else if ialg mode != 5 && !ironKeyOk s h (tagPid p.ptag) then some .errPerm
    else none
  run := runIronOpen dual

/-- IRON_OPEN. -/
def execIronOpen (c : DualCmd) (s : State) : Result := .next (issue (opIronOpen c.dual) s c.cmd)

/-! ## IRON_UPDATE (R342, R344) -/

/-- SRC, DST and LEN of an update. -/
def isrc (p : Pkt) : Nat := parm p 20 48
def idst (p : Pkt) : Nat := parm p 26 48
def ilen (p : Pkt) : Nat := parm p 32 32

/-- Bytes that DST receives. -/
def idstLen (c : IronCtx) (len : Nat) : Nat :=
  if ialg c.mode == 4 then (if idec c.mode then len - 8 else len + 8) else len

/-- An update writes or records DST. -/
def usesDst (aad : Bool) (c : IronCtx) : Bool := !aad && ironBound c && !ihash c.mode

/-- LEN fits the algorithm and the limits of R342. -/
def lenOk (aad : Bool) (c : IronCtx) (len : Nat) : Bool :=
  if aad then c.aadLen + len ≤ 2 ^ 32
  else match ialg c.mode with
    | 1 => if idec c.mode then len ≤ 65536 else c.dataLen + len ≤ 2 ^ 36 - 32
    | 3 => len % iunit c.mode == 0
    | 4 => len % 8 == 0 && (if idec c.mode then 24 ≤ len && len ≤ 65536 else 16 ≤ len && len ≤ 65528)
    | _ => c.dataLen + len ≤ 2 ^ 40

/-- Checks 6 and 7 of an update. -/
def updatePre (aad : Bool) (s : State) (_ : Nat) (p : Pkt) : Option Status :=
  let pid := tagPid p.ptag
  let c := ictxOf s p
  let len := ilen p
  let dl := idstLen c len
  if !ictxOk p || len < 1 || len > 65536 || !onePage (isrc p) len then some .errParam
  else if ironBound c && !lenOk aad c len then some .errParam
  else if if usesDst aad c then !onePage (idst p) dl else (aad || ironBound c) && idst p != 0 then some .errParam
  else if !rangeOk s pid (isrc p) len rDRD || (usesDst aad c && !rangeOk s pid (idst p) dl rDWR) then some .errPerm
  else none

/-- The order of updates (R342). -/
def orderOk (aad : Bool) (c : IronCtx) : Bool :=
  c.state == .opened &&
  (if aad then ialg c.mode == 1 && c.phase == 0
   else if ialg c.mode == 1 && idec c.mode then c.phase == 0
   else if ialg c.mode == 4 then c.phase == 1
   else true)

/-- An update comes to its data: a lane is in service, the order is right, a buffer is free for it and its key good. -/
def updateRuns (aad : Bool) (s : State) (t : Ticket) (p : Pkt) : Bool :=
  let c := ironCtx s (tagPid t.ptag) (ictxNo p)
  !noLane s && orderOk aad c && !(!aad && ialg c.mode == 1 && idec c.mode && heldBy s (laneFor s t.num) ≥ 3) &&
  (ctxBad s c.mode c.key).isNone

/-- IRON_UPDATE, either form. -/
def runIronUpdate (aad dual : Bool) (s : State) (t : Ticket) (p : Pkt) (m : List ReadIn) : Res :=
  let pid := tagPid t.ptag
  let n := ictxNo p
  let c := ironCtx s pid n
  let ln := laneFor s t.num
  let hold := !aad && ialg c.mode == 1 && idec c.mode
  let done := resultOf [(8, ilen p)]
  if noLane s || !orderOk aad c then .fail .errState
  else if hold && heldBy s ln ≥ 3 then .fail .busy
  else match ctxBad s c.mode c.key, firstRead m (ilen p) with
    | some t', _ => .failWith .errIntegrity 0 t'
    | none, none => .fail .errIntegrity
    | none, some b =>
      if aad then dualRes dual s t (.ok (setIron s pid n (ironAad (ctxKey s c) c b)) done)
      else match ironData (ctxKey s c) c b with
        | none => dualRes dual s t (.fail .authFail)
        | some r =>
          if hold then
            let c1 := { r.1 with state := .held, heldBuf := freeBuf s ln, heldDst := idst p, heldAt := now s }
            dualRes dual s t (.ok (putBuf (setIron s pid n c1) (freeBuf s ln) r.2) done)
          else dualRes dual s t (.ok (memPut (setIron s pid n r.1) pid (idst p) r.2 false) done)

/-- IRON_UPDATE (0x61), DATA or AAD. -/
def opIronUpdate (aad dual : Bool) : Op where
  opcode := 0x61
  form := if aad then 1 else 0
  named := [(16, 0, 8), (20, 0, 48), (26, 0, 48), (32, 0, 32)]
  rings := tenantOnly
  pre := updatePre aad
  reads s t p _ := if updateRuns aad s t p then [{ pid := tagPid p.ptag, off := isrc p, len := ilen p, rt := false }] else []
  run := runIronUpdate aad dual

/-- IRON_UPDATE DATA. -/
def execIronUpdateData (dual : Bool) (c : Cmd) (s : State) : Result := .next (issue (opIronUpdate false dual) s c)
/-- IRON_UPDATE AAD. -/
def execIronUpdateAad (dual : Bool) (c : Cmd) (s : State) : Result := .next (issue (opIronUpdate true dual) s c)

/-! ## IRON_FINAL (R343, R344) -/

/-- IRON_FINAL of a GCM decryption: the tags are compared and the held buffer is released or zeroed. -/
def finalDecrypt (dual : Bool) (s : State) (t : Ticket) (p : Pkt) (c : IronCtx) : Res :=
  let pid := tagPid t.ptag
  let freed := ironEnd s pid (ictxNo p)
  let b := heldBytes s c
  if dual then dualRes dual (putBuf s c.heldBuf (zeros b.length)) t (.fail .errIntegrity)
  else if blkBytes (ironTag (ctxKey s c) c) == parmBytes p 20 16 then
    if rangeOk s pid c.heldDst b.length rDWR then .ok (memPut freed pid c.heldDst b false) (resultOf [(8, 1)])
    else .fail .errPerm
  else .ok freed

/-- IRON_FINAL. -/
def runIronFinal (dual : Bool) (s : State) (t : Ticket) (p : Pkt) (_ : List ReadIn) : Res :=
  let pid := tagPid t.ptag
  let n := ictxNo p
  let c := ironCtx s pid n
  let freed := ironEnd s pid n
  if noLane s || !ironBound c then .fail .errState
  else match ctxBad s c.mode c.key with
  | some t' => .failWith .errIntegrity 0 t'
  | none =>
  if ialg c.mode == 1 && idec c.mode then finalDecrypt dual s t p c
  else if ialg c.mode == 1 then
    dualRes dual s t (.ok freed (resultOf [(8, leNat (blkBytes (ironTag (ctxKey s c) c)))]))
  else if ihash c.mode then
    let d := ironDigest c
    dualRes dual s t (if rangeOk s pid c.dest d.length rDWR then
      .ok (memPut freed pid c.dest d false) (resultOf [(8, leNat (d.take 16))]) else .fail .errPerm)
  else dualRes dual s t (.ok freed)

/-- IRON_FINAL (0x62). -/
def opIronFinal (dual : Bool) : Op where
  opcode := 0x62
  named := [(16, 0, 8), (20, 0, 128)]
  rings := tenantOnly
  pre s _ p :=
    let c := ictxOf s p
    if !ictxOk p || (ironBound c && !(ialg c.mode == 1 && idec c.mode) && parm p 20 128 != 0) then some .errParam
    else none
  run := runIronFinal dual

/-- IRON_FINAL. -/
def execIronFinal (dual : Bool) (c : Cmd) (s : State) : Result := .next (issue (opIronFinal dual) s c)

/-! ## IRON_SAVE and IRON_RESTORE (R347 to R349) -/

/-- IRON_SAVE. -/
def runIronSave (dual : Bool) (s : State) (t : Ticket) (p : Pkt) (_ : List ReadIn) : Res :=
  let pid := tagPid t.ptag
  let n := ictxNo p
  let c := ironCtx s pid n
  let q := part s pid
  let seq := q.saveSeq + 1
  if noLane s || c.state != .opened then .fail .errState
  else match wrapBad s pid with
  | some t' => .failWith .errIntegrity 0 t'
  | none =>
    let s1 := setPart s pid { q with saveSeq := seq }
    let s2 := setIron s1 pid n { state := .saved, last := seq }
    dualRes dual s t (.ok (memPut s2 pid (parm p 20 48) (saveImage s pid n seq.toNat c) false) (resultOf [(8, 296)]))

/-- IRON_SAVE (0x63). -/
def opIronSave (dual : Bool) : Op where
  opcode := 0x63
  named := [(16, 0, 8), (20, 0, 48)]
  rings := tenantOnly
  pre s _ p :=
    let d := parm p 20 48
    if !ictxOk p || d % 64 != 0 then some .errParam
    else if !onePage d 296 || !rangeOk s (tagPid p.ptag) d 296 rDWR then some .errPerm
    else none
  run := runIronSave dual

/-- IRON_SAVE. -/
def execIronSave (dual : Bool) (c : Cmd) (s : State) : Result := .next (issue (opIronSave dual) s c)

/-- Check 1 of R349 on what the image says of itself. -/
def imageShape (b : Bytes) (n : Nat) : Bool :=
  slice b 0 4 == asc "QIRC" && le b 4 1 == 1 && le b 6 1 == n && le b 7 1 == 0 && le b 10 2 == 0

/-- IRON_RESTORE: the checks of R349 in their order. The tag is computed and compared in both datapaths, whatever it comes
to (R338). -/
def runIronRestore (dual : Bool) (s : State) (t : Ticket) (p : Pkt) (m : List ReadIn) : Res :=
  let pid := tagPid t.ptag
  let n := ictxNo p
  let old := ironCtx s pid n
  let q := part s pid
  match firstRead m 296 with
  | none => .fail .errIntegrity
  | some b =>
    if !imageShape b n then .fail .errParam
    else if (le b 5 1 == 0) != (s.fuse.lcs == .maker) then .fail .errLifecycle
    else if noLane s || ironBound old then .fail .errState
    else match bindable s pid with
      | some st => .fail st
      | none =>
        if le b 8 2 != q.ctag.toNat || le b 12 4 != q.mepoch.toNat then .fail .authFail
        else match wrapBad s pid, openImage s pid n b with
          | some t', _ => .failWith .errIntegrity 0 t'
          | none, none => dualRes dual s t (.fail .authFail)
          | none, some st =>
            let c := imageState st
            dualRes dual s t (
              if !modeOk c.mode then .fail .authFail
              else if BitVec.ofNat 64 (le b 16 8) != old.last || old.consumed then .fail .errStale
              else if ialg c.mode != 5 && !ironNamed s c.key pid then .fail .errParam
              else .ok (setIron s pid n { c with hw := freeHw s, last := old.last, consumed := true }))

/-- IRON_RESTORE (0x64). -/
def opIronRestore (dual : Bool) : Op where
  opcode := 0x64
  named := [(16, 0, 8), (20, 0, 48)]
  rings := tenantOnly
  pre s _ p :=
    let d := parm p 20 48
    if !ictxOk p || d % 64 != 0 then some .errParam
    else if !onePage d 296 || !rangeOk s (tagPid p.ptag) d 296 rDRD then some .errPerm
    else none
  reads _ _ p _ := [{ pid := tagPid p.ptag, off := parm p 20 48, len := 296, rt := false }]
  run := runIronRestore dual

/-- IRON_RESTORE. -/
def execIronRestore (dual : Bool) (c : Cmd) (s : State) : Result := .next (issue (opIronRestore dual) s c)

/-! ## Lanes and held buffers -/

/-- IRON_HOLD_EXPIRY (R344): a buffer held for 10 ms is zeroed and its context is FREE. -/
def execIronHoldExpiry (pid : Pid) (n : Fin 16) (s : State) : Result :=
  let c := ironCtx s pid.val n.val
  if c.state == .held && c.heldAt + 10000 ≤ now s then .next (ironEnd s pid.val n.val) else .next s

/-- IRON_LANE_KAT_DONE (R339): the lane returns to service if its known-answer tests passed, unless it is
retired. -/
def execIronLaneKatDone (n : Fin 2) (passed : Bool) (s : State) : Result :=
  let l := lane s n.val
  if !l.oos then .next s
  else
    let s1 := { s with iron := { s.iron with kat := inc32 s.iron.kat } }
    .next (setLane s1 n.val { l with oos := !(passed && !l.retired) })

end Sys2Proof.Machine
end

