-- ==== Sys2Proof/Machine/WbOps.lean ====
section
/-! DEFINITION. Weight bundles and device sets: handles, set keys, statements, streams and where they end
(11 R311 to R322, R333). -/

namespace Sys2Proof.Machine

/-! ## Bundles and sets -/

/-- A bundle of a PID. -/
def bundle (s : State) (pid i : Nat) : Bundle := tget {} s.wb.bundles (pid * 16 + i)

/-- Write a bundle. -/
def setBundle (s : State) (pid i : Nat) (b : Bundle) : State :=
  { s with wb := { s.wb with bundles := tset {} s.wb.bundles (pid * 16 + i) b } }

/-- Handle of a bundle (R322). -/
def bundleHandle (s : State) (pid i : Nat) : BitVec 32 :=
  BitVec.ofNat 32 (pid * 2 ^ 27 + (bundle s pid i).inc.toNat * 65536 + i)

/-- Index in a bundle handle. -/
def bundleIdx (h : BitVec 32) : Nat := h.toNat % 16

/-- A handle names a live bundle of the PID. -/
def bundleNamed (s : State) (h : BitVec 32) (pid : Nat) : Bool :=
  h == bundleHandle s pid (bundleIdx h) && (bundle s pid (bundleIdx h)).live

/-- Live bundles of a PID by index. -/
def bundlesOf (s : State) (pid : Nat) : List Nat := (List.range 16).filter fun i => (bundle s pid i).live

/-- The lowest free bundle index of a PID (DESIGN CHOICE, log entry 10). -/
def freeBundle (s : State) (pid : Nat) : Nat := lowest (fun i => (bundle s pid i).live) 16 0

/-- The device-set key that a PID holds for a set. -/
def setOf (s : State) (pid : Nat) (id : BitVec 384) : Option DevSet :=
  s.wb.sets.find? fun d => d.pid == pid && d.setid == id

/-- Sets of a PID. -/
def setsOf (s : State) (pid : Nat) : List DevSet := s.wb.sets.filter fun d => d.pid == pid

/-! ## Set keys (R263, R314, R316) -/

/-- Bytes of a 384-bit hash. -/
def hash48 (h : BitVec 384) : Bytes := beBytes 48 h.toNat

/-- A device-set key. -/
def deriveSet (rk : Key) (setid nhash : Bytes) : Key :=
  keyOf (hkdf (asc "QBSET1") (keyBytes rk) (asc "device-set" ++ setid ++ nhash) 32)

/-- The key that wraps a device-set key for a member. -/
def memberWrap (rk : Key) (node : Nat) : Key :=
  keyOf (hkdf (asc "QBSET1") (keyBytes rk) (asc "member-wrap" ++ leBytes 2 node) 32)

/-- The range key of an epoch, where this chip holds it. -/
def rangeKeyOf (s : State) (epoch : Nat) : Option Key :=
  match rkSlot s epoch with
  | some i => if polClass (slot s i).policy == classCode .range then some (slot s i).key else none
  | none => none

/-- The Summit's answer to a set-key request (R316): a status, and the key where it is OK. -/
def setKeyFor (s : State) (node epoch : Nat) (setid nhash : Bytes) : Status × Key :=
  match memberOf s node with
  | none => (.errUnattested, 0)
  | some x =>
    match rangeKeyOf s epoch with
    | none => (.errStale, 0)
    | some rk => if x.admitted.toNat > epoch then (.errStale, 0) else (.ok, deriveSet rk setid nhash)

/-- The set statement of R317. -/
def statement (s : State) (pid : Nat) (b : Bundle) (dsk : Key) : Bytes :=
  let p := part s pid
  let body := asc "QSST" ++ [1] ++ leBytes 1 (lcsCode s.fuse.lcs) ++ zeros 2 ++ hash48 b.setid ++
    leBytes 2 s.range.nodeId ++ leBytes 2 p.ctag.toNat ++ leBytes 4 p.mepoch.toNat ++
    leBytes 16 s.fuse.devId.toNat ++ leBytes 8 b.id.toNat ++
    slice (Config.ecPub (ecSeed (keyBytes dsk) (asc "set-ec"))) 0 97 ++
    slice (Config.kemPub (kemSeed (keyBytes dsk) (asc "set-kem"))) 0 1568
  body ++ aliasSign s (asc "QBSET") body

/-- Make a bundle and write its statement; the state and the handle (R316, R317). -/
def makeBundle (s : State) (pid dest : Nat) (b : Bundle) (dsk : Key) : State × BitVec 32 :=
  let i := freeBundle s pid
  let s1 := setBundle s pid i { b with inc := (bundle s pid i).inc }
  (memPut s1 pid dest (statement s pid b dsk), bundleHandle s1 pid i)

/-- The device-set key in a slot may seed the set key pairs: ENGINE PKE, and DERIVE (R258, R316). -/
def setKeyFits (s : State) (pid : Nat) (d : DevSet) : Bool :=
  keyFits s d.slot .devset .pke pid && polDerive (slot s d.slot).policy

/-- Hold a device-set key in a pool slot (R316, R261). -/
def holdSet (s : State) (pid i : Nat) (setid : BitVec 384) (dsk : Key) : State :=
  let s1 := writeSlot s i dsk (policy .devset .pke pid ((part s pid).ctag.toNat % 2048) 2)
  { s1 with wb := { s1.wb with sets := s1.wb.sets ++ [{ pid := pid, setid := setid, slot := i }] } }

/-- A import and its request end (R316). -/
def dropImport (s : State) (num : Nat) : State :=
  { s with wb := { s.wb with imports := s.wb.imports.filter fun m => m.num != num } }

/-- The started command that was fetched with a number. -/
def waitNum (n : Nat) (w : Wait) : Bool := w.tkt.num == n

/-- An import ends with a status other than OK. -/
def failImport (s : State) (m : Import) (st : Status) : State :=
  finishWaits (dropImport (dropSent s fun w => w == .setkey m.num) m.num) (waitNum m.num) st

/-- An import has its device-set key (R316): the key is held, the statement written. A pool that has filled
since the command's checks fails it, and so does a destination that the POT no longer grants (R18). -/
def endImport (s : State) (m : Import) (dsk : Key) : State :=
  match freeSlots s with
  | [] => failImport s m .errResource
  | i :: _ =>
    if (bundlesOf s m.pid).length ≥ 16 then failImport s m .errResource
    else if !rangeOk s m.pid m.dest 6476 rDWR then failImport s m .errPerm
    else
      let s1 := dropImport (dropSent s fun w => w == .setkey m.num) m.num
      let s2 := if (setOf s m.pid m.bundle.setid).isSome then s1 else holdSet s1 m.pid i m.bundle.setid dsk
      let r := makeBundle s2 m.pid m.dest m.bundle dsk
      finishWaits r.1 (waitNum m.num) .ok (resultOf [(8, r.2.toNat)])

/-! ## Revocation and streams (R320 to R322) -/

/-- Streams of a PID, the running one first. -/
def streamsOf (s : State) (pid : Nat) : List WbStream := s.wb.streams.filter fun x => x.pid == pid

/-- A running stream of a bundle. -/
def bundleBusy (s : State) (pid i : Nat) : Bool :=
  match streamsOf s pid with
  | x :: _ => x.idx == i
  | [] => false

/-- Remove streams that pass a test and complete their commands with a status. -/
def endStreams (s : State) (f : WbStream → Bool) (st : Status) : State :=
  let gone := s.wb.streams.filter f
  let s1 := { s with wb := { s.wb with streams := s.wb.streams.filter fun x => !f x } }
  gone.foldl (fun s x => finishWaits s (waitNum x.num) st) s1

/-- Revoke a bundle (R322 steps 2 and 3). A stream of it that has not begun names an old handle. -/
def revokeBundle (s : State) (pid i : Nat) : State :=
  let b := bundle s pid i
  let s1 := if b.slot == 0 then s else clearSlot s b.slot
  let s2 := setBundle s1 pid i { inc := b.inc + 1 }
  let s3 := endStreams s2 (fun x => x.pid == pid && x.idx == i) .errParam
  if (bundlesOf s3 pid).any fun k => (bundle s3 pid k).setid == b.setid then s3
  else match setOf s3 pid b.setid with
    | none => s3
    | some d =>
      let s4 := clearSlot s3 d.slot
      { s4 with wb := { s4.wb with sets := s4.wb.sets.filter fun x => x != d } }

/-- Revocations of a PID that no running stream holds up any more take place. -/
def pendingRevokes (s : State) (pid : Nat) : State :=
  let ready := fun w : Wait => match w.kind with
    | .revoke p i => p == pid && !bundleBusy s pid i
    | _ => false
  (s.cmd.waits.filter ready).foldl (fun s w => match w.kind with
    | .revoke p i => finishWaits (revokeBundle s p i) (waitNum w.tkt.num) .ok
    | _ => s) s

/-- Signal a stream's fence (R320, R321): status 0 for the value signal. -/
def streamFence (s : State) (pid : Nat) (h : BitVec 32) (st : Status) : State :=
  if h == 0xFFFFFFFF || !fenceMatch s h then s
  else if st == .ok then (signalFence s h ((fence s (fenceIdx h)).value + 1) 0 (curTag s pid)).1
  else (signalFence s h 0 (BitVec.ofNat 8 (statusCode st)) (curTag s pid)).1

/-- A stream ends with a status: reply, fence, waiting revocations (R320, R321). -/
def endStream (s : State) (x : WbStream) (st : Status) : State :=
  let s1 := { s with wb := { s.wb with streams := s.wb.streams.filter fun y => y.num != x.num } }
  let s2 := finishWaits s1 (waitNum x.num) st (if st == .ok then resultOf [(8, x.nseg * 4096)] else 0)
  pendingRevokes (streamFence s2 x.pid x.fence st) x.pid

/-- A function reset stops the PID's streams (R333). -/
def wbReset (s : State) (pid : Nat) : State :=
  pendingRevokes (endStreams s (fun x => x.pid == pid) .errLost) pid

/-- A teardown frees the PID's bundles, sets, imports and streams (R322). -/
def wbTeardown (s : State) (pid : Nat) : State :=
  { s with wb := { s.wb with
      bundles := tmapAll {} s.wb.bundles fun k b => if k / 16 == pid then { inc := b.inc + 1 } else b
      sets := s.wb.sets.filter fun d => d.pid != pid
      imports := s.wb.imports.filter fun m => m.pid != pid
      streams := s.wb.streams.filter fun x => x.pid != pid } }

end Sys2Proof.Machine
end

