-- ==== Sys2Proof/Machine/CmdWb.lean ====
section
/-! DEFINITION. The weight-bundle commands (11 R311 to R322). -/

namespace Sys2Proof.Machine

/-! ## WB_IMPORT (R313 to R317) -/

/-- A header as R313 lays it out. -/
def headerOk (h : Bytes) : Bool :=
  slice h 0 4 == asc "QWBH" && le h 4 1 == 1 && le h 5 3 == 0 && le h 8 8 != 0 && le h 16 4 ≥ 1 &&
  1 ≤ le h 32 2 && le h 32 2 ≤ 16384 && le h 34 6 % 4096 == 0 && le h 34 6 < 2 ^ 41 &&
  le h 40 6 % 4096 == 0 && le h 40 6 < 2 ^ 41 && le h 46 18 == 0

/-- Node IDs of a member list. -/
def listNodes (l : Bytes) (n : Nat) : List Nat := (List.range n).map fun i => le l (8 * i) 2

/-- A list of numbers rises strictly. -/
def rising : List Nat → Bool
  | a :: b :: t => decide (a < b) && rising (b :: t)
  | _ => true

/-- SETID of a header and list (R314). -/
def setIdOf (job : BitVec 64) (h l : Bytes) : BitVec 384 :=
  BitVec.ofNat 384 (beNat (sha (asc "QBSETDEF" ++ leBytes 8 job.toNat ++ slice h 24 8 ++ slice h 20 4 ++
    slice l 0 (8 * le h 32 2))))

/-- NHASH of a member list (R314). -/
def nhashOf (l : Bytes) (n : Nat) : Bytes := sha ((listNodes l n).flatMap fun x => leBytes 2 x)

/-- The chip's entry names this partition (R315). -/
def listNames (s : State) (pid : Nat) (l : Bytes) (n : Nat) : Bool :=
  (List.range n).any fun i =>
    le l (8 * i) 2 == s.range.nodeId && le l (8 * i + 2) 2 == (part s pid).ctag.toNat &&
    le l (8 * i + 4) 4 == (part s pid).mepoch.toNat

/-- The checks of R315 in their order, on header and list. -/
def importCheck (s : State) (pid : Nat) (h l : Bytes) : Option Status :=
  let p := part s pid
  let n := le h 32 2
  let id := setIdOf p.job h l
  let e := le h 20 4
  if !headerOk h then some .errParam
  else if !rangeOk s pid (le h 34 6) (8 * n) rDRD || !rangeOk s pid (le h 40 6) 6476 rDWR then some .errPerm
  else if !rising (listNodes l n) then some .errParam
  else if !p.conf then some .errPerm
  else if s.fuse.lcs != .fielded then some .errLifecycle
  else if !p.jobSet || !listNames s pid l n then some .errUnattested
  else if !inRange s || (bundlesOf s pid).any (fun i => (bundle s pid i).id == BitVec.ofNat 64 (le h 8 8)) then
    some .errState
  else if !(e == s.range.epoch.toNat || e + 1 == s.range.epoch.toNat) then some .errStale
  else if (bundlesOf s pid).length ≥ 16 || ((setOf s pid id).isNone && (setsOf s pid).length ≥ 4) ||
      (if s.range.role == .summit then freeDerived s else freeSlots s).isEmpty then some .errResource
  else none

/-- Send a set-key request to the Summit and wait (R316). -/
def requestSet (s : State) (t : Ticket) (pid : Nat) (b : Bundle) (dest : Nat) (nhash : Bytes) (e : Nat) : Res :=
  let m : Import := { num := t.num, pid := pid, seq := s.range.nextSeq, bundle := b, dest := dest, at_ := now s }
  let s1 := sendReq s { dst := s.range.summit, form := 0x1B, data := hash48 b.setid ++ nhash ++ leBytes 4 e }
    (.setkey t.num)
  .wait { s1 with wb := { s1.wb with imports := s1.wb.imports ++ [m] } } pid (.setkey pid)

/-- WB_IMPORT once header and list are read. -/
def importRun (s : State) (t : Ticket) (h l : Bytes) : Res :=
  let pid := tagPid t.ptag
  match importCheck s pid h l with
  | some st => .fail st
  | none =>
    let id := setIdOf (part s pid).job h l
    let e := le h 20 4
    let b : Bundle := { live := true, id := BitVec.ofNat 64 (le h 8 8), nseg := le h 16 4, setid := id }
    let dest := le h 40 6
    match setOf s pid id with
    | some d =>
      if !setKeyFits s pid d then .fail .errPerm
      else match readBad s [d.slot] with
      | some t' => .failWith .errIntegrity 0 t'
      | none =>
        let r := makeBundle s pid dest b (slot s d.slot).key
        .ok r.1 (resultOf [(8, r.2.toNat)])
    | none =>
      let nh := nhashOf l (le h 32 2)
      if s.range.role == .summit then
        let k := setKeyFor s s.range.nodeId e (hash48 id) nh
        match rkBad s e with
        | some t' => .failWith .errIntegrity 0 t'
        | none =>
        if k.1 != .ok then .fail k.1
        else
          let r := makeBundle (holdSet s pid ((freeDerived s).headD 0) id k.2) pid dest b k.2
          .ok r.1 (resultOf [(8, r.2.toNat)])
      else requestSet s t pid b dest nh e

/-- WB_IMPORT: the first read delivers the header, the second the member list. -/
def runWbImport (s : State) (t : Ticket) (_ : Pkt) (m : List ReadIn) : Res :=
  match firstRead m 64 with
  | none => .fail .errIntegrity
  | some h => match firstRead (m.drop 1) (8 * le h 32 2) with
    | none => .fail .errIntegrity
    | some l => importRun s t h l

/-- WB_IMPORT (0x50). -/
def opWbImport : Op where
  opcode := 0x50
  named := [(16, 0, 48), (22, 0, 16)]
  rings := tenantOnly
  pre s _ p :=
    if parm p 22 16 != 64 then some .errParam
    else if !rangeOk s (tagPid p.ptag) (parm p 16 48) 64 rDRD then some .errPerm
    else none
  reads s _ p m :=
    let pid := tagPid p.ptag
    { pid := pid, off := parm p 16 48, len := 64 } :: ((firstRead m 64).filter fun h =>
      headerOk h && rangeOk s pid (le h 34 6) (8 * le h 32 2) rDRD).toList.map fun h =>
        ({ pid := pid, off := le h 34 6, len := 8 * le h 32 2 } : OwnRead)
  run := runWbImport

/-- WB_IMPORT. -/
def execWbImport (c : Cmd) (s : State) : Result := .next (issue opWbImport s c)

/-- SETKEY_TIMEOUT (R316): imports of the PID that have waited 10 ms complete with BUSY. -/
def execSetkeyTimeout (pid : Pid) (s : State) : Result :=
  .next ((s.wb.imports.filter fun m => m.pid == pid.val && decide (m.at_ + 10000 ≤ now s)).foldl
    (fun s m => failImport s m .busy) s)

/-! ## WB_GRANT (R318, R319) -/

/-- BUNDLE of a command. -/
def bundleOfPkt (p : Pkt) : BitVec 32 := BitVec.ofNat 32 (parm p 16 32)

/-- The command names a bundle of its PID. -/
def bundleArg (s : State) (p : Pkt) : Bool := bundleNamed s (bundleOfPkt p) (tagPid p.ptag)

/-- Weights belong to FIELDED (R266). -/
def lcWeights (s : State) (_ : Pkt) : Bool := s.fuse.lcs == .fielded

/-- The bundle holds a bundle key; a slot gone BAD holds none that can be used (R260). -/
def hasKey (s : State) (b : Bundle) : Bool := b.slot != 0 && !(slot s b.slot).bad

/-- The bundle's key slot fails its check: commands that name the bundle fail (R260). -/
def keyBad (s : State) (b : Bundle) : Option State := if b.slot == 0 then none else readBad s [b.slot]

/-- The bundle key in a grant, `none` where the agreement or the unwrap fails (R318). -/
def openGrant (dsk : Key) (g : Bytes) : Option Key :=
  let pub := slice g 64 97
  if !Config.ecValid pub then none
  else match Config.kemDecap (kemSeed (keyBytes dsk) (asc "set-kem")) (slice g 161 1568) with
    | none => none
    | some z =>
      let zec := slice (Config.ecdh (ecSeed (keyBytes dsk) (asc "set-ec")) pub) 0 48
      let kek := keyOf (hkdf (sha (slice g 0 1729)) (zec ++ slice z 0 32) (asc "bundle-grant") 32)
      (kwUnwrap kek (slice g 1729 40)).map keyOf

/-- WB_GRANT. -/
def runWbGrant (s : State) (t : Ticket) (p : Pkt) (m : List ReadIn) : Res :=
  let pid := tagPid t.ptag
  let i := bundleIdx (bundleOfPkt p)
  let b := bundle s pid i
  match firstRead m 1769 with
  | none => .fail .errIntegrity
  | some g =>
    if slice g 0 4 != asc "QSGR" || le g 4 1 != 1 || le g 5 3 != 0 || slice g 8 48 != hash48 b.setid ||
        le g 56 8 != b.id.toNat then .fail .errParam
    else match setOf s pid b.setid with
      | none => .fail .errUnattested
      | some d =>
        if hasKey s b then .fail .errState
        else match freeSlots s with
          | [] => .fail .errResource
          | n :: _ =>
            if !setKeyFits s pid d then .fail .errPerm
            else match readBad s [d.slot] with
            | some t' => .failWith .errIntegrity 0 t'
            | none => match openGrant (slot s d.slot).key g with
              | none => .fail .authFail
              | some k =>
                let s1 := writeSlot s n k (policy .bundle .memUnseal pid ((part s pid).ctag.toNat % 2048) 0)
                .ok (setBundle (if b.slot == 0 then s1 else clearSlot s1 b.slot) pid i { b with slot := n })

/-- WB_GRANT (0x51). -/
def opWbGrant : Op where
  opcode := 0x51
  named := [(16, 0, 32), (20, 0, 48), (26, 0, 16)]
  rings := tenantOnly
  handle := bundleArg
  pre s _ p :=
    if parm p 26 16 != 1769 then some .errParam
    else if !(part s (tagPid p.ptag)).conf || !rangeOk s (tagPid p.ptag) (parm p 20 48) 1769 rDRD then some .errPerm
    else none
  lc := lcWeights
  reads _ _ p _ := [{ pid := tagPid p.ptag, off := parm p 20 48, len := 1769 }]
  run := runWbGrant

/-- WB_GRANT. -/
def execWbGrant (c : Cmd) (s : State) : Result := .next (issue opWbGrant s c)

/-! ## WB_UNSEAL_STREAM (R311, R312, R320, R321) -/

/-- Bytes of a staged run of segments. -/
def runBytes (n : Nat) : Nat := n * 4096 + (n + 7) / 8 * 128

/-- Destination pages are LIVE in Seal or Fresh (R320). -/
def sealedOk (s : State) (off len : Nat) : Bool :=
  spanAll (pageOf off) (pageOf (off + len - 1) - pageOf off + 1) fun p =>
    (pot s p).mode == .seal || (pot s p).mode == .fresh

/-- The pages of a stream serve it. -/
def streamPages (s : State) (pid src dst n : Nat) : Bool :=
  rangeOk s pid src (runBytes n) rDRD && rangeOk s pid dst (n * 4096) rDWR && sealedOk s dst (n * 4096)

/-- Checks 6 and 7 of WB_UNSEAL_STREAM. -/
def unsealPre (s : State) (_ : Nat) (p : Pkt) : Option Status :=
  let pid := tagPid p.ptag
  let b := bundle s pid (bundleIdx (bundleOfPkt p))
  let src := parm p 20 48
  let dst := parm p 26 48
  let n := parm p 32 32
  let f := parm p 36 32
  let h := BitVec.ofNat 32 (parm p 40 32)
  if n < 1 || f + n > b.nseg || src % 4096 != 0 || dst % 4096 != 0 || src + runBytes n > 2 ^ 41 ||
      dst + n * 4096 > 2 ^ 41 || (src < dst + n * 4096 && dst < src + runBytes n) then some .errParam
  else if !streamPages s pid src dst n || (h != 0xFFFFFFFF && (fence s (fenceIdx h)).pid != pid) then some .errPerm
  else none

/-- WB_UNSEAL_STREAM: the stream runs, or waits for the PID's running one. -/
def runWbUnseal (s : State) (t : Ticket) (p : Pkt) (_ : List ReadIn) : Res :=
  let pid := tagPid t.ptag
  let i := bundleIdx (bundleOfPkt p)
  let b := bundle s pid i
  match keyBad s b with
  | some t' => .failWith .errIntegrity 0 t'
  | none =>
  if b.slot == 0 then .fail .errState
  else if !keyFits s b.slot .bundle .memUnseal pid then .fail .errPerm
  else
    let x : WbStream := {
      num := t.num, pid := pid, idx := i, src := parm p 20 48, dst := parm p 26 48, first := parm p 36 32,
      nseg := parm p 32 32, fence := BitVec.ofNat 32 (parm p 40 32) }
    .wait { s with wb := { s.wb with streams := s.wb.streams ++ [x] } } pid (.stream pid)

/-- WB_UNSEAL_STREAM (0x52). -/
def opWbUnseal : Op where
  opcode := 0x52
  named := [(16, 0, 32), (20, 0, 48), (26, 0, 48), (32, 0, 64), (40, 0, 32)]
  rings := tenantOnly
  handle s p :=
    bundleArg s p && (parm p 40 32 == 0xFFFFFFFF || fenceMatch s (BitVec.ofNat 32 (parm p 40 32)))
  pre := unsealPre
  lc := lcWeights
  run := runWbUnseal

/-- WB_UNSEAL_STREAM. -/
def execWbUnsealStream (c : Cmd) (s : State) : Result := .next (issue opWbUnseal s c)

/-- Open segment `k` of a bundle: 4096 bytes of ciphertext, then the tag (R311). -/
def openSegment (key : Key) (b : Bundle) (k : Nat) (x : Bytes) : Option Bytes :=
  let idb := leBytes 8 b.id.toNat
  gcmOpen key (idb ++ leBytes 4 k) (asc "QBWB" ++ idb ++ leBytes 4 b.nseg ++ leBytes 4 k) (slice x 0 4096)
    (blk (slice x 4096 16))

/-- Where segment `p` of a staged run lies (R312). -/
def segOff (src p : Nat) : Nat := src + p / 8 * 32896 + p % 8 * 4096

/-- Where its tag lies (R312), in a group that is not full also (DEDUCED, log entry 119). -/
def segTag (src p : Nat) : Nat := src + p / 8 * 32896 + 32768 + p % 8 * 16

/-- The engines grant what segment `p` of a stream reads and writes: its bytes, its tag, and its destination in Seal or
Fresh (R127, R320). -/
def segGranted (s : State) (x : WbStream) (p : Nat) : Bool :=
  rangeOk s x.pid (segOff x.src p) 4096 rDRD && rangeOk s x.pid (segTag x.src p) 16 rDRD &&
  rangeOk s x.pid (x.dst + p * 4096) 4096 rDWR && sealedOk s (x.dst + p * 4096) 4096

/-- The reads of segment `p`: itself, and with a group's first the group's tag sector (R312, R320). Poison lies at byte
offsets in the segment, or in its tag from 4096 on. -/
def segRead (s : State) (x : WbStream) (p : Nat) (r : ReadIn) : State :=
  let tag : OwnRead := { pid := x.pid, off := segTag x.src p, len := 16, rt := false }
  let s1 := if p % 8 == 0 then readOwn s tag (.data []) else s
  let seg : OwnRead := { pid := x.pid, off := segOff x.src p, len := 4096, rt := false }
  match r with
  | .data _ => readOwn s1 seg r
  | .poison first more =>
    let place := fun (k : Nat) => if k < 4096 then segOff x.src p + k else segTag x.src p + (k - 4096)
    (first :: more).foldl (fun s k => poisonSector s (engineOf s (place k)) (pot s (pageOf (place k))).pid)
      (readOwn s1 seg (.data []))

/-- One segment of a stream (R320): read, opened in the unseal path, written by the DMA engine. The flag: the
stream goes on. -/
def segStep (key : Key) (b : Bundle) (x : WbStream) (a : State × Bool) (e : ReadIn × Nat) : State × Bool :=
  if !a.2 then a
  else if !segGranted a.1 x e.2 then (a.1, false)
  else
    let s1 := segRead a.1 x e.2 e.1
    match e.1 with
    | .poison .. => (s1, false)
    | .data y => match openSegment key b (x.first + e.2) y with
      | none => (s1, false)
      | some z => (dmaWrite s1 (Fin.ofNat 32 x.pid) (x.dst + e.2 * 4096) z, true)

/-- Write zeros over the destination that still lies in pages LIVE under the PID (R321). -/
def zeroDest (s : State) (x : WbStream) : State :=
  (List.range x.nseg).foldl (fun s p =>
    let off := x.dst + p * 4096
    if (pot s (pageOf off)).state == .live && (pot s (pageOf off)).pid == x.pid then
      dmaWrite s (Fin.ofNat 32 x.pid) off (zeros 4096)
    else s) s

/-- A stream fails: zeros, ERR_INTEGRITY, the fence, the count (R321). -/
def failStream (s : State) (x : WbStream) : State :=
  endStream (zeroDest { s with wb := { s.wb with integrity := inc32 s.wb.integrity } } x) x .errIntegrity

/-- WB_STREAM_DONE (R320, R321): the PID's running stream ends, well or not. -/
def execWbStreamDone (pid : Pid) (segs : List ReadIn) (s : State) : Result :=
  match streamsOf s pid.val with
  | [] => .next s
  | x :: _ =>
    let b := bundle s x.pid x.idx
    match readBad s [b.slot] with
    | some s1 => .next (failStream s1 x)
    | none =>
      let r := ((segs.take x.nseg).zipIdx).foldl (segStep (slot s b.slot).key b x) (s, true)
      if !r.2 then .next (failStream r.1 x)
      else if segs.length < x.nseg then .next s
      else .next (endStream r.1 x .ok)

/-! ## WB_REVOKE (R322) -/

/-- WB_REVOKE. -/
def runWbRevoke (s : State) (t : Ticket) (p : Pkt) (_ : List ReadIn) : Res :=
  let pid := tagPid t.ptag
  let i := bundleIdx (bundleOfPkt p)
  match keyBad s (bundle s pid i) with
  | some t' => .failWith .errIntegrity 0 t'
  | none =>
  if bundleBusy s pid i then .wait s pid (.revoke pid i)
  else .ok (revokeBundle s pid i)

/-- WB_REVOKE (0x53). -/
def opWbRevoke : Op where
  opcode := 0x53
  named := [(16, 0, 32)]
  rings := tenantOnly
  handle := bundleArg
  lc := lcWeights
  run := runWbRevoke

/-- WB_REVOKE. -/
def execWbRevoke (c : Cmd) (s : State) : Result := .next (issue opWbRevoke s c)

end Sys2Proof.Machine
end

