-- ==== Sys2Proof/Machine/CmdAdvance.lean ====
section
/-! DEFINITION. The messages and timers of a range at work: evidence refresh, epoch advance, liveness, probes,
shadows, takeover, set keys, resends and reassembly (13 R355, R356, R360 to R367). -/

namespace Sys2Proof.Machine

/-! ## REFRESH (R363) -/

/-- REFRESH: a member answers with evidence over the nonce. -/
def execRefresh (m : RMsg) (s : State) : Result :=
  ringMsg formRefresh true m (s := s) (fun s => onMsg s m fun s =>
    if inRange s then
      let t := idKeys s
      (t, [backTo m 0x01 0x19 0 (evidence t 0 (mpBytes m 16 32))])
    else (s, []))

/-- Chains under which a member's evidence verifies (R363; log entry 45). -/
def refreshChains (x : Member) : Bytes := if x.chains.isEmpty then Config.memberChains x.devId x.m else x.chains

/-- Refreshed evidence meets R32 and reports no change of M, LCS or DEV_ID. -/
def refreshGood (s : State) (x : Member) (nonce : Key) (b : Bytes) : Bool :=
  let f := factsOf b
  b.length == evidLen && evidenceGood (b ++ refreshChains x) (keyBytes nonce) && lcsAdmits s f.lcs && inAfs s f.m &&
  decide (s.range.minSvn.toNat ≤ f.svn) && f.m == x.m && f.lcs == x.lcs.toNat && f.devId == x.devId.toNat

/-- A node's REFRESH is no longer outstanding. -/
def endRefresh (s : State) (n : Nat) : State :=
  let s1 := dropSent s fun w => w == .refresh n
  { s1 with range := { s1.range with refreshing := s1.range.refreshing.filter fun e => e.1 != n } }

/-- REFRESH_EVID at the Summit. -/
def onRefreshEvid (s : State) (m : RMsg) : State :=
  onMsg s m fun s =>
    match s.range.refreshing.find? fun e => e.1 == m.src, memberOf s m.src with
    | some e, some x =>
      let s1 := endRefresh s m.src
      if refreshGood s x e.2.1 m.data then
        let y := { x with evidAt := now s, evidPre := 0 }
        (sendShadow { s1 with range := { s1.range with members := insertMember y s1.range.members } }, [])
      else (markRemoved s1 m.src false, [])
    | _, _ => (s, [])

/-- REFRESH_EVID. -/
def execRefreshEvid (m : RMsg) (s : State) : Result :=
  ringMsg formRefreshEvid true m (s := s) (onRefreshEvid · m)

/-- REFRESH_TIMER: the Summit sends a member's REFRESH; the moment within the 20 min is firmware's. -/
def execRefreshTimer (n : Nat) (s : State) : Result :=
  if isSummit s && (others s (nodes s)).contains n && !(s.range.refreshing.any fun e => e.1 == n) && drawOk s then
    let d := draw s
    let s1 := d.1
    .next (sendReq { s1 with range := { s1.range with refreshing := s1.range.refreshing ++ [(n, d.2, now s)] } }
      { dst := n, opcode := 0x01, form := 0x18, params := paramsOf [(16, num (keyBytes d.2))] } (.refresh n))
  else .next s

/-- REFRESH_TIMEOUT: no answer within 10 s, which during a takeover count from its end (R374). -/
def execRefreshTimeout (n : Nat) (s : State) : Result :=
  match s.range.refreshing.find? fun e => e.1 == n with
  | some e => if isSummit s && !s.range.takeover && e.2.2 + 10000000 ≤ now s then .next (markRemoved (endRefresh s n) n false) else .next s
  | none => .next s

/-! ## DELTA, PREPARE, SWITCH, ABORT (R364) -/

/-- EPOCH of a message. -/
def msgEpoch (m : RMsg) (b : Nat) : Nat := mp m b 4

/-- COUNT and KIND of a DELTA are in range (R355). -/
def deltaOk (m : RMsg) : Bool := decide (1 ≤ mp m 20 1) && decide (mp m 20 1 ≤ 20) && decide (mp m 21 1 ≤ 1)

/-- DELTA: the changes of the next epoch are kept until SWITCH. -/
def execDelta (m : RMsg) (s : State) : Result :=
  ringMsg formDelta (deltaOk m) m (s := s) (fun s => onMsg s m fun s =>
    let r := s.range
    let l := (List.range (min 20 (mp m 20 1))).map fun i => mp m (22 + 2 * i) 2
    if !inRange s || msgEpoch m 16 != r.epoch.toNat + 1 then (s, [])
    else
      let same := r.deltaEpoch.toNat == msgEpoch m 16
      let rem := if same then r.deltaRem else []
      let add := if same then r.deltaAdd else []
      let kind := mp m 21 1
      ({ s with range := { r with
        deltaEpoch := BitVec.ofNat 30 (msgEpoch m 16)
        deltaRem := if kind == 0 then rem ++ l else rem
        deltaAdd := if kind == 1 then add ++ l else add } }, []))

/-- PREP_ACK. -/
def prepAckMsg (m : RMsg) (st : Status) : Msg :=
  backTo m 0x03 0x12 (paramsOf [(16, msgEpoch m 16), (20, statusCode st)])

/-- PREPARE at a member: the new key becomes current and the old one previous; receive keys of the new epoch go to the
OPEN ports. A second PREPARE of the same epoch replaces the first. -/
def takePrepare (s : State) (m : RMsg) : State × List Msg :=
  let e := msgEpoch m 16
  let r := s.range
  if !inRange s || e != r.epoch.toNat + 1 then (s, [prepAckMsg m .errStale])
  else match rkBad s r.epoch.toNat, unwrapped (nodeWrap (rkOf s r.epoch.toNat) "epoch-wrap" r.nodeId e) (mpBytes m 20 40) with
    | some t, _ => (t, [prepAckMsg m .authFail])
    | none, none => (s, [prepAckMsg m .authFail])
    | none, some k =>
      let s1 := if r.prep.isSome then writeRaw s 2 k rangePolicy else installRk s k
      let s2 := { s1 with range := { s1.range with
        prep := some { epoch := BitVec.ofNat 30 e, at_ := now s }, retiring := false } }
      (setMemb (rekeyPorts s2 true false) .reforming, [prepAckMsg m .ok])

/-- A key still retires on an OPEN port, in the register that the new epoch's receive key needs (R68, R364). -/
def rxBusy (s : State) : Bool := allPorts.any fun p => (link s p).state == .opened && (link s p).rxPrev

/-- PREPARE: the Summit sends itself none. It waits while a key retires. -/
def onPrepare (s : State) (m : RMsg) : State :=
  if !isSummit s && inRange s && msgEpoch m 16 == s.range.epoch.toNat + 1 && s.range.prep.isNone && rxBusy s then
    { s with range := { s.range with prepWait := some m } }
  else onMsg s m fun s => if isSummit s then (s, []) else takePrepare s m

/-- PREPARE. -/
def execPrepare (m : RMsg) (s : State) : Result :=
  ringMsg formPrepare true m (s := s) (onPrepare · m)

/-- The PREPARE that waited goes on once no key retires. -/
def settlePrep (s : State) : State :=
  match s.range.prepWait with
  | some m => if rxBusy s then s else onPrepare { s with range := { s.range with prepWait := none } } m
  | none => s

/-- PREP_ACK at the Summit. -/
def execPrepAck (m : RMsg) (s : State) : Result :=
  ringMsg formPrepAck true m (s := s) (fun s => onMsg s m fun s =>
    match s.range.adv with
    | none => (s, [])
    | some a =>
      if msgEpoch m 16 != a.epoch.toNat || !(others s a.keep).contains m.src || a.answered.contains m.src then (s, [])
      else
        let a1 := { a with
          answered := a.answered ++ [m.src]
          acked := if mp m 20 1 == 0 then a.acked ++ [m.src] else a.acked }
        (checkAdvance { s with range := { s.range with adv := some a1 } }, []))

/-- SWITCH at a member that has prepared the epoch. -/
def takeSwitch (s : State) (m : RMsg) (q : Prepared) : State :=
  let r := s.range
  let same := r.deltaEpoch == q.epoch
  let rem := if same then r.deltaRem else []
  let add := if same then r.deltaAdd else []
  let kept := r.members.filter fun x => !rem.contains x.node
  let members := add.foldl (fun l n => if l.any fun x => x.node == n then l else insertMember { node := n } l) kept
  let s1 := { s with range := { r with
    epoch := q.epoch, prep := none, members := members, summit := m.src, heardAt := now s, retiring := true
    deltaRem := [], deltaAdd := [], deltaEpoch := 0, summitLost := false
    ctr := { r.ctr with advances := inc32 r.ctr.advances, removed := add32 r.ctr.removed rem.length } } }
  let s2 := takeShoulder s1 (nodeNamed (mp m 20 2))
  let s3 := if m.params.getLsbD 48 then s2 else unpair s2
  endReform (rekeyPorts (dropNodes s3 rem) false true)

/-- SWITCH. -/
def execSwitch (m : RMsg) (s : State) : Result :=
  ringMsg formSwitch true m (s := s) (fun s => onMsg s m fun s =>
    match s.range.prep with
    | some q => if inRange s && msgEpoch m 16 == q.epoch.toNat then (takeSwitch s m q, []) else (s, [])
    | none => (s, []))

/-- ABORT: the member leaves. -/
def execAbort (m : RMsg) (s : State) : Result :=
  ringMsg formAbort true m (s := s) (fun s => onMsg s m fun s =>
    if inRange s && !isSummit s && msgEpoch m 16 == s.range.epoch.toNat + 1 then (leaveRange s, []) else (s, []))

/-- SWITCH_TIMEOUT (R364): 1 s without SWITCH. -/
def execSwitchTimeout (s : State) : Result :=
  match s.range.prep with
  | some q => if inRange s && q.at_ + 1000000 ≤ now s then .next (leaveRange s) else .next s
  | none => .next s

/-! ## The Summit's advance (R360, R365) -/

/-- An advance is due (R360). -/
def advanceDue (s : State) : Bool :=
  let r := s.range
  r.advNow || decide (r.advanced + 21600000000 ≤ now s) ||
  (match r.reasonAt with
    | some t => decide (t + 10000000 ≤ now s)
    | none => false)

/-- EPOCH_ADVANCE_START: one at a time, never beyond the highest epoch (R29). With the entropy source FAILED no range key can
be drawn, and the commands that asked for the advance complete with ERR_STATE (R255). -/
def execEpochAdvanceStart (s : State) : Result :=
  if isSummit s && s.range.adv.isNone && !lastEpoch s && advanceDue s then
    .next (if s.keys.entFailed then
        finishWaits s (fun w => match w.kind with | .epochAdvance _ => true | _ => false) .errState
      else if drawOk s then checkAdvance (startAdvance s)
      else s)
  else .next s

/-- PREPARE_WAIT_TIMEOUT: two resends of 50 ms each, then the advance is settled. -/
def execPrepareWaitTimeout (s : State) : Result :=
  match s.range.adv with
  | none => .next s
  | some a =>
    if now s < a.at_ + (if a.round == 0 then 150000 else 50000) then .next s
    else if a.round < 2 && !(others s a.keep).all a.answered.contains then
      let again := a.msgs.filter fun x => !a.answered.contains x.dst
      .next (again.foldl transmit { s with range := { s.range with adv := some { a with
        round := a.round + 1, at_ := now s } } })
    else .next (settleAdvance s a)

/-! ## Liveness (R361, R362, R367) -/

/-- HEARTBEAT: it counts where it names its sender as Summit (DEDUCED, log entry 46). -/
def execHeartbeat (m : RMsg) (s : State) : Result :=
  ringMsg formHeartbeat true m (s := s) (fun s => onMsg s m fun s =>
    if inRange s && s.range.role != .summit && mp m 20 2 == m.src then
      (takeShoulder { s with range := { s.range with heardAt := now s, summit := m.src, summitLost := false } }
        (nodeNamed (mp m 22 2)), [])
    else (s, []))

/-- HEARTBEAT_SEND: each second to every other member. -/
def execHeartbeatSend (s : State) : Result :=
  if isSummit s && s.range.beatAt + 1000000 ≤ now s then
    let p := paramsOf [(16, s.range.epoch.toNat), (20, s.range.summit), (22, nodeCode s.range.shoulder)]
    let s1 := { s with range := { s.range with beatAt := now s } }
    .next ((others s (nodes s)).foldl (fun s n => sendMsg s { dst := n, form := 0x15, params := p }) s1)
  else .next s

/-- A member leaves on its own (R361). -/
def cutOff (s : State) : Bool :=
  let r := s.range
  (r.role != .summit && decide (r.heardAt + 5000000 ≤ now s)) ||
  (!(others s (nodes s)).isEmpty && allPorts.all (fun p => (link s p).state != .opened) &&
    decide (r.openAt + 1000000 ≤ now s))

/-- HEARTBEAT_LOSS. -/
def execHeartbeatLoss (s : State) : Result := if inRange s && cutOff s then .next (leaveRange s) else .next s

/-- LOSS: the Summit or the Shoulder probes the named node. -/
def execLoss (m : RMsg) (s : State) : Result :=
  ringMsg formLoss true m (s := s) (fun s => onMsg s m fun s => (takeLoss s (mp m 16 2), []))

/-- PROBE is answered with its token. -/
def execProbe (m : RMsg) (s : State) : Result :=
  ringMsg formProbe true m (s := s) (fun s => onMsg s m fun s => if inRange s then (s, [backTo m 0x03 0x18 (paramsOf [(16, mp m 16 8)])]) else (s, []))

/-- PROBE_ACK: only the link has failed, as every LOSS report that the PROBE settles is counted to say (R376). -/
def execProbeAck (m : RMsg) (s : State) : Result :=
  ringMsg formProbeAck true m (s := s) (fun s => onMsg s m fun s =>
    let hit := fun (x : Probing) => x.node == m.src && x.token.toNat == mp m 16 8
    if s.range.probes.any hit then
      let n := ((s.range.probes.filter hit).map (·.losses)).sum
      ({ s with range := { s.range with
        probes := s.range.probes.filter fun x => !hit x
        ctr := { s.range.ctr with probes := add32 s.range.ctr.probes n } } }, [])
    else (s, []))

/-- RANGE_PROBE_TIMEOUT: after 2 ms the node is lost; the Summit removes it at once, and the Shoulder that probed the
Summit takes over. -/
def execRangeProbeTimeout (n : Nat) (s : State) : Result :=
  match s.range.probes.find? fun x => x.node == n with
  | none => .next s
  | some q =>
    if now s < q.at_ + 2000 then .next s
    else
      let s1 := { s with range := { s.range with probes := s.range.probes.filter fun x => x.node != n } }
      if isSummit s1 && (nodes s1).contains n then .next (markRemoved s1 n true)
      else if inRange s1 && s1.range.role == .shoulder && n == s1.range.summit then
        .next { s1 with range := { s1.range with summitLost := true } }
      else .next s1

/-- SHOULDER_HEARTBEAT_TIMEOUT: no heartbeat for 3 s. -/
def execShoulderHeartbeatTimeout (s : State) : Result :=
  if inRange s && s.range.role == .shoulder && s.range.heardAt + 3000000 ≤ now s then
    .next (startProbe s s.range.summit 0)
  else .next s

/-- The Shoulder takes authority. -/
def takeAuthority (s : State) : State :=
    let old := rkOf s s.range.epoch.toNat
    let s1 := if s.range.prep.isSome then writeRaw s 2 old rangePolicy else s
    let r := s1.range
    let s2 := { s1 with range := { r with
      role := .summit, summit := r.nodeId, shoulder := none, summitLost := false, takeover := true, prep := none
      prepWait := none, shadowAll := true, pair := { r.pair with heardAt := now s, polledAt := now s }
      beatAt := now s - 1000000, ctr := { r.ctr with takeovers := inc32 r.ctr.takeovers } } }
    markRemoved s2 r.summit true

/-- SHOULDER_TAKEOVER (R367): an epoch that the former Summit prepared and did not switch is given up first; where the key
of the epoch in force then fails its check, the chip has no range key left and leaves (R259). -/
def execShoulderTakeover (s : State) : Result :=
  if inRange s && s.range.role == .shoulder && s.range.summitLost then
    match rkBad s s.range.epoch.toNat with
    | some t => .next (if inRange t then leaveRange t else t)
    | none => .next (takeAuthority s)
  else .next s

/-! ## SHADOW (R366) -/

/-- Whether a shadow's part 0 says that it is one of changes. -/
def shadowDelta (parts : List (Nat × Bytes × Nat)) : Bool := match parts.find? fun e => e.1 == 0 with
  | some e => le e.2.1 16 1 / 4 % 2 == 1
  | none => false

/-- Adopt a complete shadow: each entry ages from when its part came; changes go into the list that is held. -/
def adoptShadow (s : State) (x : ShadowIn) : State :=
  let parts := x.parts
  let at_ := fun (i : Nat) => match parts.find? fun e => e.1 == i with
    | some e => e.2
    | none => ([], 0)
  let h := (at_ 0).1
  let n := le h 47 2
  let entries := (span 1 (parts.length - 1)).flatMap fun i =>
    (List.range ((at_ i).1.length / 84)).map fun k => entryMember (slice (at_ i).1 (84 * k) 84) (at_ i).2
  let k := le h (49 + 2 * n) 2
  let gone := nodesOf (slice h (51 + 2 * n) (2 * k))
  let r := s.range
  let base := if shadowDelta parts then r.members.filter fun m => !gone.contains m.node else []
  { s with range := { r with
    minSvn := BitVec.ofNat 32 (le h 12 4), test := le h 16 1 % 2 == 1
    toRemove := nodesOf (slice h 49 (2 * n)), afs := h.drop (51 + 2 * n + 2 * k)
    members := entries.foldl (fun l m => insertMember m l) base
    pair := { r.pair with
      base := le h 17 6, peer := BitVec.ofNat 64 (le h 23 8), outSeq := le h 31 8, inSeq := le h 39 8 }
    shadowed := true, shadowGot := x.num, shadowIn := r.shadowIn.filter fun y => x.num < y.num } }

/-- A shadow may be adopted: every part has come, and one of changes follows the one adopted last. -/
def shadowReady (s : State) (x : ShadowIn) : Bool :=
  x.parts.length == x.count && (!shadowDelta x.parts || x.num == s.range.shadowGot + 1)

/-- Adopt what can be adopted, in order. -/
def adoptAll : Nat → State → State
  | 0, s => s
  | n + 1, s => match s.range.shadowIn.find? (shadowReady s) with
    | some x => adoptAll n (adoptShadow s x)
    | none => s

/-- A part of a shadow at the Shoulder: kept with the others of its number, beside those of other shadows. -/
def takeShadow (s : State) (b : Bytes) : State :=
  let n := le b 0 4
  let i := le b 4 2
  let x : ShadowIn := (s.range.shadowIn.find? fun y => y.num == n).getD { num := n, count := le b 6 2 }
  let y := if x.parts.any fun e => e.1 == i then x else { x with parts := x.parts ++ [(i, b.drop 8, now s)] }
  let l := (s.range.shadowIn.filter fun z => z.num != n) ++ [y]
  adoptAll l.length { s with range := { s.range with shadowIn := l } }

/-- SHADOW. -/
def onShadow (s : State) (m : RMsg) : State :=
  onMsg s m fun s =>
    if inRange s && !isSummit s && m.src == s.range.summit then
      let b := m.data
      (takeShadow s b, [backTo m 0x03 0x1A (paramsOf [(16, le b 0 4), (24, le b 4 2)])])
    else (s, [])

/-- SHADOW. -/
def execShadow (m : RMsg) (s : State) : Result :=
  ringMsg formShadow true m (s := s) (onShadow · m)

/-- SHADOW_ACK: the part is acknowledged; a shadow acknowledged whole releases its JOIN_ADMIT. -/
def execShadowAck (m : RMsg) (s : State) : Result :=
  ringMsg formShadowAck true m (s := s) (fun s => onMsg s m fun s =>
    if isSummit s && s.range.shoulder == some m.src then
      (releaseAdmits (dropSent s fun w => w == .shadow (mp m 16 8) (mp m 24 2)), [])
    else (s, []))

/-! ## SETKEY (R316) and PAIRKEY (R364) -/

/-- The Summit's answer to SETKEY_REQ. -/
def setkeyAnswer (s : State) (m : RMsg) : Msg :=
  if s.range.takeover then backTo m 0x03 0x1C (paramsOf [(16, statusCode .busy)])
  else
    let k := setKeyFor s m.src (le m.data 96 4) (slice m.data 0 48) (slice m.data 48 48)
    if k.1 == .ok then
      backTo m 0x03 0x1C (paramsOf [(20, wrapped (memberWrap (slot s 2).key m.src) k.2)])
    else backTo m 0x03 0x1C (paramsOf [(16, statusCode k.1)])

/-- A request waits for SWITCH. -/
def waitSwitch (s : State) (bind : Bool) (m : RMsg) : State :=
  let x : LaterMsg := { bind := bind, msg := m }
  if s.range.later.contains x then s else { s with range := { s.range with later := s.range.later ++ [x] } }

/-- SETKEY_REQ: during an advance it waits for SWITCH (R333, R374). -/
def onSetkeyReq (s : State) (m : RMsg) : State :=
  if s.range.adv.isSome && !s.range.takeover then waitSwitch s false m
  else onMsg s m fun s =>
    if isSummit s then match readBad s [2], rkBad s (le m.data 96 4) with
      | some t, _ => (t, [])
      | none, some t => (t, [])
      | none, none => (s, [setkeyAnswer s m])
    else (s, [])

/-- PART_STATUS BIND: during an advance the query waits for SWITCH (R220, R374); during a takeover it is answered BUSY
(R367). -/
def execPartStatusBind (m : RMsg) (s : State) : Result :=
  .next (if s.range.memb == .reforming && !s.range.takeover then waitSwitch s true m else rangeCmd opPartBind s m)

/-- The requests that waited go on once the chip is past the advance. -/
def settleLater (s : State) : State :=
  if s.range.memb == .reforming || s.range.adv.isSome then s
  else s.range.later.foldl (fun s x => if x.bind then rangeCmd opPartBind s x.msg else onSetkeyReq s x.msg)
    { s with range := { s.range with later := [] } }

/-- SETKEY_REQ. -/
def execSetkeyReq (m : RMsg) (s : State) : Result :=
  ringMsg formSetkeyReq true m (s := s) (onSetkeyReq · m)

/-- The import that has waited longest for a set key from a node. -/
def oldestImport (s : State) (src : Nat) : Option Import :=
  (s.range.sent.findSome? fun r => match r.why with
    | .setkey n => if r.msg.dst == src then some n else none
    | _ => none).bind fun n => s.wb.imports.find? fun m => m.num == n

/-- SETKEY_RSP answers the oldest request (DESIGN CHOICE, log entry 47); a key that does not unwrap is no answer. -/
def execSetkeyRsp (m : RMsg) (s : State) : Result :=
  ringMsg formSetkeyRsp true m (s := s) (fun s => onMsg s m fun s =>
    match oldestImport s m.src with
    | none => (s, [])
    | some i =>
      if mp m 16 1 == 0 then
        match readBad s [2], unwrapped (memberWrap (slot s 2).key s.range.nodeId) (mpBytes m 20 40) with
        | some t, _ => (t, [])
        | none, some k => (endImport s i k, [])
        | none, none => (s, [])
      else match failureOf (mp m 16 1) with
        | some st => (failImport s i st, [])
        | none => (s, []))

/-- PAIRKEY: the pair key goes into slot 7. -/
def execPairkey (m : RMsg) (s : State) : Result :=
  ringMsg formPairkey true m (s := s) (fun s => onMsg s m fun s =>
    let e := s.range.epoch.toNat
    if !inRange s || isSummit s || msgEpoch m 16 != e then (s, [])
    else match rkBad s e, unwrapped (nodeWrap (rkOf s e) "pair-wrap" s.range.nodeId e) (mpBytes m 20 40) with
      | some t, _ => (t, [])
      | none, none => (s, [])
      | none, some k =>
        let s1 := writeRaw s 7 k pairPolicy
        ({ s1 with range := { s1.range with paired := true } }, []))

/-- RANGE_REPLY (R227). -/
def execRangeReply (m : RMsg) (status : BitVec 8) (result : BitVec 192) (s : State) : Result :=
  .next (takeRangeReply s m.src m.seq status.toNat result)

/-! ## FRAG (R356) -/

/-- A reassembled message goes where a message of its kind goes; its kind follows from its content and from what this
chip awaits (log entry 30). -/
def deliverMsg (s : State) (m : RMsg) : State :=
  if slice m.data 0 4 == asc "QEVD" then
    if m.via ≥ 36 && s.range.refreshing.any (fun e => e.1 == m.src && keyBytes e.2.1 == slice m.data 16 32) then
      onRefreshEvid s m
    else onJoinEvid s m
  else if forJoin s m then onJoinAdmit s m
  else if isSummit s then (if m.data.length == 100 then onSetkeyReq s m else s)
  else if !(liveAsks s).isEmpty && le m.data 0 8 == s.range.rangeId.toNat then onJoinAdmit s m
  else onShadow s m

/-- Content of a message whose fragments are all there. -/
def joined (q : Reasm) : Bytes :=
  (List.range q.count).flatMap fun i => match q.frags.find? fun f => f.1 == i with
    | some f => f.2
    | none => []

/-- A fragment joins the message it belongs to. -/
def takeFrag (s : State) (m : RMsg) : State :=
  let n := BitVec.ofNat 16 (mp m 16 2)
  let i := mp m 18 2
  let cnt := mp m 20 2
  let d := (mpBytes m 24 40).take (mp m 22 1)
  let mine := fun (q : Reasm) => q.src == m.src && q.via == m.via && q.num == n
  let rest := s.range.reasm.filter fun q => !mine q
  let q : Reasm := (s.range.reasm.find? mine).getD { src := m.src, via := m.via, num := n, count := cnt, at_ := now s }
  if rest.length ≥ 16 || cnt != q.count || cnt == 0 || cnt > 1229 || i ≥ cnt || d.isEmpty then s
  else
    let q1 := if q.frags.any fun f => f.1 == i then q else { q with frags := q.frags ++ [(i, d)] }
    if (q1.frags.map fun f => f.2.length).sum > 49152 then { s with range := { s.range with reasm := rest } }
    else if q1.frags.length == cnt then
      deliverMsg { s with range := { s.range with reasm := rest } }
        { src := m.src, via := m.via, seq := n, data := joined q1 }
    else { s with range := { s.range with reasm := rest ++ [q1] } }

/-- Index, count and bytes used of a FRAG are in range (R355, R356). -/
def fragOk (m : RMsg) : Bool :=
  decide (mp m 18 2 < mp m 20 2) && decide (mp m 20 2 ≤ 1229) && decide (1 ≤ mp m 22 1) && decide (mp m 22 1 ≤ 40)

/-- FRAG. -/
def execFrag (m : RMsg) (s : State) : Result :=
  ringMsg formFrag (fragOk m) m (s := s) (takeFrag · m)

/-- REASSEMBLY_TIMEOUT. -/
def execReassemblyTimeout (src : Nat) (n : BitVec 16) (s : State) : Result :=
  let due := fun (q : Reasm) => q.src == src && q.num == n && decide (q.at_ + 100000 ≤ now s)
  .next { s with range := { s.range with reasm := s.range.reasm.filter fun q => !due q } }

/-! ## Resends (R355) -/

/-- A request has failed with BUSY: a join starts again from JOIN_REQ (R358), a shadow is sent anew and the joiners
that waited for it must ask again, what another command waits for ends. -/
def requestFailed (s : State) (why : Purpose) : State :=
  match why with
  | .join => sendJoinReq s
  | .bind pid node => endBind s pid node .busy
  | .setkey n => match s.wb.imports.find? fun m => m.num == n with
    | some m => failImport s m .busy
    | none => s
  | .shadow n _ =>
    let s1 := dropSent s fun w => match w with
      | .shadow k _ => k == n
      | _ => false
    let stay := s1.range.joiners.filter fun j => match j.adm with
      | some (_, k) => k != n
      | none => true
    sendShadow { s1 with range := { s1.range with joiners := stay, shadowAll := true } }
  | .leave => s
  | .refresh _ => s

/-- A bind query or a set-key request waits for SWITCH (R220, R333, R374). -/
def heldBack (s : State) (why : Purpose) : Bool :=
  s.range.memb == .reforming && (match why with
    | .bind _ _ => true
    | .setkey _ => true
    | _ => false)

/-- RANGE_RESEND_TIMER: 2 ms without an answer; after the fifth send the request fails. -/
def execRangeResendTimer (dst : Nat) (seq : BitVec 16) (s : State) : Result :=
  match s.range.sent.find? fun r => r.msg.dst == dst && r.msg.seq == seq with
  | none => .next s
  | some r =>
    let put := fun (x : List Sent) => { s with range := { s.range with sent := x } }
    if now s < r.at_ + 2000 then .next s
    else if r.sends < 5 || heldBack s r.why then
      let r1 := { r with sends := if heldBack s r.why then r.sends else r.sends + 1, at_ := now s }
      let s1 := put (s.range.sent.map fun x => if x == r then r1 else x)
      .next (transmit { s1 with range := { s1.range with ctr := { s1.range.ctr with
        resends := inc32 s1.range.ctr.resends } } } r.msg)
    else .next (requestFailed (put (s.range.sent.filter fun x => x != r)) r.why)

end Sys2Proof.Machine
end

