-- ==== Sys2Proof/Machine/CmdCtx.lean ====
section
/-! DEFINITION. Commands on contexts and fences, and the events of the tile scheduler (07, 08). -/

namespace Sys2Proof.Machine

/-! ## CTX_LOAD and CTX_EVICT (R207, R209, R211) -/

/-- Checks 6 and 7 of the queue of a context: aligned and in range, PID not 0 (R40), pages LIVE under the
PID with DRD and DWR (R239). -/
def queueCheck (s : State) (pid : Nat) (qbase qlog2 : Nat) : Option Status :=
  if qbase % 4096 != 0 || qbase ≥ 2 ^ 41 || qlog2 < 6 || qlog2 > 20 then some .errParam
  else if pid == 0 then some .errPerm
  else if rangeOk s pid qbase (64 * 2 ^ qlog2) rDRD && rangeOk s pid qbase (64 * 2 ^ qlog2) rDWR then none
  else some .errPerm

/-- The conditions of check 11 for a context to become resident (R207, R195). -/
def loadable (s : State) (pid : Nat) : Bool :=
  active s pid && s.range.memb != .quarantined &&
  (!(part s pid).conf || ((tdi s pid).state == .run && inRange s))

/-- CTX_LOAD NEW. -/
def runCtxLoadNew (s : State) (t : Ticket) (p : Pkt) (_ : List ReadIn) : Res :=
  let pid := tagPid t.ptag
  let i := freeCtx s
  let n := freeSlot s
  if !loadable s pid then .fail .errState
  else if n ≥ 64 || i ≥ 16384 then .fail .errResource
  else
    let c : Ctx := {
      state := .resident, inc := (ctx s i).inc, pid := pid, ptag := curTag s pid, slot := n,
      owner := BitVec.ofNat 16 (parm p 16 16), qbase := BitVec.ofNat 41 (parm p 24 48),
      qlog2 := parm p 30 8 }
    .ok (setCtx s i c) (resultOf [(8, (mkHandle pid (ctx s i).inc i).toNat), (12, n)])

/-- CTX_LOAD (0x16) NEW. -/
def opCtxLoadNew : Op where
  opcode := 0x16
  named := [(16, 0, 16), (24, 0, 48), (30, 0, 8)]
  rings := opTenant
  pre s _ p := queueCheck s (tagPid p.ptag) (parm p 24 48) (parm p 30 8)
  run := runCtxLoadNew

/-- CTX_LOAD RESUME. -/
def runCtxLoadResume (s : State) (t : Ticket) (p : Pkt) (_ : List ReadIn) : Res :=
  let pid := tagPid t.ptag
  let h := BitVec.ofNat 32 (parm p 16 32)
  let i := ctxIdx h
  let n := freeSlot s
  if (ctx s i).state == .lost then .fail .errLost
  else if !loadable s pid || (ctx s i).state != .evicted then .fail .errState
  else if n ≥ 64 then .fail .errResource
  else
    let s1 := setCtx s i { ctx s i with state := .resident, slot := n, ptag := curTag s pid }
    .ok (resumeWait s1 i) (resultOf [(8, h.toNat), (12, n)])

/-- A context handle in bytes 16-19 matches its descriptor, and its PID is the one the command names. -/
def ctxNamed (s : State) (p : Pkt) : Bool :=
  let h := BitVec.ofNat 32 (parm p 16 32)
  ctxMatch s h && (tagPid p.ptag == 0 || handlePid h == tagPid p.ptag)

/-- CTX_LOAD (0x16) RESUME. -/
def opCtxLoadResume : Op where
  opcode := 0x16
  form := 1
  named := [(16, 0, 32)]
  rings := opTenant
  handle := ctxNamed
  pre s _ p :=
    let c := ctx s (ctxIdx (BitVec.ofNat 32 (parm p 16 32)))
    queueCheck s (tagPid p.ptag) c.qbase.toNat c.qlog2
  run := runCtxLoadResume

/-- CTX_EVICT with PTAG 0x0000 fails check 7 (R40). -/
def notSystem (_ : State) (_ : Nat) (p : Pkt) : Option Status :=
  if tagPid p.ptag == 0 then some .errPerm else none

/-- CTX_EVICT SAVE: at the end of the running command (R207). -/
def runCtxSave (s : State) (t : Ticket) (p : Pkt) (_ : List ReadIn) : Res :=
  let i := ctxIdx (BitVec.ofNat 32 (parm p 16 32))
  let c := ctx s i
  if c.state == .lost then .fail .errLost
  else if c.state != .resident then .fail .errState
  else if c.phase == .none then .ok (evictCtx s i)
  else .wait s (tagPid t.ptag) (.save i)

/-- CTX_EVICT (0x17) SAVE. -/
def opCtxEvictSave : Op where
  opcode := 0x17
  fast := true
  named := [(16, 0, 32)]
  rings := opTenant
  handle := ctxNamed
  pre := notSystem
  run := runCtxSave

/-- Begin a kill that names context `i` (R211 step 1). -/
def beginKill (s : State) (pid i : Nat) : State :=
  { s with part := { s.part with kills := s.part.kills ++ [(pid, { stage := .commits, ctx := i })] } }

/-- CTX_EVICT KILL (R211); a second kill of the PID starts after the first ends (R220). -/
def runCtxKill (s : State) (t : Ticket) (p : Pkt) (_ : List ReadIn) : Res :=
  let i := ctxIdx (BitVec.ofNat 32 (parm p 16 32))
  let c := ctx s i
  if c.state == .lost then .fail .errLost
  else if c.state != .resident then .fail .errState
  else .wait (beginKill s (tagPid t.ptag) i) (tagPid t.ptag) (.kill (tagPid t.ptag))

/-- CTX_EVICT (0x17) KILL. -/
def opCtxEvictKill : Op where
  opcode := 0x17
  form := 1
  fast := true
  named := [(16, 0, 32)]
  rings := opTenant
  handle := ctxNamed
  pre := notSystem
  run := runCtxKill

/-- CTX_EVICT DISCARD (R207). -/
def runCtxDiscard (s : State) (_ : Ticket) (p : Pkt) (_ : List ReadIn) : Res :=
  let i := ctxIdx (BitVec.ofNat 32 (parm p 16 32))
  if (ctx s i).state == .resident then .fail .errState else .ok (dropCtx s i)

/-- CTX_EVICT (0x17) DISCARD. -/
def opCtxEvictDiscard : Op where
  opcode := 0x17
  form := 2
  fast := true
  named := [(16, 0, 32)]
  rings := opTenant
  handle := ctxNamed
  pre := notSystem
  run := runCtxDiscard

/-- CTX_EVICT ABANDON (R211, R219). -/
def runCtxAbandon (s : State) (t : Ticket) (p : Pkt) (_ : List ReadIn) : Res :=
  let pid := tagPid t.ptag
  let o := BitVec.ofNat 16 (parm p 16 16)
  let cs := (ctxsOf s pid).filter fun i =>
    (ctx s i).owner == o && ((ctx s i).state == .resident || (ctx s i).state == .evicted)
  let fs := (fencesOf s pid).filter fun i => (fence s i).owner == o
  let s1 := cs.foldl (fun s i => loseCtx s i .abandon) s
  let s2 := fs.foldl (fun s i =>
    (signalFence s (fenceHandle s i) 0 (BitVec.ofNat 8 (statusCode .errLost)) (curTag s pid)).1) s1
  .ok s2 (resultOf [(8, cs.length), (10, fs.length)])

/-- CTX_EVICT (0x17) ABANDON. -/
def opCtxEvictAbandon : Op where
  opcode := 0x17
  form := 3
  fast := true
  named := [(16, 0, 16)]
  rings := opTenant
  pre := notSystem
  run := runCtxAbandon

/-- CTX_LOAD NEW. -/
def execCtxLoadNew (c : Cmd) (s : State) : Result := .next (issue opCtxLoadNew s c)
/-- CTX_LOAD RESUME. -/
def execCtxLoadResume (c : Cmd) (s : State) : Result := .next (issue opCtxLoadResume s c)
/-- CTX_EVICT SAVE. -/
def execCtxEvictSave (c : Cmd) (s : State) : Result := .next (issue opCtxEvictSave s c)
/-- CTX_EVICT KILL. -/
def execCtxEvictKill (c : Cmd) (s : State) : Result := .next (issue opCtxEvictKill s c)
/-- CTX_EVICT DISCARD. -/
def execCtxEvictDiscard (c : Cmd) (s : State) : Result := .next (issue opCtxEvictDiscard s c)
/-- CTX_EVICT ABANDON. -/
def execCtxEvictAbandon (c : Cmd) (s : State) : Result := .next (issue opCtxEvictAbandon s c)

/-! ## Fences (R215 to R217) -/

/-- FENCE_CREATE. -/
def runFenceCreate (s : State) (t : Ticket) (p : Pkt) (_ : List ReadIn) : Res :=
  let pid := tagPid t.ptag
  let i := freeFence s
  let mode := parm p 22 8 / 2 % 4
  if pid != 0 && !active s pid then .fail .errState
  else if i ≥ 65535 then .fail .errResource
  else
    let f : Fence := {
      state := .live, inc := (fence s i).inc, pid := pid,
      cookie := BitVec.ofNat 32 (parm p 16 32), vector := BitVec.ofNat 11 (parm p 20 16),
      owner := BitVec.ofNat 16 (parm p 24 16), ptag := curTag s pid, irq := parmBit p 22 0,
      strict := if mode == 0 then (part s pid).strict else mode == 2 }
    .ok (setFence s i f) (resultOf [(8, (mkHandle pid (fence s i).inc i).toNat)])

/-- FENCE_CREATE (0x18). -/
def opFenceCreate : Op where
  opcode := 0x18
  named := [(16, 0, 32), (20, 0, 16), (22, 0, 3), (24, 0, 16)]
  whole _ := true
  rings := opTenant
  pre _ _ p := if parm p 20 16 > 0x7FF || parm p 22 8 / 2 % 4 == 3 then some .errParam else none
  run := runFenceCreate

/-- The fence handle in bytes 16-19 matches a LIVE or ERROR fence. -/
def fenceNamed (s : State) (p : Pkt) : Bool := fenceMatch s (BitVec.ofNat 32 (parm p 16 32))

/-- A tenant ring names only fences of its own partition (R216). -/
def fenceOwn (s : State) (n : Nat) (p : Pkt) : Bool :=
  !tenantOnly n || (fence s (fenceIdx (BitVec.ofNat 32 (parm p 16 32)))).pid == n

/-- A resident context waits on the fence, or an armed fold plan names it (R215). -/
def fenceBusy (s : State) (h : BitVec 32) : Bool :=
  !(waiters s h fun _ => true).isEmpty ||
  s.fold.plans.any fun e => e.2.state == .armed && e.2.fence == h

/-- FENCE_DESTROY. -/
def runFenceDestroy (s : State) (_ : Ticket) (p : Pkt) (_ : List ReadIn) : Res :=
  let h := BitVec.ofNat 32 (parm p 16 32)
  if fenceBusy s h then .fail .errState else .ok (dropFence s (fenceIdx h))

/-- FENCE_DESTROY (0x19). -/
def opFenceDestroy : Op where
  opcode := 0x19
  named := [(16, 0, 32)]
  whole _ := true
  rings := opTenant
  handle := fenceNamed
  pre s n p := if fenceOwn s n p then none else some .errPerm
  run := runFenceDestroy

/-- Result of FENCE_SIGNAL: VALUE, STATE, ERR, OOO (R239). -/
def fenceResult (s : State) (h : BitVec 32) (ooo : Bool) : BitVec 192 :=
  let f := fence s (fenceIdx h)
  resultOf [(8, f.value.toNat), (16, if f.state == .error then 2 else 1), (17, f.err.toNat), (18, b2n ooo)]

/-- FENCE_SIGNAL SIGNAL or ERROR: apply, then reply (R216, R217). -/
def runFenceSignal (status : Pkt → BitVec 8) (s : State) (t : Ticket) (p : Pkt) (_ : List ReadIn) : Res :=
  let h := BitVec.ofNat 32 (parm p 16 32)
  let r := signalFence s h (BitVec.ofNat 64 (parm p 20 64)) (status p) t.ptag
  match r.2 with
  | .oooStrict => .failWith .errParam 0 r.1
  | .ooo => .ok r.1 (fenceResult r.1 h true)
  | .stale => .ok r.1 (fenceResult r.1 h false)
  | .applied => .ok r.1 (fenceResult r.1 h false)

/-- FENCE_SIGNAL (0x1A) SIGNAL. -/
def opFenceSignal : Op where
  opcode := 0x1A
  fast := true
  named := [(16, 0, 32), (20, 0, 64)]
  rings := opTenant
  handle := fenceNamed
  pre s n p := if fenceOwn s n p then none else some .errPerm
  run := runFenceSignal fun _ => 0

/-- FENCE_SIGNAL (0x1A) ERROR. -/
def opFenceError : Op where
  opcode := 0x1A
  form := 1
  fast := true
  named := [(16, 0, 32), (28, 0, 8)]
  rings := opTenant
  handle := fenceNamed
  pre s n p :=
    if parm p 28 8 == 0 || parm p 28 8 > 0x0E then some .errParam
    else if fenceOwn s n p then none else some .errPerm
  run := runFenceSignal fun p => BitVec.ofNat 8 (parm p 28 8)

/-- FENCE_SIGNAL QUERY. -/
def runFenceQuery (s : State) (_ : Ticket) (p : Pkt) (_ : List ReadIn) : Res :=
  .ok s (fenceResult s (BitVec.ofNat 32 (parm p 16 32)) false)

/-- FENCE_SIGNAL (0x1A) QUERY. -/
def opFenceQuery : Op where
  opcode := 0x1A
  form := 2
  fast := true
  named := [(16, 0, 32)]
  rings := opTenant
  handle := fenceNamed
  pre s n p := if fenceOwn s n p then none else some .errPerm
  run := runFenceQuery

/-- FENCE_CREATE. -/
def execFenceCreate (c : Cmd) (s : State) : Result := .next (issue opFenceCreate s c)
/-- FENCE_DESTROY. -/
def execFenceDestroy (c : Cmd) (s : State) : Result := .next (issue opFenceDestroy s c)
/-- FENCE_SIGNAL SIGNAL. -/
def execFenceSignalSignal (c : Cmd) (s : State) : Result := .next (issue opFenceSignal s c)
/-- FENCE_SIGNAL ERROR. -/
def execFenceSignalError (c : Cmd) (s : State) : Result := .next (issue opFenceError s c)
/-- FENCE_SIGNAL QUERY. -/
def execFenceSignalQuery (c : Cmd) (s : State) : Result := .next (issue opFenceQuery s c)

/-! ## Events of the tile scheduler (R210, R211, R216) -/

/-- A commit request: granted in the same cycle unless a kill of the PID is in progress (R210). -/
def commitReq (s : State) (h : BitVec 32) : State :=
  let i := ctxIdx h
  let c := ctx s i
  if !(ctxMatch s h && c.state == .resident) then s
  else if commitHeld s h then setCtx (startCmd s h) i { ctx (startCmd s h) i with held := true }
  else emit (enterCommit s h) (.schedCommit i)

/-- SCHED_COMMIT_REQ. -/
def execSchedCommitReq (h : BitVec 32) (s : State) : Result := .next (commitReq s h)

/-- All the contexts a kill stops have stopped. -/
def allStopped (s : State) (l : List Nat) : Bool := l.all fun i => !(ctx s i).stopping

/-- From step 3 to step 4 of a kill once every stop is acknowledged (R211). -/
def killStops (s : State) (pid : Nat) : State :=
  match killOf s pid with
  | some k =>
    if k.stage == .stops && allStopped s k.stopped then
      askAdvance (setKill s pid { k with stage := .advance }) pid .kill
    else s
  | none => s

/-- KILL_COMMITS_DRAINED: no command of the PID is in COMMIT; the RUN commands are stopped (R211 steps
2 and 3). -/
def execKillCommitsDrained (pid : Pid) (s : State) : Result :=
  match killOf s pid.val with
  | none => .next s
  | some k =>
    if k.stage != .commits || (ctxsOf s pid.val).any (fun i => (ctx s i).phase == .commit) then .next s
    else
      let l := (ctxsOf s pid.val).filter fun i => (ctx s i).state == .resident && (ctx s i).phase == .run
      let s1 := l.foldl (fun s i => emit (setCtx s i { ctx s i with stopping := true }) (.schedStop i)) s
      .next (killStops (setKill s1 pid.val { k with stage := .stops, stopped := k.stopped ++ l }) pid.val)

/-- A teardown waits for no stop of the PID any more. -/
def pidStopped (s : State) (pid : Nat) : Bool :=
  s.part.ctxs.all fun e => !(e.2.pid == pid && e.2.stopping)

/-- The command of a context ends: HEAD passes its entry, and a waiting SAVE completes (R207). -/
def endCmd (s : State) (i : Nat) : State :=
  let c := ctx s i
  let s1 := setCtx s i { c with phase := .none, head := BitVec.ofNat 32 ((c.entry.toNat + 1) % 2 ^ c.qlog2) }
  endSave s1 i

/-- SCHED_COMMAND_DONE: the running command of a resident context reaches DONE (R210). -/
def execSchedCommandDone (h : BitVec 32) (s : State) : Result :=
  let c := ctx s (ctxIdx h)
  if ctxMatch s h && c.state == .resident && c.phase != .none && !c.stopping then
    .next (endCmd s (ctxIdx h))
  else .next s

/-- A signal entry of a context's queue (R216, R217); a kill of the PID holds the one that would put its command into
COMMIT (R210). A resident context signals under the tag of now: its slot's PTAG is that of its last CTX_LOAD, and a kill
leaves it resident (DEDUCED, log entry 90). -/
def queueSignal (s : State) (x : HeldSignal) : State :=
  let i := ctxIdx x.ctx
  let c := ctx s i
  if !(ctxMatch s x.ctx && c.state == .resident) then s
  else if commitHeld s x.ctx then
    let s1 := startCmd s x.ctx
    { s1 with part := { s1.part with heldSigs := s1.part.heldSigs ++ [x] } }
  else
    let s1 := enterCommit s x.ctx
    if !fenceMatch s1 x.fence || (fence s1 (fenceIdx x.fence)).pid != c.pid then loseCtx s1 i .fence
    else
      let r := signalFence s1 x.fence x.value x.status (curTag s c.pid)
      if r.2 == .oooStrict then loseCtx r.1 i .fence else r.1

/-- QUEUE_SIGNAL_ENTRY. -/
def execQueueSignalEntry (h f : BitVec 32) (v : BitVec 64) (st : BitVec 8) (s : State) : Result :=
  .next (queueSignal s { ctx := h, fence := f, value := v, status := st })

/-- A kill has ended and no other of the PID is in progress: the commit requests and the signal entries that it held
are granted and applied in their order (R210). -/
def releaseCommits (s : State) (pid : Nat) : State :=
  if killing s pid then s
  else
    let l := (ctxsOf s pid).filter fun i => (ctx s i).held
    let s1 := l.foldl (fun s i => commitReq (setCtx s i { ctx s i with held := false }) (ctxHandle s i)) s
    (s.part.heldSigs.filter fun x => handlePid x.ctx == pid).foldl queueSignal
      (dropSignals s1 fun x => handlePid x.ctx == pid)

/-- DMA_BIND: the tile scheduler binds a DMA engine to a resident context (R209). -/
def execDmaBind (eng : Fin 32) (h : BitVec 32) (s : State) : Result :=
  let i := ctxIdx h
  let c := ctx s i
  if ctxMatch s h && c.state == .resident then
    let a : Asg := { pid := c.pid, gen := curGen s c.pid }
    .next (emit { s with part := { s.part with
      dma := tset 0 s.part.dma eng.val (i + 1)
      asg := tset {} s.part.asg (0x90 + eng.val) a } } (.assign (0x90 + eng.val) c.pid a.gen))
  else .next s

end Sys2Proof.Machine
end

