-- ==== Sys2Proof/Machine/GenOps.lean ====
section
/-! DEFINITION. TDIs, IDE streams, function resets, and the advance of generations for kills, resets and
teardowns (02 R41, 07 R202 to R204, R211 to R214). -/

namespace Sys2Proof.Machine

/-! ## IDE streams (R203) -/

/-- Every key of a stream leaves its slot. -/
def clearIde (s : State) (k : Nat) : State :=
  setIde (((ide s k).keys.map (·.2)).foldl clearSlot s) k { assoc := (ide s k).assoc }

/-- The six sub-stream and direction pairs. -/
def ideKeys : List IdeKey := [⟨0, false⟩, ⟨0, true⟩, ⟨1, false⟩, ⟨1, true⟩, ⟨2, false⟩, ⟨2, true⟩]

/-- K_SET_GO is done in both directions of every sub-stream. -/
def ideReady (s : State) (k : Nat) : Bool := ideKeys.all fun x => (ide s k).go.contains x

/-! ## Resets of a function (R212) -/

/-- A TDI leaves its stream for a state; at an unlock a stream that carries no other TDI loses its keys
(R263). -/
def releaseTdi (s : State) (n : Nat) (st : Tdi) : State :=
  let t := tdi s n
  let s1 := setTdi s n { state := st }
  match t.stream with
  | some k => if st == .unlocked && (tdisOn s1 k).isEmpty then clearIde s1 k else s1
  | none => s1

/-- Steps of R212 that need no advance: the advance is asked for, a kill ends with ERR_LOST (R220), contexts
are lost, ring and window emptied (R227), the TDI released, Iron contexts and streams ended. -/
def resetFn (s : State) (n : Nat) (st : Tdi) : State :=
  let s1 := finishWaits (withdrawKill s n) (fun w => w.kind == .kill n) .errLost
  let s2 := muteRing (losePid (askAdvance s1 n .reset) n .reset) n
  let s3 := clearWindow (emptyRing s2 n) n
  wbReset (ironReset (releaseTdi s3 n st) n) n

/-- A TDI in CONFIG_LOCKED or RUN enters ERROR (R204). -/
def tdiFault (s : State) (n : Nat) : State :=
  let t := (tdi s n).state
  if t == .locked || t == .run then resetFn s n .error else s

/-! ## Advances (R41, R211, R212, R214, R232) -/

/-- What every advance of a generation does: the new generation, the pre-advance counts of the rings that may
hold commands of the PID, target streams freed (R83), poison unmuted (R145), debug ended (R273). -/
def advance (s : State) (pid : Nat) : State :=
  let s1 := { s with
    part := { s.part with
      gens := tset 0 s.part.gens pid (curGen s pid + 1)
      genAt := tset 0 s.part.genAt pid (now s + 1) }
    mem := { s.mem with muted := s.mem.muted.filter fun x => x != pid }
    keys := { s.keys with dbg := match s.keys.dbg with
      | some d => if d.pid == pid then none else some d
      | none => none } }
  let s2 := partCtr s1 fun c => { c with genAdvance := inc32 c.genAdvance }
  freeStreamsOf (setPre (setPre s2 0 pid) pid pid) pid

/-- A stopped command goes back to its entry and will run again (R211 step 6); what it had held goes with it. -/
def rewind (s : State) (i : Nat) : State :=
  let c := ctx s i
  let s1 := dropSignals s fun x => x.ctx == ctxHandle s i
  if c.state == .resident then setCtx s1 i { c with head := c.entry, phase := .none, held := false } else s1

/-- A kill that waited for the one before it starts: a context that is resident no longer ends it (R220). -/
def startKill (s : State) (pid : Nat) : State :=
  match killOf s pid, findWait s fun w => w.kind == .kill pid with
  | some k, some w =>
    let c := ctx s k.ctx
    if c.state == .resident then s
    else
      let s1 := { s with part := { s.part with kills := dropFirst (fun x => x.1 == pid) s.part.kills } }
      finishWaits s1 (waitNum w.tkt.num) (if c.state == .lost then .errLost else .errState)
  | _, _ => s

/-- Steps 5 to 7 of a kill (R211), its advance made; then the next kill of the PID starts, or what was held goes on. A SAVE
that waited for a command the kill stopped has its context evicted with it (R207; DEDUCED, log entry 117). -/
def endKill (s : State) (pid : Nat) (k : Kill) : State :=
  let s1 := closeStreams (restamp s pid fun _ => true) pid
  let s2 := k.stopped.foldl endSave (evictCtx (k.stopped.foldl rewind s1) k.ctx)
  let s3 := setPart s2 pid { part s2 pid with kills := inc32 (part s2 pid).kills }
  let s4 := partCtr s3 fun c => { c with ctxKills := inc32 c.ctxKills }
  let s5 := { s4 with part := { s4.part with kills := dropFirst (fun x => x.1 == pid) s4.part.kills } }
  let s6 := match findWait s5 fun w => w.kind == .kill pid with
    | some w => finishWaits s5 (waitNum w.tkt.num) .ok (resultOf [(8, (curTag s5 pid).toNat), (10, k.stopped.length)])
    | none => s5
  releaseCommits (s6.part.kills.foldl (fun s x => if x.1 == pid then startKill s pid else s) s6) pid

/-- A function reset is complete with its advance: tile ports stamped, streams closed, the report, and the response to a
STOP_INTERFACE_REQUEST that asked for it (R212). -/
def endReset (s : State) (pid : Nat) : State :=
  let s1 := emit (closeStreams (restamp s pid fun m => m ≤ 0x8F) pid) (.resetDone pid)
  if s1.part.stopDue.contains pid then
    emit { s1 with part := { s1.part with stopDue := s1.part.stopDue.filter fun n => n != pid } } (.doe 0 0x07 [])
  else s1

/-! ## Teardown (R214) -/

/-- Step 2: every command of the PID is asked to stop. -/
def stopAll (s : State) (pid : Nat) : State :=
  ((ctxsOf s pid).filter fun i => (ctx s i).phase != .none && !(ctx s i).stopping).foldl
    (fun s i => emit (setCtx s i { ctx s i with stopping := true }) (.schedStop i)) s

/-- A teardown in progress. -/
def tearOf (s : State) (pid : Nat) : Option Tear := (s.part.tears.find? fun t => t.1 == pid).map (·.2)

/-- Replace the teardown of a PID. -/
def setTear (s : State) (pid : Nat) (x : Tear) : State :=
  { s with part := { s.part with tears := s.part.tears.map fun t => if t.1 == pid then (pid, x) else t } }

/-- Link shares and memory budgets of a PID become 0. -/
def dropShares (s : State) (pid : Nat) : State :=
  let s1 := allPorts.foldl (fun s p =>
    let l := link s p
    setLink s p { l with shares := tset 0 l.shares pid 0, buckets := tset 0 l.buckets pid 0 }) s
  allEngines.foldl (fun s e => setMx s e { mx s e with nextBudget := tset 0 (mx s e).nextBudget pid 0 }) s1

/-- Pages of a PID that are not FREE. -/
def pagesOf (s : State) (pid : Nat) : List Nat :=
  (s.mem.pot.filter fun e => e.2.state != .free && e.2.pid == pid && !e.2.sys).map (·.1)

/-- The engines mark the entries of the PID's pages UPDATE, those apart that a command of it is changing (R130 step 1). -/
def beginTorn (s : State) (pid : Nat) : State :=
  ((pagesOf s pid).filter fun p => !changing s p).foldl (fun s p =>
    { s with mem := { s.mem with changes := tput s.mem.changes p { new := { pid := pid }, torn := true } } }) s

/-- Steps 3 and 4, once every command has stopped. -/
def clearTorn (s : State) (pid : Nat) : State :=
  match tearOf s pid with
  | some t =>
    if t.advanced && !t.cleared && pidStopped s pid then
      let s1 := (ctxsOf s pid).foldl (fun s i => evictCtx (dropTracked s (ctxHandle s i)) i) s
      let s2 := releaseTdi (emptyRing s1 pid) pid .unlocked
      let s3 := closeStreams (foldTeardown s2 pid) pid
      let s4 := wbTeardown (ironTeardown (clearPidSlots (dropShares s3 pid) pid) pid) pid
      setTear (beginTorn s4 pid) pid { t with cleared := true }
    else s
  | none => s

/-- Step 6: a page of the PID is FREE with USED 0, its last owner kept (R126), written and installed as R130 has it. -/
def freePage (s : State) (page : Nat) : State :=
  let s1 := setEntry (retireDarn s page) page { pid := (pot s page).pid }
  install { s1 with rmt := { s1.rmt with own := terase s1.rmt.own page } } page

/-- Step 7: a fence is error-signalled with ERR_LOST and FREE. -/
def freeFenceOf (s : State) (i : Nat) : State :=
  dropFence (signalFence s (fenceHandle s i) 0 9 (curTag s (fence s i).pid)).1 i

/-- Nothing granted before the advance, and no page of the PID in change, is outstanding (step 5), and no re-tag stalls an
entry of it (R148). -/
def tornDrained (s : State) (pid : Nat) : Bool :=
  (allEngines.all fun e => (mx s e).reqs.all fun o => o.req.pid.val != pid) &&
  ((pagesOf s pid).all fun p => !pageBusy s p) &&
  (s.mem.pot.all fun e => e.2.pid != pid || e.2.sys || !potBusy s e.1) &&
  (s.mem.changes.all fun c => c.2.torn || (c.2.new.pid != pid && (pot s c.1).pid != pid))

/-- USED of every page that the PID owned last returns to 0 (R131). -/
def unuse (s : State) (pid : Nat) : State :=
  ((s.mem.pot.filter fun e => e.2.pid == pid && e.2.used && !e.2.sys).map (·.1)).foldl (fun s p =>
    let s1 := setEntry s p { pot s p with used := false }
    if changing s1 p then s1 else install s1 p) s

/-- Steps 6 to 8. -/
def endTear (s : State) (pid : Nat) : State :=
  let ps := pagesOf s pid
  let cs := ctxsOf s pid
  let fs := fencesOf s pid
  let s1 := unuse (ps.foldl freePage s) pid
  let s2 := fs.foldl freeFenceOf (cs.foldl dropCtx s1)
  let s3 := (tileList (part s2 pid).tiles).foldl (fun s t => takeTile s pid t) s2
  let s4 := { s3 with
    mem := { s3.mem with keys := terase s3.mem.keys pid }
    part := { s3.part with
      parts := s3.part.parts.filter fun e => e.1 != pid
      tears := s3.part.tears.filter fun t => t.1 != pid } }
  finishWaits s4 (fun w => match w.kind with | .teardown p _ _ _ => p == pid | _ => false) .ok
    (resultOf [(8, ps.length), (12, cs.length), (14, fs.length)])

end Sys2Proof.Machine
end

