-- ==== Sys2Proof/Machine/KeyFail.lean ====
section
/-! DEFINITION. What a failed key slot does, and how the engines load their keys (09 R136, R259, R260, R275). -/

namespace Sys2Proof.Machine

/-! ## Failed slots (R259, R260) -/

/-- The old epoch retires at once: previous receive keys and the previous range key go (R68, R260). -/
def retireOld (s : State) : State :=
  let s1 := allPorts.foldl (fun s p =>
    let l := link s p
    if l.rxPrev then setLink s p { l with rxOther := none, rxPrev := false, prevFrames := 0, prevSince := 0 } else s) s
  clearSlot s1 3

/-- A MEMORY slot is derived again from its PARTROOT, unless that is BAD too (R260). -/
def rederiveMem (s : State) (i pid : Nat) : State :=
  let ps := tget {} s.keys.parts pid
  let q := part s pid
  let r := (slot s ps.root).key
  match readBad s [ps.root] with
  | some t => t
  | none =>
    if !keyFits s ps.root .partroot .derivation pid then s
    else
    let k := if i == ps.mgl then lowKey (deriveMgl r q.ctag q.mepoch)
      else if i == ps.xts1 then deriveMem r (asc "xts1") q.ctag q.mepoch
      else if i == ps.xts2 then deriveMem r (asc "xts2") q.ctag q.mepoch
      else deriveMem r (asc "mac") q.ctag q.mepoch
    writeSlot s i k (slot s i).policy

/-- An AGREED slot fails: the admission that uses it fails with AUTH_FAIL; a relay of it ends. Slot 7 is written as
RANGE_PAIR ACCEPT completes, so no pairing in progress has its key there. -/
def agreedFail (s : State) (i : Nat) : State :=
  if i == 6 then failJoin s .authFail
  else match s.range.relays.find? fun k => k.slot == i with
    | some k => dropRelay s k
    | none => s

/-- The streams that use an IDE slot stop, and their TDIs enter ERROR. -/
def ideFail (s : State) (i : Nat) : State :=
  let l := (s.part.ide.filter fun e => e.2.keys.any fun k => k.2 == i).map (·.1)
  l.foldl (fun s k => (tdisOn s k).foldl tdiFault (setIde s k { ide s k with go := [] })) s

/-- What the class of a failed slot brings beside its alarm (R260). -/
def slotEffect (s : State) (i : Nat) : State :=
  let k := slot s i
  let c := polClass k.policy
  if !k.bad then s
  else if i == 0 then writeDs s
  else if i == 1 then rederiveFws s
  else if i == 3 then retireOld s
  else if c == classCode .agreed then agreedFail s i
  else if c == classCode .memory then rederiveMem s i (polPid k.policy)
  else if c == classCode .ide then ideFail s i
  else s

/-- The effects that are due come. -/
def settleFailing (s : State) : State :=
  s.keys.failing.foldl slotEffect { s with keys := { s.keys with failing := [] } }

/-- A slot is verified (R259): one that fails is marked, and its class's effects come. -/
def checkSlot (s : State) (i : Nat) : State :=
  match readBad s [i] with
  | some t => settleFailing t
  | none => s

/-- Read slots whose class is derived again on a failure, so that a read follows the recovery (R259, R260). -/
def checkSlots (s : State) (l : List Nat) : State := l.foldl checkSlot s

/-- The engines' copy of a MEMORY slot: none where the key port does not deliver it (R258, R259). -/
def memKeyAt (s : State) (i pid : Nat) (old : Key) : Key :=
  if keyFits s i .memory .memData pid && !slotDead s i then (slot s i).key else old

/-- The engines load a partition's keys from its slots (R136): a slot that fails is derived again and the load retried; a
key that is refused leaves the former copy (R275). -/
def loadSlots (s0 : State) (pid : Nat) : State :=
  let ps := tget {} s0.keys.parts pid
  let s := checkSlots s0 ([ps.mgl, ps.xts1, ps.xts2, ps.mac].filter (· != 0))
  let old := tget {} s.mem.keys pid
  loadKeys s pid {
    mgl := (memKeyAt s ps.mgl pid (lowKey old.mgl)).setWidth 128
    xts1 := memKeyAt s ps.xts1 pid old.xts1
    xts2 := memKeyAt s ps.xts2 pid old.xts2
    mac := memKeyAt s ps.mac pid old.mac }

end Sys2Proof.Machine
end

