-- ==== Sys2Proof/Machine/BootOps.lean ====
section
/-! DEFINITION. Shared operations of boot: reset, fuse sense and settling, firmware images and their selection,
Tarn's own alarms, the restart of the SCU (09 R267 to R271, 10 R279 to R297, 14 R379, R391). -/

namespace Sys2Proof.Machine

/-! ## Reset (R379) -/

/-- The fuse bank with nothing sensed. -/
def unsense (f : FuseState) : FuseState :=
  { f with trimOk := false, lcs := .maker, pending := false, ptarget := .maker, completed := false, abandoned := false,
           rootKind := .absent, rootDis := 0, sensed := false, lockScrap := false, attI := 0, attF := 0, okSet := false
           devShown := 0 }

/-- What a reset leaves of boot and power: supplies, pins, the flash, TRIED and TRIAL_SEQ. -/
def bootReset (b : BootState) : BootState :=
  { vddqGood := b.vddqGood, vddaGood := b.vddaGood, tarnGood := b.tarnGood, rstHigh := b.rstHigh, vppOk := b.vppOk, vppHigh := b.vppHigh
    sleep := b.sleep, alarmN := b.alarmN, tamperLow := b.tamperLow, tapUp := b.tapUp, tried := b.tried, trialSeq := b.trialSeq, flash := b.flash }

/-- Every unit outside Tarn returns to reset (R379); what stands in the alarm-log FIFO is written (R395). The fuses, the
trace, the queue and the number of the next DRBG draw stay. -/
def coreReset (s0 : State) : State :=
  let s := drainLog s0
  { boot := bootReset s.boot, tarn := s.tarn, fuse := unsense s.fuse, keys := { draws := s.keys.draws, seeds := s.keys.seeds }
    pending := s.pending, out := s.out }

/-- qb_rst_n: QB_ALARM_N is released, and what Tarn keeps for one reset only is cleared (R377, R397). -/
def chipReset (s : State) : State :=
  let s1 := coreReset s
  { s1 with
    boot := { s1.boot with alarmN := false }
    tarn := { s1.tarn with
      tstart := false, refsrc := false, orderErr := false, orderWait := false, tripped := 0, tamperIn := false
      hiOper := 0, hiScu := 0 } }

/-- The core is held in reset. -/
def held (s : State) : Bool := s.boot.inReset || s.boot.sleep

/-! ## Tarn's alarms (R383, R386, R391) -/

/-- An alarm of Tarn's own: while the core is held only Tarn acts. -/
def tarnAlarm (s : State) (cls : AlarmClass) (lvl : Level) (src detail : Nat) : State :=
  if held s then
    let s1 := logEntry s (alarmCode cls) (levelCode lvl) src 0 detail
    let s2 := { s1 with boot := { s1.boot with alarmN := true } }
    if lvl == .zeroise then emit s2 .zeroiseLine else s2
  else raiseAlarm s cls 0 lvl 36 src detail true

/-- Class and level of a comparator (R369, R391). -/
def cmpClass (c : Nat) : AlarmClass × Level :=
  if c ≤ 2 then (.tarnV, .quarantine)
  else if c ≤ 4 then (.tarnT, .quarantine)
  else if c == 5 then (.tarnF, .quarantine)
  else if c == 6 then (.glitch, .zeroise)
  else (.tamper, .zeroise)

/-- One bit of a comparator mask. -/
def cmpBit (c : Nat) : BitVec 8 := 1#8 <<< c

/-- An armed comparator trips: once per chip reset (R391). -/
def tripCmp (s : State) (c detail : Nat) : State :=
  if !s.tarn.armed.getLsbD c || s.tarn.tripped.getLsbD c then s
  else
    let k := cmpClass c
    tarnAlarm { s with tarn := { s.tarn with tripped := s.tarn.tripped ||| cmpBit c } } k.1 k.2 c detail

/-! ## Fuse sense (R252, R267, R268, R270) -/

/-- One step of CRC-16/CCITT, least significant bit first (log entry 48). -/
def crcBit (c : BitVec 16) : BitVec 16 := if c.getLsbD 0 then (c >>> 1) ^^^ 0x8408#16 else c >>> 1

/-- CRC-16/CCITT. -/
def crc16 (b : Bytes) : BitVec 16 :=
  b.foldl (fun c x => (List.range 8).foldl (fun c _ => crcBit c) (c ^^^ x.setWidth 16)) 0

/-- TRIM_CRC matches. -/
def trimGood (f : FuseState) : Bool := crc16 (leBytes 510 f.trim.toNat) == f.trimCrc

/-- An attempt is confirmed; an attempt is pending (R268). -/
def tryDone (t : LcTry) : Bool := isSet t.conf && t.abn == 0
/-- An attempt is pending. -/
def tryPending (t : LcTry) : Bool := (touched t.pend || touched t.conf) && !tryDone t && !isSet t.abn

/-- The life-cycle state that the fuses spell. -/
def lcsSense (f : FuseState) : Lcs :=
  if isSet f.lcSConf then .scrapped
  else if isSet f.lcRConf then .returned
  else if f.lcF.any tryDone then .fielded
  else if f.lcI.any tryDone then .integrator
  else .maker

/-- The highest state above the sensed one to which a transition is pending. -/
def pendSense (f : FuseState) : Option Lcs :=
  let n := lcsCode (lcsSense f)
  if n < 4 && (touched f.lcSPend || touched f.lcSConf) then some .scrapped
  else if n < 3 && (touched f.lcRPend || touched f.lcRConf) then some .returned
  else if n < 2 && f.lcF.any tryPending then some .fielded
  else if n < 1 && f.lcI.any tryPending then some .integrator
  else none

/-- Attempts used of a two-attempt record (R267). -/
def tryUsed (l : List LcTry) : Nat := (l.filter fun t => touched t.pend).length

/-- What fuse sense reports. -/
def sense (f : FuseState) : FuseState :=
  { f with
    attI := tryUsed f.lcI, attF := tryUsed f.lcF, okSet := isSet f.rootOk, devShown := f.devId
    lcs := lcsSense f, pending := (pendSense f).isSome, ptarget := (pendSense f).getD .maker
    rootKind := rootClass f, rootDis := rootDisagree f, trimOk := trimGood f, sensed := true }

/-- A bit reads 1 after its programming: a pulse, and up to three retries (R251). -/
def pulseTakes (n bit : Nat) : Bool := [0, 1, 2, 3].any (Config.fuseTakes n bit)

/-- Program bits of a field that begins at a byte of the bank, in operation `n`: a bit that reads 1 is skipped, one that
still reads 0 after its retries is left (R250, R251). -/
def burn {w : Nat} (n byte : Nat) (old ask : BitVec w) : BitVec w :=
  (List.range w).foldl (fun m i =>
    if ask.getLsbD i && !old.getLsbD i && pulseTakes n (8 * byte + i) then m ||| (1#w <<< i) else m) old

/-- Preconditions of R270. -/
def settleOk (f : FuseState) (target : Lcs) : Bool :=
  match target with
  | .integrator => rootClass f == .valid && rootDisagree f ≤ 2 && isSet f.rootOk && trimGood f
  | .fielded => rootClass f == .valid && ones f.fsalt ≥ 64 && f.fsalt != BitVec.allOnes 256
  | _ => true

/-- Settle an attempt whose fields begin at a byte of the bank: its CONF is completed, or its ABN. -/
def settleTry (n at_ : Nat) (ok : Bool) (t : LcTry) : LcTry :=
  if touched t.abn || !isSet t.pend || !ok then { t with abn := burn n (at_ + 4) t.abn 0xFFFF }
  else { t with conf := burn n (at_ + 2) t.conf 0xFFFF }

/-- Settle the first pending attempt of a record at a byte of the bank. -/
def settleFirst (n at_ : Nat) (ok : Bool) : List LcTry → List LcTry
  | [] => []
  | t :: l => if tryPending t then settleTry n at_ ok t :: l else t :: settleFirst n (at_ + 6) ok l

/-- Settle a transition pending to a target (R270). -/
def settleTo (f : FuseState) (target : Lcs) : FuseState :=
  let n := f.burns
  let g := { f with burns := n + 1 }
  let all : BitVec 256 := BitVec.allOnes 256
  match target with
  | .returned => { g with
      lcRPend := burn n 0x98 f.lcRPend 0xFFFF, fsalt := burn n 0x60 f.fsalt all, lcRConf := burn n 0x9A f.lcRConf 0xFFFF }
  | .scrapped => { g with
      lcSPend := burn n 0x9C f.lcSPend 0xFFFF, fsalt := burn n 0x60 f.fsalt all, rootA := burn n 0 f.rootA all
      rootB := burn n 0x20 f.rootB all, rootC := burn n 0x40 f.rootC all, lcSConf := burn n 0x9E f.lcSConf 0xFFFF }
  | .fielded => { g with lcF := settleFirst n 0x8C (settleOk f .fielded) f.lcF }
  | .integrator => { g with lcI := settleFirst n 0x80 (settleOk f .integrator) f.lcI }
  | .maker => f

/-- Settle what is pending, sensing again after each; at most four records can be pending. -/
def settleAll : Nat → FuseState → FuseState
  | 0, f => f
  | n + 1, f =>
    match pendSense f with
    | none => f
    | some t =>
      let g := settleTo f t
      let done := lcsCode (lcsSense g) ≥ lcsCode t
      settleAll n { g with
        completed := f.completed || done, abandoned := f.abandoned || (!done && pendSense g != some t) }

/-- Boot step 2 on the bank. -/
def fuseSense (f : FuseState) : FuseState := sense (settleAll 4 (unsense f))

/-! ## Images (R285 to R290, R293) -/

/-- Parse an image as the flash or memory holds it. -/
def parseImage (b : Bytes) : Image :=
  let h := slice b 0 8192
  { magicOk := slice h 0 4 == asc "QFWI", hver := BitVec.ofNat 8 (le h 4 1), makerOnly := le h 5 1 % 2 == 1
    rsvdZero := le h 5 1 / 2 == 0 && le h 6 2 == 0 && le h 10 2 == 0 && le h 36 28 == 0 && le h 7572 620 == 0
    svn := BitVec.ofNat 8 (le h 8 1), fuseSvn := BitVec.ofNat 8 (le h 9 1), hwid := BitVec.ofNat 32 (le h 12 4)
    build := BitVec.ofNat 64 (le h 16 8), imemLen := BitVec.ofNat 32 (le h 24 4), dmemLen := BitVec.ofNat 32 (le h 28 4)
    entry := BitVec.ofNat 32 (le h 32 4), header := h, body := b.drop 8192 }

/-! ### The flash region (R284) -/

/-- Where the block's region of 8 MiB begins in the boot flash. -/
def flashBase : Nat := 0x1000000
/-- Offsets in the region: the two copies of the activation record, the certificate area, the image slots. -/
def recAt0 : Nat := 0
/-- Activation record copy 1. -/
def recAt1 : Nat := 0x1000
/-- Certificate area, 256 KiB. -/
def certAt : Nat := 0x10000
/-- Image slots A and B, 2 MiB each. -/
def slotAt (b : Bool) : Nat := if b then 0x300000 else 0x100000

/-- Write bytes of the region over the boot-flash port. -/
def flashPut (s : State) (at_ : Nat) (b : Bytes) : State := emit s (.flashWrite (flashBase + at_) b)

/-- The image that a slot of the region holds: the header gives its length. -/
def slotOf (r : Bytes) (b : Bool) : Image :=
  let h := slice r (slotAt b) 8192
  parseImage (slice r (slotAt b) (min 0x200000 (8192 + le h 24 4 + le h 28 4)))

/-- What the bytes of the region hold. -/
def flashOf (r : Bytes) : Flash :=
  { rec0 := slice r recAt0 64, rec1 := slice r recAt1 64, certs := slice r certAt 0x40000
    slotA := some (slotOf r false), slotB := some (slotOf r true) }

/-- Lengths and ENTRY of R285, and a header that says what its fields say. -/
def fwShape (im : Image) : Bool :=
  let i := im.imemLen.toNat
  let d := im.dmemLen.toNat
  im == parseImage (im.header ++ im.body) && im.magicOk && im.hver == 1 && im.rsvdZero &&
  1 ≤ im.svn.toNat && im.svn.toNat ≤ 128 && im.fuseSvn.toNat ≤ im.svn.toNat &&
  i % 4 == 0 && 4 ≤ i && i ≤ 1048576 && d % 4 == 0 && d ≤ 458752 && im.entry.toNat % 2 == 0 && im.entry.toNat < i &&
  im.body.length == i + d

/-- The checks of R286 in their order, with FW_STAGE's statuses. -/
def imageCheck (s : State) (im : Image) : Option Status :=
  let h := im.header
  let signed := slice h 0 2849
  let keys := beBytes 48 s.fuse.fwKh.toNat == sha (slice h 160 2689)
  let made := s.fuse.lcs == .maker && s.fuse.fwKh == 0 && im.makerOnly &&
    beBytes 48 Config.mfgKeyHash.toNat == sha (slice h 160 2689)
  let i := im.imemLen.toNat
  if !fwShape im then some .errParam
  else if im.hwid.toNat / 256 != qbId / 256 || im.hwid.toNat % 256 > qbId % 256 then some .errParam
  else if im.makerOnly && s.fuse.lcs != .maker then some .errLifecycle
  else if !(keys || made) then some .authFail
  else if !(Config.ecVerify (slice h 160 97) (sha signed) (slice h 2849 96) &&
      Config.mlVerify (slice h 257 2592) (asc "QBFW") signed (slice h 2945 4627)) then some .authFail
  else if im.svn.toNat < fuseSvn s then some .errState
  else if sha (im.body.take i) != slice h 64 48 || sha (im.body.drop i) != slice h 112 48 then some .authFail
  else none

/-- IMG_DIGEST of an image (R289). -/
def imageDigest (im : Image) : BitVec 384 := BitVec.ofNat 384 (beNat (sha (slice im.header 0 2849)))

/-- The image in a slot: B where the flag is set. -/
def slotImage (s : State) (b : Bool) : Option Image := if b then s.boot.flash.slotB else s.boot.flash.slotA

/-- The image in a slot where it is valid. -/
def validIn (s : State) (b : Bool) : Option Image := (slotImage s b).filter fun im => (imageCheck s im).isNone

/-- One step of CRC-32, least significant bit first. -/
def crcStep (c : BitVec 32) : BitVec 32 := if c.getLsbD 0 then (c >>> 1) ^^^ 0xEDB88320#32 else c >>> 1

/-- IEEE 802.3 CRC-32. -/
def crc32 (b : Bytes) : BitVec 32 :=
  ~~~(b.foldl (fun c x => (List.range 8).foldl (fun c _ => crcStep c) (c ^^^ x.setWidth 32)) (BitVec.allOnes 32))

/-- The 60 bytes that a record's CRC32 covers (R289). -/
def recBody (r : ActRec) : Bytes :=
  asc "QACT" ++ leBytes 4 r.seq.toNat ++ leBytes 1 (b2n r.slot) ++ leBytes 1 r.state ++ zeros 2 ++ beBytes 48 r.digest.toNat

/-- An activation record as 64 bytes (R289). -/
def recBytes (r : ActRec) : Bytes := recBody r ++ leBytes 4 (crc32 (recBody r)).toNat

/-- The record in a copy, valid when its MAGIC and CRC32 match (R289). -/
def parseRec (b : Bytes) : Option ActRec :=
  if b.length == 64 && slice b 0 4 == asc "QACT" && le b 60 4 == (crc32 (b.take 60)).toNat then
    some { seq := BitVec.ofNat 32 (le b 4 4), slot := le b 8 1 % 2 == 1, state := le b 9 1
           digest := BitVec.ofNat 384 (beNat (slice b 12 48)) }
  else none

/-- The valid record with the highest SEQ (R290). -/
def latestRec (s : State) : Option ActRec :=
  match parseRec s.boot.flash.rec0, parseRec s.boot.flash.rec1 with
  | some a, some b => if a.seq.toNat < b.seq.toNat then some b else some a
  | some a, none => some a
  | none, b => b

/-- Order of the slots, and TRIED, TRIAL_SEQ, TRIAL, FALLBACK (R290). -/
def bootOrder (s : State) : State × List Bool :=
  match latestRec s with
  | none => (s, [false, true])
  | some r =>
    if r.state == 3 then (s, [!r.slot, r.slot])
    else if r.state == 1 then
      if s.boot.tried && s.boot.trialSeq == r.seq then
        ({ s with boot := { s.boot with fallback := true, trial := false } }, [!r.slot])
      else ({ s with boot := { s.boot with tried := true, trialSeq := r.seq, trial := true } }, [r.slot, !r.slot])
    else (s, [r.slot, !r.slot])

/-- Raise the fuse SVN to an image's FUSE_SVN (R254, R293). -/
def raiseSvn (s : State) (im : Image) : State :=
  let v := im.fuseSvn.toNat
  let f := s.fuse
  if v ≤ fuseSvn s then s
  else { s with fuse := { f with svn := burn f.burns 0xA0 f.svn (1#128 <<< (v - 1)), burns := f.burns + 1 } }

/-- The boot ROM writes IMEM and DMEM, sets the IMEM lock and starts the image at ENTRY (R285, R295). -/
def loadScu (im : Image) : ScuState :=
  let i := im.imemLen.toNat
  { imem := im.body.take i, dmem := im.body.drop i, imemLock := true, pc := 0x10000000#32 + im.entry }

/-- Load a slot's image; the SVN rises for a committed image that is the one recorded. -/
def loadSlot (s : State) (first b : Bool) (im : Image) : State :=
  let s1 := if b == first then s else { s with boot := { s.boot with fallback := true, trial := false } }
  let s2 := match latestRec s with
    | some r => if r.state == 2 && r.slot == b && r.digest == imageDigest im then raiseSvn s1 im else s1
    | none => s1
  { s2 with boot := { s2.boot with runSlot := b, run := some im, scu := loadScu im } }

/-- Select and load an image; `none` where no slot of the order is valid (R290). -/
def selectImage (s0 : State) : Option State :=
  let o := bootOrder { s0 with boot := { s0.boot with trial := false, fallback := false } }
  let s := o.1
  match o.2 with
  | [] => none
  | a :: rest => match validIn s a with
    | some im => some (loadSlot s a a im)
    | none => match rest with
      | [] => none
      | b :: _ => (validIn s b).map fun im => loadSlot s a b im

/-- Boot stops where no slot of the order is valid; what the selection noted of a trial stands (R290). -/
def noImage (s : State) : State :=
  bootStop (bootOrder { s with boot := { s.boot with trial := false, fallback := false } }).1 6

/-- DS and FWS, which a root that is ABSENT or DESTROYED does not give (R253, R263). -/
def deriveIdentity (s : State) : State := if s.fuse.rootKind == .valid then writeFws (writeDs s) else s

/-- Write an activation record into copy SEQ mod 2 (R289). -/
def putRecordAct (s : State) (slot : Bool) (state : Nat) (digest : BitVec 384) : State :=
  let n := match latestRec s with
    | some r => r.seq + 1
    | none => 0
  let b := recBytes { seq := n, slot := slot, state := state, digest := digest }
  let f := s.boot.flash
  flashPut { s with boot := { s.boot with flash := if n.getLsbD 0 then { f with rec1 := b } else { f with rec0 := b } } }
    (if n.getLsbD 0 then recAt1 else recAt0) b

/-- The latest record is TRIAL. -/
def trialWritten (s : State) : Bool := match latestRec s with
  | some r => r.state == 1
  | none => false

/-! ## The SCU (R296, R297) -/

/-- Reset the SCU alone: SA_FW, the count, DMEM but its retained area cleared, the ROM rerun, and before the first QB_RDY a new selection of the image (R290, R296). -/
def scuReset (s : State) : State :=
  let s1 := raiseAlarm s .fw 0 .notice 36 0x32
  let s2 := { s1 with boot := { s1.boot with
    scuUp := false, scuResets := inc32 s1.boot.scuResets, wdogFrom := now s1
    scu := { s1.boot.scu with dmem := [], imemLock := false, pc := 0, halted := false }, tested := false } }
  if s2.boot.everReady || s2.boot.failStep != 0 then s2
  else match selectImage s2 with
    | some t => deriveIdentity t
    | none => noImage { s2 with boot := { s2.boot with step := 6 } }

/-- The SCU runs, or restarts: from step 7 on, not after the acknowledgement of a power-down. -/
def scuPowered (s : State) : Bool := !s.boot.inReset && s.boot.step ≥ 7 && s.boot.failStep == 0 && !s.boot.pdAck

/-- Whether an access of the SCU lies outside what its memory map admits (R295). -/
def scuFaults (s : State) (k : ScuAcc) (addr : BitVec 32) : Bool :=
  let a := addr.toNat
  if a < 0x20000 then k == .write
  else if 0x10000000 ≤ a && a < 0x10100000 then k == .write && s.boot.scu.imemLock
  else if (0x20000000 ≤ a && a < 0x20080000) || (0x40000000 ≤ a && a < 0x40100000) then k == .fetch
  else true

/-- The address is in IMEM or DMEM, whose words carry SECDED (R295). -/
def scuEccAt (addr : BitVec 32) : Bool :=
  let a := addr.toNat
  (0x10000000 ≤ a && a < 0x10100000) || (0x20000000 ≤ a && a < 0x20080000)

/-- What happens at the SCU resets it: an access fault or a double-bit error (R295, R296). -/
def scuDies (s : State) : ScuErr → Bool
  | .access k a => scuFaults s k a
  | .double a => scuEccAt a
  | .corrected _ => false

/-! ## Debug sessions (R269, R272) -/

/-- Bits of a debug scope. -/
def scopeBit (n i : Nat) : Bool := n / 2 ^ i % 2 == 1

/-- The debug gate gives TAP access for fuse programming (R269, R272): MAKER, or an INTEGRATOR session with the JTAG and
FUSE scopes. -/
def fuseSession (s : State) : Bool :=
  s.fuse.lcs == .maker || (s.fuse.lcs == .integrator && scopeBit (dbgScope s) 0 && scopeBit (dbgScope s) 4)

/-! ## Power-down (R382) -/

/-- The steps of an orderly power-down (R382); every lifetime timer is cleared (R390). -/
def powerDown (s : State) : State :=
  let s1 := { s with
    boot := { s.boot with pdReq := true, rdy := false, scuUp := false }
    mem := { s.mem with
      rinseKey := none
      tickets := s.mem.tickets.map fun k =>
        if k.state == .queued || k.state == .running then { k with state := .stopped } else k }
    cmd := { s.cmd with waits := [], fwq := [], rangeQ := [] }
    keys := { s.keys with chal := none, dbg := none, drbgSeeded := false } }
  let s2 := flashClear (allPorts.foldl (fun s p => portTo s p .off) s1)
  let s3 := logEntry s2 0x11 0xFF 0xFF 0 0
  { s3 with
    tarn := { s3.tarn with pdOrderly := true, armed := s3.tarn.armed &&& 0xB8#8 }
    boot := { s3.boot with pdAck := true } }

/-! ## What cuts a command that programs fuses or writes the flash (R251, R275, R308, R384, R395) -/

/-- How many of `n` bits are programmed: all of them, or those up to the bit in progress when something cut it, of which
the spec says nothing but that it lies among them. -/
def cutAt (s : State) (c : Cut) (n : Nat) : Nat := if c == .whole then n else Config.progStop s.keys.draws % n + 1

/-- The reply that a cut leaves: ERR_STATE, or none where a power-down follows (R395). A zeroise source that stops a command
has its own effects as the next command. -/
def cutRes (c : Cut) (s : State) : Res :=
  match c with
  | .whole => .ok s
  | .powerDown => .gone (powerDown s)
  | _ => .failWith .errState 0 s

end Sys2Proof.Machine
end

