-- ==== Sys2Proof/Machine/CmdBoot.lean ====
section
/-! DEFINITION. Meanings of the boot, power and Tarn rows (10, 14). -/

namespace Sys2Proof.Machine

/-! ## Supplies and reset (R379 to R386) -/

/-- Every supply that boot needs is good. -/
def suppliesGood (s : State) : Bool := s.boot.tarnGood && s.boot.vddaGood && s.boot.vddqGood

/-- QB_TAMPER_N asserts the zeroise line (R377). -/
def tamperActs (s : State) : State :=
  tarnAlarm { s with tarn := { s.tarn with tamperIn := true } } .tamper .zeroise 8 0

/-- Boot begins at step 1 when qb_rst_n is deasserted with every supply good; TC3 and TC4 arm (R379, R391). With
QB_TAMPER_N asserted it stops there with cause ZEROISE (R395). -/
def tryBoot (s : State) : State :=
  if s.boot.rstHigh && s.boot.inReset && suppliesGood s then
    let s1 := { s with
      boot := { s.boot with inReset := false, sleep := false, step := 1 }
      tarn := { s.tarn with armed := s.tarn.armed ||| 0x18#8 } }
    if s.boot.tamperLow then tamperActs s1 else s1
  else s

/-- The comparators of the supplies that are good (R391). -/
def armedBy (vddq vdda : Bool) : BitVec 8 := (if vddq then 0x43#8 else 0) ||| (if vdda then 0x04#8 else 0)

/-- The supply-order entry, when the last of the three supplies is good (R381). -/
def orderEntry (s : State) : State :=
  if s.tarn.orderWait && suppliesGood s then
    let s1 := logEntry s 0x10 0xFF 0xFF 0 0
    { s1 with tarn := { s1.tarn with orderWait := false, orderErr := true } }
  else s

/-- VDD_TARN becomes good: Tarn starts with every Tarn-held value at 0 and TSTART set. A supply that rose before is out of
order (R381), and a tamper pin that is low asserts the zeroise line. -/
def startTarn (s : State) : State :=
  if s.boot.tarnGood then s
  else
    let q := s.boot.vddqGood
    let a := s.boot.vddaGood
    let s1 := tryBoot (orderEntry { s with
      tarn := { orderWait := q || a, armed := 0xA0#8 ||| armedBy q a }
      boot := { s.boot with tarnGood := true, tried := false, trialSeq := 0 } })
    if s.boot.tamperLow && s1.boot.inReset then tamperActs s1 else s1

/-- TARN_START. -/
def execTarnStart (s : State) : Result := .next (startTarn s)

/-- A supply is good: its comparators arm (R391). -/
def supplyUp (s : State) : Supply → State
  | .vddaQ => { s with
      boot := { s.boot with vddaGood := true }, tarn := { s.tarn with armed := s.tarn.armed ||| 0x04#8 } }
  | .vddQ => { s with
      boot := { s.boot with vddqGood := true, sleep := false }
      tarn := { s.tarn with armed := s.tarn.armed ||| 0x43#8 } }
  | _ => s

/-- VPP_Q has no permitted use now (R384): after QB_RDY LC_ADVANCE uses it in MAKER alone, and a FUSE session in MAKER or,
while IDBG_KH can still be written, in INTEGRATOR. It must be in its window 100 µs before the first bit, so its rise comes
before the programming that permits it (DEDUCED, log entry 113). -/
def vppForbidden (s : State) : Bool :=
  !(s.boot.rdy && (s.fuse.lcs == .maker || (fuseSession s && s.fuse.idbgKh == 0)))

/-- VPP_Q above 1.0 V: the switch stays open where it may not be there. -/
def vppUp (s : State) (window : Bool) : State :=
  let s1 := { s with boot := { s.boot with vppHigh := true, vppOk := window } }
  if vppForbidden s then
    let s2 := logEntry s1 0x12 0xFF 0xFF 0 0
    { s2 with tarn := { s2.tarn with vppViol := if s2.tarn.vppViol == 255 then 255 else s2.tarn.vppViol + 1 } }
  else s1

/-- SUPPLY_GOOD. -/
def execSupplyGood (k : Supply) (early : Bool) (s : State) : Result :=
  .next (match k with
    | .vddTarn => startTarn s
    | .vppQ => vppUp s true
    | k =>
      let s1 := supplyUp s k
      let late := early || !s.boot.tarnGood || (k == .vddQ && !s.boot.vddaGood)
      let s2 := if late then { s1 with tarn := { s1.tarn with orderWait := true } } else s1
      tryBoot (orderEntry s2))

/-- CHIP_RESET_ASSERT. -/
def execChipResetAssert (s : State) : Result :=
  let s1 := chipReset s
  .next { s1 with boot := { s1.boot with inReset := true, rstHigh := false } }

/-- CHIP_RESET_DEASSERT. -/
def execChipResetDeassert (s : State) : Result :=
  .next (tryBoot { s with boot := { s.boot with rstHigh := true } })

/-- PWR_DOWN_REQ. -/
def execPwrDownReq (s : State) : Result := .next (if held s || s.boot.pdAck then s else powerDown s)

/-- SLEEP_ENTRY: VDD_Q and then VDDA_Q are removed after the acknowledgement. -/
def execSleepEntry (s : State) : Result :=
  .next (if !s.boot.pdAck then s
    else
      let s1 := coreReset s
      { s1 with
        boot := { s1.boot with vddqGood := false, vddaGood := false, sleep := true, inReset := true }
        tarn := { s1.tarn with armed := s1.tarn.armed &&& 0xA0#8, refsrc := false } })

/-- VDD_Q falls below its good level: the core is reset. -/
def vddqFell (s : State) : State :=
  let s1 := coreReset s
  { s1 with boot := { s1.boot with vddqGood := false, inReset := true } }

/-- VDD_Q has fallen without the acknowledgement, and its comparator has tripped (R383). -/
def vddqLost (s : State) : State :=
  let s1 := vddqFell s
  { s1 with tarn := { s1.tarn with pdOrderly := false }, boot := { s1.boot with alarmN := true } }

/-- VDD_Q_LOSS. Without the acknowledgement TC6 or TC0 trips (R383). -/
def execVddQLoss (fast : Bool) (s : State) : Result :=
  .next (if !s.boot.vddqGood && s.boot.inReset then s
    else if s.boot.pdAck then vddqFell s
    else vddqLost (tripCmp s (if fast then 6 else 0) (Config.tripSample (now s)).toNat))

/-- VDD_TARN_BROWNOUT: the zeroise line, and the core held in reset with Tarn's values lost. Nothing is measured without
Tarn, so every supply must be found good again (R380), and every output stands at its reset value (R381). -/
def execVddTarnBrownout (s : State) : Result :=
  .next (if !s.boot.tarnGood then s
    else
      let s1 := coreReset (emit s .zeroiseLine)
      { s1 with
        boot := { s1.boot with
          tarnGood := false, vddqGood := false, vddaGood := false, inReset := true, alarmN := false, tried := false
          trialSeq := 0 }
        tarn := { tstart := false, armed := 0 } })

/-- VPP_HIGH: VPP_Q rises above 1.0 V, into its window or not; or it falls again, or leaves the window (log entry 59). -/
def execVppHigh (l : VppAt) (s : State) : Result :=
  .next (match l with
    | .low => { s with boot := { s.boot with vppHigh := false, vppOk := false } }
    | l => if s.boot.vppHigh then { s with boot := { s.boot with vppOk := l == .inWindow } } else vppUp s (l == .inWindow))

/-! ## Tarn (R377, R391, R395) -/

/-- What an excursion that an armed comparator sees means for the supply it watches (R379, R380, R383): TC0 an unannounced
loss of VDD_Q, TC1 and TC2 a supply outside its window, which is good again only by its next SUPPLY_GOOD. -/
def supplyOut (s : State) (c : Nat) : State :=
  if c == 0 then vddqLost s
  else if c == 1 then { s with boot := { s.boot with vddqGood := false } }
  else if c == 2 then { s with boot := { s.boot with vddaGood := false } }
  else s

/-- COMPARATOR_TRIP; TC5 during boot step 4 stops boot there (R395). -/
def execComparatorTrip (c : Fin 8) (sample : BitVec 16) (s : State) : Result :=
  let s1 := tripCmp s c.val sample.toNat
  .next (if !s.tarn.armed.getLsbD c.val then s1
    else if c == 5 && s.boot.step == 4 && !s.tarn.tripped.getLsbD 5 then bootStop s1 4
    else supplyOut s1 c.val)

/-- The pulse asserts the zeroise line (R377). -/
def pulseActs (s : State) (ns : Nat) : Bool := ns ≥ 40 || (ns ≥ 20 && Config.tamperPulse ns (now s))

/-- TAMPER_INPUT: a low pulse of a width in nanoseconds, or one that has not ended; where the pin is low already, it goes
high again (DESIGN CHOICE, log entry 3). -/
def execTamperInput (ns : Option Nat) (s : State) : Result :=
  .next (match ns with
    | none =>
      let s1 := { s with boot := { s.boot with tamperLow := true } }
      if s.boot.tarnGood && !s.boot.tamperLow then tamperActs s1 else s1
    | some n =>
      if s.boot.tamperLow then { s with boot := { s.boot with tamperLow := false } }
      else if s.boot.tarnGood && pulseActs s n then tamperActs s
      else s)

/-- REFCLK_SWITCH. -/
def execRefclkSwitch (s : State) : Result := .next { s with tarn := { s.tarn with refsrc := false } }

/-- REFCLK_RETURN: TC5 takes qb_refclk where it has been trimmed against it in this boot. -/
def execRefclkReturn (s : State) : Result :=
  .next (if s.boot.step ≥ 5 && !held s then { s with tarn := { s.tarn with refsrc := true } } else s)

/-! ## Boot (R279 to R293) -/

/-- A boot step is under way; a power-down is left only by reset (R382). -/
def booting (s : State) : Bool := !s.boot.inReset && !s.boot.rdy && s.boot.failStep == 0 && !s.boot.pdAck

/-- Begin a step. -/
def toStep (s : State) (n : Nat) : State := { s with boot := { s.boot with step := n } }

/-- Step 2: the bank is sensed (R252, R267, R270). -/
def bootFuses (s : State) : State :=
  let s1 := { s with fuse := fuseSense s.fuse }
  if s1.fuse.rootKind == .failed then bootStop s1 1
  else if !s1.fuse.trimOk then bootStop s1 2
  else toStep s1 3

/-- Step 3: the start-up test on 4096 samples, and the DRBG instantiated (R255, R256). -/
def bootEntropy (s : State) (w : BitVec 4096) : State :=
  if startupFails w then bootStop s 3
  else
    let s1 := seedDrbg s
    toStep { s1 with keys := { s1.keys with entHealthy := true } } 4

/-- Step 4: TCLK is trimmed, and TC0 to TC5 armed at their windows (R387, R391). -/
def bootTrim (s : State) : State :=
  toStep { s with tarn := { s.tarn with trimmed := true, refsrc := true, armed := s.tarn.armed ||| 0x3F#8 } } 5

/-- Step 5: the slots are cleared; K_SLOTCHK, K_TREE and IKEY are drawn, and loaded into the engines and the address
decoders (R259, R263). -/
def bootKsa (s : State) : State :=
  let s0 := { s with keys := { s.keys with slots := [] } }
  let a := freshDraw s0
  let s1 := { a.1 with keys := { a.1.keys with chkKey := a.2 } }
  let b := freshDraw s1
  let s2 := writeRaw b.1 4 b.2 (policy .chip .memData 0 0 0)
  let c := drawBytes (reseed s2) 16
  let k := blk c.2
  let s3 := writeRaw c.1 5 (lowKey k) (policy .chip .decoders 0 0 0)
  toStep { s3 with mem := { s3.mem with
    tree := b.2, ikey := k, mx := tmapAll {} s3.mem.mx fun _ m => { m with cache := [], cairn := [] } } } 6

/-- Step 6: the image is selected, loaded and measured, and DS and FWS derived (R263, R287, R290). -/
def bootImage (s : State) : State :=
  match selectImage s with
  | none => noImage s
  | some t =>
    let t1 := deriveIdentity t
    { t1 with boot := { t1.boot with step := 7, mcWaitFrom := now t1, scuUp := true, wdogFrom := now t1 } }

/-- The flash region is read: it holds what firmware left there, or what the board has put there (R284, R289). -/
def readFlash (s : State) (r : Option Bytes) : State := match r with
  | some b => { s with boot := { s.boot with flash := flashOf b } }
  | none => s

/-- A boot step ends; `ok` is the outcome of the checks that no state of the block decides. -/
def bootStep (s : State) (ok : Bool) (i : BootIn) : State :=
  match s.boot.step with
  | 1 => toStep s 2
  | 2 => bootFuses s
  | 3 => bootEntropy s i.samples
  | 4 => if ok then bootTrim s else bootStop s 4
  | 5 => if drawOk s then bootKsa s else s
  | 6 => if ok then bootImage (readFlash s i.flash) else bootStop s 5
  | 7 => if ok then { s with boot := { s.boot with tested := true } } else bootStop s 7
  | _ => s

/-- BOOT_STEP_DONE. -/
def execBootStepDone (ok : Bool) (i : BootIn) (s : State) : Result :=
  .next (if booting s then bootStep s ok i else s)

/-- Firmware of step 7 runs, or waits for the controllers. -/
def inStep7 (s : State) : Bool := booting s && s.boot.step == 7

/-- MC_READY. -/
def execMcReady (s : State) : Result := .next { s with boot := { s.boot with mcRdy := true } }

/-- MC_READY_TIMEOUT. -/
def execMcReadyTimeout (s : State) : Result :=
  .next (if inStep7 s && !s.boot.mcRdy && s.boot.mcWaitFrom + 200000 ≤ now s then bootStop s 8 else s)

/-- The eight system pages: four of the POT, three of the descriptors, the range state page (R282). -/
def systemPages (pot desc : Nat) : List Nat := span pot 4 ++ span desc 3 ++ [desc - 1]

/-- The eight pages are distinct and below page 983,040. -/
def systemPagesOk (pot desc : Nat) : Bool :=
  let l := systemPages pot desc
  1 ≤ desc && l.all (fun p => p < 983040) && decide l.Nodup

/-- QB_POT_BASE and QB_DESC_BASE are written once each in step 7, by firmware (R282). -/
def execQbBaseWrite (desc : Bool) (page : BitVec 20) (s : State) : Result :=
  .next (if !(inStep7 s && scuPowered s && s.boot.scuUp) then s
    else if desc then
      if s.mem.descSet || (s.mem.potSet && !systemPagesOk s.mem.potBase page.toNat) then s
      else { s with mem := { s.mem with descBase := page.toNat, descSet := true, initRun := s.mem.potSet } }
    else if s.mem.potSet || (s.mem.descSet && !systemPagesOk page.toNat s.mem.descBase) then s
    else { s with mem := { s.mem with potBase := page.toNat, potSet := true, initRun := s.mem.descSet } })

/-- Entry of a system page: LIVE, PID 0, Fresh, SYS, in Fresh slot `k`; the POT's own carry no rights. -/
def systemEntry (k : Nat) : Pot :=
  { pid := 0, mode := .fresh, state := .live, sys := true, fslot := k
    rights := if k < 4 then 0 else BitVec.ofNat 10 (2 ^ rTRD + 2 ^ rTWR) }

/-- A system page is filled with zeros in its Fresh slot, as a fill of R131: each leaf line of a slot is MAJOR 0 by now, and
MAJOR 1 after (R282 step 3). The lines of slots 4 to 7 are in the cairn caches from here on (log entry 104). -/
def fillSystem (s : State) (page k : Nat) : State :=
  let ls := leavesOf s page k
  let s1 := ls.foldl (fun s p => cairnPut s { pl := p, d := lineImage 1, dirty := true }) s
  fillPage s1 page { new := systemEntry k, majors := ls.map fun p => (p, 1) }

/-- Memory initialisation (R282): every counter line, the system keys, the eight fills, the eight entries, POT_LIVE. -/
def initMemory (s0 : State) : State :=
  let s := checkSlots s0 [0, 1]
  let s1 := emit { s with mem := { s.mem with roots := [], badGran := [] } } .treeInit
  let d := drawSalt s1
  let root := derivePartroot d.1 d.2 false 0 0
  let s2 := loadKeys d.1 0 (deriveAll root true 0 0)
  let l := (systemPages s.mem.potBase s.mem.descBase).zip (List.range 8)
  let s3 := l.foldl (fun s e => setPot s e.1 (systemEntry e.2)) s2
  let s4 := l.foldl (fun s e => fillSystem s e.1 e.2) s3
  let s5 := { s4 with mem := { s4.mem with initRun := false, potLive := true } }
  l.foldl (fun s e => setEntry s e.1 (systemEntry e.2)) s5

/-- MEM_INIT_DONE. -/
def execMemInitDone (s : State) : Result := .next (if inStep7 s && s.boot.mcRdy && s.mem.initRun && drawOk s then initMemory s else s)

/-- Firmware that reaches QB_RDY commits its trial, or records that a trial was given up (R292). -/
def settleTrial (s : State) : State :=
  let s1 := if s.boot.trial then { s with boot := { s.boot with tried := false } } else s
  match latestRec s, s.boot.run with
  | some r, some im =>
    if s.boot.trial then putRecordAct s1 s.boot.runSlot 2 (imageDigest im)
    else if s.boot.fallback && r.state == 1 then putRecordAct s1 r.slot 3 r.digest
    else s1
  | _, _ => s1

/-- QB_RDY asserts: data paths open, and the reset of all 288 tiles is requested (R326). -/
def ready (s : State) : State :=
  let s1 := (List.range 288).foldl (fun s t => emit s (.tileReset t)) s
  settleTrial { s1 with
    boot := { s1.boot with rdy := true, step := 8, everReady := true }
    part := { s1.part with tileReset := BitVec.allOnes 288 } }

/-- BOOT_READY. -/
def execBootReady (s : State) : Result :=
  .next (if inStep7 s && s.boot.tested && s.mem.potLive && s.boot.mcRdy && s.boot.scuUp then ready s else s)

/-! ## The SCU (R296, R297, R390) -/

/-- SCU_WATCHDOG_EXPIRY. -/
def execScuWatchdogExpiry (s : State) : Result :=
  .next (if scuPowered s && s.boot.wdogFrom + 250000 ≤ now s then scuReset s else s)

/-- A single-bit error of IMEM or DMEM. -/
def scuCorrects : ScuErr → Bool
  | .corrected a => scuEccAt a
  | _ => false

/-- SCU_FAULT: an access outside the memory map or a double-bit error resets the SCU; a single-bit error is corrected and
counted (R295, R296). -/
def execScuFault (e : ScuErr) (s : State) : Result :=
  .next (if !scuPowered s then s
    else if scuCorrects e then { s with boot := { s.boot with scuEcc := inc32 s.boot.scuEcc } }
    else if scuDies s e then scuReset s
    else s)

/-- WATCHDOG_RESTART. -/
def execWatchdogRestart (s : State) : Result :=
  .next (if s.boot.scuUp then { s with boot := { s.boot with wdogFrom := now s } } else s)

/-- A started command waits on another chip. -/
def waitsOnChip (k : WaitKind) : Bool := match k with
  | .peerBind .. | .rangeJoin | .rangeLeave | .epochAdvance _ | .setkey _ | .linkOpen _ => true
  | _ => false

/-- A started command ends with BUSY. -/
def endBusy (s : State) (w : Wait) : State := finishWaits s (waitNum w.tkt.num) .busy

/-- An advance is given up with none of its effects: the nodes that it was to remove are to be removed by the next one, and
the chip is MEMBER as before. -/
def undoAdvance (s : State) : State :=
  match s.range.adv with
  | none => { s with range := { s.range with advNow := false } }
  | some a =>
    let s1 := (advSlot s).foldl clearSlot s
    setMemb { s1 with range := { s1.range with
      adv := none, advNow := false, reasonAt := some (now s), toRemove := a.removed ++ s1.range.toRemove } } .member

/-- The protocol state of such a wait is abandoned. -/
def abandon (s : State) (w : Wait) : State :=
  match w.kind with
  | .rangeJoin => failJoin s .busy
  | .linkOpen p => endBusy (portTo s p .off) w
  | .setkey _ => match s.wb.imports.find? fun m => m.num == w.tkt.num with
    | some m => failImport s m .busy
    | none => endBusy s w
  | .epochAdvance _ => endBusy (undoAdvance s) w
  | .rangeLeave => endBusy (dropSent s fun x => x == .leave) w
  | .peerBind pid node _ => endBind s pid node .busy
  | _ => endBusy s w

/-- Restarted firmware settles its journal (R297): waits on another chip and firmware commands not started complete with
BUSY; the fast path keeps its own (R241). -/
def settleJournal (s : State) : State :=
  let q := s.cmd.fwq.filter fun e => !e.fast
  let s1 := q.foldl (fun s e => finish s e.tkt .busy) { s with cmd := { s.cmd with fwq := s.cmd.fwq.filter (·.fast) } }
  let s2 := (s.cmd.waits.filter fun w => waitsOnChip w.kind).foldl abandon s1
  { s2 with boot := { s2.boot with scuUp := true, wdogFrom := now s } }

/-- The ROM's check of IMEM against IMEM_HASH of the running slot: the slot is loaded again if they differ; IMEM is locked
and firmware starts at ENTRY (R295, R296). -/
def reloadScu (s : State) : State :=
  match s.boot.run with
  | none => s
  | some im =>
    let c := s.boot.scu
    let good := sha c.imem == slice im.header 64 48
    { s with boot := { s.boot with
      scu := if good then { c with imemLock := true, pc := 0x10000000#32 + im.entry }
        else { loadScu im with retained := c.retained } } }

/-- SCU_RESTART_DONE. -/
def execScuRestartDone (s : State) : Result :=
  .next (if scuPowered s && !s.boot.scuUp && !s.boot.scu.halted then postDue (settleJournal (reloadScu s)) else s)

end Sys2Proof.Machine
end

