-- ==== Sys2Proof/Machine/CmdCreate.lean ====
section
/-! DEFINITION. PART_CREATE (07 R195, 09 R261). -/

namespace Sys2Proof.Machine

/-- PART_CREATE. A chip without FWS, whose root is ABSENT, is refused the key (R253, R258); where FWS or RK fails its check
there is no PARTROOT: ERR_INTEGRITY (DEDUCED, log entry 105). -/
def runPartCreate (s : State) (t : Ticket) (p : Pkt) (_ : List ReadIn) : Res :=
  let pid := tagPid t.ptag
  let conf := parmBit p 16 0
  let sl := freeDerived s
  if s.range.memb == .quarantined || (part s pid).state != .free || s.keys.entFailed ||
      (conf && (s.range.memb != .member || s.range.test || jtagScuActive s)) then .fail .errState
  else if sl.length < 5 then .fail .errResource
  else if !keyFits s 1 .fwlayer .derivation 0 || (conf && !keyFits s 2 .range .derivation 0) then .fail .errPerm
  else match readBad s (if conf then [1, 2] else [1]) with
    | some t => .failWith .errIntegrity 0 t
    | none =>
      let ctag := curTag s pid
      let me := s.part.mepochNext
      let s1 := { s with part := { s.part with mepochNext := me + 1 } }
      let s2 := loadSlots (writePartKeys s1 pid conf sl ctag me) pid
      let s3 := setPart (clearTel (clearPeers s2 pid) pid) pid
        { state := .active, ctag := ctag, conf := conf, strict := parmBit p 16 1, mepoch := me }
      .ok s3 (resultOf [(8, ctag.toNat), (10, ctag.toNat), (12, me.toNat)])

/-- PART_CREATE (0x10). -/
def opPartCreate : Op where
  opcode := 0x10
  named := [(16, 0, 2)]
  rings := opOnly
  pre _ _ p := if pidNamed p then none else some .errParam
  lc s p := !parmBit p 16 0 || s.fuse.lcs == .fielded
  run := runPartCreate

/-- PART_CREATE. -/
def execPartCreate (c : Cmd) (s : State) : Result := .next (issue opPartCreate s c)

end Sys2Proof.Machine
end

