-- ==== Sys2Proof/Machine/CmdFw.lean ====
section
/-! DEFINITION. Firmware, evidence and diagnostic commands (08 R239, 10 R291, R292, R306). -/

namespace Sys2Proof.Machine

/-! ## FW_STAGE, FW_ACTIVATE -/

/-- LEN of FW_STAGE. -/
def fwLen (p : Pkt) : Nat := parm p 22 32

/-- Write the slot that does not hold the running image. -/
def putSlot (s0 : State) (im : Option Image) : State :=
  let s := match im with
    | some x => flashPut s0 (slotAt (!s0.boot.runSlot)) (x.header ++ x.body)
    | none => s0
  let f := s.boot.flash
  { s with boot := { s.boot with flash := if s.boot.runSlot then { f with slotA := im } else { f with slotB := im } } }

/-- FW_STAGE once the image has been read. A write that fails or is stopped leaves the slot invalid (R291, R294, R308);
STAGED keeps what it says of this reset, that FW_STAGE has completed with OK (R310; log entry 65). -/
def stageImage (s : State) (im : Image) (cut : Cut) : Res :=
  match imageCheck s im with
  | some st => .fail st
  | none =>
    let s1 := putSlot s none
    let s2 := { s1 with boot := { s1.boot with stagedSvn := 0 } }
    match cut with
    | .whole =>
      let s3 := putSlot s (some im)
      .ok { s3 with boot := { s3.boot with staged := true, stagedSvn := im.svn.toNat } } (resultOf [(8, im.svn.toNat)])
    | .failed => .failWith .errIntegrity 0 s2
    | c => cutRes c s2

/-- FW_STAGE: none while the latest record is TRIAL (R291); the first read delivers the image. -/
def runFwStage (cut : Cut) (s : State) (_ : Ticket) (p : Pkt) (m : List ReadIn) : Res :=
  if trialWritten s then .fail .errState
  else match firstRead m (fwLen p) with
    | none => .fail .errIntegrity
    | some b => stageImage s (parseImage b) cut

/-- FW_STAGE (0x74). -/
def opFwStage (cut : Cut) : Op where
  opcode := 0x74
  named := [(16, 0, 48), (22, 0, 32)]
  whole _ := true
  rings := opOnly
  pre s _ p :=
    if fwLen p < 8196 || fwLen p > 1515520 then some .errParam
    else if !rangeOk s 0 (parm p 16 48) (fwLen p) rDRD then some .errPerm
    else none
  reads s _ p _ := if trialWritten s then [] else [{ off := parm p 16 48, len := fwLen p }]
  run := runFwStage cut

/-- FW_STAGE. -/
def execFwStage (cut : Cut) (c : Cmd) (s : State) : Result := .next (issue (opFwStage cut) s c)

/-- A TDI is locked with NO_FW_UPDATE (R204). -/
def updateLocked (s : State) : Bool :=
  s.part.tdi.any fun e => e.2.noFwUpdate && (e.2.state == .locked || e.2.state == .run)

/-- The image in the slot that does not run. -/
def otherImage (s : State) : Option Image := slotImage s (!s.boot.runSlot)

/-- FW_ACTIVATE: a TRIAL record that names the staged slot. -/
def runFwActivate (s : State) (_ : Ticket) (_ : Pkt) (_ : List ReadIn) : Res :=
  if !s.boot.staged || trialWritten s || updateLocked s then .fail .errState
  else match otherImage s with
    | none => .fail .errState
    | some im => .ok (putRecordAct s (!s.boot.runSlot) 1 (imageDigest im))

/-- FW_ACTIVATE (0x75). -/
def opFwActivate : Op where
  opcode := 0x75
  whole _ := true
  rings := opOnly
  run := runFwActivate

/-- FW_ACTIVATE. -/
def execFwActivate (c : Cmd) (s : State) : Result := .next (issue opFwActivate s c)

/-! ## Diagnostics -/

/-- DIAG_ECHO. -/
def runDiagEcho (s : State) (_ : Ticket) (p : Pkt) (_ : List ReadIn) : Res := .ok s (p.params.setWidth 192)

/-- DIAG_ECHO (0xE0): packet bytes 16 to 39 come back in reply bytes 8 to 31. -/
def opDiagEcho : Op where
  opcode := 0xE0
  named := [(16, 0, 192)]
  whole _ := true
  rings := anyRing
  run := runDiagEcho

/-- DIAG_ECHO. -/
def execDiagEcho (c : Cmd) (s : State) : Result := .next (issue opDiagEcho s c)

/-- A partition of PID 1 to 31 is ACTIVE. -/
def anyActive (s : State) : Bool := s.part.parts.any fun e => e.1 != 0 && e.2.state == .active

/-- DIAG_KAT; `passed` holds the outcome of each unit's known-answer test. -/
def runDiagKat (passed : BitVec 5) (s : State) (_ : Ticket) (p : Pkt) (_ : List ReadIn) : Res :=
  if anyActive s then .fail .errState
  else .ok s (resultOf [(8, (BitVec.ofNat 5 (parm p 16 5) &&& passed).toNat)])

/-- DIAG_KAT (0xE1). -/
def opDiagKat (passed : BitVec 5) : Op where
  opcode := 0xE1
  named := [(16, 0, 5)]
  whole _ := true
  rings := opOnly
  run := runDiagKat passed

/-- DIAG_KAT. -/
def execDiagKat (passed : BitVec 5) (c : Cmd) (s : State) : Result := .next (issue (opDiagKat passed) s c)

/-! ## ATT_EVIDENCE (R306) -/

/-- PID that asks on a ring. -/
def askerPid (ring : Nat) : Nat := if 1 ≤ ring && ring ≤ 31 then ring else 0

/-- Bytes of the evidence that a ring gets. -/
def evidenceLen (ring : Nat) : Nat := if askerPid ring == 0 then evidLen else 5202

/-- ATT_EVIDENCE. -/
def runAttEvidence (s : State) (t : Ticket) (p : Pkt) (_ : List ReadIn) : Res :=
  let pid := askerPid t.ring
  if s.fuse.rootKind == .absent then .fail .errState
  else match readBad s [1] with
  | some t' => .failWith .errIntegrity 0 t'
  | none =>
    let b := evidence s pid (parmBytes p 16 32)
    .ok (memPut s pid (parm p 48 48) b) (resultOf [(8, b.length)])

/-- MAXLEN is too short. -/
def evidenceShort (ring : Nat) (p : Pkt) : Bool := parm p 54 32 < evidenceLen ring

/-- ATT_EVIDENCE (0x40). -/
def opAttEvidence : Op where
  opcode := 0x40
  named := [(16, 0, 256), (48, 0, 48), (54, 0, 32)]
  whole _ := true
  rings := opTenant
  pre s r p :=
    if parm p 48 48 % 4096 != 0 || evidenceShort r p then some .errParam
    else if !rangeOk s (askerPid r) (parm p 48 48) (evidenceLen r) rDWR then some .errPerm
    else none
  note _ r p := if evidenceShort r p then resultOf [(8, evidenceLen r)] else 0
  run := runAttEvidence

/-- ATT_EVIDENCE. -/
def execAttEvidence (c : Cmd) (s : State) : Result := .next (issue opAttEvidence s c)

end Sys2Proof.Machine
end

