-- ==== Sys2Proof/Machine/CmdKeys.lean ====
section
/-! DEFINITION. Key, life-cycle and debug commands, and the events of the key array, the entropy source and
the debug gate (09). -/

namespace Sys2Proof.Machine

/-! ## KEY_DERIVE, KEY_WRAP, KEY_DESTROY (R198, R235, R262, R263) -/

/-- KEY_DERIVE JOB. -/
def runDeriveJob (s : State) (t : Ticket) (p : Pkt) (_ : List ReadIn) : Res :=
  let pid := tagPid t.ptag
  if (part s pid).jobSet then .fail .errState
  else .ok (setPart s pid { part s pid with jobSet := true, job := BitVec.ofNat 64 (parm p 16 64) })

/-- KEY_DERIVE (0x42) JOB. -/
def opDeriveJob : Op where
  opcode := 0x42
  named := [(16, 0, 64)]
  rings := tenantOnly
  pre s _ p :=
    if parm p 16 64 == 0 then some .errParam
    else if !(part s (tagPid p.ptag)).conf then some .errPerm else none
  run := runDeriveJob

/-- KEY_DERIVE JOB. -/
def execKeyDeriveJob (c : Cmd) (s : State) : Result := .next (issue opDeriveJob s c)

/-- A tenant Iron key (R263). -/
def deriveIron (root : Key) (use : Nat) (label : Bytes) : Key :=
  keyOf (hkdf (asc "QBMEM1") (keyBytes root) (asc "iron-key" ++ leBytes 1 use ++ label) 32)

/-- Slots for an IRON key of a PID: one of its own that has gone BAD, which the derivation mends (R259, R260; DEDUCED, log
entry 107), its reserved one while EMPTY, then the pool (R261). -/
def ironSlots (s : State) (pid : Nat) : List Nat :=
  let h := (tget {} s.keys.parts pid).held
  ((span 8 248).filter fun i => (slot s i).bad && slotIs s i .iron pid) ++
  (if h != 0 && polClass (slot s h).policy == 0 then h :: freeDerived s else freeDerived s)

/-- KEY_DERIVE IRON. -/
def runDeriveIron (s : State) (t : Ticket) (p : Pkt) (_ : List ReadIn) : Res :=
  let pid := tagPid t.ptag
  let use := parm p 48 8
  let r := (tget {} s.keys.parts pid).root
  match ironSlots s pid with
  | [] => .fail .errResource
  | i :: _ =>
    if !keyFits s r .partroot .derivation pid then .fail .errPerm
    else match readBad s [r] with
    | some t => .failWith .errIntegrity 0 t
    | none =>
      let k := deriveIron (slot s r).key use (parmBytes p 16 32)
      let s1 := writeSlot s i k
        (policy .iron .iron pid ((part s pid).ctag.toNat % 2048) (use % 2 * 8 + use / 2 % 2 * 4 + 1))
      .ok s1 (resultOf [(8, (keyHandle s1 pid i).toNat)])

/-- KEY_DERIVE (0x42) IRON. -/
def opDeriveIron : Op where
  opcode := 0x42
  form := 1
  named := [(16, 0, 256), (48, 0, 2)]
  rings := tenantOnly
  run := runDeriveIron

/-- KEY_DERIVE IRON. -/
def execKeyDeriveIron (c : Cmd) (s : State) : Result := .next (issue opDeriveIron s c)

/-- Policy of the key at a handle. -/
def polAt (s : State) (h : Nat) : BitVec 32 := (slot s (h % 256)).policy

/-- The window that a read-once result fills: reply, result length, data (R235). -/
def windowOf (t : Ticket) (ptag : BitVec 16) (data : Bytes) : Window :=
  let b := replyBytes .ok (b2n t.phase * 128) t.opcode t.form t.seq ptag (resultOf [(8, data.length)]) ++ slice data 0 64
  { words := (List.range 24).foldl (fun w i => tset 0 w i (BitVec.ofNat 32 (le b (4 * i) 4))) []
    full := true, spent := false, left := 0 :: span 8 ((data.length + 3) / 4) }

/-- Firmware wraps a key under another in hardware context 14, which it opens and frees again (R350). -/
def fwWrap (s : State) (w k : Nat) : State × Bytes :=
  ({ s with iron := { s.iron with fw := terase s.iron.fw 14 } }, kwWrap (slot s w).key (keyBytes (slot s k).key))

/-- KEY_WRAP: the key wrapped, 40 bytes, into the read-once window (R235, R236); a firmware use of Iron, whose result is
compared (R338, R339). -/
def runKeyWrap (dual : Bool) (s : State) (t : Ticket) (p : Pkt) (_ : List ReadIn) : Res :=
  let pid := tagPid t.ptag
  let k := parm p 16 32 % 256
  let w := parm p 20 32 % 256
  if noLane s then .fail .errState
  else if (tget ({} : Window) s.cmd.windows pid).full then .fail .busy
  else match readBad s [k, w] with
    | some t => .failWith .errIntegrity 0 t
    | none =>
      let x := fwWrap s w k
      dualRes dual s t (.once (fillWindow x.1 pid (windowOf t (curTag s pid) x.2)))

/-- KEY_WRAP (0x43). -/
def opKeyWrap (dual : Bool) : Op where
  opcode := 0x43
  named := [(16, 0, 32), (20, 0, 32)]
  rings := tenantOnly
  handle s p :=
    ironNamed s (BitVec.ofNat 32 (parm p 16 32)) (tagPid p.ptag) &&
    ironNamed s (BitVec.ofNat 32 (parm p 20 32)) (tagPid p.ptag)
  pre s _ p :=
    if polExport (polAt s (parm p 16 32)) && polWrap (polAt s (parm p 20 32)) &&
        keyFits s (parm p 16 32 % 256) .iron .iron (tagPid p.ptag) &&
        keyFits s (parm p 20 32 % 256) .iron .iron (tagPid p.ptag) then none else some .errPerm
  run := runKeyWrap dual

/-- KEY_WRAP. -/
def execKeyWrap (c : DualCmd) (s : State) : Result := .next (issue (opKeyWrap c.dual) s c.cmd)

/-- KEY_DESTROY: the slot is cleared; contexts bound to the key end (R262, R346). A handle whose slot is BAD fails as
every command that names it (R260). -/
def runKeyDestroy (s : State) (_ : Ticket) (p : Pkt) (_ : List ReadIn) : Res :=
  let h := BitVec.ofNat 32 (parm p 16 32)
  if (slot s (keyIdx h)).bad then .fail .errIntegrity else .ok (clearSlot (ironDropKey s h) (keyIdx h))

/-- KEY_DESTROY (0x44). -/
def opKeyDestroy : Op where
  opcode := 0x44
  named := [(16, 0, 32)]
  rings := tenantOnly
  handle s p := ironNamed s (BitVec.ofNat 32 (parm p 16 32)) (tagPid p.ptag)
  run := runKeyDestroy

/-- KEY_DESTROY. -/
def execKeyDestroy (c : Cmd) (s : State) : Result := .next (issue opKeyDestroy s c)

/-! ## LC_ADVANCE and LC_STATUS (R269) -/

/-- A partition of PID 1 to 31 exists. -/
def anyPart (s : State) : Bool := s.part.parts.any fun e => e.1 != 0 && e.2.state != .free

/-- An attempt of a two-attempt record is left. -/
def attemptLeft (l : List LcTry) : Bool := l.any fun t => !touched t.pend

/-- The root lets LC_ADVANCE to INTEGRATOR begin (R269). -/
def rootReady (s : State) : Bool :=
  let f := s.fuse
  (rootClass f == .absent && rootDisagree f == 0 && f.rootOk == 0) ||
  (rootClass f == .valid && rootDisagree f ≤ 2 && isSet f.rootOk)

/-- The transition is in the table, and what gives ERR_LIFECYCLE does not hold. -/
def lcTarget (s : State) (target : Nat) : Bool :=
  match s.fuse.lcs, target with
  | .maker, 1 => attemptLeft s.fuse.lcI && rootReady s
  | .integrator, 2 => attemptLeft s.fuse.lcF
  | .fielded, 3 => true
  | .scrapped, _ => false
  | _, 4 => true
  | _, _ => false

/-- The first `k` bits of a field. -/
def lowBits (w k : Nat) : BitVec w := BitVec.allOnes w >>> (w - min w k)

/-- Program bits of PEND of the next unused attempt of a record at a byte of the bank. -/
def pendNext (n at_ : Nat) (ask : BitVec 16) : List LcTry → List LcTry
  | [] => []
  | t :: l => if touched t.pend then t :: pendNext n (at_ + 6) ask l else { t with pend := burn n at_ t.pend ask } :: l

/-- The bank after LC_ADVANCE has programmed a record: one more operation, and what is pending now (R268). -/
def pendTo (s : State) (f : FuseState) : State :=
  { s with fuse := { f with
    burns := f.burns + 1, pending := (pendSense f).isSome, ptarget := (pendSense f).getD .maker } }

/-- The root copies after the first `k` bit positions of a draw, each in A, B and C in turn (R269). -/
def burnRoot (f : FuseState) (d : Key) (k : Nat) : FuseState :=
  let m := fun n => d &&& (BitVec.allOnes 256 >>> (256 - min 256 n))
  let b := burn f.burns
  { f with
    rootA := b 0 f.rootA (m ((k + 2) / 3)), rootB := b 0x20 f.rootB (m ((k + 1) / 3)), rootC := b 0x40 f.rootC (m (k / 3)) }

/-- What cuts a command of the pump path: VPP_Q plays no part in it (R251). -/
def pumpCut (c : Cut) : Cut := if c == .failed then .whole else c

/-- LC_ADVANCE to INTEGRATOR: 768 bits of root and 16 of ROOT_OK by VPP_Q, 16 of PEND by the pump (R251, R269). -/
def advanceI (s : State) (c : Cut) : Res :=
  let f := s.fuse
  let n := f.burns
  if !s.boot.vppOk || f.fwKh == 0 || f.dbgKh == 0 || f.devId == 0 || !trimGood f || !s.keys.entHealthy ||
      s.keys.entFailed then .fail .errState
  else if isSet f.rootOk then
    cutRes (pumpCut c) (pendTo s { f with lcI := pendNext n 0x80 (lowBits 16 (cutAt s (pumpCut c) 16)) f.lcI })
  else
    let d := freshDraw s
    let k := cutAt s c (if c == .failed then 784 else 800)
    let s1 := { d.1 with boot := { d.1.boot with vppOk := c != .failed } }
    cutRes c (pendTo s1 { burnRoot f d.2 k with
      rootOk := burn n 0x150 f.rootOk (lowBits 16 (k - 768))
      lcI := if k ≤ 784 then f.lcI else pendNext n 0x80 (lowBits 16 (k - 784)) f.lcI })

/-- LC_ADVANCE to FIELDED: FSALT where it has too few ones, and PEND (R269). -/
def advanceF (s : State) (c : Cut) : Res :=
  let f := s.fuse
  let n := f.burns
  if ones f.fsalt ≥ 64 then cutRes c (pendTo s { f with lcF := pendNext n 0x8C (lowBits 16 (cutAt s c 16)) f.lcF })
  else if s.keys.entFailed then .fail .errState
  else
    let d := freshDraw s
    let k := cutAt s c 272
    cutRes c (pendTo d.1 { f with
      fsalt := burn n 0x60 f.fsalt (d.2 &&& lowBits 256 k)
      lcF := if k ≤ 256 then f.lcF else pendNext n 0x8C (lowBits 16 (k - 256)) f.lcF })

/-- LC_ADVANCE. -/
def runLcAdvance (c : Cut) (s : State) (_ : Ticket) (p : Pkt) (_ : List ReadIn) : Res :=
  let n := parm p 16 8
  let f := s.fuse
  let q := pumpCut c
  let ask := lowBits 16 (cutAt s q 16)
  if f.pending then .fail .errState
  else if n == 1 then advanceI s c
  else if s.range.memb != .unbound || anyPart s then .fail .errState
  else if n == 2 then advanceF s q
  else if n == 3 then
    cutRes q (pendTo s { f with lcRPend := burn f.burns 0x98 f.lcRPend ask, lockScrap := q == .whole })
  else cutRes q (pendTo s { f with lcSPend := burn f.burns 0x9C f.lcSPend ask, lockScrap := q == .whole })

/-- LC_ADVANCE (0x70). -/
def opLcAdvance (cut : Cut) : Op where
  opcode := 0x70
  named := [(16, 0, 8)]
  whole _ := true
  rings := opOnly
  lc s p := s.fuse.pending || lcTarget s (parm p 16 8)
  run := runLcAdvance cut

/-- LC_ADVANCE. -/
def execLcAdvance (cut : Cut) (c : Cmd) (s : State) : Result := .next (issue (opLcAdvance cut) s c)

/-- LC_STATUS. -/
def runLcStatus (s : State) (_ : Ticket) (_ : Pkt) (_ : List ReadIn) : Res :=
  let f := s.fuse
  .ok s (resultOf [(8, lcsCode f.lcs), (9, b2n f.pending), (10, if f.pending then lcsCode f.ptarget else 0)])

/-- LC_STATUS (0x71). -/
def opLcStatus : Op where
  opcode := 0x71
  whole _ := true
  rings := anyRing
  run := runLcStatus

/-- LC_STATUS. -/
def execLcStatus (c : Cmd) (s : State) : Result := .next (issue opLcStatus s c)

/-! ## Debug (R272 to R274) -/

/-- Every bit of a scope is permitted in the life-cycle state (R272). -/
def scopeOk (l : Lcs) (n : Nat) : Bool :=
  let mid := l == .integrator || l == .fielded || l == .returned
  (!scopeBit n 1 || mid) && (!scopeBit n 2 || mid) && (!scopeBit n 3 || l == .maker || l == .returned) &&
  (!scopeBit n 4 || l == .maker || l == .integrator)

/-- The outstanding challenge, unless it has expired (R273). -/
def liveChal (s : State) : Option Chal := s.keys.chal.filter fun c => decide (now s < c.until_)

/-- DBG_CHALLENGE. -/
def runDbgChallenge (s : State) (_ : Ticket) (p : Pkt) (_ : List ReadIn) : Res :=
  let pid := parm p 16 8
  let scope := parm p 17 8
  if scope == 0 then .ok { s with keys := { s.keys with dbg := none, chal := none } } 0
  else if (pid != 0 && !active s pid) || s.keys.entFailed then .fail .errState
  else
    let d := drawBytes (reseed s) 16
    let c : Chal := { value := BitVec.ofNat 128 (leNat d.2), pid := pid, scope := scope, gen := curGen s pid
                      until_ := now s + 60000000 }
    .ok { d.1 with keys := { d.1.keys with chal := some c } } (resultOf [(8, c.value.toNat)])

/-- DBG_CHALLENGE (0x72). -/
def opDbgChallenge : Op where
  opcode := 0x72
  named := [(16, 0, 8), (17, 0, 5)]
  whole _ := true
  rings := opOnly
  pre s _ p :=
    if parm p 16 8 > 31 then some .errParam
    else if (part s (parm p 16 8)).conf then some .errPerm else none
  lc s p := scopeOk s.fuse.lcs (parm p 17 8)
  run := runDbgChallenge

/-- DBG_CHALLENGE. -/
def execDbgChallenge (c : Cmd) (s : State) : Result := .next (issue opDbgChallenge s c)

/-- The fuse hash of the authority that a token names, where the state accepts it (R266). -/
def authorityHash (s : State) (sel : Nat) : BitVec 384 :=
  let l := s.fuse.lcs
  if sel == 0 && (l == .integrator || l == .fielded || l == .returned) then s.fuse.dbgKh
  else if sel == 1 && (l == .integrator || l == .fielded) then s.fuse.idbgKh
  else 0

/-- A token answers the challenge (R273). -/
def tokenGood (s : State) (c : Chal) (b : Bytes) : Bool :=
  let h := authorityHash s (le b 5 1)
  let ec := slice b 48 97
  let ml := slice b 145 2592
  let body := slice b 0 48
  slice b 0 4 == asc "QDBG" && le b 4 1 == 1 && le b 5 1 ≤ 1 && le b 6 1 == c.pid && le b 7 1 == c.scope &&
  slice b 8 16 == leBytes 16 c.value.toNat && slice b 24 16 == leBytes 16 s.fuse.devId.toNat &&
  le b 40 1 == lcsCode s.fuse.lcs && le b 41 1 == 0 && 1 ≤ le b 42 2 && le b 42 2 ≤ 3600 && le b 44 4 == 0 &&
  h != 0 && sha (ec ++ ml) == beBytes 48 h.toNat &&
  Config.ecVerify ec (sha body) (slice b 2737 96) && Config.mlVerify ml [] body (slice b 2833 4627)

/-- A confidential partition exists. -/
def anyConf (s : State) : Bool := s.part.parts.any fun e => e.2.state != .free && e.2.conf

/-- The authorisation is refused for a JTAG or SCU scope (R274). -/
def unlockBarred (s : State) (scope : Nat) : Bool :=
  (scopeBit scope 0 || scopeBit scope 3) && (anyConf s || (s.fuse.lcs == .fielded && s.range.memb != .unbound))

/-- DBG_UNLOCK. It ends the authorisation in force, whatever it comes to (R273; DEDUCED, log entry 110). -/
def runDbgUnlock (s : State) (_ : Ticket) (p : Pkt) (m : List ReadIn) : Res :=
  let ended := { s with keys := { s.keys with dbg := none } }
  match liveChal s with
  | none => .failWith .errState 0 ended
  | some c =>
    let used := { ended with keys := { ended.keys with chal := none } }
    if c.gen != curGen s c.pid then .failWith .errStale 0 ended
    else if unlockBarred s c.scope then .failWith .errState 0 ended
    else match firstRead m 7460 with
      | none => .failWith .errIntegrity 0 ended
      | some b =>
        if parm p 22 16 != 7460 || !tokenGood s c b then .failWith .authFail 0 used
        else
          let d : Dbg := { pid := c.pid, scope := c.scope, gen := c.gen, until_ := now s + le b 42 2 * 1000000 }
          .ok { used with keys := { used.keys with
            dbg := some d, dbgEver := used.keys.dbgEver ||| BitVec.ofNat 8 c.scope } }

/-- DBG_UNLOCK (0x73). -/
def opDbgUnlock : Op where
  opcode := 0x73
  named := [(16, 0, 48), (22, 0, 16)]
  whole _ := true
  rings := opOnly
  pre s _ p :=
    if !rangeOk s 0 (parm p 16 48) (parm p 22 16) rDRD then some .errPerm
    else match liveChal s with
      | some c => if (part s c.pid).conf then some .errPerm else none
      | none => none
  reads s _ p _ :=
    if (liveChal s).any fun c => c.gen == curGen s c.pid && !unlockBarred s c.scope then
      [{ off := parm p 16 48, len := parm p 22 16 }] else []
  run := runDbgUnlock

/-- DBG_UNLOCK. -/
def execDbgUnlock (c : Cmd) (s : State) : Result := .next (issue opDbgUnlock s c)

/-- DBG_CHALLENGE_EXPIRY (R273): 60 s. -/
def execDbgChallengeExpiry (s : State) : Result :=
  match s.keys.chal with
  | some c => if c.until_ ≤ now s then .next { s with keys := { s.keys with chal := none } } else .next s
  | none => .next s

/-- DBG_AUTH_EXPIRY (R273): the token's DURATION. -/
def execDbgAuthExpiry (s : State) : Result :=
  match s.keys.dbg with
  | some d => if d.until_ ≤ now s then .next { s with keys := { s.keys with dbg := none } } else .next s
  | none => .next s

/-- Bits of a field at a byte of the bank, named by absolute fuse bit numbers. -/
def fuseMask (w byte : Nat) (l : List Nat) : BitVec w :=
  l.foldl (fun m b => if 8 * byte ≤ b && b < 8 * byte + w then m ||| (1#w <<< (b - 8 * byte)) else m) 0

/-- Bits programmed on the VPP_Q path over JTAG (R250, R251): DEV_ID, FW_KH, DBG_KH, TRIM and TRIM_CRC in
MAKER; IDBG_KH in INTEGRATOR while it reads all zeros. -/
def burnJtag (f : FuseState) (l : List Nat) : FuseState :=
  let n := f.burns
  let g := { f with burns := n + 1 }
  if f.lcs == .maker then
    { g with
      devId := burn n 0xB0 f.devId (fuseMask 128 0xB0 l), fwKh := burn n 0xC0 f.fwKh (fuseMask 384 0xC0 l)
      dbgKh := burn n 0xF0 f.dbgKh (fuseMask 384 0xF0 l), trim := burn n 0x200 f.trim (fuseMask 4080 0x200 l)
      trimCrc := burn n 0x3FE f.trimCrc (fuseMask 16 0x3FE l) }
  else if f.idbgKh == 0 then { g with idbgKh := burn n 0x120 f.idbgKh (fuseMask 384 0x120 l) }
  else f

/-- The debug gate gives chip TAP and scan access (R272). -/
def jtagOpen (s : State) : Bool :=
  let l := s.fuse.lcs
  s.fuse.sensed && (l == .maker || l == .scrapped || (scopeBit (dbgScope s) 0 &&
    (l == .integrator || l == .returned || (l == .fielded && s.range.memb == .unbound && !anyConf s))))

/-- The debug gate gives SCU halt, step and SRAM access (R272). -/
def scuOpen (s : State) : Bool :=
  s.fuse.sensed && (s.fuse.lcs == .maker || (s.fuse.lcs == .returned && scopeBit (dbgScope s) 3))

/-- Bits of a number, least significant first. -/
def tapBits (w n : Nat) : List Bool := (List.range w).map fun i => n / 2 ^ i % 2 == 1

/-- What the 1-bit bypass register shifts out: each bit one place later (R377). -/
def bypassBits (d : List Bool) : List Bool := (false :: d).take d.length

/-- The 32-bit word of IMEM, DMEM or its retained area at an SCU address (R295). -/
def sramWord (c : ScuState) (a : Nat) : Nat :=
  if a < 0x20000000 then le c.imem (a - 0x10000000) 4
  else if a < 0x20070000 then le c.dmem (a - 0x20000000) 4
  else le c.retained (a - 0x20070000) 4

/-- Four bytes of a memory changed. -/
def putWord (b : Bytes) (at_ : Nat) (v : BitVec 32) : Bytes :=
  let l := b ++ zeros (at_ + 4 - b.length)
  l.take at_ ++ leBytes 4 v.toNat ++ l.drop (at_ + 4)

/-- Write a word of the SCU's memories: IMEM only before its lock (R295). -/
def putSram (c : ScuState) (a : Nat) (v : BitVec 32) : ScuState :=
  if a < 0x20000000 then if c.imemLock then c else { c with imem := putWord c.imem (a - 0x10000000) v }
  else if a < 0x20070000 then { c with dmem := putWord c.dmem (a - 0x20000000) v }
  else { c with retained := putWord c.retained (a - 0x20070000) v }

/-- What the SCU scope admits (R272): a halted SCU takes no command until it runs on, and its watchdog counts on (R296). -/
def scuScan (s : State) (x : Scan) : State :=
  let c := s.boot.scu
  match x with
  | .scuHalt => if s.boot.scuUp then { s with boot := { s.boot with scuUp := false, scu := { c with halted := true } } } else s
  | .scuRun => if c.halted then postDue { s with boot := { s.boot with scuUp := true, scu := { c with halted := false } } } else s
  | .scuStep => if c.halted then { s with boot := { s.boot with scu := { c with pc := Config.scuNext c.imem c.pc } } } else s
  | .scuRead a => if scuEccAt a then emit s (.tdo (tapBits 32 (sramWord c a.toNat))) else s
  | .scuWrite a v => if scuEccAt a then { s with boot := { s.boot with scu := putSram c a.toNat v } } else s
  | _ => s

/-- A scan with the TAP out of reset: IDCODE and bypass always, the rest by the scope in force (R272, R377). -/
def tapScan (s : State) (x : Scan) : State :=
  match x with
  | .idcode => emit s (.tdo (tapBits 32 0x51420A3F))
  | .bypass d => emit s (.tdo (bypassBits d))
  | .fuse l => if s.boot.rdy && fuseSession s && s.boot.vppOk then { s with fuse := burnJtag s.fuse l } else s
  | .tap d => emit s (.tdo (if jtagOpen s then Config.scanOut (now s) d else bypassBits d))
  | .trst h => { s with boot := { s.boot with tapUp := h } }
  | x => if scuOpen s then scuScan s x else s

/-- JTAG_TAP_ACCESS (R272, R377). -/
def execJtagTapAccess (x : Scan) (s : State) : Result :=
  .next (match x with
    | .trst h => { s with boot := { s.boot with tapUp := h } }
    | x => if s.boot.tapUp && !held s then tapScan s x else s)

/-! ## Background check, entropy, DRBG (R255, R256, R259) -/

/-- KSA_BACKGROUND_CHECK (R259): once per Tarn millisecond. -/
def execKsaBackgroundCheck (flips : List (Nat × Key)) (s : State) : Result :=
  if s.keys.zeroised || s.keys.checkAt == now s / 1000 + 1 then .next s
  else
    let s1 := { s with keys := { s.keys with checkAt := now s / 1000 + 1 } }
    let hit := flips.filter fun f => f.1 < 256 && polClass (slot s f.1).policy != 0
    let s2 := hit.foldl (fun s f => setSlot s f.1 { slot s f.1 with key := (slot s f.1).key ^^^ f.2 }) s1
    .next ((s2.keys.slots.map (·.1)).foldl checkSlot (settleFailing s2))

/-- ENTROPY_WINDOW (R255): both health tests on the window's samples. A window fails where its proportion test fails or a
run fails within it; each failure counts (DEDUCED, log entry 108). The third failing window in a row sets FAILED. -/
def execEntropyWindow (w : BitVec 1024) (s : State) : Result :=
  let k := s.keys
  let l := samplesOf w
  let t := l.foldl RunTest.sample { k.entRun with failed := 0 }
  let n := t.failed + b2n (propFails l)
  let k1 := { k with entRun := { t with failed := 0 } }
  if !k.drbgSeeded then .next s
  else if n == 0 then .next { s with keys := { k1 with entConsec := 0 } }
  else .next { s with keys := { k1 with
    entConsec := min 3 (k.entConsec + 1), entFailCnt := add32 k.entFailCnt n, entHealthy := false
    entFailed := k.entFailed || decide (3 ≤ k.entConsec + 1) } }

/-- DRBG_RESEED_TIMER (R256): 100 ms since the last seed. -/
def execDrbgReseedTimer (s : State) : Result :=
  if s.keys.drbgSeeded && !s.keys.entFailed && s.keys.drbgSeedAt + 100000 ≤ now s then .next (reseed s) else .next s

end Sys2Proof.Machine
end

