-- ==== Sys2Proof/Machine/RegMap.lean ====
section
/-! DEFINITION. The register map: what each register of the three pages shows of the state, and who may reach it
(08 R246 to R249, 14 R396, R397, 15 R398 to R409, and the field tables they name). -/

namespace Sys2Proof.Machine

/-- A register word from its fields: (lowest bit, value). -/
def fields : List (Nat × Nat) → Nat
  | [] => 0
  | (lo, v) :: t => v * 2 ^ lo + fields t

/-- Flag fields: (bit, flag). -/
def flags (l : List (Nat × Bool)) : Nat := fields (l.map fun e => (e.1, b2n e.2))

/-- High and low words of a 64-bit value. -/
def lo32 (n : Nat) : Nat := n % 2 ^ 32
/-- Bits 63:32. -/
def hi32 (n : Nat) : Nat := n / 2 ^ 32 % 2 ^ 32

/-! ## Chip, fuses, keys, firmware (R276 to R278, R309, R310, R403 to R405) -/

/-- QB_CTL. -/
def regCtl (s : State) : Nat := flags [(8, s.cmd.tenantHold), (1, s.cmd.vfDoeEn)]

/-- Some port shows PEER_LOST or TAG_ALARM. -/
def linkAttn (s : State) : Bool := s.ridge.links.any fun e => e.2.peerLost || e.2.tagAlarm

/-- QB_STATUS. -/
def regStatus (s : State) : Nat :=
  flags [(31, s.boot.rdy), (30, s.boot.scuUp), (29, s.boot.pdAck), (28, s.alarm.quar), (27, s.keys.zeroised),
    (26, s.mem.potLive), (25, s.fuse.pending), (24, s.keys.entFailed), (23, s.alarm.seen != 0), (22, linkAttn s),
    (21, (ring s 0).fault || (ring s 0).dbErr), (20, s.iron.lanes.any fun e => e.2.oos)] + fields [(16, s.boot.step)]

/-- QB_LCS. -/
def regLcs (s : State) : Nat :=
  let f := s.fuse
  if !f.sensed then 0
  else flags [(13, f.abandoned), (12, f.completed), (3, f.pending)] +
    fields [(10, f.attF), (8, f.attI), (4, lcsCode f.ptarget), (0, lcsCode f.lcs)]

/-- Root classes (R276). -/
def rootCode : RootKind → Nat
  | .valid => 0 | .absent => 1 | .destroyed => 2 | .failed => 3

/-- QB_FUSE_STATUS; VPP_PRESENT needs no sense, and no bit is in programming between two commands. -/
def regFuse (s : State) : Nat :=
  let f := s.fuse
  flags [(29, s.boot.vppOk)] +
  (if !f.sensed then 0
   else flags [(31, f.rootKind == .failed || !f.trimOk), (30, f.trimOk), (25, f.okSet)] +
    fields [(26, rootCode f.rootKind), (0, f.rootDis)])

/-- QB_KSA_STATUS. -/
def regKsa (s : State) : Nat :=
  flags [(31, s.keys.zeroised)] + fields [(16, tcount s.keys.slots fun k => k.bad), (0, usedSlots s)]

/-- QB_ENT_STATUS. -/
def regEnt (s : State) : Nat :=
  flags [(31, s.keys.entFailed), (30, s.keys.entHealthy), (29, s.keys.drbgSeeded)] + fields [(0, s.keys.entConsec)]

/-- QB_DBG_STATUS: whole seconds left. -/
def regDbg (s : State) : Nat :=
  flags [(31, s.keys.dbg.isSome), (30, (liveChal s).isSome)] +
  (match s.keys.dbg with
   | some d => fields [(22, d.pid), (17, d.scope), (0, (d.until_ - now s) / 1000000)]
   | none => 0)

/-- The latest record is TRIAL for the staged slot (R310). -/
def activated (s : State) : Bool :=
  s.boot.staged && (match latestRec s with
    | some r => r.state == 1 && r.slot == !s.boot.runSlot
    | none => false)

/-- QB_FW_STATUS. -/
def regFw (s : State) : Nat :=
  fields [(24, (runSvn s).toNat), (16, s.boot.stagedSvn)] +
  flags [(15, s.boot.staged), (14, activated s), (13, s.boot.runSlot)]

/-- QB_BOOT_STATUS. -/
def regBoot (s : State) : Nat :=
  flags [(31, s.boot.tried), (30, s.boot.trial), (29, s.boot.fallback), (28, s.boot.runSlot)] +
  fields [(16, s.boot.cause), (4, s.boot.failStep), (0, s.boot.step)]

/-! ## Alarms and range (R33, R375) -/

/-- QB_ALARM_STATUS. -/
def regAlarm (s : State) : Nat :=
  fields [(18, s.alarm.seen.toNat), (14, s.alarm.maxLvl)] + flags [(17, s.alarm.quar), (16, s.alarm.anyRaised)]

/-- QB_RANGE_STATUS. -/
def regRange (s : State) : Nat :=
  fields [(16, s.range.nodeId), (5, roleCode s.range.role), (0, membCode s.range.memb)] +
  flags [(8, s.range.paired), (7, s.range.test)]

/-- QB_RANGE_ROLES. -/
def regRoles (s : State) : Nat :=
  fields [(16, s.range.summit), (0, s.range.shoulder.getD 0)] + flags [(15, (inRange s || s.range.memb == .leaving) && s.range.shoulder.isNone)]

/-! ## Memory, remote unit, contexts, services (R158, R191, R221, R334 to R336, R353) -/

/-- QB_MEM_STATUS. -/
def regMem (s : State) : Nat :=
  flags [(19, s.mem.potLive)] + fields [(0, freshReserved s + if s.mem.potLive then 8 else 0)]

/-- QB_RMT_STATUS (R191). A stream that still waits for its grant is not counted as open: the spec does not say (DESIGN
CHOICE, log entry 87). Remote fence signals are held in the load tracker and are no loads. -/
def regRmt (s : State) : Nat :=
  let streams := s.rmt.streams.filter fun t => t.granted && !t.closed
  fields [(16, streams.length), (0, (s.rmt.loads.filter fun e => e.req.cls != clsOwn).length)]

/-- QB_CTX_STATUS. -/
def regCtx (s : State) : Nat :=
  fields [(16, residentCount s), (0, tcount s.part.fences fun f => f.state != .free)]

/-- QB_RINSE_STATUS. -/
def regRinse (s : State) : Nat :=
  flags [(31, s.mem.tickets.any fun k => k.state == .running)] +
  fields [(20, (s.mem.tickets.filter fun k => k.state == .queued).length),
    (0, tcount s.mem.pot fun e => e.state == .free && e.clean)]

/-- QB_WB_STATUS. -/
def regWb (s : State) : Nat := fields [(16, s.wb.sets.length), (0, tcount s.wb.bundles fun b => b.live)]

/-- A lane of Iron. -/
def ironLane (s : State) (n : Nat) : Lane := tget {} s.iron.lanes n

/-- QB_IRON_STATUS. -/
def regIron (s : State) : Nat :=
  flags [(3, (ironLane s 1).retired), (2, (ironLane s 1).oos), (1, (ironLane s 0).retired), (0, (ironLane s 0).oos)]

/-- A telemetry counter's exact count (R327). Counters 6 and 7 sum the events that the T5 reports for each microsecond since
PART_CREATE, which are free values (log entry 135). -/
def telCount (s : State) (pid i : Nat) : Nat :=
  let a := tget 0 s.tel.since pid
  if i ≥ 6 then (List.range (now s - a)).foldl (fun n k => (n + Config.tileEvents pid i (a + k)) % 2 ^ 64) 0
  else tget 0 s.tel.cnt (pid * 8 + i)

/-- A telemetry counter as the gate presents it (R327). -/
def telShown (s : State) (pid i : Nat) : Nat :=
  if (part s pid).conf then tget 0 s.tel.latched (pid * 8 + i) else telCount s pid i

/-- The 68 bytes of counters and QB_TEL_STATUS of a PID, by word (R336). -/
def telWord (s : State) (pid w : Nat) : Nat :=
  if w < 16 then (if w % 2 == 0 then lo32 else hi32) (telShown s pid (w / 2))
  else if w == 16 && (part s pid).conf then 2 ^ 31 + tget 0 s.tel.latchNo pid % 65536
  else 0

/-! ## Repeated blocks (R92 to R94, R121, R122, R159 to R161, R246, R247) -/

/-- Phase of a key register. -/
def keyPhase (k : Option SKey) : Nat := match k with
  | some x => x.idx % 2
  | none => 0

/-- A register of a link block, by byte offset in it. -/
def linkReg (s : State) (p off : Nat) : Nat :=
  let l := link s p
  match off with
  | 0x00 => flags [(13, l.peerLost), (12, l.tagAlarm), (11, l.rxPrev), (10, l.txNext.isSome), (3, l.screeCad != 0)] +
      fields [(9, keyPhase l.rxCur), (8, keyPhase l.txCur), (0, portCode l.state)]
  | 0x04 => fields [(23, l.screeFM1), (17, l.screeCad), (12, l.cableDly), (6, l.transit)]
  | 0x08 => fields [(8, l.peerNode), (0, l.peerPort)]
  | 0x10 => l.ctr.tagfail
  | 0x14 => l.ctr.replay
  | 0x18 => l.ctr.aged
  | 0x1C => l.ctr.stale
  | 0x20 => l.ctr.rekeys
  | 0x24 => lo32 l.lastSeq.toNat
  | 0x28 => (tget 0 s.ridge.txSample p).toNat
  | 0x2C => l.ctr.noroute
  | _ => 0

/-- Blocks of a unit that are granted. -/
def unitBlocks (s : State) (u : Nat) : List (Nat × Nat) := s.fold.blocks.filter fun e => e.1 / 64 == u

/-- The confidential partition that holds blocks of a unit. -/
def unitConf (s : State) (u : Nat) : Nat :=
  match (unitBlocks s u).find? fun e => (part s (e.2 - 1)).conf with
  | some e => e.2 - 1
  | none => 0

/-- A register of a fold block. -/
def foldReg (s : State) (u off : Nat) : Nat :=
  let c := tget ({} : FoldCtr) s.fold.ctr u
  match off with
  | 0x00 => fields [(20, (unitBlocks s u).length), (15, unitConf s u),
      (0, tcount s.fold.plans fun p => p.unit == u && p.state != .free)] +
      flags [(14, unitConf s u != 0), (13, s.fold.zeroing.any fun b => b / 64 == u)]
  | 0x10 => c.frames
  | 0x14 => c.chunks
  | 0x18 => c.rollback
  | 0x1C => c.reject
  | 0x20 => c.faults
  | _ => 0

/-- A register of a memory engine block. -/
def mxReg (s : State) (e off : Nat) : Nat :=
  let m := mx s e
  if off == 0 then fields [(17, m.darn.length), (8, m.missq.length)] + flags [(16, !m.ovfs.isEmpty), (0, m.alarm)]
  else if off == 0x10 then m.ctr.potMiss
  else if off == 0x14 then m.ctr.deny
  else if off == 0x18 then m.ctr.stale
  else if off == 0x1C then m.ctr.darnFix
  else if off == 0x20 then m.ctr.poison
  else if off == 0x24 then m.ctr.rmw
  else if off == 0x28 then m.ctr.ovf
  else if off == 0x2C then m.ctr.promote
  else if 0x80 ≤ off && off < 0x100 then
    let p := (off - 0x80) / 4
    fields [(0, tget 0 m.nextBudget p)] + flags [(12, m.nextLatency.getLsbD p)]
  else if off == 0x100 then tget 0 m.nextBudget 32
  else 0

/-- A register of a ring block. -/
def ringReg (s : State) (n off : Nat) : Nat :=
  let r := ring s n
  let e := evt s n
  match off with
  | 0x00 => fields [(9, r.clog2)] + flags [(1, r.loc), (0, r.en)]
  | 0x04 => flags [(31, r.fault), (30, r.dbErr), (29, !r.oddPass && r.en)] + fields [(24, r.inflight), (0, r.head)]
  | 0x08 => r.tail
  | 0x0C => e.cons
  | 0x10 => lo32 r.cbase.toNat
  | 0x14 => hi32 r.cbase.toNat
  | 0x18 => lo32 r.rbase.toNat
  | 0x1C => hi32 r.rbase.toNat
  | 0x20 => lo32 e.base.toNat
  | 0x24 => hi32 e.base.toNat
  | 0x28 => fields [(24, e.mod), (13, e.vector), (1, e.elog2)] + flags [(6, e.loc), (0, e.en)]
  | 0x2C => e.prod
  | 0x30 => flags [(31, e.overflow)] + fields [(0, e.dropped)]
  | _ => 0

/-! ## Read-once windows (R235, R236, R249) -/

/-- The window of a function. -/
def window (s : State) (n : Nat) : Window := tget {} s.cmd.windows n

/-- A word of a window as a read shows it: word 0 read again carries status READ_ONCE_CONSUMED. -/
def windowWord (w : Window) (i : Nat) : Nat :=
  let x := (tget 0 w.words i).toNat
  if i == 0 && w.spent then x / 256 * 256 + statusCode .consumed else x

/-- A read takes a word of a window. -/
def takeWord (w : Window) (i : Nat) : Window :=
  let left := w.left.filter fun j => j != i
  if i == 0 then { w with spent := w.spent || w.full, left := left, full := w.full && !left.isEmpty }
  else { w with words := w.words.filter fun e => e.1 != i, left := left, full := w.full && !left.isEmpty }

/-! ## Pages (R396, R397, R402, R406, R408) -/

/-- The chip-level words of the operator page below 0x0800. -/
def opLow (s : State) (off : Nat) : Nat :=
  match off with
  | 0x0000 => qbId
  | 0x0004 => regCtl s
  | 0x0008 => regStatus s
  | 0x0100 => regLcs s
  | 0x0104 => regFuse s
  | 0x0108 => fuseSvn s
  | 0x010C => regKsa s
  | 0x0110 => regEnt s
  | 0x0114 => regDbg s
  | 0x0130 => s.keys.badCnt
  | 0x0134 => s.keys.entFailCnt
  | 0x0138 => s.keys.drbgReseeds
  | 0x013C => s.keys.dbgDeny
  | 0x0140 => regFw s
  | 0x0144 => s.boot.scuResets
  | 0x0148 => s.boot.scuEcc
  | 0x0150 => lo32 (runBuild s).toNat
  | 0x0154 => hi32 (runBuild s).toNat
  | 0x0180 => regAlarm s
  | 0x0200 => regRange s
  | 0x0204 => s.range.epoch.toNat
  | 0x0208 => regRoles s
  | 0x020C => s.range.ctr.advances
  | 0x0210 => s.range.ctr.removed
  | 0x0214 => s.range.ctr.resends
  | 0x0218 => s.range.ctr.probes
  | 0x021C => s.range.ctr.takeovers
  | 0x0220 => s.range.ctr.pairReject
  | 0x0300 => s.mem.potBase
  | 0x0304 => regMem s
  | 0x0380 => regRmt s
  | 0x0384 => s.rmt.own.length
  | 0x0390 => s.rmt.ctr.loadTmo
  | 0x0394 => s.rmt.ctr.seamFail
  | 0x0398 => s.rmt.ctr.releases
  | 0x039C => s.rmt.ctr.ownRefuse
  | 0x03A0 => s.rmt.ctr.hotWait
  | 0x03A4 => s.rmt.ctr.perr
  | 0x0400 => s.mem.descBase
  | 0x0404 => regCtx s
  | 0x0410 => s.part.ctr.ctxLost
  | 0x0414 => s.part.ctr.ctxKills
  | 0x0418 => s.part.ctr.genAdvance
  | 0x041C => s.part.ctr.fenceSignals
  | 0x0420 => s.part.ctr.fenceOoo
  | 0x0424 => s.part.ctr.fenceStale
  | 0x0428 => s.part.ctr.peerRefuse
  | 0x0440 => regRinse s
  | 0x0444 => fields [(16, s.tel.window), (0, s.tel.power)]
  | 0x0448 => s.tel.sel
  | 0x044C => regWb s
  | 0x0450 => s.tel.rinsePages
  | 0x0454 => s.wb.integrity
  | 0x0458 => s.tel.tileScrubs
  | 0x04C0 => regIron s
  | 0x04C4 => s.iron.dual
  | 0x04C8 => s.iron.kat
  | _ => 0

/-- A word of the operator page after QB_RDY. -/
def opWord (s : State) (off : Nat) : Nat :=
  if 0x0120 ≤ off && off < 0x0130 then s.fuse.devShown.toNat / 2 ^ (8 * (off - 0x120)) % 2 ^ 32
  else if 0x0184 ≤ off && off ≤ 0x01A8 then tget 0 s.alarm.counts ((off - 0x180) / 4)
  else if 0x0460 ≤ off && off < 0x04A4 then telWord s s.tel.sel ((off - 0x460) / 4)
  else if 0x0800 ≤ off && off < 0x0840 then ringReg s 0 (off - 0x800)
  else if off == 0x0840 then fields [(16, s.cmd.rangeDropped), (0, s.cmd.rangeQ.length)]
  else if 0x0880 ≤ off && off < 0x08E0 then windowWord (window s 0) ((off - 0x880) / 4)
  else if 0x4000 ≤ off && off < 0x4900 then linkReg s ((off - 0x4000) / 0x40) (off % 0x40)
  else if 0x5000 ≤ off && off < 0x5900 then foldReg s ((off - 0x5000) / 0x40) (off % 0x40)
  else if 0x6000 ≤ off && off < 0x7000 then mxReg s ((off - 0x6000) / 0x200) (off % 0x200)
  else opLow s off

/-- A word of a tenant page while its PID is ACTIVE. -/
def tenantWord (s : State) (n off : Nat) : Nat :=
  if 0x100 ≤ off && off < 0x140 then ringReg s n (off - 0x100)
  else if 0x180 ≤ off && off < 0x1E0 then windowWord (window s n) ((off - 0x180) / 4)
  else if 0x200 ≤ off && off ≤ 0x240 then telWord s n ((off - 0x200) / 4)
  else 0

/-- Entry `i` of the alarm log as the ring shows it: the last 64 entries stand at their SEQ modulo 64 (R393). -/
def logAt (s : State) (i : Nat) : Bytes :=
  match s.tarn.log.find? fun e => e.seq % 64 == i with
  | some e => leBytes 8 e.time ++ leBytes 1 e.kind ++ leBytes 1 e.level ++ leBytes 1 e.source ++ leBytes 1 e.pid ++
      leBytes 2 e.detail ++ leBytes 2 e.seq
  | none => zeros 16

/-- A word of the Tarn page; `hi` is the reader's own latch (R409). -/
def tarnWord (s : State) (hi : BitVec 32) (off : Nat) : Nat :=
  if 0x400 ≤ off && off < 0x800 then le (logAt s ((off - 0x400) / 16)) (off % 16) 4
  else match off with
    | 0x000 => lo32 s.tarn.now
    | 0x004 => hi.toNat
    | 0x008 => flags [(31, s.tarn.tstart), (30, s.tarn.trimmed), (29, s.tarn.refsrc), (28, s.tarn.pdOrderly),
        (27, s.tarn.orderErr)] + fields [(16, s.tarn.vppViol)]
    | 0x00C => flags [(16, s.tarn.tamperIn)] + fields [(8, s.tarn.armed.toNat), (0, s.tarn.tripped.toNat)]
    | 0x010 => regLcs s
    | 0x014 => regFuse s
    | 0x018 => flags [(3, s.boot.vppHigh), (2, s.boot.vppOk), (1, s.boot.vddaGood), (0, s.boot.vddqGood)]
    | 0x020 => regBoot s
    | 0x024 => s.boot.trialSeq.toNat
    | 0x028 => fields [(16, s.tarn.logTotal), (8, s.tarn.logDropped), (0, s.tarn.logTotal % 64)]
    | _ => 0

/-! ## Who may reach a page (R399, R400) -/

/-- What the register port makes of an access. -/
inductive Admit where
  /-- The access has its effect. -/
  | yes
  /-- Refused, or a page that shows nothing now: a read returns 0, a write has no effect. -/
  | no
  /-- Completed as an Unsupported Request; the flag: the TDI moves to ERROR. -/
  | ur (fault : Bool)
  deriving DecidableEq, Repr

/-- The stream is the one bound to TDI `n`. -/
def onBound (s : State) (n : Nat) (a : Acc) : Bool :=
  match a.stream, (tdi s n).stream with
  | some k, some j => k.val == j
  | _, _ => false

/-- What comes by a stream that a tenant's TDI is bound to is no access of the physical function or of a virtual function
that is not in RUN (R14): an Unsupported Request (DESIGN CHOICE, log entry 118). -/
def plainAcc (s : State) (a : Acc) : Admit := if tenantStream s (a.stream.map (·.val)) then .ur false else .yes

/-- Decision of the register port. -/
def admitAcc (s : State) (a : Acc) (pg : Page) : Admit :=
  if a.mport != 0xC0 then .no
  else match pg with
    | .operator => if a.pid == 0 then plainAcc s a else .no
    | .tarn | .rest => if a.pid == 0 then plainAcc s a else .no
    | .tenant n =>
      if n == 0 || a.pid != n then .no
      else if !active s n.val then .no
      else if (part s n.val).conf && !(a.tbit && onBound s n.val a && (tdi s n.val).state == .run) then
        .ur (!a.tbit && onBound s n.val a)
      else if (part s n.val).conf then .yes
      else plainAcc s a

/-- A page takes writes and shows its registers (R402). -/
def pagesOpen (s : State) : Bool := s.boot.rdy && !s.boot.pdAck

/-- An Unsupported Request. -/
def urAcc (s : State) (n : Nat) (fault : Bool) : State :=
  emit (if fault then tdiFault s n else s) (.tlpUr n)

/-- The page of a function's ring block. -/
def fnPage (fn : Pid) : Page := if fn == 0 then .operator else .tenant fn

/-- A word that a page shows now to a reader. -/
def pageWord (s : State) (pg : Page) (off : Nat) : Nat :=
  match pg with
  | .operator => if pagesOpen s then opWord s off else if off == 0 || off == 8 then opLow s off else 0
  | .tarn => tarnWord s s.tarn.hiOper off
  | .tenant n => if pagesOpen s && active s n.val then tenantWord s n.val off else 0
  | .rest => 0

/-- Where a byte of BAR0 of a function lies (R398): the Queber window of the physical function, 2 MiB from 0x0400_0000, or
the tenant page that is the whole BAR0 of a virtual function; `none` outside. -/
def barPlace (fn : Pid) (a : Nat) : Option (Page × Nat) :=
  if fn != 0 then (if a < 0x1000 then some (.tenant fn, a) else none)
  else if a < 0x4000000 || 0x4200000 ≤ a then none
  else if a < 0x4010000 then some (.operator, a - 0x4000000)
  else if a < 0x4011000 then some (.tarn, a - 0x4010000)
  else some (.rest, a - 0x4011000)

end Sys2Proof.Machine
end

