-- ==== Sys2Proof/Machine/CmdRegs.lean ====
section
/-! DEFINITION. Register writes, and the two reads that change the state (08 R225, R227, R235, R247, 15 R401 to
R410). -/

namespace Sys2Proof.Machine

/-! ## The ring block (R225, R227, R246, R247) -/

/-- A base register is in range for LOC: a device offset has bits 63:41 at 0 (R247). -/
def baseOk (loc : Bool) (b : BitVec 64) : Bool := loc || b.toNat < 2 ^ 41

/-- QB_RING_CTL: CLOG2 and LOC take effect while EN is 0; EN starts pass 0 where the registers are in range. -/
def writeRingCtl (s : State) (n : Nat) (v : BitVec 32) : State :=
  let r := ring s n
  if r.en then setRing s n { r with en := v.getLsbD 0 }
  else
    let r1 := { r with clog2 := bits v.toNat 9 4, loc := v.getLsbD 1 }
    let ok := 4 ≤ r1.clog2 && r1.clog2 ≤ 12 && baseOk r1.loc r1.cbase && baseOk r1.loc r1.rbase
    if v.getLsbD 0 && ok then
      setRing s n { r1 with en := true, head := 0, tail := 0, seqExp := 0, oddPass := false, pre := [] }
    else setRing s n r1

/-- QB_RING_STATUS: FAULT and DB_ERR are W1C. -/
def writeRingStatus (s : State) (n : Nat) (v : BitVec 32) : State :=
  let r := ring s n
  setRing s n { r with fault := r.fault && !v.getLsbD 31, dbErr := r.dbErr && !v.getLsbD 30 }

/-- QB_RING_TAIL (R225, R410): TAIL is bits 11:0, and the bits above are ignored (R11, R247). -/
def writeTail (s : State) (n : Nat) (v : BitVec 32) : State :=
  let r := ring s n
  let tail := bits v.toNat 0 12
  if !r.en then s
  else if tail ≥ ringSize r then setRing s n { r with dbErr := true }
  else setRing s n { r with tail := tail }

/-- A 32-bit half of a base register: bits 31:12 of the low half. -/
def putHalf (b : BitVec 64) (hi : Bool) (v : BitVec 32) : BitVec 64 :=
  if hi then v ++ b.extractLsb' 0 32 else b.extractLsb' 32 32 ++ (v &&& 0xFFFFF000#32)

/-- QB_EVT_CTL: ELOG2 and LOC take effect while EN is 0, MOD and VECTOR at any time; enabling zeroes PROD and CONS. -/
def writeEvtCtl (s : State) (n : Nat) (v : BitVec 32) : State :=
  let e0 := evt s n
  let e := { e0 with mod := bits v.toNat 24 8, vector := bits v.toNat 13 11 }
  if e.en then setEvt s n { e with en := v.getLsbD 0 }
  else
    let e1 := { e with elog2 := bits v.toNat 1 5, loc := v.getLsbD 6 }
    if v.getLsbD 0 && 6 ≤ e1.elog2 && e1.elog2 ≤ 16 && baseOk e1.loc e1.base then
      setEvt s n { e1 with en := true, prod := 0, cons := 0 }
    else setEvt s n e1

/-- QB_EVT_CONS. -/
def writeCons (s : State) (n : Nat) (v : BitVec 32) : State := setEvt s n { evt s n with cons := v.toNat % 65536 }

/-- QB_EVT_STATUS: clearing OVERFLOW returns DROPPED to 0. -/
def writeEvtStatus (s : State) (n : Nat) (v : BitVec 32) : State :=
  if v.getLsbD 31 then setEvt s n { evt s n with overflow := false, dropped := 0 } else s

/-- A word written into a ring block. -/
def writeRingReg (s : State) (n off : Nat) (v : BitVec 32) : State :=
  let r := ring s n
  let e := evt s n
  match off with
  | 0x00 => writeRingCtl s n v
  | 0x04 => writeRingStatus s n v
  | 0x08 => writeTail s n v
  | 0x0C => writeCons s n v
  | 0x10 => if r.en then s else setRing s n { r with cbase := putHalf r.cbase false v }
  | 0x14 => if r.en then s else setRing s n { r with cbase := putHalf r.cbase true v }
  | 0x18 => if r.en then s else setRing s n { r with rbase := putHalf r.rbase false v }
  | 0x1C => if r.en then s else setRing s n { r with rbase := putHalf r.rbase true v }
  | 0x20 => if e.en then s else setEvt s n { e with base := putHalf e.base false v }
  | 0x24 => if e.en then s else setEvt s n { e with base := putHalf e.base true v }
  | 0x28 => writeEvtCtl s n v
  | 0x30 => writeEvtStatus s n v
  | _ => s

/-! ## The operator page (R92, R159, R334, R375, R404) -/

/-- VF_DOE_EN goes to 0: a message under way in a virtual function's mailbox is discarded with DOE Error, and the sessions of
that mailbox end (R410). -/
def closeDoe (s : State) : State :=
  let vf := fun (mb : Nat) => 1 ≤ mb && mb ≤ 31
  let busy := (s.spdm.conns.filter fun e => vf e.1 && !e.2.chunkIn.isEmpty).map (·.1)
  { s with
    cmd := { s.cmd with vfDoeEn := false }
    spdm := { s.spdm with
      doeErr := busy.foldl (fun m n => m ||| oneBit 32 n) s.spdm.doeErr
      conns := tmapAll {} s.spdm.conns fun k c => if vf k then { c with chunkIn := [], chunkNo := 0 } else c
      sessions := s.spdm.sessions.filter fun x => !busy.contains x.mb } }

/-- QB_CTL: TENANT_HOLD and VF_DOE_EN. -/
def writeCtl (s : State) (v : BitVec 32) : State :=
  let s1 := { s with cmd := { s.cmd with tenantHold := v.getLsbD 8 } }
  if v.getLsbD 1 then { s1 with cmd := { s1.cmd with vfDoeEn := true } }
  else if s1.cmd.vfDoeEn then closeDoe s1 else s1

/-- QB_ALARM_STATUS: SEEN is W1C. -/
def writeAlarm (s : State) (v : BitVec 32) : State :=
  { s with alarm := { s.alarm with seen := s.alarm.seen &&& ~~~ (v.extractLsb' 18 10) } }

/-- QB_LINK_STATUS: PEER_LOST and TAG_ALARM are W1C. -/
def writeLink (s : State) (p : Nat) (v : BitVec 32) : State :=
  let l := link s p
  setLink s p { l with peerLost := l.peerLost && !v.getLsbD 13, tagAlarm := l.tagAlarm && !v.getLsbD 12 }

/-- QB_MX_STATUS: ALARM is W1C. -/
def writeMx (s : State) (e : Nat) (v : BitVec 32) : State :=
  let m := mx s e
  setMx s e { m with alarm := m.alarm && !v.getLsbD 0 }

/-- A word written to the operator page. -/
def writeOp (s : State) (off : Nat) (v : BitVec 32) : State :=
  if off == 0x0004 then writeCtl s v
  else if off == 0x0180 then writeAlarm s v
  else if off == 0x0448 then { s with tel := { s.tel with sel := v.toNat % 32 } }
  else if 0x0800 ≤ off && off < 0x0840 then writeRingReg s 0 (off - 0x800) v
  else if 0x4000 ≤ off && off < 0x4900 && off % 0x40 == 0 then writeLink s ((off - 0x4000) / 0x40) v
  else if 0x6000 ≤ off && off < 0x7000 && off % 0x200 == 0 then writeMx s ((off - 0x6000) / 0x200) v
  else s

/-- A word written to a page. -/
def writePage (s : State) (pg : Page) (off : Nat) (v : BitVec 32) : State :=
  match pg with
  | .operator => writeOp s off v
  | .tarn => s
  | .tenant n => if 0x100 ≤ off && off < 0x140 then writeRingReg s n.val (off - 0x100) v else s
  | .rest => s

/-- An access that writes: `f` is its effect. -/
def onWrite (s : State) (a : Acc) (pg : Page) (f : State → State) : Result :=
  if s.boot.inReset then .next s
  else match admitAcc s a pg with
    | .yes => .next (if pagesOpen s then f s else s)
    | .no => .next s
    | .ur flt => .next (urAcc s a.pid.val flt)

/-- Aligned words that a write covers wholly, in ascending order: offset, value (R401). -/
def wordsOf (off : Nat) (b : Bytes) : List (Nat × BitVec 32) :=
  let first := (off + 3) / 4 * 4
  let n := (off + b.length - first) / 4
  (List.range n).map fun i => (first + 4 * i, BitVec.ofNat 32 (le b (first + 4 * i - off) 4))

/-- REGISTER_WRITE. -/
def execRegisterWrite (a : Acc) (pg : Page) (off : Nat) (b : Bytes) (s : State) : Result :=
  onWrite s a pg fun s => (wordsOf off b).foldl (fun s e => writePage s pg e.1 e.2) s

/-- QB_RING_TAIL_WRITE. -/
def execQbRingTailWrite (a : Acc) (fn : Pid) (v : BitVec 32) (s : State) : Result :=
  onWrite s a (fnPage fn) fun s => writeTail s fn.val v

/-- QB_RING_CTL_EN_SET. -/
def execQbRingCtlEnSet (a : Acc) (fn : Pid) (v : BitVec 32) (s : State) : Result :=
  onWrite s a (fnPage fn) fun s => writeRingCtl s fn.val (v ||| 1)

/-- QB_RING_CTL_EN_CLEAR. -/
def execQbRingCtlEnClear (a : Acc) (fn : Pid) (v : BitVec 32) (s : State) : Result :=
  onWrite s a (fnPage fn) fun s => writeRingCtl s fn.val (v &&& ~~~ 1#32)

/-- QB_RING_STATUS_CLEAR. -/
def execQbRingStatusClear (a : Acc) (fn : Pid) (v : BitVec 32) (s : State) : Result :=
  onWrite s a (fnPage fn) fun s => writeRingStatus s fn.val v

/-- QB_EVT_CTL_EN_SET. -/
def execQbEvtCtlEnSet (a : Acc) (fn : Pid) (v : BitVec 32) (s : State) : Result :=
  onWrite s a (fnPage fn) fun s => writeEvtCtl s fn.val (v ||| 1)

/-- QB_EVT_CTL_EN_CLEAR. -/
def execQbEvtCtlEnClear (a : Acc) (fn : Pid) (v : BitVec 32) (s : State) : Result :=
  onWrite s a (fnPage fn) fun s => writeEvtCtl s fn.val (v &&& ~~~ 1#32)

/-- QB_EVT_CONS_WRITE. -/
def execQbEvtConsWrite (a : Acc) (fn : Pid) (v : BitVec 32) (s : State) : Result :=
  onWrite s a (fnPage fn) fun s => writeCons s fn.val v

/-- QB_EVT_STATUS_CLEAR. -/
def execQbEvtStatusClear (a : Acc) (fn : Pid) (v : BitVec 32) (s : State) : Result :=
  onWrite s a (fnPage fn) fun s => writeEvtStatus s fn.val v

/-- TENANT_HOLD_WRITE: a write of QB_CTL. -/
def execTenantHoldWrite (a : Acc) (v : BitVec 32) (s : State) : Result :=
  onWrite s a .operator fun s => writeCtl s v

/-- VF_DOE_EN_WRITE: a write of QB_CTL. -/
def execVfDoeEnWrite (a : Acc) (v : BitVec 32) (s : State) : Result :=
  onWrite s a .operator fun s => writeCtl s v

/-- QB_ALARM_STATUS_CLEAR. -/
def execQbAlarmStatusClear (a : Acc) (v : BitVec 32) (s : State) : Result :=
  onWrite s a .operator fun s => writeAlarm s v

/-- QB_LINK_STATUS_CLEAR. -/
def execQbLinkStatusClear (a : Acc) (p : Port) (v : BitVec 32) (s : State) : Result :=
  onWrite s a .operator fun s => writeLink s p.val v

/-- QB_MX_STATUS_CLEAR. -/
def execQbMxStatusClear (a : Acc) (e : Eng) (v : BitVec 32) (s : State) : Result :=
  onWrite s a .operator fun s => writeMx s e.val v

/-! ## Reads that change the state -/

/-- QB_TARN_TIME_LO is read by the physical function: its latch takes the high word (R396, R409). -/
def latchTarn (s : State) : State := { s with tarn := { s.tarn with hiOper := BitVec.ofNat 32 (hi32 (now s)) } }

/-- A read of QB_TARN_TIME_LO at the register port: the low word, and the operator's latch of the high word (R396). -/
def readTarnLo (s : State) (a : Acc) : State :=
  if admitAcc s a .tarn != .yes then emit s (.regRead 0 (zeros 4))
  else emit (latchTarn s) (.regRead 0 (leBytes 4 (lo32 (now s))))

/-- QB_TARN_TIME_LO_READ: by the SCU with its own latch, or at the register port (R396, R409). -/
def execQbTarnTimeLoRead (scu : Bool) (a : Acc) (s : State) : Result :=
  if scu then
    .next (if s.boot.scuUp then
      emit { s with tarn := { s.tarn with hiScu := BitVec.ofNat 32 (hi32 (now s)) } } (.regRead 0 (leBytes 4 (lo32 (now s))))
      else s)
  else .next (readTarnLo s a)

/-- A read of QB_LINK_TXSEQ_LO samples the SEQ of the last frame sent for QB_LINK_TXSEQ_HI (R94, R407). -/
def sampleSeq (s : State) (pg : Page) (off : Nat) : State :=
  if pg == .operator && 0x4000 ≤ off && off < 0x4900 && off % 0x40 == 0x24 then
    let p := (off - 0x4000) / 0x40
    { s with ridge := { s.ridge with
      txSample := tset 0 s.ridge.txSample p (BitVec.ofNat 32 (hi32 (link s p).lastSeq.toNat)) } }
  else s

/-- Words of a window that a read covers. -/
def coverWords (off len : Nat) : List Nat := (List.range 24).filter fun i => off < 4 * i + 4 && 4 * i < off + len

/-- The bytes of a window. -/
def windowBytes (w : Window) : Bytes := ((List.range 24).map fun i => leBytes 4 (windowWord w i)).flatten

/-- A read of a read-once window: the bytes as they stood, and every word that the read covers is taken (R235, R401). -/
def readWindow (s : State) (a : Acc) (fn : Pid) (off len : Nat) : State :=
  match admitAcc s a (fnPage fn) with
  | .ur flt => urAcc s a.pid.val flt
  | .no => emit s (.regRead off (zeros len))
  | .yes =>
    if !pagesOpen s then emit s (.regRead off (zeros len))
    else
      let w := window s fn.val
      emit (fillWindow s fn.val ((coverWords off len).foldl takeWord w)) (.regRead off (slice (windowBytes w) off len))

/-- READ_ONCE_WINDOW_READ. -/
def execReadOnceWindowRead (a : Acc) (fn : Pid) (off len : Nat) (s : State) : Result := .next (readWindow s a fn off len)

/-- Where the read-once window of a page stands (R249). -/
def windowBase : Page → Nat
  | .operator => 0x880
  | _ => 0x180

/-- A word of a page that is one of its read-once window. -/
def inWindowPage (pg : Page) (off : Nat) : Bool := windowBase pg ≤ off && off < windowBase pg + 0x60

/-- The aligned words that a read of `len` bytes covers, in ascending order (R401). -/
def readWords (off len : Nat) : List Nat := (span (off / 4) ((off + len + 3) / 4 - off / 4)).map (4 * ·)

/-- What the read of a word loads before the word is shown: the latch of QB_TARN_TIME_HI, the sample of QB_LINK_TXSEQ_HI. In
a read of both halves the high one is thus of the same read (R401, R407; DEDUCED, log entry 111). -/
def loadRead (pg : Page) (s : State) (off : Nat) : State :=
  if pg == .tarn then (if off == 0 then latchTarn s else s) else sampleSeq s pg off

/-- What the read of a word takes: a word of a read-once window that is shown (R235). -/
def takeShown (pg : Page) (s : State) (off : Nat) : State :=
  let n := match pg with
    | .tenant n => n.val
    | _ => 0
  if pg != .tarn && pg != .rest && inWindowPage pg off && pagesOpen s then
    fillWindow s n (takeWord (window s n) ((off - windowBase pg) / 4))
  else s

/-- An admitted read of `len` bytes of a page: one snapshot of the words it covers, of which the bytes asked for are
returned; each word covered counts as read whole (R401). -/
def readPage (s : State) (pg : Page) (off len : Nat) : State :=
  let ws := readWords off len
  let s1 := ws.foldl (loadRead pg) s
  let b := ws.flatMap fun w => leBytes 4 (pageWord s1 pg w)
  emit (ws.foldl (takeShown pg) s1) (.regRead off (slice b (off % 4) len))

/-! ## Telemetry (R327, R328) -/

/-- Confidential partitions that are not FREE. -/
def confPids (s : State) : List Nat := (s.part.parts.filter fun e => e.2.state != .free && e.2.conf).map (·.1)

/-- Latch the counters of a confidential partition, divided by 4096. -/
def latchPid (s : State) (pid : Nat) : State :=
  { s with tel := { s.tel with
    latched := (List.range 8).foldl (fun t i => tset 0 t (pid * 8 + i) (telCount s pid i / 4096)) s.tel.latched
    latchNo := tmod 0 s.tel.latchNo pid fun n => (n + 1) % 65536 } }

/-- TEL_LATCH: at each Tarn millisecond. -/
def execTelLatch (s : State) : Result :=
  let ms := now s / 1000
  .next (if !s.boot.rdy || s.tel.latchAt == ms + 1 then s
    else (confPids s).foldl latchPid { s with tel := { s.tel with latchAt := ms + 1 } })

/-- The average of samples in units of 0.25 W, to the nearest 5 W. -/
def power5 (raw : List (BitVec 16)) : Nat :=
  let sum := (raw.map (·.toNat)).sum
  if raw.isEmpty then 0 else min 255 ((sum + 10 * raw.length) / (20 * raw.length))

/-- TEL_POWER_WINDOW. -/
def execTelPowerWindow (raw : List (BitVec 16)) (s : State) : Result :=
  .next (if s.boot.rdy then
    { s with tel := { s.tel with power := power5 raw, window := (s.tel.window + 1) % 65536 } } else s)

/-- MSIX_MODERATION_EXPIRY: a deferred interrupt is raised once the vector's interval is over (R237). -/
def execMsixModerationExpiry (fn : Pid) (vector : BitVec 11) (s : State) : Result :=
  let k := fn.val * 2048 + vector.toNat
  let m := tget ({} : Moder) s.cmd.msix k
  .next (if m.deferred && m.last + (evt s fn.val).mod ≤ now s then
    sendVec { s with cmd := { s.cmd with
      msix := tset {} s.cmd.msix k { last := now s, raised := true, deferred := false } } } fn.val vector.toNat
    else s)

end Sys2Proof.Machine
end

