-- ==== Sys2Proof/Machine/CmdGen.lean ====
section
/-! DEFINITION. PART_TEARDOWN, the scheduler's stops, generation advances, host functions and their TDIs
(02, 05 R124, 07 R202 to R214). -/

namespace Sys2Proof.Machine

/-! ## PART_TEARDOWN (R46, R214) -/

/-- A peer entry whose binding is pending is left with VALID 0 (R46). -/
def endBinds (s : State) (pid : Nat) : State :=
  s.cmd.waits.foldl (fun s w => match w.kind with
    | .peerBind p node _ => if p == pid then setPeer s p node { peer s p node with valid := false } else s
    | _ => s) s

/-- PART_TEARDOWN: a kill is withdrawn, and the advance is asked for (R46, R214 step 1). -/
def runTeardown (s : State) (t : Ticket) (_ : Pkt) (_ : List ReadIn) : Res :=
  let pid := tagPid t.ptag
  if !active s pid then .fail .errState
  else
    let s1 := withdrawKill (setPart s pid { part s pid with state := .tearing }) pid
    let s2 := { s1 with part := { s1.part with tears := s1.part.tears ++ [(pid, {})] } }
    .wait (askAdvance s2 pid .teardown) pid (.teardown pid 0 0 0)

/-- The PID's other commands stop once the generation has advanced (R46 step 2): what a stream or an import still does ends
with it, and each completes with ERR_LOST. -/
def endOthers (s : State) (pid : Nat) : State :=
  let other := fun w : Wait => w.pid == pid && (match w.kind with | .teardown .. => false | _ => true)
  let s1 := { s with wb := { s.wb with
    streams := s.wb.streams.filter fun x => x.pid != pid, imports := s.wb.imports.filter fun m => m.pid != pid } }
  let s2 := finishWaits (endBinds s1 pid) other .errLost
  dropSent s2 fun w => match w with
    | .bind p _ => p == pid
    | .setkey n => s.wb.imports.any fun m => m.num == n && m.pid == pid
    | _ => false

/-- PART_TEARDOWN (0x14). -/
def opTeardown : Op where
  opcode := 0x14
  fast := true
  rings := opOnly
  pre := notSystem
  run := runTeardown

/-- PART_TEARDOWN. -/
def execPartTeardown (c : Cmd) (s : State) : Result := .next (issue opTeardown s c)

/-- TEARDOWN_DRAINED: requests granted before the advance have completed (R214 steps 5 to 8). -/
def execTeardownDrained (pid : Pid) (s : State) : Result :=
  match tearOf s pid.val with
  | some t => if t.cleared && tornDrained s pid.val then .next (endTear s pid.val) else .next s
  | none => .next s

/-- SCHED_STOP_ACK: the command of a context has stopped (R208, R211, R214). -/
def execSchedStopAck (h : BitVec 32) (s : State) : Result :=
  let i := ctxIdx h
  let c := ctx s i
  if ctxMatch s h && c.stopping then
    .next (clearTorn (killStops (setCtx s i { c with stopping := false, phase := .none }) c.pid) c.pid)
  else .next s

/-- The first advance that waits for a PID. -/
def nextAdvance (s : State) (pid : Nat) : Option GenWhy := (s.part.genWait.find? fun g => g.1 == pid).map (·.2)

/-- GEN_ADVANCE (R41): at most one advance of a PID in each Tarn microsecond. -/
def execGenAdvance (pid : Pid) (s : State) : Result :=
  match nextAdvance s pid.val with
  | none => .next s
  | some w =>
    if tget 0 s.part.genAt pid.val == now s + 1 then .next s
    else
      let s1 := { s with part := { s.part with genWait := dropFirst (fun g => g.1 == pid.val) s.part.genWait } }
      let s2 := advance s1 pid.val
      match w with
      | .reset => .next (endReset s2 pid.val)
      | .kill => match killOf s2 pid.val with
        | some k => .next (retryHeld (endKill s2 pid.val k))
        | none => .next s2
      | .teardown =>
        .next (clearTorn (setTear (stopAll (endOthers s2 pid.val) pid.val) pid.val { advanced := true }) pid.val)

/-! ## Host functions (R124, R204, R212, R213) -/

/-- VF_FLR (R212): a reset of a virtual function; the physical function is none. -/
def execVfFlr (vf : Pid) (s : State) : Result :=
  if vf.val == 0 then .next s else .next (resetFn s vf.val .unlocked)

/-- A TLP of a TDI in RUN comes on its selective stream with the T bit; any other comes on no stream that a tenant's
TDI is bound to (R14, R204). -/
def streamFits (s : State) (t : Tlp) : Bool :=
  let d := tdi s t.fn.val
  if t.fn != 0 && d.state == .run then t.tbit && t.stream.isSome && t.stream.map (·.val) == d.stream
  else !tenantStream s (t.stream.map (·.val))

/-- The PID that a TLP is stamped with (R14, R124). -/
def stampOf (s : State) (t : Tlp) : Option Nat :=
  let fn := t.fn.val
  if !streamFits s t then none
  else if fn == 0 then some 0
  else if active s fn && (!(part s fn).conf || (tdi s fn).state == .run) then some fn else none

/-- The host IDE engine opens a TLP of a stream under the key in use of its sub-stream (R5, R14, R203): what arrived has
that key's MAC and decrypts to the bytes of this TLP. Form, encryption and MAC are PCIe's (PRESUMED, log entry 82). -/
def ideOpens (s : State) (t : Tlp) (i : IdeTlp) : Bool :=
  match t.stream with
  | none => true
  | some k => match ideInUse s k.val ⟨i.sub, false⟩ with
    | some key =>
      let n := ideUsed s k.val ⟨i.sub, false⟩
      i.mac == Config.ideMac key i.sub.val n i.bytes && i.bytes == Config.ideSeal key i.sub.val n (Config.tlpIn t)
    | none => false

/-- The slot of the key that would open a TLP fails its check (R259): the state with the failure marked. -/
def ideBad (s : State) (t : Tlp) (i : IdeTlp) : Option State :=
  match t.stream with
  | none => none
  | some k => (ideSlot s k.val ⟨i.sub, false⟩).bind fun j => readBad s [j]

/-- An opened TLP is counted under its key. -/
def ideTaken (s : State) (t : Tlp) (i : IdeTlp) : State :=
  match t.stream with
  | some k => ideCount s k.val ⟨i.sub, false⟩
  | none => s

/-- A TLP takes its TDI to ERROR (R204). -/
def tlpFaults (s : State) (t : Tlp) : Bool :=
  let d := tdi s t.fn.val
  (d.state == .locked || d.state == .run) &&
  ((t.cfg && d.lockMsix) || (t.stream.isSome && t.stream.map (·.val) == d.stream && !t.tbit))

/-- A stamped TLP that reaches device memory is a request of master port 0xC0. -/
def tlpRequest (s : State) (t : Tlp) (pid : Nat) : State :=
  match t.req with
  | none => s
  | some r =>
    let r1 := { r with pid := Fin.ofNat 32 pid, gen := curGen s pid, mport := 0xC0, ctx := 0 }
    (present s { req := r1 }).getD s

/-- The data of a register read leaves as a completion of the function that read (R14). -/
def tlpReads (t : Tlp) (s1 : State) : State :=
  match s1.out with
  | .regRead off b :: _ => sendTlp s1 t.fn.val 2 off b
  | _ => s1

/-- A TLP that reads `len` bytes of BAR0 (R398 to R402); outside the block's pages none of it is the block's. -/
def tlpRead (s : State) (t : Tlp) (a len : Nat) : State :=
  match barPlace t.fn a with
  | none => s
  | some (pg, off) => match admitAcc s { mport := 0xC0, pid := t.fn, tbit := t.tbit, stream := t.stream } pg with
  | .ur flt => urAcc s t.fn.val flt
  | .no => tlpReads t (emit s (.regRead off (zeros len)))
  | .yes => tlpReads t (readPage s pg off len)

/-- A TLP that writes an address association register of the physical function (R203). -/
def tlpAssoc (s : State) (t : Tlp) : State :=
  match t.assoc with
  | some (k, b, l) => if t.fn == 0 then setIde s k.val { ide s k.val with assoc := some (b, l) } else s
  | none => s

/-- A completion (R213): one of an old generation is discarded, as is one that came by a stream not its own (R14). -/
def tlpCompletion (s : State) (t : Tlp) (g : BitVec 11) : State :=
  let n := t.fn.val
  emit s (if (n != 0 && g != curGen s n) || !streamFits s t then .tlpDrop n else .tlp n n)

/-- A request that has been opened (R124): stamped, or completed as an Unsupported Request where it would reach device
memory. -/
def tlpRequested (s : State) (t : Tlp) : State :=
  let n := t.fn.val
  match stampOf s t with
  | some pid => if t.toMem then tlpRequest (emit s (.tlp n pid)) t pid else tlpAssoc (emit s (.tlp n pid)) t
  | none => emit s (if t.toMem then .tlpUr n else .tlpDrop n)

/-- HOST_TLP (R14, R124, R204, R213): a TLP that its stream's key does not open is discarded; one that R204 names takes
its TDI to ERROR. -/
def execHostTlp (t : Tlp) (i : IdeTlp) (s : State) : Result :=
  let n := t.fn.val
  match ideBad s t i with
  | some s1 => .next (emit s1 (.tlpDrop n))
  | none =>
  if !ideOpens s t i then .next (emit s (.tlpDrop n))
  else
    let s0 := ideTaken s t i
    let s1 := if tlpFaults s0 t then tdiFault s0 n else s0
    match t.cpl, t.reg with
    | some g, _ => .next (tlpCompletion s1 t g)
    | none, some (a, len) => .next (tlpRead s1 t a len)
    | none, none => .next (tlpRequested s1 t)

/-! ## TDISP (R204, R305) -/

/-- A secure session is open on the physical function's mailbox (R305). -/
def pfSession (s : State) : Bool := s.spdm.sessions.any fun x => x.mb == 0 && x.ready

/-- A TDISP or IDE_KM response. -/
def doeRsp (s : State) (code : BitVec 8) (b : Bytes) : State := emit s (.doe 0 code b)

/-- A TDISP error (codes PRESUMED, log entry 13). -/
def tdispErr (s : State) (code : Nat) : State := doeRsp s 0x7F (leBytes 4 code)

/-- A TDISP request about a virtual function, inside a session of the physical function's mailbox. -/
def tdispOn (s : State) (vf : Pid) (f : Nat → State) : Result :=
  if !(s.boot.rdy && s.boot.scuUp) then .next s
  else if !pfSession s then .next (tdispErr s 0x01)
  else if vf.val == 0 then .next (tdispErr s 0x101)
  else .next (f vf.val)

/-- LOCK_INTERFACE_REQUEST. -/
def execLockInterfaceRequest (vf : Pid) (k : Fin 16) (bindP2p lockMsix noFwUpdate : Bool) (s : State) : Result :=
  tdispOn s vf fun n =>
    if (tdi s n).state != .unlocked then tdispErr s 0x04
    else if !active s n || !(part s n).conf || !ideReady s k.val || bindP2p then tdispErr s 0x01
    else if s.keys.entFailed then tdispErr s 0x103
    else
      let r := draw s
      let t : TdiSt := { state := .locked, stream := some k.val, nonce := r.2, lockMsix := lockMsix
                         noFwUpdate := noFwUpdate }
      doeRsp (setTdi r.1 n t) 0x03 (keyBytes r.2)

/-- START_INTERFACE_REQUEST. -/
def execStartInterfaceRequest (vf : Pid) (nonce : BitVec 256) (s : State) : Result :=
  tdispOn s vf fun n =>
    let t := tdi s n
    if t.state != .locked then tdispErr s 0x04
    else if t.nonce != nonce then tdispErr s 0x102
    else doeRsp (setTdi s n { t with state := .run }) 0x06 []

/-- STOP_INTERFACE_REQUEST: as a function reset, with the response once it is complete (R212). -/
def execStopInterfaceRequest (vf : Pid) (s : State) : Result :=
  tdispOn s vf fun n =>
    if (tdi s n).state == .unlocked then doeRsp s 0x07 []
    else
      let s1 := resetFn s n .unlocked
      { s1 with part := { s1.part with stopDue := s1.part.stopDue ++ [n] } }

/-- GET_TDISP_VERSION: version 1.0. -/
def execGetTdispVersion (vf : Pid) (s : State) : Result := tdispOn s vf fun _ => doeRsp s 0x01 [1, 0x10]

/-- GET_TDISP_CAPABILITIES: the requests of R204, by their codes. -/
def execGetTdispCapabilities (vf : Pid) (s : State) : Result :=
  tdispOn s vf fun _ => doeRsp s 0x02 [0x81, 0x82, 0x83, 0x84, 0x85, 0x86, 0x87]

/-- GET_DEVICE_INTERFACE_REPORT: one MMIO range, the tenant page; PTAG, CTAG, CONF and the tile-clear record. -/
def execGetDeviceInterfaceReport (vf : Pid) (s : State) : Result :=
  tdispOn s vf fun n =>
    if (tdi s n).state == .unlocked || (tdi s n).state == .error then tdispErr s 0x04
    else doeRsp s 0x04 (leBytes 4 4096 ++ leBytes 2 (curTag s n).toNat ++ leBytes 2 (part s n).ctag.toNat ++
      leBytes 1 (b2n (part s n).conf) ++ tileRecord (part s n))

/-- GET_DEVICE_INTERFACE_STATE. -/
def execGetDeviceInterfaceState (vf : Pid) (s : State) : Result :=
  tdispOn s vf fun n => doeRsp s 0x05 (leBytes 1 (tdiCode (tdi s n).state))

/-- BIND_P2P_STREAM, UNBIND_P2P_STREAM, SET_MMIO_ATTRIBUTE, VDM: UNSUPPORTED_REQUEST. -/
def execTdispUnsupportedRequest (vf : Pid) (_ : BitVec 8) (s : State) : Result :=
  tdispOn s vf fun _ => tdispErr s 0x07

/-! ## IDE_KM (R203, R305) -/

/-- An IDE_KM request inside a session of the physical function's mailbox. -/
def ideOn (s : State) (f : State) : Result :=
  if !(s.boot.rdy && s.boot.scuUp) then .next s
  else if !pfSession s then .next (tdispErr s 0x01)
  else .next f

/-- The IDE features of R203 as the IDE capability register gives them (bit places PRESUMED, log entry 82): link stream,
selective streams, PCRC, IDE_KM, TEE-limited streams, and 16 selective streams; flow-through, partial header encryption,
aggregation and configuration requests absent. -/
def ideCap : Nat := 1 + 2 ^ 1 + 2 ^ 5 + 2 ^ 6 + 2 ^ 24 + 15 * 2 ^ 16

/-- IDE_KM QUERY: stream, whether it is the link stream, the features, the address association register. -/
def execIdeKmQuery (k : Fin 17) (s : State) : Result :=
  let a := (ide s k.val).assoc
  ideOn s (doeRsp s 0x01 (leBytes 1 k.val ++ leBytes 1 (b2n (k.val == 16)) ++ leBytes 4 ideCap ++
    leBytes 1 (b2n a.isSome) ++ leBytes 8 (a.getD (0, 0)).1.toNat ++ leBytes 8 (a.getD (0, 0)).2.toNat))

/-- IDE_KM KEY_PROG: the key goes into its slot, or into a free one where it has none or its own has gone BAD (R257, R259,
R261); no free slot is a failure status. -/
def execIdeKmKeyProg (k : Fin 17) (x : IdeKey) (key : Key) (s : State) : Result :=
  let pol := policy .ide .hostIde 0 0 0
  let cur := ideSlot s k.val x
  let old := cur.filter fun i => !(slot s i).bad
  match old, freeSlots s with
  | some i, _ => ideOn s (doeRsp (writeRaw s i key pol) 0x03 [0])
  | none, [] => ideOn s (doeRsp s 0x03 [4])
  | none, i :: _ =>
    let st := ide s k.val
    let st1 := { st with keys := (st.keys.filter fun e => e.1 != x) ++ [(x, i)] }
    let s1 := match cur with
      | some j => clearSlot s j
      | none => s
    ideOn s (doeRsp (setIde (writeRaw s1 i key pol) k.val st1) 0x03 [0])

/-- IDE_KM K_SET_GO: a programmed key set comes into use. -/
def execIdeKmKSetGo (k : Fin 17) (x : IdeKey) (s : State) : Result :=
  let st := ide s k.val
  if (ideSlot s k.val x).isNone then ideOn s (doeRsp s 0x06 [4])
  else
    let s1 := if st.go.contains x then s else ideFresh (setIde s k.val { st with go := st.go ++ [x] }) k.val x
    ideOn s (doeRsp s1 0x06 [0])

/-- IDE_KM K_SET_STOP: the key leaves its slot; TDIs locked to the stream enter ERROR. -/
def execIdeKmKSetStop (k : Fin 17) (x : IdeKey) (s : State) : Result :=
  let st := ide s k.val
  let s1 := match ideSlot s k.val x with
    | some i => clearSlot s i
    | none => s
  let s2 := ideFresh (setIde s1 k.val { st with
    keys := st.keys.filter fun e => e.1 != x, go := st.go.filter (fun e => e != x) }) k.val x
  ideOn s (doeRsp ((tdisOn s2 k.val).foldl tdiFault s2) 0x06 [0])

end Sys2Proof.Machine
end

