-- ==== Sys2Proof/Machine/CmdPair.lean ====
section
/-! DEFINITION. RANGE_PAIR and the timers of a paired range (13 R370 to R372). -/

namespace Sys2Proof.Machine

/-! ## Messages (R371) -/

/-- The 64 KiB area lies in pages of PID 0 that the SCU's master port may read and write. -/
def pairArea (s : State) (base : Nat) : Bool :=
  scuReadable s base 65536 &&
  spanAll (pageOf base) (pageOf (base + 65535) - pageOf base + 1) fun p => (pot s p).rights.getLsbD rTWR

/-- What the two messages share: the fields up to the certificates. -/
def pairHead (s : State) (magic : String) (peerHash nonce ecpub kem confirm : Bytes) : Bytes :=
  let r := s.range
  asc magic ++ [1] ++ leBytes 1 (lcsCode s.fuse.lcs) ++ leBytes 1 (b2n r.test) ++ [0] ++ leBytes 8 r.rangeId.toNat ++
  leBytes 4 r.epoch.toNat ++ leBytes 2 r.nodeId ++ zeros 2 ++ sha r.afs ++ slice peerHash 0 48 ++ slice nonce 0 32 ++
  slice ecpub 0 97 ++ slice kem 0 1568 ++ slice confirm 0 16 ++ zeros 7

/-- Append certificates and signatures. -/
def pairSeal (s : State) (head : Bytes) : Bytes :=
  let c := certs s
  let b := head ++ leBytes 4 c.length ++ c
  b ++ aliasSign s (asc "QBPAIR") b

/-- CERT_LEN and the certificates of a message. -/
def pairCerts (b : Bytes) : Bytes := slice b 1844 (le b 1840 4)

/-- Layout, MAGIC of the step, reserved bytes, and a range that is not this one. -/
def pairLayout (s : State) (offer : Bool) (b : Bytes) : Bool :=
  b.length == 1844 + le b 1840 4 + 4723 && decide (b.length ≤ 32768) &&
  slice b 0 4 == asc (if offer then "QPOF" else "QPAC") && le b 4 1 == 1 && decide (le b 6 1 ≤ 1) && le b 7 1 == 0 &&
  le b 22 2 == 0 && le b 1833 7 == 0 && (!offer || (le b 72 48 == 0 && le b 1817 16 == 0)) &&
  le b 8 8 != s.range.rangeId.toNat

/-- Chains and signatures. -/
def pairSigned (b : Bytes) : Bool :=
  Config.chainOk (pairCerts b) && aliasVerify (pairCerts b) (asc "QBPAIR") (b.take (b.length - 4723)) (b.drop (b.length - 4723))

/-- The partner's life-cycle state, TEST and firmware. -/
def pairAttested (s : State) (b : Bytes) : Bool :=
  let test := le b 6 1 == 1
  (le b 5 1 == 2 || (le b 5 1 == 1 && test && s.range.test)) && test == s.range.test &&
  inAfs s (Config.chainM (pairCerts b))

/-- The checks that both messages share, in their order. -/
def pairCheck (s : State) (offer : Bool) (b : Bytes) : Option Status :=
  if !pairLayout s offer b then some .errParam
  else if !pairSigned b then some .authFail
  else if !pairAttested s b then some .errUnattested
  else none

/-- Pair key and key confirmation from an offer, the accept up to its KEM, and the two secrets. -/
def pairKeys (offer accept zec zkem : Bytes) : Key × Bytes :=
  let t := sha (offer ++ accept.take 1817)
  (keyOf (hkdf t (zec ++ zkem) (asc "pair") 32), hkdf t (zec ++ zkem) (asc "pair-confirm") 16)

/-- Command forms of a Summit in MEMBER. -/
def pairState (s : State) : Bool := isSummit s && s.range.memb == .member

/-- The pairing stands: the pair key is held and goes to the members, and the state stream begins (R371). -/
def setPaired (s : State) (k : Key) (peer : BitVec 64) (base : Nat) : State :=
  let s1 := writeSlot s 7 k pairPolicy
  let r := s1.range
  let s2 := { s1 with range := { r with
    paired := true
    pair := { base := base, peer := peer, heardAt := now s, sentAt := now s, polledAt := now s } } }
  (others s2 (nodes s2)).foldl sendPairKey s2

/-! ## OFFER, ACCEPT, UNPAIR -/

/-- RANGE_PAIR OFFER. -/
def runPairOffer (s0 : State) (_ : Ticket) (p : Pkt) (_ : List ReadIn) : Res :=
  let s := idKeys s0
  let base := parm p 16 48
  if !pairState s || s.range.paired || s.keys.entFailed then .fail .errState
  else
    let n := draw s
    let e := drawEc n.1
    let k := drawKem e.1
    let b := pairSeal s (pairHead s "QPOF" [] (keyBytes n.2) (Config.ecPub e.2) (Config.kemPub k.2) [])
    let o : Offer := { seed := e.2, kem := k.2, hash := BitVec.ofNat 384 (beNat (sha b)), bytes := b, at_ := now s }
    let s1 := k.1
    .ok (memPut { s1 with range := { s1.range with pair := { s1.range.pair with offer := some o } } } 0 base b)
      (resultOf [(8, b.length)])

/-- RANGE_PAIR (0x05) OFFER. -/
def opPairOffer : Op where
  opcode := 0x05
  named := [(16, 0, 48)]
  whole _ := true
  rings := opOnly
  pre s _ p := if pairArea s (parm p 16 48) then none else some .errPerm
  run := runPairOffer

/-- RANGE_PAIR OFFER. -/
def execRangePairOffer (c : Cmd) (s : State) : Result := .next (issue opPairOffer s c)

/-- ACCEPT of a partner's offer: the accept message is written. -/
def acceptOffer (s0 : State) (base : Nat) (b : Bytes) : Res :=
  let s := idKeys s0
  if !Config.ecValid (slice b 152 97) then .fail .authFail
  else
    let n := draw s
    let e := drawEc n.1
    let r := draw e.1
    let c := Config.kemEncap (slice b 249 1568) r.2
    let head := fun (conf : Bytes) => pairHead s "QPAC" (sha b) (keyBytes n.2) (Config.ecPub e.2) c.1 conf
    let k := pairKeys b (head []) (slice (Config.ecdh e.2 (slice b 152 97)) 0 48) (slice c.2 0 32)
    let a := pairSeal s (head k.2)
    let s1 := r.1
    .ok (setPaired (memPut s1 0 base a) k.1 (BitVec.ofNat 64 (le b 8 8)) base)
      (resultOf [(8, le b 8 8), (16, a.length)])

/-- The pairing fails: the offer's ephemeral keys are destroyed (R371; DEDUCED, log entry 115). -/
def pairFails (s : State) : Res :=
  .failWith .authFail 0 { s with range := { s.range with pair := { s.range.pair with offer := none } } }

/-- ACCEPT of the answer to this Summit's own offer. -/
def acceptAnswer (s : State) (base : Nat) (o : Offer) (b : Bytes) : Res :=
  if BitVec.ofNat 384 (beNat (slice b 72 48)) != o.hash || !Config.ecValid (slice b 152 97) then pairFails s
  else match Config.kemDecap o.kem (slice b 249 1568) with
    | none => pairFails s
    | some z =>
      let k := pairKeys o.bytes b (slice (Config.ecdh o.seed (slice b 152 97)) 0 48) (slice z 0 32)
      if slice b 1817 16 != k.2 then pairFails s
      else .ok (setPaired s k.1 (BitVec.ofNat 64 (le b 8 8)) base) (resultOf [(8, le b 8 8)])

/-- RANGE_PAIR ACCEPT: the read delivers the partner's message. -/
def runPairAccept (s : State) (_ : Ticket) (p : Pkt) (m : List ReadIn) : Res :=
  let base := parm p 16 48
  let len := parm p 22 16
  if !pairState s || s.range.paired then .fail .errState
  else match firstRead m len with
    | none => .fail .errIntegrity
    | some b => match pairCheck s s.range.pair.offer.isNone b with
      | some st => .fail st
      | none => match s.range.pair.offer with
        | some o => acceptAnswer s base o b
        | none => if s.keys.entFailed then .fail .errState else acceptOffer s base b

/-- RANGE_PAIR (0x05) ACCEPT. -/
def opPairAccept : Op where
  opcode := 0x05
  form := 1
  named := [(16, 0, 48), (22, 0, 16)]
  whole _ := true
  rings := opOnly
  pre s _ p :=
    if parm p 22 16 > 32768 then some .errParam else if pairArea s (parm p 16 48) then none else some .errPerm
  reads s _ p _ := if pairState s && !s.range.paired then [{ off := parm p 16 48, len := parm p 22 16 }] else []
  run := runPairAccept

/-- RANGE_PAIR ACCEPT. -/
def execRangePairAccept (c : Cmd) (s : State) : Result := .next (issue opPairAccept s c)

/-- RANGE_PAIR UNPAIR: the pair key goes; the next advance clears PAIRED. -/
def runUnpair (s : State) (_ : Ticket) (_ : Pkt) (_ : List ReadIn) : Res :=
  if !pairState s then .fail .errState
  else
    let s1 := clearSlot s 7
    .ok { s1 with range := { s1.range with pair := { s1.range.pair with clearing := s1.range.paired } } }

/-- RANGE_PAIR (0x05) UNPAIR. -/
def opUnpair : Op where
  opcode := 0x05
  form := 2
  named := [(16, 0, 48)]
  whole _ := true
  rings := opOnly
  run := runUnpair

/-- RANGE_PAIR UNPAIR. -/
def execRangePairUnpair (c : Cmd) (s : State) : Result := .next (issue opUnpair s c)

/-! ## The state stream (R370, R372) -/

/-- This Summit keeps a state stream. -/
def streaming (s : State) : Bool := isSummit s && s.range.paired && !s.range.pair.clearing

/-- PAIR_HEARTBEAT_TIMER: a HEARTBEAT record each second. -/
def execPairHeartbeatTimer (s : State) : Result :=
  if streaming s && s.range.pair.sentAt + 1000000 ≤ now s then .next (putRecord s 0) else .next s

/-- A record of the partner: accepted, or discarded and counted; `dead`: the pair key fails its check. -/
def takeRecord (dead : Bool) (s : State) (b : Bytes) : State :=
  let r := s.range
  let q := le b 0 8
  let key := stateKey s r.pair.peer
  let good := !dead && q > r.pair.inSeq && b.length == 64 &&
    (gcmOpen key (recordIv r.pair.peer q) (slice b 0 8) (slice b 8 40) (blk (slice b 48 16))).isSome
  if good then { s with range := { r with pair := { r.pair with inSeq := q, heardAt := now s } } }
  else { s with range := { r with ctr := { r.ctr with pairReject := inc32 r.ctr.pairReject } } }

/-- PAIR_MAILBOX_POLL: each 100 ms, the records that have come into the IN half (log entry 42). -/
def execPairMailboxPoll (recs : List Bytes) (s : State) : Result :=
  if streaming s && s.range.pair.polledAt + 100000 ≤ now s then
    let s1 := (readBad s [7]).getD s
    .next (recs.foldl (takeRecord (slotDead s 7))
      { s1 with range := { s1.range with pair := { s1.range.pair with polledAt := now s } } })
  else .next s

/-- PAIR_PARTNER_LOSS: no record for 10 s; an immediate advance clears PAIRED. -/
def execPairPartnerLoss (s : State) : Result :=
  if streaming s && s.range.pair.heardAt + 10000000 ≤ now s then
    .next { s with range := { s.range with
      advNow := true, pair := { s.range.pair with clearing := true } } }
  else .next s

/-- PAIR_OFFER_EXPIRY: after 10 min the keys of an offer are destroyed. -/
def execPairOfferExpiry (s : State) : Result :=
  match s.range.pair.offer with
  | some o =>
    if o.at_ + 600000000 ≤ now s then
      .next { s with range := { s.range with pair := { s.range.pair with offer := none } } }
    else .next s
  | none => .next s

end Sys2Proof.Machine
end

