-- ==== Sys2Proof/Machine/CmdSpdm.lean ====
section
/-! DEFINITION. The SPDM responder: DOE mailboxes and ATT_SPDM (10 R302 to R307, 15 R404). Message layouts are
those of DSP0274 (PRESUMED, log entry 49). -/

namespace Sys2Proof.Machine

/-! ## Mailboxes and connections -/

/-- Number of a mailbox. -/
def mbNum : Mailbox → Nat
  | .doe fn _ => fn.val
  | .ring fn _ => 32 + fn.val

/-- The request that a mailbox row brings, as it was sent. -/
def mbSent : Mailbox → Bytes
  | .doe _ b => b
  | .ring _ b => b

/-- Function or ring that a mailbox belongs to. -/
def mbFn (mb : Nat) : Nat := mb % 32

/-- A connection. -/
def conn (s : State) (mb : Nat) : SpdmConn := tget {} s.spdm.conns mb

/-- Write a connection. -/
def setConn (s : State) (mb : Nat) (c : SpdmConn) : State :=
  { s with spdm := { s.spdm with conns := tset {} s.spdm.conns mb c } }

/-- A request as the responder takes it. -/
inductive SpdmReq where
  | version | capabilities
  | algorithms (offered : Bool)
  | digests
  | certificate (x : CertReq)
  | challenge (slot : BitVec 8) (nonce : BitVec 256)
  | measurements (index : BitVec 8) (signed : Bool) (nonce : BitVec 256)
  | keyExchange (slot : BitVec 8) (share : Bytes)
  | finish (session : BitVec 32) (verify : Bytes)
  | heartbeat (session : BitVec 32)
  | keyUpdate (session : BitVec 32)
  | endSession (session : BitVec 32)
  | chunkGet (n : Nat)
  | unsupported (code : BitVec 8)
  | hybridSig (sel : BitVec 8)
  | manifest (first count : Nat) (nonce : BitVec 256)
  deriving DecidableEq, Repr

/-- A message: version 1.3, code, two parameters, the rest. -/
def spdmMsg (code : BitVec 8) (p1 p2 : Nat) (b : Bytes) : Bytes := [0x13, code] ++ leBytes 1 p1 ++ leBytes 1 p2 ++ b

/-- Request codes (DSP0274). -/
def reqCode : SpdmReq → BitVec 8
  | .version => 0x84 | .capabilities => 0xE1 | .algorithms _ => 0xE3 | .digests => 0x81 | .certificate _ => 0x82
  | .challenge .. => 0x83 | .measurements .. => 0xE0 | .keyExchange .. => 0xE4 | .finish .. => 0xE5
  | .heartbeat _ => 0xE8 | .keyUpdate _ => 0xE9 | .endSession _ => 0xEC | .chunkGet _ => 0x86
  | .unsupported c => c | .hybridSig _ => 0xFE | .manifest .. => 0xFE

/-- A request that holds nothing but its operands; GET_VERSION carries version 1.0 (DSP0274). -/
def reqBytes : SpdmReq → Bytes
  | .version => [0x10, 0x84, 0, 0]
  | .algorithms o => spdmMsg 0xE3 0 0
      (leBytes 2 32 ++ [if o then 1 else 0, 0] ++ leBytes 4 (b2n o * 0x80) ++ leBytes 4 (b2n o * 2) ++ zeros 16)
  | .certificate x => spdmMsg 0x82 x.slot.toNat 0 (leBytes 2 x.off ++ leBytes 2 x.len)
  | .challenge n x => spdmMsg 0x83 n.toNat 0 (keyBytes x)
  | .measurements i g x => spdmMsg 0xE0 (b2n g) i.toNat (keyBytes x)
  | .keyExchange n x => spdmMsg 0xE4 0 n.toNat (zeros 36 ++ x.drop 1)
  | .chunkGet n => spdmMsg 0x86 0 0 (leBytes 2 n)
  | .hybridSig x => spdmMsg 0xFE 0 0 (leBytes 2 3 ++ [2] ++ leBytes 2 Config.vendorId.toNat ++ leBytes 2 2 ++ [1, x])
  | .manifest f n x => spdmMsg 0xFE 0 0
      (leBytes 2 3 ++ [2] ++ leBytes 2 Config.vendorId.toNat ++ leBytes 2 37 ++ [2] ++ leBytes 2 f ++ leBytes 2 n ++
        keyBytes x)
  | .finish _ v => spdmMsg 0xE5 0 0 v
  | r => spdmMsg (reqCode r) 0 0 []

/-! ## Responses -/

/-- A response: state, code, message. -/
structure SpdmRsp where
  s    : State
  code : BitVec 8
  msg  : Bytes

/-- An ERROR response. Codes: 0x01 InvalidRequest, 0x02 InvalidSession, 0x03 Busy, 0x04 UnexpectedRequest, 0x05 Unspecified,
0x06 DecryptError,
0x07 UnsupportedRequest, 0x0A SessionLimitExceeded, 0x0F LargeResponse. -/
def spdmError (s : State) (code : Nat) (data : Nat := 0) : SpdmRsp := ⟨s, 0x7F, spdmMsg 0x7F code data []⟩

/-- Flags of CAPABILITIES (R303): CERT, CHAL, MEAS with signature, MEAS_FRESH, ENCRYPT, MAC, KEY_EX, HBEAT, KEY_UPD,
CHUNK, ALIAS_CERT. -/
def capFlags : Nat := [1, 2, 4, 5, 6, 7, 9, 13, 14, 17, 18].foldl (fun a i => a + 2 ^ i) 0

/-- Body of CAPABILITIES. -/
def capBody : Bytes := [0, Config.ctExponent, 0, 0] ++ leBytes 4 capFlags ++ leBytes 4 4096 ++ leBytes 4 65536

/-- Body of ALGORITHMS (R303): DMTF, OpaqueDataFmt1, SHA-384, ECDSA P-384; DHE, AEAD and key-schedule tables. -/
def algBody : Bytes :=
  leBytes 2 52 ++ [0x01, 0x02] ++ leBytes 4 4 ++ leBytes 4 0x80 ++ leBytes 4 2 ++ zeros 16 ++
  [2, 0x20, 0x10, 0, 3, 0x20, 0x02, 0, 4, 0x20, 0, 0, 5, 0x20, 0x01, 0]

/-- Record an exchange in a connection. -/
def keepVca (c : SpdmConn) (q r : Bytes) : SpdmConn := { c with vca := c.vca ++ q ++ r }

/-- Sessions of a mailbox end. -/
def endSessions (s : State) (mb : Nat) : State :=
  { s with spdm := { s.spdm with sessions := s.spdm.sessions.filter fun x => x.mb != mb } }

/-- VERSION: 1.3 only; the connection starts anew. Its own header carries version 1.0 (DSP0274). -/
def ansVersion (s : State) (mb : Nat) (q : Bytes) : SpdmRsp :=
  let r : Bytes := [0x10, 0x04, 0, 0, 0, 1, 0x00, 0x13]
  ⟨setConn (endSessions s mb) mb { stage := 1, vca := q ++ r }, 0x04, r⟩

/-- The chip has an identity to present: a root that is ABSENT or DESTROYED derives none (R253, R306). -/
def hasIdentity (s : State) : Bool := s.fuse.rootKind == .valid

/-- A certificate chain in slot 0 or 1. -/
def chainAt (s : State) (slot : BitVec 8) : Bytes := chainOf s (if slot == 1#8 then 1 else 0)

/-- DIGESTS. -/
def ansDigests (s : State) (mb : Nat) (q : Bytes) : SpdmRsp :=
  if !hasIdentity s then ⟨s, 0x01, spdmMsg 0x01 3 0 []⟩
  else
    let r := spdmMsg 0x01 3 3 (sha (chainOf s 0) ++ sha (chainOf s 1))
    let c := conn s mb
    ⟨setConn s mb { c with certs := c.certs ++ q ++ r }, 0x01, r⟩

/-- CERTIFICATE: the portion of the chain from Offset on, and the length of what remains. -/
def ansCertificate (s : State) (mb : Nat) (q : Bytes) (x : CertReq) : SpdmRsp :=
  let all := chainAt s x.slot
  if x.slot.toNat > 1 || !hasIdentity s || all.length ≤ x.off then spdmError s 0x01
  else
    let b := (all.drop x.off).take x.len
    let r := spdmMsg 0x02 x.slot.toNat 0 (leBytes 2 b.length ++ leBytes 2 (all.length - x.off - b.length) ++ b)
    let c := conn s mb
    ⟨setConn s mb { c with certs := c.certs ++ q ++ r }, 0x02, r⟩

/-- The alias P-384 signature of a response over a transcript hash. -/
def spdmSign (s : State) (code : BitVec 8) (hash : Bytes) : Bytes := Config.ecSign (aliasEc s) (Config.spdmSigned code hash)

/-- CHALLENGE_AUTH under slot 0. -/
def ansChallenge (s : State) (mb : Nat) (q : Bytes) (slot : BitVec 8) : SpdmRsp :=
  if slot != 0 || !hasIdentity s then spdmError s 0x01
  else
    let d := draw s
    let r := spdmMsg 0x03 0 3 (sha (chainOf s 0) ++ keyBytes d.2 ++ leBytes 2 0 ++ zeros 8)
    let c := conn s mb
    let h := sha (c.vca ++ c.certs ++ q ++ r)
    ⟨setConn d.1 mb { c with certs := [], lastChal := some h }, 0x03, r ++ spdmSign s 0x03 h⟩

/-- Measurement record of an index for a PID: 0 asks for the number, 0xFF for all. -/
def measRecord (s : State) (pid : Nat) (i : BitVec 8) : Option (Nat × Bytes) :=
  if i == 0 then some (0, [])
  else if i == 0xFF then some (if pid == 0 then 8 else 9, measAll s pid)
  else match measValue s pid i.toNat with
    | some v => some (1, measBlock i.toNat v.1 v.2)
    | none => none

/-- MEASUREMENTS. -/
def ansMeasurements (s : State) (mb : Nat) (q : Bytes) (i : BitVec 8) (signed : Bool) : SpdmRsp :=
  let pid := mbFn mb
  match measRecord s pid i with
  | none => spdmError s 0x01
  | some (n, rec_) =>
    if signed && !hasIdentity s then spdmError s 0x01
    else
      let d := draw s
      let total := if i == 0 then (if pid == 0 then 8 else 9) else 0
      let r := spdmMsg 0x60 total 0
        (leBytes 1 n ++ leBytes 3 rec_.length ++ rec_ ++ keyBytes d.2 ++ leBytes 2 0 ++ zeros 8)
      let c := conn s mb
      if signed then
        let h := sha (c.vca ++ c.meas ++ q ++ r)
        ⟨setConn d.1 mb { c with meas := [], lastMeas := some h }, 0x60, r ++ spdmSign s 0x60 h⟩
      else ⟨setConn d.1 mb { c with meas := c.meas ++ q ++ r }, 0x60, r⟩

/-- KEY_EXCHANGE_RSP: a session bound to the mailbox, while fewer than 8 are held (R305). -/
def ansKeyExchange (s : State) (mb : Nat) (q : Bytes) (slot : BitVec 8) (share : Bytes) : SpdmRsp :=
  if slot != 0 || !hasIdentity s || !Config.ecValid share then spdmError s 0x01
  else if s.spdm.sessions.length ≥ 8 then spdmError s 0x0A
  else
    let e := drawEc s
    let d := draw e.1
    let seed := e.2
    let id := s.spdm.nextSess
    let r := spdmMsg 0x64 0 0 (leBytes 2 (id.toNat / 65536) ++ [0, 0] ++ keyBytes d.2 ++ Config.ecPub seed ++ leBytes 2 0)
    let h := sha ((conn s mb).vca ++ sha (chainOf s 0) ++ q ++ r)
    let sig := spdmSign s 0x64 h
    let k := keyOf (hkdf h (Config.ecdh seed share) (asc "spdm1.3 hs") 32)
    let x : SpdmSess := { id := id, mb := mb, secret := k }
    let t := { d.1 with spdm := { d.1.spdm with sessions := d.1.spdm.sessions ++ [x], nextSess := id + 1 } }
    ⟨t, 0x64, r ++ sig ++ Config.spdmVerify k h⟩

/-- A session of a mailbox. -/
def sessOf (s : State) (mb : Nat) (id : BitVec 32) : Option SpdmSess :=
  s.spdm.sessions.find? fun x => x.id == id && x.mb == mb

/-- Replace the sessions that pass a test. -/
def mapSess (s : State) (id : BitVec 32) (f : SpdmSess → SpdmSess) : State :=
  { s with spdm := { s.spdm with sessions := s.spdm.sessions.map fun x => if x.id == id then f x else x } }

/-- A session ends. -/
def dropSess (s : State) (id : BitVec 32) : State :=
  { s with spdm := { s.spdm with sessions := s.spdm.sessions.filter fun x => x.id != id } }

/-- FINISH_RSP. -/
def ansFinish (s : State) (mb : Nat) (id : BitVec 32) (v : Bytes) : SpdmRsp :=
  match sessOf s mb id with
  | none => spdmError s 0x02
  | some x =>
    if x.ready then spdmError s 0x04
    else if Config.finishOk x.secret v then ⟨mapSess s id fun x => { x with ready := true }, 0x65, spdmMsg 0x65 0 0 []⟩
    else spdmError (dropSess s id) 0x06

/-- A request inside an established session. -/
def inSession (s : State) (mb : Nat) (id : BitVec 32) (f : SpdmRsp) : SpdmRsp :=
  match sessOf s mb id with
  | some x => if x.ready then f else spdmError s 0x04
  | none => spdmError s 0x02

/-! ## Noravaqua's vendor requests (R304, R307) -/

/-- VENDOR_DEFINED_RESPONSE with a payload. -/
def vendorRsp (s : State) (b : Bytes) : SpdmRsp :=
  ⟨s, 0x7E, spdmMsg 0x7E 0 0 (leBytes 2 3 ++ [2] ++ leBytes 2 Config.vendorId.toNat ++ leBytes 2 b.length ++ b)⟩

/-- Payload of HYBRID_SIG. -/
def hybridPayload (s : State) (mb : Nat) (sel : BitVec 8) : Bytes :=
  let c := conn s mb
  if sel.toNat > 1 then [1] ++ leBytes 1 (statusCode .errParam) ++ zeros 2
  else match if sel == 0 then c.lastChal else c.lastMeas with
    | none => [1] ++ leBytes 1 (statusCode .errState) ++ zeros 2
    | some h => [1, 0, 0, 0] ++ h ++ Config.mlSign (aliasMl s) (asc "QBSPDM") h

/-- Members with a node ID from `first` upwards, at most `count`. -/
def manifestOf (s : State) (first count : Nat) : List Member :=
  (s.range.members.filter fun x => first ≤ x.node).take count

/-- What the signatures of RANGE_MANIFEST cover. -/
def manifestBody (s : State) (first count : Nat) (nonce : BitVec 256) : Bytes :=
  let l := manifestOf s first count
  [2, 0] ++ leBytes 2 l.length ++ leBytes 8 s.range.rangeId.toNat ++ leBytes 4 s.range.epoch.toNat ++ keyBytes nonce ++
  (l.map (manifestEntry s)).flatten

/-- Payload of RANGE_MANIFEST. -/
def manifestPayload (s : State) (first count : Nat) (nonce : BitVec 256) : Bytes :=
  if !isSummit s then [2] ++ leBytes 1 (statusCode .errState) ++ zeros 2
  else if count == 0 || count > 512 then [2] ++ leBytes 1 (statusCode .errParam) ++ zeros 2
  else
    let b := manifestBody s first count nonce
    b ++ aliasSign s (asc "QBEVD") b

/-! ## The responder -/

/-- A response that DS or FWS goes into: where a slot of them fails its check, ERROR with Busy, and the slot is derived
again (R259, R260; DEDUCED, log entry 105). A draw that a failed source cannot give is ERROR with Unspecified (R255). -/
def withKeys (s : State) (drawn : Bool) (f : SpdmRsp) : SpdmRsp :=
  match readBad s [0, 1] with
  | some t => spdmError t 0x03
  | none => if drawn && s.keys.entFailed then spdmError s 0x05 else f

/-- A stage of the connection has been reached. -/
def staged (s : State) (mb n : Nat) (f : SpdmRsp) : SpdmRsp :=
  if (conn s mb).stage ≥ n then f else spdmError s 0x04

/-- Byte at which chunk `n` of a large response starts, and its length (R303: messages of 4096 bytes). -/
def chunkAt (n : Nat) : Nat × Nat := if n == 0 then (0, 4080) else (4080 + (n - 1) * 4084, 4084)

/-- CHUNK_RESPONSE. -/
def ansChunkGet (s : State) (mb n : Nat) : SpdmRsp :=
  let b := (conn s mb).bigOut
  let c := chunkAt n
  if b.isEmpty || c.1 ≥ b.length then spdmError s 0x01
  else
    let last := c.1 + c.2 ≥ b.length
    let piece := (b.drop c.1).take c.2
    let r := spdmMsg 0x06 (b2n last) 0
      (leBytes 2 n ++ leBytes 2 0 ++ leBytes 4 piece.length ++ (if n == 0 then leBytes 4 b.length else []) ++ piece)
    ⟨if last then setConn s mb { conn s mb with bigOut := [] } else s, 0x06, r⟩

/-- Answer a request that was sent as the bytes `b`, whatever the length of the response. -/
def spdmAct (s : State) (mb : Nat) (q : SpdmReq) (b : Bytes) : SpdmRsp :=
  let c := conn s mb
  match q with
  | .version => ansVersion s mb b
  | .capabilities => staged s mb 1 (
      let r := spdmMsg 0x61 0 0 capBody
      ⟨setConn s mb (keepVca { c with stage := max 2 c.stage } b r), 0x61, r⟩)
  | .algorithms offered => staged s mb 2 (
      if offered then
        let r := spdmMsg 0x63 4 0 algBody
        ⟨setConn s mb (keepVca { c with stage := 3 } b r), 0x63, r⟩
      else spdmError s 0x01)
  | .digests => staged s mb 3 (withKeys s false (ansDigests s mb b))
  | .certificate n => staged s mb 3 (withKeys s false (ansCertificate s mb b n))
  | .challenge n _ => staged s mb 3 (withKeys s true (ansChallenge s mb b n))
  | .measurements i g _ => staged s mb 3 (withKeys s true (ansMeasurements s mb b i g))
  | .keyExchange n x => staged s mb 3 (withKeys s true (ansKeyExchange s mb b n x))
  | .finish id v => ansFinish s mb id v
  | .heartbeat id => inSession s mb id ⟨s, 0x68, spdmMsg 0x68 0 0 []⟩
  | .keyUpdate id => inSession s mb id
      ⟨mapSess s id fun x => { x with updates := x.updates + 1 }, 0x69, spdmMsg 0x69 0 0 []⟩
  | .endSession id => inSession s mb id ⟨dropSess s id, 0x6C, spdmMsg 0x6C 0 0 []⟩
  | .chunkGet n => ansChunkGet s mb n
  | .unsupported code => spdmError s 0x07 code.toNat
  | .hybridSig sel => staged s mb 3 (withKeys s false (vendorRsp s (hybridPayload s mb sel)))
  | .manifest f n x => staged s mb 3 (withKeys s false (vendorRsp s (manifestPayload s f n x)))

/-- A response longer than the requester takes is kept for CHUNK_GET, and LargeResponse sent (R302, R303). -/
def cutLarge (mb : Nat) (r : SpdmRsp) : SpdmRsp :=
  if r.msg.length ≤ 4096 then r else spdmError (setConn r.s mb { conn r.s mb with bigOut := r.msg }) 0x0F

/-- Answer a request. -/
def spdmAnswer (s : State) (mb : Nat) (q : SpdmReq) (b : Bytes) : SpdmRsp := cutLarge mb (spdmAct s mb q b)

/-! ## Requests as bytes -/

/-- The newest session of a mailbox. -/
def lastSess (s : State) (mb : Nat) : BitVec 32 :=
  match (s.spdm.sessions.filter fun x => x.mb == mb).getLast? with
  | some x => x.id
  | none => 0xFFFFFFFF

/-- A vendor-defined request of R304: PCI-SIG, Noravaqua's vendor ID, payload. -/
def parseVendor (b : Bytes) : SpdmReq :=
  let p := b.drop 11
  if le b 4 2 == 3 && le b 6 1 == 2 && le b 7 2 == Config.vendorId.toNat then
    if slice p 0 1 == [1] then .hybridSig (BitVec.ofNat 8 (le p 1 1))
    else if slice p 0 1 == [2] then .manifest (le p 1 2) (le p 3 2) (keyOf (slice p 5 32))
    else .unsupported 0xFE
  else .unsupported 0xFE

/-- The requester offers the set of R303 in NEGOTIATE_ALGORITHMS. -/
def offersSet (b : Bytes) : Bool := le b 6 1 % 2 == 1 && le b 8 4 / 128 % 2 == 1 && le b 12 4 / 2 % 2 == 1

/-- A request from its bytes and code; `sess` is the session that carries it. -/
def parseSpdm (sess : BitVec 32) (code : BitVec 8) (b : Bytes) : SpdmReq :=
  let p1 := BitVec.ofNat 8 (le b 2 1)
  let p2 := BitVec.ofNat 8 (le b 3 1)
  if code == 0x84 then .version
  else if code == 0xE1 then .capabilities
  else if code == 0xE3 then .algorithms (offersSet b)
  else if code == 0x81 then .digests
  else if code == 0x82 then .certificate { slot := p1, off := le b 4 2, len := le b 6 2 }
  else if code == 0x83 then .challenge p1 (keyOf (slice b 4 32))
  else if code == 0xE0 then .measurements p2 (p1.getLsbD 0) (keyOf (slice b 4 32))
  else if code == 0xE4 then .keyExchange p2 ([0x04] ++ slice b 40 96)
  else if code == 0xE5 then .finish sess (b.drop 4)
  else if code == 0xE8 then .heartbeat sess
  else if code == 0xE9 then .keyUpdate sess
  else if code == 0xEC then .endSession sess
  else if code == 0x86 then .chunkGet (le b 4 2)
  else if code == 0xFE then parseVendor b
  else .unsupported code

/-- CHUNK_SEND: pieces in order; the last makes the request, whose response the acknowledgement carries. -/
def spdmChunk (s : State) (mb n : Nat) (last : Bool) (b : Bytes) : SpdmRsp :=
  let c := conn s mb
  let have_ := if n == 0 then b else c.chunkIn ++ b
  if (n != 0 && n != c.chunkNo) || have_.length > 65536 then
    spdmError (setConn s mb { c with chunkIn := [], chunkNo := 0 }) 0x01
  else if last then
    let r := spdmAnswer (setConn s mb { c with chunkIn := [], chunkNo := 0 }) mb
      (parseSpdm (lastSess s mb) (BitVec.ofNat 8 (le have_ 1 1)) have_) have_
    ⟨r.s, 0x05, spdmMsg 0x05 0 0 (leBytes 2 n ++ r.msg)⟩
  else ⟨setConn s mb { c with chunkIn := have_, chunkNo := n + 1 }, 0x05, spdmMsg 0x05 0 0 (leBytes 2 n)⟩

/-- The responder's firmware runs. -/
def responderUp (s : State) : Bool := s.boot.rdy && s.boot.scuUp

/-- VF_DOE_EN is 0: the request is discarded and the mailbox sets DOE Error (R404). -/
def doeClosed (s : State) (mb : Nat) : Bool := 1 ≤ mb && mb ≤ 31 && !s.cmd.vfDoeEn

/-- Set DOE Error of a function's mailbox. -/
def doeError (s : State) (fn : Nat) : State := { s with spdm := { s.spdm with doeErr := s.spdm.doeErr ||| oneBit 32 fn } }

/-- While the SCU restarts a DOE mailbox reports busy (R308). -/
def mailBusy (s : State) (n : Nat) : State := if s.boot.rdy && n < 32 then emit s (.doeBusy n) else s

/-- A request of a mailbox row. -/
def onMailbox (s : State) (mb : Mailbox) (f : Nat → SpdmRsp) : Result :=
  let n := mbNum mb
  if !responderUp s then .next (mailBusy s n)
  else if doeClosed s n then .next (doeError s n)
  else
    let r := f n
    .next (emit r.s (.spdm n r.code r.msg))

/-- The session that a request names. -/
def reqSess : SpdmReq → BitVec 32
  | .finish n _ => n | .heartbeat n => n | .keyUpdate n => n | .endSession n => n
  | _ => 0

/-- The request as sent: the bytes that the row gives, where they say what its operands say. -/
def sentAs (q : SpdmReq) (b : Bytes) : Option Bytes :=
  if b.isEmpty then some (reqBytes q)
  else if le b 1 1 == (reqCode q).toNat && parseSpdm (reqSess q) (reqCode q) b == q then some b else none

/-- A request given by operands; bytes beside them that are another request are no request of the row. -/
def mailReq (s : State) (mb : Mailbox) (q : SpdmReq) : Result :=
  match sentAs q (mbSent mb) with
  | some b => onMailbox s mb fun n => spdmAnswer s n q b
  | none => .next s

/-- GET_VERSION. -/
def execGetVersion (mb : Mailbox) (s : State) : Result := mailReq s mb .version

/-- GET_CAPABILITIES. -/
def execGetCapabilities (mb : Mailbox) (s : State) : Result := mailReq s mb .capabilities

/-- NEGOTIATE_ALGORITHMS. -/
def execNegotiateAlgorithms (mb : Mailbox) (offered : Bool) (s : State) : Result :=
  mailReq s mb (.algorithms offered)

/-- GET_DIGESTS. -/
def execGetDigests (mb : Mailbox) (s : State) : Result := mailReq s mb .digests

/-- GET_CERTIFICATE. -/
def execGetCertificate (mb : Mailbox) (x : CertReq) (s : State) : Result :=
  mailReq s mb (.certificate x)

/-- CHALLENGE. -/
def execSpdmChallenge (mb : Mailbox) (slot : BitVec 8) (nonce : BitVec 256) (s : State) : Result :=
  mailReq s mb (.challenge slot nonce)

/-- GET_MEASUREMENTS. -/
def execGetMeasurements (mb : Mailbox) (index : BitVec 8) (signed : Bool) (nonce : BitVec 256) (s : State) : Result :=
  mailReq s mb (.measurements index signed nonce)

/-- KEY_EXCHANGE. -/
def execKeyExchange (mb : Mailbox) (slot : BitVec 8) (share : Bytes) (s : State) : Result :=
  mailReq s mb (.keyExchange slot share)

/-- FINISH. -/
def execSpdmFinish (mb : Mailbox) (session : BitVec 32) (verify : Bytes) (s : State) : Result :=
  mailReq s mb (.finish session verify)

/-- HEARTBEAT. -/
def execSpdmHeartbeat (mb : Mailbox) (session : BitVec 32) (s : State) : Result :=
  mailReq s mb (.heartbeat session)

/-- KEY_UPDATE. -/
def execKeyUpdate (mb : Mailbox) (session : BitVec 32) (s : State) : Result :=
  mailReq s mb (.keyUpdate session)

/-- END_SESSION. -/
def execEndSession (mb : Mailbox) (session : BitVec 32) (s : State) : Result :=
  mailReq s mb (.endSession session)

/-- CHUNK_SEND. -/
def execChunkSend (mb : Mailbox) (seqNo : Nat) (last : Bool) (b : Bytes) (s : State) : Result :=
  onMailbox s mb fun n => spdmChunk s n seqNo last b

/-- CHUNK_GET. -/
def execChunkGet (mb : Mailbox) (seqNo : Nat) (s : State) : Result :=
  mailReq s mb (.chunkGet seqNo)

/-- Every other request code gets ERROR with UnsupportedRequest. -/
def execSpdmUnsupportedRequest (mb : Mailbox) (code : BitVec 8) (s : State) : Result :=
  mailReq s mb (.unsupported code)

/-- HYBRID_SIG. -/
def execHybridSig (mb : Mailbox) (sel : BitVec 8) (s : State) : Result :=
  mailReq s mb (.hybridSig sel)

/-- RANGE_MANIFEST. -/
def execRangeManifest (mb : Mailbox) (first count : Nat) (nonce : BitVec 256) (s : State) : Result :=
  mailReq s mb (.manifest first count nonce)

/-! ## ATT_SPDM (0x41) -/

/-- ATT_SPDM: the first read delivers the request. -/
def runAttSpdm (req : BitVec 8) (s : State) (t : Ticket) (p : Pkt) (m : List ReadIn) : Res :=
  let pid := if 1 ≤ t.ring && t.ring ≤ 31 then t.ring else 0
  let mb := 32 + pid
  match firstRead m (parm p 22 16) with
  | none => .fail .errIntegrity
  | some b =>
    let r := if req == 0x85 then spdmChunk s mb (le b 4 2) (le b 2 1 % 2 == 1) (b.drop 12)
      else spdmAnswer s mb (parseSpdm (lastSess s mb) req b) b
    if r.msg.length > parm p 30 16 then .fail .errParam
    else .ok (memPut (emit r.s (.spdm mb r.code r.msg)) pid (parm p 24 48) r.msg) (resultOf [(8, r.msg.length)])

/-- ATT_SPDM. -/
def opAttSpdm (req : BitVec 8) : Op where
  opcode := 0x41
  named := [(16, 0, 48), (22, 0, 16), (24, 0, 48), (30, 0, 16)]
  whole _ := true
  rings := opTenant
  pre s n p :=
    let pid := if 1 ≤ n && n ≤ 31 then n else 0
    if parm p 22 16 < 4 || parm p 22 16 > 4096 then some .errParam
    else if !rangeOk s pid (parm p 16 48) (parm p 22 16) rDRD || !rangeOk s pid (parm p 24 48) (parm p 30 16) rDWR then
      some .errPerm
    else none
  reads _ t p _ := [{ pid := if 1 ≤ t.ring && t.ring ≤ 31 then t.ring else 0, off := parm p 16 48, len := parm p 22 16 }]
  run := runAttSpdm req

/-- ATT_SPDM. -/
def execAttSpdm (req : BitVec 8) (c : Cmd) (s : State) : Result := .next (issue (opAttSpdm req) s c)

end Sys2Proof.Machine
end

