-- ==== Sys2Proof/Machine/CmdFetch.lean ====
section
/-! DEFINITION. The fetch of ring entries, and the start of firmware commands (08 R223 to R225, R233, R239, R242,
R243). -/

namespace Sys2Proof.Machine

/-! ## The opcode table (R239) -/

/-- What an opcode and form name. Outcomes that a row of the table takes as an operand are the good ones here: a
write that compares equal, tests that pass, lanes that agree (log entry 50). `req`: the code of an SPDM request. -/
def opFor (req : BitVec 8) (opcode form : Nat) : Option Op :=
  match opcode, form with
  | 0x01, 0 => some opJoinJoin
  | 0x01, 1 => some opJoinForm
  | 0x02, 0 => some opRangeLeave
  | 0x03, 0 => some opEpochAdvance
  | 0x04, 0 => some opRangeStatus
  | 0x05, 0 => some opPairOffer
  | 0x05, 1 => some opPairAccept
  | 0x05, 2 => some opUnpair
  | 0x10, 0 => some opPartCreate
  | 0x11, 0 => some opTilesAdd
  | 0x11, 1 => some opTilesRemove
  | 0x12, 0 => some opMapPages
  | 0x12, 1 => some opMapPeer
  | 0x13, 0 => some opUnmap
  | 0x14, 0 => some opTeardown
  | 0x15, 0 => some (opPartStatus false)
  | 0x15, 1 => some (opPartStatus true)
  | 0x15, 2 => some opPartBind
  | 0x16, 0 => some opCtxLoadNew
  | 0x16, 1 => some opCtxLoadResume
  | 0x17, 0 => some opCtxEvictSave
  | 0x17, 1 => some opCtxEvictKill
  | 0x17, 2 => some opCtxEvictDiscard
  | 0x17, 3 => some opCtxEvictAbandon
  | 0x18, 0 => some opFenceCreate
  | 0x19, 0 => some opFenceDestroy
  | 0x1A, 0 => some opFenceSignal
  | 0x1A, 1 => some opFenceError
  | 0x1A, 2 => some opFenceQuery
  | 0x20, 0 => some opMemMode
  | 0x21, 0 => some opFreshReserve
  | 0x21, 1 => some opFreshReturn
  | 0x22, 0 => some opRinse
  | 0x23, 0 => some opRinseStatus
  | 0x24, 0 => some opRegBudget
  | 0x25, 0 => some opOwnTransfer
  | 0x30, 0 => some opLinkOpen
  | 0x30, 1 => some opLinkClose
  | 0x30, 2 => some opLinkShare
  | 0x30, 3 => some opLinkAdmit
  | 0x31, 0 => some opLinkRekey
  | 0x32, 0 => some opLinkScree
  | 0x33, 0 => some opPlanArm
  | 0x33, 1 => some opPlanGrant
  | 0x34, 0 => some opDisarm
  | 0x34, 1 => some opDisarmForce
  | 0x34, 2 => some opReclaim
  | 0x40, 0 => some opAttEvidence
  | 0x41, 0 => some (opAttSpdm req)
  | 0x42, 0 => some opDeriveJob
  | 0x42, 1 => some opDeriveIron
  | 0x43, 0 => some (opKeyWrap false)
  | 0x44, 0 => some opKeyDestroy
  | 0x50, 0 => some opWbImport
  | 0x51, 0 => some opWbGrant
  | 0x52, 0 => some opWbUnseal
  | 0x53, 0 => some opWbRevoke
  | 0x60, 0 => some (opIronOpen false)
  | 0x61, 0 => some (opIronUpdate false false)
  | 0x61, 1 => some (opIronUpdate true false)
  | 0x62, 0 => some (opIronFinal false)
  | 0x63, 0 => some (opIronSave false)
  | 0x64, 0 => some (opIronRestore false)
  | 0x70, 0 => some (opLcAdvance .whole)
  | 0x71, 0 => some opLcStatus
  | 0x72, 0 => some opDbgChallenge
  | 0x73, 0 => some opDbgUnlock
  | 0x74, 0 => some (opFwStage .whole)
  | 0x75, 0 => some opFwActivate
  | 0xE0, 0 => some opDiagEcho
  | 0xE1, 0 => some (opDiagKat 31)
  | _, _ => none

/-- The SPDM request code in what a command's first read delivers. -/
def reqIn (m : List ReadIn) : BitVec 8 :=
  match m with
  | .data b :: _ => BitVec.ofNat 8 (le b 1 1)
  | _ => 0

/-- What a packet names. -/
def opOf (pk : Packet) (m : List ReadIn) : Option Op := opFor (reqIn m) pk.opcode.toNat pk.form.toNat

/-- The opcode is in the tables (check 2). -/
def opcodeKnown (c : BitVec 8) : Bool := (List.range 4).any fun f => (opFor 0 c.toNat f).isSome

/-- Status of a packet that names no opcode and form: check 2, then check 3. -/
def unknownStatus (pk : Packet) : Status := if opcodeKnown pk.opcode then .errParam else .errOpcode

/-- From the fetch of any packet to its reply. -/
def receiveAny (k : Taken) (pk : Packet) (m : List ReadIn) : State :=
  match opOf pk m with
  | some op => receive op k pk m
  | none =>
    match seqCheck k.s k.t.ring pk.body with
    | none => finish k.s k.t .errParam (resultOf [(8, (ring k.s k.t.ring).seqExp.toNat)])
    | some s1 => finish s1 k.t (unknownStatus pk)

/-! ## RING_FETCH (R223 to R225) -/

/-- The command processor wants to fetch from a ring. -/
def fetchWanted (s : State) (n : Nat) : Bool :=
  let r := ring s n
  s.boot.rdy && r.en && !r.fault && r.head != r.tail && r.inflight < 8 &&
  (n == 0 || (active s n && (!(part s n).conf || (tdi s n).state == .run) && !s.cmd.tenantHold))

/-- Fetch one entry. -/
def fetchOne (n : Nat) (s : State) (e : Packet × List ReadIn) : State :=
  if fetchable s n then receiveAny (takeEntry s n e.1) e.1 e.2 else s

/-- RING_FETCH: up to four consecutive entries, or FAULT where the fetch is denied or fails. -/
def execRingFetch (ring : Fin 32) (entries : Option (List (Packet × List ReadIn))) (s : State) : Result :=
  .next (if !fetchWanted s ring.val then s
    else match entries with
      | none => ringFault s ring.val
      | some l => if fetchable s ring.val then (l.take 4).foldl (fetchOne ring.val) s else ringFault s ring.val)

/-! ## Messages of the range ring (R355) -/

/-- The state that a message's meaning leaves. -/
def ran (s : State) (r : Result) : State := match r with
  | .next t => t
  | _ => s

/-- The meaning of a message of opcode 0x01 or 0x03, `none` where the form is no message form. -/
def runMsg (opcode form : Nat) (m : RMsg) (s : State) : Option Result :=
  match opcode, form with
  | 0x01, 0x10 => some (execFrag m s)
  | 0x01, 0x11 => some (execJoinReq m s)
  | 0x01, 0x12 => some (execJoinNonce m s)
  | 0x01, 0x15 => some (execJoinRefuse m s)
  | 0x01, 0x16 => some (execLeave m s)
  | 0x01, 0x17 => some (execLeaveAck m s)
  | 0x01, 0x18 => some (execRefresh m s)
  | 0x03, 0x10 => some (execDelta m s)
  | 0x03, 0x11 => some (execPrepare m s)
  | 0x03, 0x12 => some (execPrepAck m s)
  | 0x03, 0x13 => some (execSwitch m s)
  | 0x03, 0x14 => some (execAbort m s)
  | 0x03, 0x15 => some (execHeartbeat m s)
  | 0x03, 0x16 => some (execLoss m s)
  | 0x03, 0x17 => some (execProbe m s)
  | 0x03, 0x18 => some (execProbeAck m s)
  | 0x03, 0x1A => some (execShadowAck m s)
  | 0x03, 0x1C => some (execSetkeyRsp m s)
  | 0x03, 0x1D => some (execPairkey m s)
  | 0x15, 2 => some (execPartStatusBind m s)
  | _, _ => none

/-- The message that a packet of the range ring is. -/
def msgOf (q : RangeIn) : RMsg :=
  let b := q.packet.body
  { src := q.src, via := q.via, seq := b.seq, ptag := b.ptag, params := b.params, flags := b.flags, rsvd3 := b.rsvd3
    rsvd12 := b.rsvd12, cookie := b.cookie }

/-- A packet of the range ring: a message, a command checked like any other, or no opcode and form at all. -/
def startRange (s : State) (q : RangeIn) : State :=
  match runMsg q.packet.opcode.toNat q.packet.form.toNat (msgOf q) (passEntry s 32) with
  | some r => ran s r
  | none =>
    match opOf q.packet [] with
    | some op => rangeCmd op s (msgOf q)
    | none =>
      let k := takeOther s 32 q.src q.via q.packet
      finish k.s k.t (unknownStatus q.packet)

/-! ## FW_COMMAND_START (R242, R243) -/

/-- A queued command may start. -/
def startable (s : State) (q : Queued) : Bool := placeOk s q.fast q.tkt q.packet.body

/-- Start a queued command: check 5 is made again (R233). -/
def startQueued (s : State) (q : Queued) (m : List ReadIn) : State :=
  let s1 := { s with cmd := { s.cmd with fwq := s.cmd.fwq.filter fun x => x.tkt.num != q.tkt.num } }
  match opOf q.packet m with
  | none => finish s1 q.tkt (unknownStatus q.packet)
  | some op => match check5 op s1 q.packet.body 0 with
    | some st => finish s1 q.tkt st
    | none => runOp op s1 q.tkt q.packet.body m

/-- A ring's next firmware command, where it may start. -/
def nextOf (s : State) (n : Nat) : Option Queued :=
  (s.cmd.fwq.find? fun q => q.tkt.ring == n && !q.fast).filter (startable s)

/-- The next tenant ring in round robin with a command to start. -/
def nextTenant (s : State) : Option Queued :=
  (List.range 31).findSome? fun i => nextOf s ((s.cmd.lastTenant + i) % 31 + 1)

/-- A ring takes a shared turn. -/
def takeTurn (s : State) (m : List ReadIn) (q : Queued) : State := startQueued (noteTurn s q.tkt.ring) q m

/-- The shared turns of the operator ring and the tenant rings. -/
def startShared (s : State) (m : List ReadIn) : State :=
  match nextOf s 0, nextTenant s with
  | some a, some b => takeTurn s m (if s.cmd.opTurn then a else b)
  | some a, none => takeTurn s m a
  | none, some b => takeTurn s m b
  | none, none => s

/-- The packet of the range ring's front may start: its WAIT is over, and there is room among the started ones. -/
def rangeReady (s : State) (q : RangeIn) : Bool :=
  s.boot.rdy && (!q.packet.body.flags.getLsbD 1 || !earlier s 32 s.cmd.fetches) && startedAll s < 64 && startedOf s 32 < 8

/-- The next firmware command by ring priority: the internal ring, the range ring, the shared turns. -/
def startFirmware (s : State) (m : List ReadIn) : State :=
  match (nextOf s 33).or (nextOf s 32) with
  | some q => startQueued s q m
  | none => match s.cmd.rangeQ with
    | q :: t => if rangeReady s q then startRange { s with cmd := { s.cmd with rangeQ := t } } q else startShared s m
    | [] => startShared s m

/-- FW_COMMAND_START: a fast command whose WAIT is over starts in the command processor; then the SCU takes the next
firmware command. -/
def execFwCommandStart (mem : List ReadIn) (s : State) : Result :=
  .next (match s.cmd.fwq.find? fun q => q.fast && startable s q with
    | some q => startQueued s q mem
    | none => if s.boot.scuUp then startFirmware s mem else s)

end Sys2Proof.Machine
end

