-- ==== Sys2Proof/Machine/MemEvents.lean ====
section
/-! DEFINITION. Events of the memory engines (05): requests, walks, returns, re-tags, changes of entries,
windows. -/

namespace Sys2Proof.Machine

/-- A request's data has the length its fields give it (R123). -/
def reqShaped (r : MxReq) : Bool :=
  let n := r.size.toNat + 1
  if r.op == 1#4 || r.op == 3#4 then r.data.length == n
  else if r.op == 2#4 then r.data.length == n && r.mask.length == n
  else true

/-- A request with as much data and mask as SIZE gives it: bytes and mask bits that it does not give are free values, and
what it gives beyond is no part of it (DESIGN CHOICE, log entry 70). -/
def shapeMx (s : State) (r : MxReq) : State × MxReq :=
  if reqShaped r then (s, r)
  else
    let k := s.rmt.frees
    let n := r.size.toNat + 1
    ({ s with rmt := { s.rmt with frees := k + 1 } },
      { r with data := fillBytes k n r.data
               mask := if r.op == 2#4 then (List.range n).map fun i => r.mask.getD i (Config.freeBit k i) else r.mask })

/-- MEM_REQUEST (R123, R127, R128): a request presented on an engine's port. An ATOM of a command that a
kill holds waits at its master (R210); a port that is not ready takes nothing. The interconnect brings a request to the
engine of its address (R133): at the port of another none stands. -/
def execMemRequest (e : Eng) (r : MxReq) (s : State) : Result :=
  let x := shapeMx s r
  if engineOf s r.addr.toNat != e.val then .next s
  else if r.op == 3#4 && commitHeld s r.ctx then .next s
  else
    let s1 := if r.op == 3#4 then enterCommit x.1 r.ctx else startCmd x.1 r.ctx
    .next ((present s1 { req := x.2 }).getD s)

/-! ## Reads that return (R129, R141 to R152) -/

/-- A walk ends: its sector opened under the VERSION and tag that it read at its start; darn's correction is written back
unless the sector has been written since, and is recorded in the engine that holds the sector. -/
def openWalk (s : State) (w : Walk) (ct : Sector) : State × Option Sector :=
  let n := potSector s w.page
  let p := dataPlace s n
  let en := pot s (sectorPage n)
  match verifySector s (placeEng p) n 0 (macOf s en n w.version) ct w.tag with
  | (s1, some x) =>
    let s2 := if sectorVersion s1 en n == w.version then darnBack s1 w.client p (ct, w.tag) x else s1
    (s2, some (decSector s2 en n x.1))
  | (s1, none) => (s1, none)

/-- A walk's sector fails: every page whose entry lies in it is denied to every master, and SA_MEM_TAG is raised against
PID 0 (R129). -/
def failWalk (s : State) (e page : Nat) : State :=
  let bad := if s.mem.potBad.contains (page / 16) then s.mem.potBad else page / 16 :: s.mem.potBad
  let s1 := { s with mem := { s.mem with potBad := bad } }
  memAlarm (redecide s1 e page) e 0 .quarantine

/-- POT_WALK_DONE (R128, R129, R152): the POT sector that a walk asked for returns. A link error reads it once more. The
entry goes into the slice and the page's requests are decided; a result for a page being changed is discarded. -/
def execPotWalkDone (e : Eng) (page : Nat) (rd : WalkRead) (s : State) : Result :=
  let m := mx s e.val
  match m.walks.find? fun w => w.page == page with
  | none => .next s
  | some w =>
    let rest := m.walks.filter fun x => x.page != page
    if w.held then .next s
    else if rd.lerr && !w.again then
      .next (mcRead (setMx s e.val { m with walks := rest ++ [{ w with again := true }] }) w.client true
        (dataPlace s (potSector s page)))
    else
      let s1 := setMx s e.val { m with walks := rest }
      if changing s page then .next s1
      else match openWalk s1 w rd.ct with
        | (s2, some d) => .next (redecide (cacheIn s2 e.val page (potIn d page)) e.val page)
        | (s2, none) => .next (failWalk s2 e.val page)

/-- A re-tag still has a place to read. -/
def ovfLacks (o : Ovf) (p : Nat) : Bool := o.todo.contains p && !(o.got.any fun g => g.1 == p)

/-- A re-tag takes what it has asked for. -/
def takeRead (o : Ovf) (p : Nat) (d : Sector) : Ovf := if ovfLacks o p then { o with got := o.got ++ [(p, d)] } else o

/-- The client and class for which a read of a place is awaited; `none` where none is. -/
def awaited (s : State) (p : Nat) : Option (Nat × Bool) :=
  let m := mx s (placeEng p)
  match m.wants.find? fun w => w.pl == p && w.img.isNone with
  | some w => some (w.client, w.rt)
  | none => match m.ops.find? fun o => o.issued && o.ct.isNone && dataPlace s o.sector == p with
    | some o => (m.reqs.find? fun q => q.rid == o.rid).map fun q => (q.req.pid.val, isRealTime q.req.mport.toNat)
    | none => (m.ovfs.find? fun o => ovfLacks o p).map fun o => (o.client, false)

/-- A sector that has come goes to what awaits it: the cairn cache, a counter line's verification, an operation, or a
re-tag. -/
def takeReturn (s : State) (p : Nat) (d : Sector) : State :=
  let e := placeEng p
  let m := mx s e
  match m.wants.find? fun w => w.pl == p && w.img.isNone with
  | some w =>
    if isLine p then setMx s e { m with wants := m.wants.map fun x => if x.pl == p then { x with img := some d } else x }
    else tagsArrive (setMx s e { m with wants := m.wants.filter fun x => x.pl != p }) w.client p d
  | none => match m.ops.find? fun o => o.issued && o.ct.isNone && dataPlace s o.sector == p with
    | some o => setMx s e { m with ops := m.ops.map fun x =>
        if x.rid == o.rid && x.sector == o.sector then { x with ct := some d } else x }
    | none => setMx s e { m with ovfs := m.ovfs.map (takeRead · p d) }

/-- MC_READ_RETURN (R141, R143, R145, R147, R151, R152): a sector of a package returns, a data sector, a tag sector or a
counter line by its address. An uncorrectable link error reads it once more; the second result is taken. The on-die ECC's report is
ignored. -/
def execMcReadReturn (e : Eng) (k : Fin 4) (sec : BitVec 29) (d : Sector) (lerr _odecc : Bool) (s : State) : Result :=
  let p := placeAt (4 * e.val + k.val) sec.toNat
  let e := e.val
  match awaited s p with
  | none => .next s
  | some a =>
    let m := mx s e
    let s1 := setMx s e { m with late := dropFirst (fun l => l.pl == p && !l.write) m.late }
    if lerr && !m.again.contains p then
      .next (mcRead (setMx s1 e { mx s1 e with again := p :: m.again }) a.1 a.2 p)
    else .next (engineOn (takeReturn (setMx s1 e { mx s1 e with again := m.again.filter fun x => x != p }) p d) e)

/-! ## The re-tag (R148) -/

/-- A child of an overflowed upper line, as the cache holds it or as read and verified under its old VERSION, is given an
LMAC under its new one. -/
def retagChild (s : State) (v : Ovf) (k : Nat) : State :=
  let e := placeEng v.line
  let p := childOf v.line k
  let new := match cairnGet s v.line with
    | some c => versionIn c.d k
    | none => 0
  let out := fun (s : State) (d : Sector) => mcWrite s v.client false p (putLmac d (lineMac s p new d))
  match v.got.find? fun g => g.1 == p with
  | some g =>
    match verifySector s e (2 ^ 34 + p) (v.client % 32) (lineMac s p (versionIn v.old k)) (putLmac g.2 0) (lmacOf g.2) with
    | (s1, some x) => out s1 x.1
    | (s1, none) => lineFail s1 p
  | none => match cairnGet s p with
    | some c => out s c.d
    | none => s

/-- A sector of an overflowed leaf line's granule is verified under its old VERSION and given a tag under its new one; its
ciphertext stands, unless darn corrects it. A sector that fails keeps its old tag, and SA_MEM_TAG is raised (R145). One that
has been written since has its new tag. -/
def retagSector (s : State) (v : Ovf) (k : Nat) : State :=
  let e := placeEng v.line
  let n := v.base + k
  let p := dataPlace s n
  let en := pot s (sectorPage n)
  if (cairnGet s v.line).any (fun c => minorOf c.d k != 0) then s
  else match v.got.find? (fun g => g.1 == p), tagGet s p with
  | some g, some tag =>
    match verifySector s e n en.pid (macOf s en n (versionIn v.old k)) g.2 tag with
    | (s1, some x) =>
      let s2 := if x.1 == g.2 then s1 else mcWrite s1 en.pid true p x.1
      tagSet s2 v.client p (macOf s2 en n (sectorVersion s2 en n) x.1)
    | (s1, none) => poisonAlarm s1 e en.pid
  | _, _ => s

/-- The four tag sectors of a granule are written (R148). -/
def writeTags (s : State) (v : Ovf) : State :=
  (List.range 4).foldl (fun s i => match cairnGet s (tagPlace (dataPlace s (v.base + 16 * i))) with
    | some c => mcWrite (cairnSet s { c with dirty := false }) v.client false c.pl c.d
    | none => s) s

/-- The places in a granule whose tags the re-tag still lacks. -/
def missingTags (s : State) (v : Ovf) : List Nat :=
  if lineLevel v.line != 0 then []
  else ((List.range 64).filter fun k => k != v.entry && (tagGet s (dataPlace s (v.base + k))).isNone).map
    fun k => dataPlace s (v.base + k)

/-- RETAG_DONE (R148): the re-tag of an overflowed line ends once all it reads is there; what waited goes on. -/
def execRetagDone (e : Eng) (line : Nat) (s : State) : Result :=
  match (mx s e.val).ovfs.find? fun v => v.line == line with
  | none => .next s
  | some v =>
    let rest := dropFirst (fun v => v.line == line) (mx s e.val).ovfs
    let lack := missingTags s v
    if v.todo.any (ovfLacks v) then .next s
    else if !lack.isEmpty then .next (lack.foldl (fun s p => want s v.client false (tagPlace p)) s)
    else
      let ks := (List.range 64).filter fun k => k != v.entry
      let s1 := if lineLevel v.line == 0 then writeTags (ks.foldl (fun s k => retagSector s v k) s) v
        else ks.foldl (fun s k => retagChild s v k) s
      let s2 := mxCtr (setMx s1 e.val { mx s1 e.val with ovfs := rest }) e.val fun c => { c with ovf := inc32 c.ovf }
      .next (wakeWalks (engineOn s2 e.val))

/-! ## Changes of entries (R130, R131) -/

/-- POT_UPDATE_DRAINED (R130 steps 2 to 5): the page's granted requests have completed. The entry's sector is written once
no re-tag stalls it (R148). -/
def execPotUpdateDrained (page : Nat) (s : State) : Result :=
  match s.mem.changes.find? fun c => c.1 == page with
  | none => .next s
  | some c => if c.2.filling || c.2.torn || pageBusy s page || potBusy s page then .next s else .next (writeEntry s page c.2)

/-- PAGE_FILL_DONE (R131): every sector of the page has been written as zeros; in Fresh, once all its leaf lines have been
advanced, and the entry's sector stalls for no re-tag (R148). -/
def execPageFillDone (page : Nat) (s : State) : Result :=
  match s.mem.changes.find? fun c => c.1 == page with
  | none => .next s
  | some c => if c.2.filling && c.2.todo.isEmpty && !potBusy s page then .next (endFill s page c.2) else .next s

/-! ## Time (R154, R155) -/

/-- REG_WINDOW_START (R154): tokens refill to the budget, and new settings take effect, once a
microsecond. -/
def execRegWindowStart (e : Eng) (s : State) : Result :=
  let m := mx s e
  if m.window == now s + 1 then .next s
  else .next (setMx s e.val { m with
    budget := m.nextBudget, latency := m.nextLatency, tokens := m.nextBudget, window := now s + 1 })

/-- OVER_PROMOTE (R155): a sector that has waited at OVER for 8 microseconds is promoted to IN_S in the controller. -/
def execOverPromote (pkg : Fin 32) (sec : BitVec 29) (s : State) : Result :=
  let p := placeAt pkg.val sec.toNat
  let m := mx s (placeEng p)
  let hit := fun l : Late => l.pl == p && decide (l.since + 8 ≤ now s)
  if m.late.any hit then
    .next (emit (mxCtr (setMx s (placeEng p) { m with late := dropFirst hit m.late }) (placeEng p)
      fun c => { c with promote := inc32 c.promote }) (.mcPromote pkg.val sec.toNat))
  else .next s

end Sys2Proof.Machine
end

