-- ==== Sys2Proof/Machine/Dispatch.lean ====
section
/-! DEFINITION. Which meaning each command has: one arm per row of the opcode table. -/

namespace Sys2Proof.Machine

def exec (i : Instr) (s : State) : Host.Outcome State Fault Refusal :=
  match i with
  | .rangeJoinJoin c => Sys2Proof.Machine.execRangeJoinJoin c s
  | .rangeJoinForm c => Sys2Proof.Machine.execRangeJoinForm c s
  | .rangeLeave c => Sys2Proof.Machine.execRangeLeave c s
  | .rangeEpochAdvance c => Sys2Proof.Machine.execRangeEpochAdvance c s
  | .rangeStatus c => Sys2Proof.Machine.execRangeStatus c s
  | .rangePairOffer c => Sys2Proof.Machine.execRangePairOffer c s
  | .rangePairAccept c => Sys2Proof.Machine.execRangePairAccept c s
  | .rangePairUnpair c => Sys2Proof.Machine.execRangePairUnpair c s
  | .partCreate c => Sys2Proof.Machine.execPartCreate c s
  | .partAssignTilesAdd c => Sys2Proof.Machine.execPartAssignTilesAdd c s
  | .partAssignTilesRemove c => Sys2Proof.Machine.execPartAssignTilesRemove c s
  | .partMapPages c => Sys2Proof.Machine.execPartMapPages c s
  | .partMapPeer c => Sys2Proof.Machine.execPartMapPeer c s
  | .partUnmap c => Sys2Proof.Machine.execPartUnmap c s
  | .partTeardown c => Sys2Proof.Machine.execPartTeardown c s
  | .partStatusSummary ports c => Sys2Proof.Machine.execPartStatusSummary ports c s
  | .partStatusBind m => Sys2Proof.Machine.execPartStatusBind m s
  | .ctxLoadNew c => Sys2Proof.Machine.execCtxLoadNew c s
  | .ctxLoadResume c => Sys2Proof.Machine.execCtxLoadResume c s
  | .ctxEvictSave c => Sys2Proof.Machine.execCtxEvictSave c s
  | .ctxEvictKill c => Sys2Proof.Machine.execCtxEvictKill c s
  | .ctxEvictDiscard c => Sys2Proof.Machine.execCtxEvictDiscard c s
  | .ctxEvictAbandon c => Sys2Proof.Machine.execCtxEvictAbandon c s
  | .fenceCreate c => Sys2Proof.Machine.execFenceCreate c s
  | .fenceDestroy c => Sys2Proof.Machine.execFenceDestroy c s
  | .fenceSignalSignal c => Sys2Proof.Machine.execFenceSignalSignal c s
  | .fenceSignalError c => Sys2Proof.Machine.execFenceSignalError c s
  | .fenceSignalQuery c => Sys2Proof.Machine.execFenceSignalQuery c s
  | .memMode c => Sys2Proof.Machine.execMemMode c s
  | .memFreshRegionReserve c => Sys2Proof.Machine.execMemFreshRegionReserve c s
  | .memFreshRegionReturn c => Sys2Proof.Machine.execMemFreshRegionReturn c s
  | .rinse c => Sys2Proof.Machine.execRinse c s
  | .rinseStatus c => Sys2Proof.Machine.execRinseStatus c s
  | .regBudget c => Sys2Proof.Machine.execRegBudget c s
  | .ownTransfer c => Sys2Proof.Machine.execOwnTransfer c s
  | .linkSessionOpen c => Sys2Proof.Machine.execLinkSessionOpen c s
  | .linkSessionClose c => Sys2Proof.Machine.execLinkSessionClose c s
  | .linkSessionShare c => Sys2Proof.Machine.execLinkSessionShare c s
  | .linkSessionAdmit c => Sys2Proof.Machine.execLinkSessionAdmit c s
  | .linkRekey c => Sys2Proof.Machine.execLinkRekey c s
  | .linkScree c => Sys2Proof.Machine.execLinkScree c s
  | .foldPlanArm c => Sys2Proof.Machine.execFoldPlanArm c s
  | .foldPlanGrant c => Sys2Proof.Machine.execFoldPlanGrant c s
  | .foldReleaseDisarm c => Sys2Proof.Machine.execFoldReleaseDisarm c s
  | .foldReleaseDisarmForce c => Sys2Proof.Machine.execFoldReleaseDisarmForce c s
  | .foldReleaseReclaim c => Sys2Proof.Machine.execFoldReleaseReclaim c s
  | .attEvidence c => Sys2Proof.Machine.execAttEvidence c s
  | .attSpdm req c => Sys2Proof.Machine.execAttSpdm req c s
  | .keyDeriveJob c => Sys2Proof.Machine.execKeyDeriveJob c s
  | .keyDeriveIron c => Sys2Proof.Machine.execKeyDeriveIron c s
  | .keyWrap c => Sys2Proof.Machine.execKeyWrap c s
  | .keyDestroy c => Sys2Proof.Machine.execKeyDestroy c s
  | .wbImport c => Sys2Proof.Machine.execWbImport c s
  | .wbGrant c => Sys2Proof.Machine.execWbGrant c s
  | .wbUnsealStream c => Sys2Proof.Machine.execWbUnsealStream c s
  | .wbRevoke c => Sys2Proof.Machine.execWbRevoke c s
  | .ironOpen c => Sys2Proof.Machine.execIronOpen c s
  | .ironUpdateData dual c => Sys2Proof.Machine.execIronUpdateData dual c s
  | .ironUpdateAad dual c => Sys2Proof.Machine.execIronUpdateAad dual c s
  | .ironFinal dual c => Sys2Proof.Machine.execIronFinal dual c s
  | .ironSave dual c => Sys2Proof.Machine.execIronSave dual c s
  | .ironRestore dual c => Sys2Proof.Machine.execIronRestore dual c s
  | .lcAdvance cut c => Sys2Proof.Machine.execLcAdvance cut c s
  | .lcStatus c => Sys2Proof.Machine.execLcStatus c s
  | .dbgChallenge c => Sys2Proof.Machine.execDbgChallenge c s
  | .dbgUnlock c => Sys2Proof.Machine.execDbgUnlock c s
  | .fwStage cut c => Sys2Proof.Machine.execFwStage cut c s
  | .fwActivate c => Sys2Proof.Machine.execFwActivate c s
  | .diagEcho c => Sys2Proof.Machine.execDiagEcho c s
  | .diagKat passed c => Sys2Proof.Machine.execDiagKat passed c s
  | .ringFetch ring entries => Sys2Proof.Machine.execRingFetch ring entries s
  | .fwCommandStart mem => Sys2Proof.Machine.execFwCommandStart mem s
  | .msixModerationExpiry fn vector => Sys2Proof.Machine.execMsixModerationExpiry fn vector s
  | .qbRingTailWrite a fn v => Sys2Proof.Machine.execQbRingTailWrite a fn v s
  | .qbRingCtlEnSet a fn v => Sys2Proof.Machine.execQbRingCtlEnSet a fn v s
  | .qbRingCtlEnClear a fn v => Sys2Proof.Machine.execQbRingCtlEnClear a fn v s
  | .qbRingStatusClear a fn v => Sys2Proof.Machine.execQbRingStatusClear a fn v s
  | .qbEvtCtlEnSet a fn v => Sys2Proof.Machine.execQbEvtCtlEnSet a fn v s
  | .qbEvtCtlEnClear a fn v => Sys2Proof.Machine.execQbEvtCtlEnClear a fn v s
  | .qbEvtConsWrite a fn v => Sys2Proof.Machine.execQbEvtConsWrite a fn v s
  | .qbEvtStatusClear a fn v => Sys2Proof.Machine.execQbEvtStatusClear a fn v s
  | .tenantHoldWrite a v => Sys2Proof.Machine.execTenantHoldWrite a v s
  | .vfDoeEnWrite a v => Sys2Proof.Machine.execVfDoeEnWrite a v s
  | .qbAlarmStatusClear a v => Sys2Proof.Machine.execQbAlarmStatusClear a v s
  | .qbLinkStatusClear a p v => Sys2Proof.Machine.execQbLinkStatusClear a p v s
  | .qbMxStatusClear a e v => Sys2Proof.Machine.execQbMxStatusClear a e v s
  | .qbTarnTimeLoRead scu a => Sys2Proof.Machine.execQbTarnTimeLoRead scu a s
  | .readOnceWindowRead a fn off len => Sys2Proof.Machine.execReadOnceWindowRead a fn off len s
  | .registerWrite a pg off b => Sys2Proof.Machine.execRegisterWrite a pg off b s
  | .qbBaseWrite desc page => Sys2Proof.Machine.execQbBaseWrite desc page s
  | .memInitDone => Sys2Proof.Machine.execMemInitDone s
  | .memRequest e r => Sys2Proof.Machine.execMemRequest e r s
  | .potWalkDone e page rd => Sys2Proof.Machine.execPotWalkDone e page rd s
  | .mcReadReturn e k sec d lerr odecc => Sys2Proof.Machine.execMcReadReturn e k sec d lerr odecc s
  | .retagDone e line => Sys2Proof.Machine.execRetagDone e line s
  | .potUpdateDrained page => Sys2Proof.Machine.execPotUpdateDrained page s
  | .pageFillDone page => Sys2Proof.Machine.execPageFillDone page s
  | .regWindowStart e => Sys2Proof.Machine.execRegWindowStart e s
  | .overPromote pkg sec => Sys2Proof.Machine.execOverPromote pkg sec s
  | .rinseTicketStart => Sys2Proof.Machine.execRinseTicketStart s
  | .rinsePageDone => Sys2Proof.Machine.execRinsePageDone s
  | .frameReceive p f => Sys2Proof.Machine.execFrameReceive p f s
  | .linkRetryFail p => Sys2Proof.Machine.execLinkRetryFail p s
  | .frameSeal p lclk offer => Sys2Proof.Machine.execFrameSeal p lclk offer s
  | .txRekeyTimer p => Sys2Proof.Machine.execTxRekeyTimer p s
  | .txKeyDerived p rx => Sys2Proof.Machine.execTxKeyDerived p rx s
  | .rxPrevRetire p => Sys2Proof.Machine.execRxPrevRetire p s
  | .screeSlot p offer => Sys2Proof.Machine.execScreeSlot p offer s
  | .keepaliveTimer p => Sys2Proof.Machine.execKeepaliveTimer p s
  | .peerLoss p => Sys2Proof.Machine.execPeerLoss p s
  | .probeTimeout p => Sys2Proof.Machine.execProbeTimeout p s
  | .admitIdleTimeout p => Sys2Proof.Machine.execAdmitIdleTimeout p s
  | .closeDrainDone p => Sys2Proof.Machine.execCloseDrainDone p s
  | .transitHandoff p idx lclk => Sys2Proof.Machine.execTransitHandoff p idx lclk s
  | .ingressPresent m idx lclk => Sys2Proof.Machine.execIngressPresent m idx lclk s
  | .streamIdleTimeout id => Sys2Proof.Machine.execStreamIdleTimeout id s
  | .seamRelease id seg count => Sys2Proof.Machine.execSeamRelease id seg count s
  | .seamHoldTimeout id seg => Sys2Proof.Machine.execSeamHoldTimeout id seg s
  | .atomicCacheExpiry p => Sys2Proof.Machine.execAtomicCacheExpiry p s
  | .remoteRequest r => Sys2Proof.Machine.execRemoteRequest r s
  | .releaseSeal id => Sys2Proof.Machine.execReleaseSeal id s
  | .streamIdleCloseSource pid node => Sys2Proof.Machine.execStreamIdleCloseSource pid node s
  | .streamGrantRetry pid node => Sys2Proof.Machine.execStreamGrantRetry pid node s
  | .loadTimeout tag => Sys2Proof.Machine.execLoadTimeout tag s
  | .seamTimeout pid node seg => Sys2Proof.Machine.execSeamTimeout pid node seg s
  | .bulkWriteTimeout tag => Sys2Proof.Machine.execBulkWriteTimeout tag s
  | .atomicRetryTimer id => Sys2Proof.Machine.execAtomicRetryTimer id s
  | .atomicUnknownTimer id => Sys2Proof.Machine.execAtomicUnknownTimer id s
  | .foldFrameApply u upsets => Sys2Proof.Machine.execFoldFrameApply u upsets s
  | .foldPreloadCommit u plan chunk rd => Sys2Proof.Machine.execFoldPreloadCommit u plan chunk rd s
  | .foldOutputWriteDone u plan chunk num => Sys2Proof.Machine.execFoldOutputWriteDone u plan chunk num s
  | .foldPlanTimeout u plan => Sys2Proof.Machine.execFoldPlanTimeout u plan s
  | .foldDisarmBoundary u => Sys2Proof.Machine.execFoldDisarmBoundary u s
  | .foldBlockZeroed u block => Sys2Proof.Machine.execFoldBlockZeroed u block s
  | .schedCommitReq ctx => Sys2Proof.Machine.execSchedCommitReq ctx s
  | .schedStopAck ctx => Sys2Proof.Machine.execSchedStopAck ctx s
  | .killCommitsDrained pid => Sys2Proof.Machine.execKillCommitsDrained pid s
  | .genAdvance pid => Sys2Proof.Machine.execGenAdvance pid s
  | .teardownDrained pid => Sys2Proof.Machine.execTeardownDrained pid s
  | .dmaBind eng ctx => Sys2Proof.Machine.execDmaBind eng ctx s
  | .queueSignalEntry ctx fence value status => Sys2Proof.Machine.execQueueSignalEntry ctx fence value status s
  | .tileScrubDone t => Sys2Proof.Machine.execTileScrubDone t s
  | .vfFlr vf => Sys2Proof.Machine.execVfFlr vf s
  | .hostTlp t x => Sys2Proof.Machine.execHostTlp t x s
  | .lockInterfaceRequest vf stream bindP2p lockMsix noFwUpdate => Sys2Proof.Machine.execLockInterfaceRequest vf stream bindP2p lockMsix noFwUpdate s
  | .startInterfaceRequest vf nonce => Sys2Proof.Machine.execStartInterfaceRequest vf nonce s
  | .stopInterfaceRequest vf => Sys2Proof.Machine.execStopInterfaceRequest vf s
  | .getTdispVersion vf => Sys2Proof.Machine.execGetTdispVersion vf s
  | .getTdispCapabilities vf => Sys2Proof.Machine.execGetTdispCapabilities vf s
  | .getDeviceInterfaceReport vf => Sys2Proof.Machine.execGetDeviceInterfaceReport vf s
  | .getDeviceInterfaceState vf => Sys2Proof.Machine.execGetDeviceInterfaceState vf s
  | .tdispUnsupportedRequest vf code => Sys2Proof.Machine.execTdispUnsupportedRequest vf code s
  | .ideKmQuery stream => Sys2Proof.Machine.execIdeKmQuery stream s
  | .ideKmKeyProg stream k key => Sys2Proof.Machine.execIdeKmKeyProg stream k key s
  | .ideKmKSetGo stream k => Sys2Proof.Machine.execIdeKmKSetGo stream k s
  | .ideKmKSetStop stream k => Sys2Proof.Machine.execIdeKmKSetStop stream k s
  | .getVersion mb => Sys2Proof.Machine.execGetVersion mb s
  | .getCapabilities mb => Sys2Proof.Machine.execGetCapabilities mb s
  | .negotiateAlgorithms mb offered => Sys2Proof.Machine.execNegotiateAlgorithms mb offered s
  | .getDigests mb => Sys2Proof.Machine.execGetDigests mb s
  | .getCertificate mb x => Sys2Proof.Machine.execGetCertificate mb x s
  | .spdmChallenge mb slot nonce => Sys2Proof.Machine.execSpdmChallenge mb slot nonce s
  | .getMeasurements mb index signed nonce => Sys2Proof.Machine.execGetMeasurements mb index signed nonce s
  | .keyExchange mb slot share => Sys2Proof.Machine.execKeyExchange mb slot share s
  | .spdmFinish mb session verify => Sys2Proof.Machine.execSpdmFinish mb session verify s
  | .spdmHeartbeat mb session => Sys2Proof.Machine.execSpdmHeartbeat mb session s
  | .keyUpdate mb session => Sys2Proof.Machine.execKeyUpdate mb session s
  | .endSession mb session => Sys2Proof.Machine.execEndSession mb session s
  | .chunkSend mb seqNo last b => Sys2Proof.Machine.execChunkSend mb seqNo last b s
  | .chunkGet mb seqNo => Sys2Proof.Machine.execChunkGet mb seqNo s
  | .spdmUnsupportedRequest mb code => Sys2Proof.Machine.execSpdmUnsupportedRequest mb code s
  | .hybridSig mb sel => Sys2Proof.Machine.execHybridSig mb sel s
  | .rangeManifest mb first count nonce => Sys2Proof.Machine.execRangeManifest mb first count nonce s
  | .frag m => Sys2Proof.Machine.execFrag m s
  | .joinReq m => Sys2Proof.Machine.execJoinReq m s
  | .joinNonce m => Sys2Proof.Machine.execJoinNonce m s
  | .joinEvid m => Sys2Proof.Machine.execJoinEvid m s
  | .joinAdmit m => Sys2Proof.Machine.execJoinAdmit m s
  | .joinRefuse m => Sys2Proof.Machine.execJoinRefuse m s
  | .leave m => Sys2Proof.Machine.execLeave m s
  | .leaveAck m => Sys2Proof.Machine.execLeaveAck m s
  | .refresh m => Sys2Proof.Machine.execRefresh m s
  | .refreshEvid m => Sys2Proof.Machine.execRefreshEvid m s
  | .delta m => Sys2Proof.Machine.execDelta m s
  | .prepare m => Sys2Proof.Machine.execPrepare m s
  | .prepAck m => Sys2Proof.Machine.execPrepAck m s
  | .switch m => Sys2Proof.Machine.execSwitch m s
  | .abort m => Sys2Proof.Machine.execAbort m s
  | .heartbeat m => Sys2Proof.Machine.execHeartbeat m s
  | .loss m => Sys2Proof.Machine.execLoss m s
  | .probe m => Sys2Proof.Machine.execProbe m s
  | .probeAck m => Sys2Proof.Machine.execProbeAck m s
  | .shadow m => Sys2Proof.Machine.execShadow m s
  | .shadowAck m => Sys2Proof.Machine.execShadowAck m s
  | .setkeyReq m => Sys2Proof.Machine.execSetkeyReq m s
  | .setkeyRsp m => Sys2Proof.Machine.execSetkeyRsp m s
  | .pairkey m => Sys2Proof.Machine.execPairkey m s
  | .rangeReply m status result => Sys2Proof.Machine.execRangeReply m status result s
  | .rangeResendTimer dst seq => Sys2Proof.Machine.execRangeResendTimer dst seq s
  | .reassemblyTimeout src num => Sys2Proof.Machine.execReassemblyTimeout src num s
  | .joinTimeout => Sys2Proof.Machine.execJoinTimeout s
  | .leaveTimeout => Sys2Proof.Machine.execLeaveTimeout s
  | .heartbeatSend => Sys2Proof.Machine.execHeartbeatSend s
  | .heartbeatLoss => Sys2Proof.Machine.execHeartbeatLoss s
  | .rangeProbeTimeout node => Sys2Proof.Machine.execRangeProbeTimeout node s
  | .epochAdvanceStart => Sys2Proof.Machine.execEpochAdvanceStart s
  | .prepareWaitTimeout => Sys2Proof.Machine.execPrepareWaitTimeout s
  | .switchTimeout => Sys2Proof.Machine.execSwitchTimeout s
  | .refreshTimer node => Sys2Proof.Machine.execRefreshTimer node s
  | .refreshTimeout node => Sys2Proof.Machine.execRefreshTimeout node s
  | .shoulderTakeover => Sys2Proof.Machine.execShoulderTakeover s
  | .pairHeartbeatTimer => Sys2Proof.Machine.execPairHeartbeatTimer s
  | .pairMailboxPoll recs => Sys2Proof.Machine.execPairMailboxPoll recs s
  | .pairPartnerLoss => Sys2Proof.Machine.execPairPartnerLoss s
  | .pairOfferExpiry => Sys2Proof.Machine.execPairOfferExpiry s
  | .setkeyTimeout pid => Sys2Proof.Machine.execSetkeyTimeout pid s
  | .wbStreamDone pid segs => Sys2Proof.Machine.execWbStreamDone pid segs s
  | .ironHoldExpiry pid ctx => Sys2Proof.Machine.execIronHoldExpiry pid ctx s
  | .ironLaneKatDone lane passed => Sys2Proof.Machine.execIronLaneKatDone lane passed s
  | .ksaBackgroundCheck flips => Sys2Proof.Machine.execKsaBackgroundCheck flips s
  | .entropyWindow samples => Sys2Proof.Machine.execEntropyWindow samples s
  | .drbgReseedTimer => Sys2Proof.Machine.execDrbgReseedTimer s
  | .dbgChallengeExpiry => Sys2Proof.Machine.execDbgChallengeExpiry s
  | .dbgAuthExpiry => Sys2Proof.Machine.execDbgAuthExpiry s
  | .telLatch => Sys2Proof.Machine.execTelLatch s
  | .telPowerWindow raw => Sys2Proof.Machine.execTelPowerWindow raw s
  | .tarnStart => Sys2Proof.Machine.execTarnStart s
  | .supplyGood sp early => Sys2Proof.Machine.execSupplyGood sp early s
  | .chipResetAssert => Sys2Proof.Machine.execChipResetAssert s
  | .chipResetDeassert => Sys2Proof.Machine.execChipResetDeassert s
  | .bootStepDone ok x => Sys2Proof.Machine.execBootStepDone ok x s
  | .mcReady => Sys2Proof.Machine.execMcReady s
  | .mcReadyTimeout => Sys2Proof.Machine.execMcReadyTimeout s
  | .bootReady => Sys2Proof.Machine.execBootReady s
  | .pwrDownReq => Sys2Proof.Machine.execPwrDownReq s
  | .vddQLoss fast => Sys2Proof.Machine.execVddQLoss fast s
  | .vddTarnBrownout => Sys2Proof.Machine.execVddTarnBrownout s
  | .vppHigh l => Sys2Proof.Machine.execVppHigh l s
  | .comparatorTrip c sample => Sys2Proof.Machine.execComparatorTrip c sample s
  | .tamperInput ns => Sys2Proof.Machine.execTamperInput ns s
  | .refclkSwitch => Sys2Proof.Machine.execRefclkSwitch s
  | .scuWatchdogExpiry => Sys2Proof.Machine.execScuWatchdogExpiry s
  | .scuFault e => Sys2Proof.Machine.execScuFault e s
  | .watchdogRestart => Sys2Proof.Machine.execWatchdogRestart s
  | .scuRestartDone => Sys2Proof.Machine.execScuRestartDone s
  | .jtagTapAccess x => Sys2Proof.Machine.execJtagTapAccess x s
  | .schedCommandDone ctx => Sys2Proof.Machine.execSchedCommandDone ctx s
  | .shoulderHeartbeatTimeout => Sys2Proof.Machine.execShoulderHeartbeatTimeout s
  | .sleepEntry => Sys2Proof.Machine.execSleepEntry s
  | .refclkReturn => Sys2Proof.Machine.execRefclkReturn s
  | .ingressFrameAged idx => Sys2Proof.Machine.execIngressFrameAged idx s

end Sys2Proof.Machine
end

