-- ==== Sys2Proof/Machine/Tick.lean ====
section
/-! DEFINITION. What comes about as a Tarn microsecond passes (14 R389, R394; log entry 8). -/

namespace Sys2Proof.Machine

/-- What the remote request unit keeps is tried again (R164, R165, R170). -/
def settleRemote (s : State) : State :=
  let s1 := if s.rmt.streams.isEmpty then s else settleStreams s
  if s1.rmt.held.isEmpty then s1 else retryHeld s1

/-- What is due comes: what the failure of a key slot brings (R260), a PREPARE that waited for a retiring key (R364),
requests that waited for SWITCH (R374), and what the remote request unit keeps. -/
def settleDue (s : State) : State :=
  settleRemote (settleLater (settlePrep (if s.keys.failing.isEmpty then s else settleFailing s)))

/-- A Tarn microsecond passes and nothing arrives (log entry 8): what is due comes, Tarn writes what the alarm-log FIFO holds
(R394, log entry 57), and the counter advances; without VDD_TARN it stands. -/
def tick (s : State) : State :=
  let s1 := settleDue s
  if s.boot.tarnGood then
    let s2 := drainLog s1
    { s2 with tarn := { s2.tarn with now := (s2.tarn.now + 1) % 2 ^ 64 } }
  else s1

end Sys2Proof.Machine
end

