-- ==== Sys2Proof/Safety.lean ====
section
/-! DEFINITION. The words in which claims about the block are stated: a command that passes its checks, what
leaves the block in a step, and the invariants that every step keeps. -/

namespace Sys2Proof.Machine

/-! ## A command that passes its checks -/

/-- A command that is fetched now, passes checks 1 to 5, starts at once, and passes checks 6 to 8 (R225, R230, R233,
R242, R266): the state it then acts on, and its ticket. -/
def accepted (op : Op) (s : State) (c : Cmd) : Option (State × Ticket) :=
  match take s c.ring ⟨op.opcode, op.form, c.body⟩ with
  | none => none
  | some k =>
    match seqCheck k.s k.t.ring c.body with
    | none => none
    | some s1 =>
      let s2 := begun op.fast s1 k.t
      if check35 op s1 k.t.ring c.body k.pre == none && mayStart s1 op.fast k.t c.body &&
          op.pre s2 k.t.ring c.body == none && op.preMem s2 c.body c.mem == none && lcPermit s2 op.opcode &&
          op.lc s2 c.body then some (s2, k.t) else none

/-- A range-ring command that passes checks 3 to 8 while firmware runs (R223, R233): the state it acts on and its
ticket. -/
def rangeAccepted (op : Op) (s : State) (m : RMsg) : Option (State × Ticket) :=
  let pk : Packet := ⟨op.opcode, op.form, msgBody m⟩
  let k := takeOther s 32 m.src m.via pk
  if s.boot.rdy && s.boot.scuUp && check35 op k.s 32 pk.body 0 == none && op.pre k.s 32 pk.body == none &&
      lcPermit k.s op.opcode && op.lc k.s pk.body then some (k.s, k.t) else none

/-- The status of a range message that fails check 3, its values' check 6, or check 8 (R227, R233, R266); `none` for one
that passes, and for every other command. -/
def msgStatus (s : State) : Instr → Option Status
  | .frag m => msgCheck formFrag (fragOk m) m s
  | .joinReq m => msgCheck formJoinReq true m s
  | .joinNonce m => msgCheck formJoinNonce true m s
  | .joinEvid m => msgCheck formJoinEvid true m s
  | .joinAdmit m => msgCheck formJoinAdmit true m s
  | .joinRefuse m => msgCheck formJoinRefuse true m s
  | .leave m => msgCheck formLeave true m s
  | .leaveAck m => msgCheck formLeaveAck true m s
  | .refresh m => msgCheck formRefresh true m s
  | .refreshEvid m => msgCheck formRefreshEvid true m s
  | .delta m => msgCheck formDelta (deltaOk m) m s
  | .prepare m => msgCheck formPrepare true m s
  | .prepAck m => msgCheck formPrepAck true m s
  | .switch m => msgCheck formSwitch true m s
  | .abort m => msgCheck formAbort true m s
  | .heartbeat m => msgCheck formHeartbeat true m s
  | .loss m => msgCheck formLoss true m s
  | .probe m => msgCheck formProbe true m s
  | .probeAck m => msgCheck formProbeAck true m s
  | .shadow m => msgCheck formShadow true m s
  | .shadowAck m => msgCheck formShadowAck true m s
  | .setkeyReq m => msgCheck formSetkeyReq true m s
  | .setkeyRsp m => msgCheck formSetkeyRsp true m s
  | .pairkey m => msgCheck formPairkey true m s
  | _ => none

/-! ## The block's own accesses -/

/-- From `s` to `t` the engines and the telemetry change by charges alone: the clients' tokens, the count of partial writes
and the counts of sectors, as an access of the block's own leaves them (R154, R160, R327). -/
def charged (s t : State) : Prop :=
  t.mem = { s.mem with mx := t.mem.mx } ∧ t.tel = { s.tel with cnt := t.tel.cnt } ∧
  ∀ e, mx t e = { mx s e with tokens := (mx t e).tokens, ctr := { (mx s e).ctr with rmw := (mx t e).ctr.rmw } }

/-! ## Entries of the POT -/

/-- An entry of the POT can be written (R130 step 3): the POT is not in memory yet, or the counter line of its sector is at
hand and can give it a version (R148). -/
def potAtHand (s : State) (page : Nat) (x : Pot) : Bool :=
  let n := potSector s page
  let pe := pot (setPot s page x) (sectorPage n)
  !s.mem.potLive || pe.mode != .fresh || (cairnGet s (leafOf s n pe.fslot)).any fun l =>
    decide (minorOf l.d (n % 64) < 0x3FFF) || decide (majorOf l.d + 1 < 2 ^ 42)

/-! ## Register accesses -/

/-- A write of a page that the register port admits while the pages are open (R399 to R402). -/
def regOpen (s : State) (a : Acc) (pg : Page) : Bool := !s.boot.inReset && admitAcc s a pg == .yes && pagesOpen s

/-! ## TDISP and IDE_KM -/

/-- The responder answers: firmware runs, and a session is open on the physical function's mailbox (R305). -/
def dsmUp (s : State) : Bool := s.boot.rdy && s.boot.scuUp && pfSession s

end Sys2Proof.Machine
end

