-- ==== Sys2Proof/Certificates/Slice0/Obligations.lean ====
section
/-! DEFINITION. The statements for the provers. Each says in its docstring which rules of the spec it rests on. -/

open Sys2Proof Sys2Proof.Machine

/-! ## The queue, reset, time -/

/-- A step takes the command at the front of the queue and runs it on the state with the rest of the queue. -/
def Obligations.StepRunsFrontCommand : Prop :=
  ∀ (s : State) (c : Instr) (rest : List Instr), s.pending = c :: rest →
    step s = exec c { s with pending := rest }

/-- The model's choice (log entries 8 and 57): on an empty queue a step is a microsecond of Tarn time while VDD_TARN is good.
Where nothing is due nothing else changes. What is due comes about in it: what a failed key slot brings within 20 µs (R260),
a PREPARE and requests that waited, what the remote request unit keeps; and Tarn writes every entry that stands in the
alarm-log FIFO (R394). Without VDD_TARN its time and its log stand. -/
def Obligations.EmptyQueueIsATarnTick : Prop :=
  ∀ s : State, s.pending = [] →
    (s.keys.failing = [] → s.range.prepWait = none → s.range.later = [] → s.rmt.streams = [] → s.rmt.held = [] →
      settleDue s = s) ∧
    (settleDue s = s → s.alarm.fifo = [] → s.boot.tarnGood = true → s.tarn.now + 1 < 2 ^ 64 →
      step s = .next { s with tarn := { s.tarn with now := s.tarn.now + 1 } }) ∧
    (settleDue s = s → s.boot.tarnGood = false → step s = .next s) ∧
    (settleDue s = s → s.boot.tarnGood = true → ∃ t, step s = .next t ∧ t.alarm = { s.alarm with fifo := [] } ∧
      t = { s with alarm := t.alarm, tarn := t.tarn } ∧ t.tarn.logTotal % 65536 =
        (s.tarn.logTotal + s.alarm.fifo.length) % 65536) ∧
    (∃ t, step s = .next t ∧
      t.tarn.now = if s.boot.tarnGood = true then ((settleDue s).tarn.now + 1) % 2 ^ 64 else (settleDue s).tarn.now)

/-- What the spec gives for the state after reset: QB_ID, QB_CTL 0x0000_0002, every ring, event ring and window 0 (R247,
R249, R403, R404); UNBOUND and no role (R31, R33); every partition FREE, every fence and context FREE (R194, R205, R215),
every generation 0 (the model's choice but for PID 0, log entry 5); no page LIVE, rinse budget 588 (R158, R161); ports OFF (R62); KSA slots EMPTY (R257); no alarm
seen (R375); Tarn at 0 with TSTART (R379, R397); QB_RDY low. -/
def Obligations.ResetLeavesTheSpecifiedValues : Prop :=
  let s := State.reset
  opWord s 0x0000 = 0x51420200 ∧ opWord s 0x0004 = 2 ∧ opWord s 0x0008 = 0 ∧
  (∀ n, ring s n = {} ∧ evt s n = {} ∧ window s n = {}) ∧
  s.range.memb = .unbound ∧ s.range.epoch = 0 ∧ s.range.shoulder = none ∧
  (∀ n, (part s n).state = .free ∧ curGen s n = 0 ∧ (tdi s n).state = .unlocked) ∧
  (∀ i, (ctx s i).state = .free ∧ (fence s i).state = .free) ∧
  (∀ p, (pot s p).state = .free) ∧ (∀ e, tget 0 (mx s e).nextBudget 32 = 588) ∧ s.mem.potLive = false ∧
  (∀ p, (link s p).state = .off) ∧ (∀ i, slot s i = {}) ∧ s.keys.zeroised = false ∧
  s.alarm.seen = 0 ∧ s.alarm.quar = false ∧ s.tarn.now = 0 ∧ s.tarn.tstart = true ∧ s.tarn.log = [] ∧
  s.boot.rdy = false ∧ s.pending = []

/-! ## Rings and commands (08) -/

/-- R230: the expected sequence number of a ring. Enabling a ring sets it to 0. A fetched command whose SEQ differs
completes with ERR_PARAM and the expected value in RESULT bytes 8 and 9, which does not advance; every other fetched
command, one of an opcode or form that the tables do not hold among them, advances it by 1 modulo 65,536 before any later
check decides its status. The range ring does not check, and its reply, a RANGE frame to the sender, echoes SEQ. -/
def Obligations.SequenceNumberRule : Prop :=
  (∀ (s : State) (a : Acc) (fn : Pid) (v : BitVec 32), regOpen s a (fnPage fn) = true → (ring s fn.val).en = false →
    4 ≤ bits v.toNat 9 4 → bits v.toNat 9 4 ≤ 12 → baseOk (v.getLsbD 1) (ring s fn.val).cbase = true →
    baseOk (v.getLsbD 1) (ring s fn.val).rbase = true →
    ∃ r, exec (.qbRingCtlEnSet a fn v) s = .next (setRing s fn.val r) ∧ r.en = true ∧ r.seqExp = 0) ∧
  (∀ (op : Op) (k : Taken) (pk : Packet) (m : List ReadIn), k.t.ring ≠ 32 → pk.body.seq ≠ (ring k.s k.t.ring).seqExp →
    receive op k pk m = finish k.s k.t .errParam (resultOf [(8, (ring k.s k.t.ring).seqExp.toNat)])) ∧
  (∀ (op : Op) (k : Taken) (pk : Packet) (m : List ReadIn), k.t.ring ≠ 32 → pk.body.seq = (ring k.s k.t.ring).seqExp →
    let s1 := setRing k.s k.t.ring { ring k.s k.t.ring with seqExp := (ring k.s k.t.ring).seqExp + 1 }
    receive op k pk m = match check35 op s1 k.t.ring pk.body k.pre with
      | some st => finish s1 k.t st
      | none => startOrQueue op s1 k.t pk m) ∧
  (∀ (op : Op) (k : Taken) (pk : Packet) (m : List ReadIn), k.t.ring = 32 →
    receive op k pk m = match check35 op k.s 32 pk.body k.pre with
      | some st => finish k.s k.t st
      | none => startOrQueue op k.s k.t pk m) ∧
  (∀ (k : Taken) (pk : Packet) (m : List ReadIn), k.t.ring ≠ 32 → opOf pk m = none →
    receiveAny k pk m = if pk.body.seq = (ring k.s k.t.ring).seqExp then
        finish (setRing k.s k.t.ring { ring k.s k.t.ring with seqExp := (ring k.s k.t.ring).seqExp + 1 }) k.t
          (if opcodeKnown pk.opcode = true then .errParam else .errOpcode)
      else finish k.s k.t .errParam (resultOf [(8, (ring k.s k.t.ring).seqExp.toNat)])) ∧
  (∀ (s : State) (src via : Nat) (pk : Packet) (st : Status) (r : BitVec 192),
    let k := takeOther s 32 src via pk
    k.t.seq = pk.body.seq ∧ (pk.opcode ≠ 0x73 ∨ st = .ok → ∃ b1 tag, finish k.s k.t st r =
      pushRange (lessInflight k.s 32) src via (replyBytes st b1 pk.opcode pk.form pk.body.seq tag r))) ∧
  (∀ st b1 op form (seq tag : BitVec 16) r, slice (replyBytes st b1 op form seq tag r) 4 2 = leBytes 2 seq.toNat)

/-- R233, checks 3 to 5 in their order: the first that fails decides the status. Check 3: FLAGS bits 7:2, the reserved
fields and every parameter bit that the form does not name are 0 (R11, R228); PTAG is 0x0000 in a command that acts on the
chip as a whole, but for a tenant ring's own PID, and on the range ring (32) in every command but the BIND query (R231).
Check 4: a tenant ring takes its own PID alone. Check 5: PTAG is of the current generation, no advance of its PID was under
way as the entry was posted (R232), and a named handle is that of its descriptor. -/
def Obligations.FirstFailingCheckDecides : Prop :=
  ∀ (op : Op) (s : State) (n : Nat) (p : Pkt) (pre : Nat),
    (check3 op n p = false → check35 op s n p pre = some .errParam) ∧
    (check3 op n p = true → check4 op n p = false → check35 op s n p pre = some .errPerm) ∧
    (check3 op n p = true → check4 op n p = true → (tagCurrent s p.ptag = false ∨ pre ≠ 0) →
      check35 op s n p pre = some .errStale) ∧
    (check3 op n p = true → check4 op n p = true → tagCurrent s p.ptag = true → pre = 0 → op.handle s p = false →
      check35 op s n p pre = some .errParam) ∧
    (check3 op n p = true → check4 op n p = true → tagCurrent s p.ptag = true → pre = 0 → op.handle s p = true →
      check35 op s n p pre = none) ∧
    ((p.flags &&& 0xFC#8 ≠ 0 ∨ p.rsvd3 ≠ 0 ∨ p.rsvd12 ≠ 0 ∨ p.params &&& ~~~ (namedMask op) ≠ 0) → check3 op n p = false) ∧
    (op.whole p = true → (n = 0 ∨ n = 32 ∨ n = 33) → p.ptag ≠ 0 → check3 op n p = false) ∧
    (¬(op.opcode = 0x15 ∧ op.form = 2) → p.ptag ≠ 0 → check3 op 32 p = false) ∧
    (1 ≤ n → n ≤ 31 → tagPid p.ptag ≠ n → check4 op n p = false)

/-- Writes of a ring's registers that the port admits (R11, R225, R227, R247, R410): a TAIL (bits 11:0) below the ring's size
posts entries, at or above it sets DB_ERR and nothing else, and with EN 0 the write is ignored; EN set while 0 checks CLOG2 and the
bases, takes CLOG2 and LOC, and zeroes HEAD, TAIL, the expected number, the pass and the pre-advance counts; EN set while
1 changes nothing; EN cleared stops the ring and changes nothing else; FAULT and DB_ERR clear where 1 is written.
Writes of an event ring's registers that the port admits (R237, R247): EN set while 0 checks ELOG2 and the base, takes
them and zeroes PROD and CONS; MOD and VECTOR are taken at any time; EN cleared; CONS; OVERFLOW cleared with DROPPED. -/
def Obligations.RingAndEventRingRegisterWrites : Prop :=
  (∀ (s : State) (a : Acc) (fn : Pid) (v : BitVec 32), regOpen s a (fnPage fn) = true →
    let r := ring s fn.val
    let set := fun r => Host.Outcome.next (setRing s fn.val r)
    (r.en = true → v.toNat % 4096 < 2 ^ r.clog2 →
      exec (.qbRingTailWrite a fn v) s = set { r with tail := v.toNat % 4096 }) ∧
    (r.en = true → 2 ^ r.clog2 ≤ v.toNat % 4096 → exec (.qbRingTailWrite a fn v) s = set { r with dbErr := true }) ∧
    (r.en = false → exec (.qbRingTailWrite a fn v) s = .next s) ∧
    (r.en = false → 4 ≤ bits v.toNat 9 4 → bits v.toNat 9 4 ≤ 12 → baseOk (v.getLsbD 1) r.cbase = true →
      baseOk (v.getLsbD 1) r.rbase = true →
      exec (.qbRingCtlEnSet a fn v) s = set { r with
        clog2 := bits v.toNat 9 4, loc := v.getLsbD 1, en := true, head := 0, tail := 0, seqExp := 0, oddPass := false
        pre := [] }) ∧
    (r.en = false → (bits v.toNat 9 4 < 4 ∨ 12 < bits v.toNat 9 4 ∨ baseOk (v.getLsbD 1) r.cbase = false ∨
        baseOk (v.getLsbD 1) r.rbase = false) →
      exec (.qbRingCtlEnSet a fn v) s = set { r with clog2 := bits v.toNat 9 4, loc := v.getLsbD 1 }) ∧
    (r.en = true → exec (.qbRingCtlEnSet a fn v) s = set { r with en := true }) ∧
    (r.en = true → exec (.qbRingCtlEnClear a fn v) s = set { r with en := false }) ∧
    (r.en = false → exec (.qbRingCtlEnClear a fn v) s = set { r with clog2 := bits v.toNat 9 4, loc := v.getLsbD 1 }) ∧
    exec (.qbRingStatusClear a fn v) s =
      set { r with fault := r.fault && !v.getLsbD 31, dbErr := r.dbErr && !v.getLsbD 30 }) ∧
  (∀ (s : State) (a : Acc) (fn : Pid) (v : BitVec 32), regOpen s a (fnPage fn) = true →
    let e := evt s fn.val
    let set := fun e => Host.Outcome.next (setEvt s fn.val e)
    (e.en = false → 6 ≤ bits v.toNat 1 5 → bits v.toNat 1 5 ≤ 16 → baseOk (v.getLsbD 6) e.base = true →
      exec (.qbEvtCtlEnSet a fn v) s = set { e with
        mod := bits v.toNat 24 8, vector := bits v.toNat 13 11, elog2 := bits v.toNat 1 5, loc := v.getLsbD 6, en := true
        prod := 0, cons := 0 }) ∧
    (e.en = true →
      exec (.qbEvtCtlEnSet a fn v) s = set { e with mod := bits v.toNat 24 8, vector := bits v.toNat 13 11, en := true }) ∧
    (e.en = true →
      exec (.qbEvtCtlEnClear a fn v) s =
        set { e with mod := bits v.toNat 24 8, vector := bits v.toNat 13 11, en := false }) ∧
    exec (.qbEvtConsWrite a fn v) s = set { e with cons := v.toNat % 65536 } ∧
    (v.getLsbD 31 = true → exec (.qbEvtStatusClear a fn v) s = set { e with overflow := false, dropped := 0 }) ∧
    (v.getLsbD 31 = false → exec (.qbEvtStatusClear a fn v) s = .next s))

/-- Writes of the operator page's other fields that the port admits (R92, R159, R334, R375, R404): TENANT_HOLD and
VF_DOE_EN of QB_CTL, which ends the sessions of a virtual function's mailbox in the middle of a message (R410), the W1C bits of QB_ALARM_STATUS, QB_LINK_STATUS and QB_MX_STATUS, and QB_TEL_SEL.
Writes of the base registers of a ring and of an event ring (R246, R247): each half is taken while EN is 0, bits 11:0 of
the low half left out, and is ignored while EN is 1. A write of the Reserved part of the window changes nothing (R410).
R402, R410: before QB_RDY and after qb_pwr_down_ack a write of a page that is not refused has no effect, and while
qb_rst_n is asserted it is dropped. -/
def Obligations.OperatorPageWritesAndClosedPages : Prop :=
  (∀ (s : State) (a : Acc) (v : BitVec 32), regOpen s a .operator = true →
    (v.getLsbD 1 = true → exec (.tenantHoldWrite a v) s =
      .next { s with cmd := { s.cmd with tenantHold := v.getLsbD 8, vfDoeEn := true } }) ∧
    (v.getLsbD 1 = true → exec (.vfDoeEnWrite a v) s =
      .next { s with cmd := { s.cmd with tenantHold := v.getLsbD 8, vfDoeEn := true } }) ∧
    (v.getLsbD 1 = false → ∃ t, exec (.vfDoeEnWrite a v) s = .next t ∧ t.cmd.vfDoeEn = false ∧
      t.cmd.tenantHold = v.getLsbD 8 ∧ (s.cmd.vfDoeEn = true → t.spdm.sessions = s.spdm.sessions.filter fun x =>
        !(s.spdm.conns.any fun e => e.1 == x.mb && 1 ≤ e.1 && e.1 ≤ 31 && !e.2.chunkIn.isEmpty)) ∧
      t.part = s.part ∧ t.keys = s.keys ∧ t.mem = s.mem) ∧
    exec (.qbAlarmStatusClear a v) s =
      .next { s with alarm := { s.alarm with seen := s.alarm.seen &&& ~~~ (v.extractLsb' 18 10) } } ∧
    (∀ p : Port, exec (.qbLinkStatusClear a p v) s = .next (setLink s p.val { link s p.val with
      peerLost := (link s p.val).peerLost && !v.getLsbD 13, tagAlarm := (link s p.val).tagAlarm && !v.getLsbD 12 })) ∧
    (∀ e : Eng, exec (.qbMxStatusClear a e v) s = .next (setMx s e.val { mx s e.val with
      alarm := (mx s e.val).alarm && !v.getLsbD 0 })) ∧
    (exec (.registerWrite a .operator 0x448 (leBytes 4 v.toNat)) s =
      .next { s with tel := { s.tel with sel := v.toNat % 32 } })) ∧
  (∀ (s : State) (a : Acc) (fn : Pid) (v : BitVec 32), regOpen s a (fnPage fn) = true →
    let base := if fn = 0 then 0x800 else 0x100
    let write := fun off => exec (.registerWrite a (fnPage fn) (base + off) (leBytes 4 v.toNat)) s
    let r := ring s fn.val
    let e := evt s fn.val
    let low := fun (b : BitVec 64) => b.extractLsb' 32 32 ++ (v &&& 0xFFFFF000#32)
    let high := fun (b : BitVec 64) => v ++ b.extractLsb' 0 32
    (r.en = false → write 0x10 = .next (setRing s fn.val { r with cbase := low r.cbase }) ∧
      write 0x14 = .next (setRing s fn.val { r with cbase := high r.cbase }) ∧
      write 0x18 = .next (setRing s fn.val { r with rbase := low r.rbase }) ∧
      write 0x1C = .next (setRing s fn.val { r with rbase := high r.rbase })) ∧
    (r.en = true → write 0x10 = .next s ∧ write 0x14 = .next s ∧ write 0x18 = .next s ∧ write 0x1C = .next s) ∧
    (e.en = false → write 0x20 = .next (setEvt s fn.val { e with base := low e.base }) ∧
      write 0x24 = .next (setEvt s fn.val { e with base := high e.base })) ∧
    (e.en = true → write 0x20 = .next s ∧ write 0x24 = .next s)) ∧
  (∀ (s : State) (a : Acc) (off : Nat) (b : Bytes), regOpen s a .rest = true →
    exec (.registerWrite a .rest off b) s = .next s) ∧
  (∀ (s : State) (a : Acc) (fn : Pid) (pg : Page) (off : Nat) (b : Bytes) (v : BitVec 32),
    (s.boot.inReset = true ∨ (pagesOpen s = false ∧ admitAcc s a (fnPage fn) ≠ .ur true ∧
      admitAcc s a (fnPage fn) ≠ .ur false ∧ admitAcc s a pg ≠ .ur true ∧ admitAcc s a pg ≠ .ur false)) →
    exec (.registerWrite a pg off b) s = .next s ∧ exec (.qbRingTailWrite a fn v) s = .next s ∧
    exec (.qbRingCtlEnSet a fn v) s = .next s ∧ exec (.qbRingCtlEnClear a fn v) s = .next s ∧
    exec (.qbEvtCtlEnSet a fn v) s = .next s)

/-- The two reads that change the state (R235, R396): QB_TARN_TIME_LO gives the low word and latches the high word for
its own reader; words of a read-once window read once as written, word 0 afterwards shows READ_ONCE_CONSUMED in its status
byte with its other bytes unchanged, and every other word shows 0; nothing but the window changes. -/
def Obligations.ReadsThatChangeState : Prop :=
  (∀ (s : State) (a : Acc), admitAcc s a .tarn = .yes →
    exec (.qbTarnTimeLoRead false a) s = .next { s with
      tarn := { s.tarn with hiOper := BitVec.ofNat 32 (s.tarn.now / 2 ^ 32 % 2 ^ 32) }
      out := .regRead 0 (leBytes 4 (s.tarn.now % 2 ^ 32)) :: s.out }) ∧
  (∀ (s : State) (a : Acc), s.boot.scuUp = true →
    exec (.qbTarnTimeLoRead true a) s = .next { s with
      tarn := { s.tarn with hiScu := BitVec.ofNat 32 (s.tarn.now / 2 ^ 32 % 2 ^ 32) }
      out := .regRead 0 (leBytes 4 (s.tarn.now % 2 ^ 32)) :: s.out }) ∧
  (∀ (s : State) (a : Acc) (fn : Pid) (i : Nat), admitAcc s a (fnPage fn) = .yes → pagesOpen s = true → i < 24 →
    ∃ w, exec (.readOnceWindowRead a fn (4 * i) 4) s = .next { s with
      cmd := { s.cmd with windows := tset {} s.cmd.windows fn.val w }
      out := .regRead (4 * i) (leBytes 4 (windowWord (window s fn.val) i)) :: s.out } ∧
    ((window s fn.val).full = true → i = 0 → windowWord w 0 % 256 = 0x0B ∧
      windowWord w 0 / 256 = windowWord (window s fn.val) 0 / 256) ∧
    (i ≠ 0 → windowWord w i = 0 ∧ w.words = (window s fn.val).words.filter fun e => e.1 != i) ∧
    (i = 0 → w.words = (window s fn.val).words))

/-- RING_FETCH (R223 to R225): a fetch of one entry takes the command through its checks as the row of its opcode does; a
denied or failed fetch sets FAULT and posts RING_FAULT; a ring that is not to be fetched is left alone. Up to four entries
are taken in ring order.
FW_COMMAND_START (R233, R241 to R243): the one command that waits starts once nothing goes before it, a firmware command
only while the SCU runs, and takes its ring's turn: check 5 is made again, and a command whose generation has advanced
completes with ERR_STALE. A packet of the range ring starts likewise. -/
def Obligations.FetchAndFirmwareStart : Prop :=
  ((∀ (s : State) (n : Fin 32) (pk : Packet) (m : List ReadIn) (op : Op), opOf pk m = some op →
    op.opcode = pk.opcode → op.form = pk.form → fetchable s n.val = true →
    exec (.ringFetch n (some [(pk, m)])) s = .next (issue op s ⟨n.val, pk.body, m⟩)) ∧
  (∀ (s : State) (n : Fin 32), fetchWanted s n.val = true → exec (.ringFetch n none) s = .next (ringFault s n.val)) ∧
  (∀ (s : State) (n : Fin 32) l, fetchWanted s n.val = false → exec (.ringFetch n l) s = .next s) ∧
  (∀ (s : State) (n : Fin 32) (e : Packet × List ReadIn) l, fetchable s n.val = true → l.length ≤ 3 → ∀ t,
    exec (.ringFetch n (some [e])) s = .next t → fetchable t n.val = true →
    exec (.ringFetch n (some (e :: l))) s = exec (.ringFetch n (some l)) t) ∧
  (∀ (s : State) (n : Nat), charged s (ringFault s n) ∧ (ringFault s n).part = s.part ∧ (ringFault s n).keys = s.keys ∧
    (ringFault s n).ridge = s.ridge ∧ (ringFault s n).rmt = s.rmt ∧ (ringFault s n).range = s.range)) ∧
  (∀ (s : State) (q : Queued) (m : List ReadIn) (op : Op), s.cmd.fwq = [q] → s.cmd.rangeQ = [] →
    placeOk s q.fast q.tkt q.packet.body = true → opOf q.packet m = some op → q.tkt.ring ≤ 33 →
    (q.fast = true ∨ (s.boot.rdy = true ∧ s.boot.scuUp = true)) →
    let s0 := if q.fast = true then s else noteTurn s q.tkt.ring
    let s1 := { s0 with cmd := { s0.cmd with fwq := [] } }
    (check5 op s1 q.packet.body 0 = none →
      exec (.fwCommandStart m) s = .next (runOp op s1 q.tkt q.packet.body m)) ∧
    (tagCurrent s q.packet.body.ptag = false → exec (.fwCommandStart m) s = .next (finish s1 q.tkt .errStale))) ∧
  (∀ (s : State) (q : Queued) (m : List ReadIn), s.cmd.fwq = [q] → s.cmd.rangeQ = [] →
    (placeOk s q.fast q.tkt q.packet.body = false ∨ (q.fast = false ∧ s.boot.scuUp = false)) →
    exec (.fwCommandStart m) s = .next s) ∧
  (∀ (s : State) (q : RangeIn) (l : List RangeIn) (m : List ReadIn), s.cmd.fwq = [] → s.cmd.rangeQ = q :: l →
    s.boot.rdy = true → s.boot.scuUp = true → q.packet.body.flags.getLsbD 1 = false → s.cmd.waits = [] →
    exec (.fwCommandStart m) s = .next (startRange { s with cmd := { s.cmd with rangeQ := l } } q))

/-- MSIX_MODERATION_EXPIRY (R237): a deferred vector is raised once its interval is over, and only then. Its message leaves
plain, or, of a TDI in RUN, on its selective stream under the posted sub-stream's key in use, whose count advances (R14, R203).
R240, R229, R226: what completing a command of an operator or tenant ring writes: the reply at the command's own entry
with the phase of its pass, the echoes, the tag after the command, and then, where IRQ was set, the COMPLETION event. A
reply in host memory off any stream touches nothing else; one in device memory makes the charges of its sector (R154). -/
def Obligations.RepliesAndDeferredVectors : Prop :=
  (∀ (s : State) (fn : Pid) (v : BitVec 11),
    let k := fn.val * 2048 + v.toNat
    let m := tget ({} : Moder) s.cmd.msix k
    let s1 := { s with cmd := { s.cmd with
      msix := tset {} s.cmd.msix k { last := s.tarn.now, raised := true, deferred := false } } }
    (m.deferred = true → m.last + (evt s fn.val).mod ≤ s.tarn.now → outStream s fn.val = none →
      exec (.msixModerationExpiry fn v) s = .next { s1 with out := .msix fn.val v.toNat none :: s.out }) ∧
    (∀ x key, m.deferred = true → m.last + (evt s fn.val).mod ≤ s.tarn.now → outStream s fn.val = some x →
      ideInUse s x ⟨0, true⟩ = some key → ∃ c mac, exec (.msixModerationExpiry fn v) s = .next { ideCount s1 x ⟨0, true⟩ with
        out := .msix fn.val v.toNat (some x) :: .ide x 0 c mac :: s.out } ∧
        mac = Config.ideMac key 0 (ideUsed s x ⟨0, true⟩) c) ∧
    ((m.deferred = false ∨ s.tarn.now < m.last + (evt s fn.val).mod) → exec (.msixModerationExpiry fn v) s = .next s)) ∧
  (∀ (s : State) (t : Ticket) (st : Status) (r : BitVec 192), t.ring ≤ 31 → t.mute = false → t.irq = false →
    (t.opcode = 0x73 → st = .ok) →
    ringAreaOk s t.ring (ring s t.ring).rbase (t.idx * 32) 32 rDWR = true →
    let tag := if st = .ok ∧ tagPid t.ptag ≠ 0 then curTag s (tagPid t.ptag) else t.ptag
    finish s t st r = emit (replyWrite (lessInflight s t.ring) t
        (replyBytes st (if t.phase = true then 128 else 0) t.opcode t.form t.seq tag r))
      (.reply t.ring t.idx (ringPath s t.ring)
        { status := st, phase := t.phase, opcode := t.opcode, form := t.form, seq := t.seq, ptag := tag, result := r })) ∧
  (∀ (s : State) (t : Ticket) (b : Bytes), t.ring ≤ 31 →
    ((ring s t.ring).loc = true → outStream s t.ring = none → replyWrite s t b = s) ∧
    ((ring s t.ring).loc = false → charged s (replyWrite s t b) ∧
      replyWrite s t b = { s with mem := (replyWrite s t b).mem, tel := (replyWrite s t b).tel })) ∧
  (∀ (s : State) (t : Ticket) (st : Status) (r : BitVec 192), t.ring ≤ 31 → t.mute = false → t.irq = true →
    finish s t st r = postEvent (finish s { t with irq := false } st r) t.ring
      (evWord t.cookie (evHandle t.ring 1) (t.seq.toNat + t.opcode.toNat * 65536) (statusCode st)))


/-! ## Partitions (07) -/

/-- PART_CREATE (R43, R195, R198, R261): the PID becomes ACTIVE with CTAG its current tag, the next MEPOCH, no tiles, no
job, the flags named; its peer entries are cleared; no generation, page, context or fence changes. Where the derivation
logic may not take FWS, or for a confidential partition the range key, the command completes with ERR_PERM (R258); where
one fails its check, with ERR_INTEGRITY and the failure marked (the model's choice, log entry 105). -/
def Obligations.PartCreateMakesAnActivePartition : Prop :=
  ∀ (s : State) (c : Cmd) (k : State) (t : Ticket), accepted opPartCreate s c = some (k, t) →
    let pid := tagPid t.ptag
    let conf := parmBit c.body 16 0
    k.range.memb ≠ .quarantined → (part k pid).state = .free → k.keys.entFailed = false → 5 ≤ (freeDerived k).length →
    (conf = true → k.range.memb = .member ∧ k.range.test = false ∧ jtagScuActive k = false) →
    ((keyFits k 1 .fwlayer .derivation 0 = false ∨ (conf = true ∧ keyFits k 2 .range .derivation 0 = false)) →
      exec (.partCreate c) s = .next (finish k t .errPerm)) ∧
    (keyFits k 1 .fwlayer .derivation 0 = true → (conf = true → keyFits k 2 .range .derivation 0 = true) →
      ∀ b, readBad k (if conf then [1, 2] else [1]) = some b →
        exec (.partCreate c) s = .next (finish b t .errIntegrity)) ∧
    (keyFits k 1 .fwlayer .derivation 0 = true → (conf = true → keyFits k 2 .range .derivation 0 = true) →
      readBad k (if conf then [1, 2] else [1]) = none → ∃ e, exec (.partCreate c) s = .next (finish e t .ok
        (resultOf [(8, (curTag k pid).toNat), (10, (curTag k pid).toNat), (12, k.part.mepochNext.toNat)])) ∧
      part e pid = { state := .active, ctag := curTag k pid, conf := conf, strict := parmBit c.body 16 1
                     mepoch := k.part.mepochNext } ∧
      e.part.mepochNext = k.part.mepochNext + 1 ∧ (∀ node, node < 16384 → peer e pid node = {}) ∧
      e.part.gens = k.part.gens ∧ e.part.ctxs = k.part.ctxs ∧ e.part.fences = k.part.fences ∧
      e.mem.pot = k.mem.pot ∧ e.fuse = k.fuse ∧ e.range = k.range)

/-- PART_ASSIGN_TILES (R196, R326): ADD hands over every tile named where each is scrubbed, free and has a port partner of
no other partition; REMOVE takes every tile named back and asks the T5 for its reset. All or none: where one tile is not so,
the command completes with ERR_STATE and no tile moves. -/
def Obligations.TilesMoveAllOrNone : Prop :=
  ∀ (s : State) (c : Cmd) (k : State) (t : Ticket),
    let pid := tagPid t.ptag
    let l := tileList (tilesOf c.body)
    let free := fun i => tileOwner k i == 0 && k.part.scrubbed.getLsbD i &&
      (tileOwner k (tileMate i) == 0 || tileOwner k (tileMate i) == pid)
    (accepted opTilesAdd s c = some (k, t) → active k pid = true → l.all free = true →
      ∃ e, exec (.partAssignTilesAdd c) s = .next (finish e t .ok (resultOf [(8, tileCount (part e pid).tiles)])) ∧
        (part e pid).tiles = (part k pid).tiles ||| tilesOf c.body ∧
        e.part.scrubbed = k.part.scrubbed &&& ~~~ tilesOf c.body ∧ e.part.ctxs = k.part.ctxs ∧ e.mem = k.mem) ∧
    (accepted opTilesAdd s c = some (k, t) → (active k pid = false ∨ l.all free = false) →
      exec (.partAssignTilesAdd c) s = .next (finish k t .errState)) ∧
    (accepted opTilesRemove s c = some (k, t) → active k pid = true → hasResident k pid = false →
      l.all (fun i => (part k pid).tiles.getLsbD i) = true →
      ∃ e, exec (.partAssignTilesRemove c) s = .next (finish e t .ok (resultOf [(8, tileCount (part e pid).tiles)])) ∧
        (part e pid).tiles = (part k pid).tiles &&& ~~~ tilesOf c.body ∧
        e.part.tileReset = k.part.tileReset ||| tilesOf c.body ∧ e.part.scrubbed = k.part.scrubbed ∧ e.mem = k.mem) ∧
    (accepted opTilesRemove s c = some (k, t) → (active k pid = false ∨ hasResident k pid = true ∨
        l.all (fun i => (part k pid).tiles.getLsbD i) = false) →
      exec (.partAssignTilesRemove c) s = .next (finish k t .errState))

/-- PART_MAP PEER (R198, R199, R201, R234): an open partition's entry is written with VALID set and SILENT and BOUND clear;
CLEAR writes the zero entry for either kind; a confidential partition with a job waits for the binding with its entry as it
was, and one without a job completes with ERR_STATE and leaves VALID 0. A binding that ends writes the entry: BOUND with the
tag asked for, or VALID 0. -/
def Obligations.PeerEntriesAreWrittenOrBound : Prop :=
  ∀ (s : State) (c : Cmd) (k : State) (t : Ticket), accepted opMapPeer s c = some (k, t) →
    let pid := tagPid t.ptag
    let node := parm c.body 16 16
    let tag := BitVec.ofNat 16 (parm c.body 18 16)
    (part k pid).state = .active →
    (parmBit c.body 20 0 = true → exec (.partMapPeer c) s = .next (finish (setPeer k pid node {}) t .ok 0)) ∧
    (parmBit c.body 20 0 = false → (part k pid).conf = false → exec (.partMapPeer c) s =
      .next (finish (setPeer k pid node { ptag := tag, valid := true }) t .ok
        (resultOf [(8, tag.toNat * 65536 + 32768)]))) ∧
    (parmBit c.body 20 0 = false → (part k pid).conf = true → (part k pid).jobSet = false → exec (.partMapPeer c) s =
      .next (finish (setPeer k pid node { ptag := tag }) t .errState)) ∧
    (parmBit c.body 20 0 = false → (part k pid).conf = true → (part k pid).jobSet = true →
      ∃ e : State, exec (.partMapPeer c) s = .next { e with cmd := { e.cmd with
          waits := e.cmd.waits ++ [⟨t, pid, .peerBind pid node tag⟩] } } ∧
        e.part = k.part ∧ e.cmd = k.cmd ∧ e.mem = k.mem ∧ e.keys = k.keys) ∧
    (∀ (e : State) (st : Status), bindTag e pid node = some tag →
      (endBind e pid node st).part = (setPeer e pid node { ptag := tag, valid := st == .ok, bound := st == .ok }).part)

/-- PART_STATUS and RANGE_STATUS (R199, R239): they report and change nothing. A BIND query is BUSY during a takeover
(R367). -/
def Obligations.StatusCommandsOnlyReport : Prop :=
  (∀ (s : State) (c : Cmd) (k : State) (t : Ticket), accepted (opPartStatus false) s c = some (k, t) →
    let pid := tagPid t.ptag
    let q := part k pid
    exec (.partStatusSummary false c) s = .next (finish k t .ok (resultOf [(8, partCode k pid),
      (9, b2n q.conf + 2 * b2n q.jobSet + 4 * b2n q.strict), (10, (curTag k pid).toNat), (12, q.ctag.toNat),
      (14, tileCount q.tiles), (16, livePages k pid), (20, (ctxsOf k pid).length), (22, (fencesOf k pid).length),
      (24, q.kills), (28, q.lost)]))) ∧
  (∀ (s : State) (c : Cmd) (k : State) (t : Ticket), accepted (opPartStatus true) s c = some (k, t) →
    let pid := tagPid t.ptag
    exec (.partStatusSummary true c) s = .next (finish k t .ok (resultOf
      [(8, portMask fun p => tget 0 (link k p).shares pid != 0), (13, portMask fun p => (link k p).screeCad != 0)]))) ∧
  (∀ (s : State) (m : RMsg) (k : State) (t : Ticket), rangeAccepted opPartBind s m = some (k, t) →
    s.range.memb ≠ .reforming → k.range.takeover = false →
    let pid := tagPid t.ptag
    let q := part k pid
    exec (.partStatusBind m) s = .next (finish k t .ok (resultOf [(8, b2n (active k pid) +
      2 * b2n (active k pid && q.conf) +
      4 * b2n (active k pid && q.jobSet && q.job == BitVec.ofNat 64 (m.params.toNat % 2 ^ 64)))]))) ∧
  (∀ (s : State) (m : RMsg) (k : State) (t : Ticket), rangeAccepted opPartBind s m = some (k, t) →
    k.range.takeover = true → exec (.partStatusBind m) s = .next (finish k t .busy)) ∧
  (∀ (s : State) (c : Cmd) (k : State) (t : Ticket), accepted opRangeStatus s c = some (k, t) →
    k.range.memb ≠ .unbound → exec (.rangeStatus c) s = .next (finish k t .ok (resultOf
      [(8, k.range.rangeId.toNat), (16, k.range.members.length), (18, k.range.summit), (20, k.range.shoulder.getD 0xFFFF),
       (22, membCode k.range.memb), (23, roleCode k.range.role), (24, k.range.epoch.toNat)]))) ∧
  (∀ (s : State) (c : Cmd) (k : State) (t : Ticket), accepted opRangeStatus s c = some (k, t) →
    k.range.memb = .unbound → exec (.rangeStatus c) s = .next (finish k t .ok 0))

/-! ## Contexts (07) -/

/-- CTX_LOAD (R207, R209): NEW writes a descriptor that was FREE, in a resident slot that was free, and returns its handle;
RESUME makes an EVICTED context resident and brings back its queue position. -/
def Obligations.CtxLoadMakesResident : Prop :=
  ∀ (s : State) (c : Cmd) (k : State) (t : Ticket),
    let pid := tagPid t.ptag
    let n := freeSlot k
    (accepted opCtxLoadNew s c = some (k, t) → loadable k pid = true → n < 64 → freeCtx k < 16384 →
      exec (.ctxLoadNew c) s = .next (finish (setCtx k (freeCtx k)
        { state := .resident, inc := (ctx k (freeCtx k)).inc, pid := pid, ptag := curTag k pid, slot := n
          owner := BitVec.ofNat 16 (parm c.body 16 16), qbase := BitVec.ofNat 41 (parm c.body 24 48)
          qlog2 := parm c.body 30 8 }) t .ok
        (resultOf [(8, (mkHandle pid (ctx k (freeCtx k)).inc (freeCtx k)).toNat), (12, n)]))) ∧
    (accepted opCtxLoadNew s c = some (k, t) → loadable k pid = false →
      exec (.ctxLoadNew c) s = .next (finish k t .errState)) ∧
    (accepted opCtxLoadNew s c = some (k, t) → loadable k pid = true → 64 ≤ n →
      exec (.ctxLoadNew c) s = .next (finish k t .errResource)) ∧
    (accepted opCtxLoadResume s c = some (k, t) → loadable k pid = true →
      let i := ctxIdx (BitVec.ofNat 32 (parm c.body 16 32))
      (ctx k i).state = .evicted → n < 64 →
      ∃ e, exec (.ctxLoadResume c) s = .next (finish e t .ok
          (resultOf [(8, (BitVec.ofNat 32 (parm c.body 16 32)).toNat), (12, n)])) ∧
        (ctx e i).state = .resident ∧ (ctx e i).slot = n ∧ (ctx e i).head = (ctx k i).head ∧
        (ctx e i).ptag = curTag k pid ∧ e.part.fences = k.part.fences ∧ e.mem = k.mem ∧ e.part.parts = k.part.parts) ∧
    (accepted opCtxLoadResume s c = some (k, t) →
      (ctx k (ctxIdx (BitVec.ofNat 32 (parm c.body 16 32)))).state = .lost →
      exec (.ctxLoadResume c) s = .next (finish k t .errLost))

/-- CTX_EVICT (R206, R207, R211, R219): SAVE of a context that runs no command, DISCARD, KILL and ABANDON, and the statuses
where the context's state does not allow them. -/
def Obligations.CtxEvictFollowsTheStateTable : Prop :=
  ∀ (s : State) (c : Cmd) (k : State) (t : Ticket),
    let pid := tagPid t.ptag
    let i := ctxIdx (BitVec.ofNat 32 (parm c.body 16 32))
    (accepted opCtxEvictSave s c = some (k, t) → (ctx k i).state = .resident → (ctx k i).phase = .none →
      ∃ e, exec (.ctxEvictSave c) s = .next (finish e t .ok) ∧
        ctx e i = { ctx k i with state := .evicted, slot := 0, phase := .none, held := false } ∧ e.mem = k.mem ∧
        e.part.parts = k.part.parts ∧ e.part.fences = k.part.fences) ∧
    (accepted opCtxEvictSave s c = some (k, t) → (ctx k i).state = .resident → (ctx k i).phase ≠ .none →
      exec (.ctxEvictSave c) s = .next { k with cmd := { k.cmd with waits := k.cmd.waits ++ [⟨t, pid, .save i⟩] } }) ∧
    (accepted opCtxEvictDiscard s c = some (k, t) → (ctx k i).state ≠ .resident →
      exec (.ctxEvictDiscard c) s = .next (finish (setCtx k i { inc := (ctx k i).inc + 1 }) t .ok)) ∧
    (accepted opCtxEvictDiscard s c = some (k, t) → (ctx k i).state = .resident →
      exec (.ctxEvictDiscard c) s = .next (finish k t .errState)) ∧
    (accepted opCtxEvictKill s c = some (k, t) → (ctx k i).state = .resident →
      exec (.ctxEvictKill c) s = .next { k with
        part := { k.part with kills := k.part.kills ++ [(pid, { stage := .commits, ctx := i })] }
        cmd := { k.cmd with waits := k.cmd.waits ++ [⟨t, pid, .kill pid⟩] } }) ∧
    (accepted opCtxEvictKill s c = some (k, t) → (ctx k i).state = .lost →
      exec (.ctxEvictKill c) s = .next (finish k t .errLost)) ∧
    (accepted opCtxEvictAbandon s c = some (k, t) →
      let o := BitVec.ofNat 16 (parm c.body 16 16)
      ∃ e, exec (.ctxEvictAbandon c) s = .next (finish e t .ok (resultOf
          [(8, ((ctxsOf k pid).filter fun i => (ctx k i).owner == o &&
              ((ctx k i).state == .resident || (ctx k i).state == .evicted)).length),
           (10, ((fencesOf k pid).filter fun i => (fence k i).owner == o).length)])) ∧
        e.part.gens = k.part.gens ∧ charged k e)

/-! ## Fences (07) -/

/-- FENCE_CREATE and FENCE_DESTROY (R206, R215, R239): a LIVE fence at VALUE 0 in a FREE descriptor, its handle returned; a
fence that nothing waits on and no armed plan names returns to FREE with its incarnation advanced, and one in use completes
with ERR_STATE. -/
def Obligations.FencesAreCreatedAndFreed : Prop :=
  ∀ (s : State) (c : Cmd) (k : State) (t : Ticket),
    let pid := tagPid t.ptag
    let mode := parm c.body 22 8 / 2 % 4
    let h := BitVec.ofNat 32 (parm c.body 16 32)
    (accepted opFenceCreate s c = some (k, t) → (pid = 0 ∨ active k pid = true) → freeFence k < 65535 →
      exec (.fenceCreate c) s = .next (finish (setFence k (freeFence k)
        { state := .live, inc := (fence k (freeFence k)).inc, pid := pid, cookie := BitVec.ofNat 32 (parm c.body 16 32)
          vector := BitVec.ofNat 11 (parm c.body 20 16), owner := BitVec.ofNat 16 (parm c.body 24 16)
          ptag := curTag k pid, irq := parmBit c.body 22 0
          strict := if mode = 0 then (part k pid).strict else mode = 2 }) t .ok
        (resultOf [(8, (mkHandle pid (fence k (freeFence k)).inc (freeFence k)).toNat)]))) ∧
    (accepted opFenceCreate s c = some (k, t) → (pid = 0 ∨ active k pid = true) → 65535 ≤ freeFence k →
      exec (.fenceCreate c) s = .next (finish k t .errResource)) ∧
    (accepted opFenceDestroy s c = some (k, t) → fenceBusy k h = false →
      exec (.fenceDestroy c) s = .next (finish (setFence k (fenceIdx h) { inc := (fence k (fenceIdx h)).inc + 1 }) t .ok)) ∧
    (accepted opFenceDestroy s c = some (k, t) → fenceBusy k h = true →
      exec (.fenceDestroy c) s = .next (finish k t .errState))

/-- R216, R217: what a signal does to its fence. A signal of an old generation is discarded and counted; a value above VALUE
moves it; a value not above it counts in OOO and moves nothing; an error signal of a LIVE fence makes it ERROR with the
status, and one of a fence in ERROR keeps the first status. -/
def Obligations.FenceSignalSequence : Prop :=
  ∀ (s : State) (h : BitVec 32) (v : BitVec 64) (st : BitVec 8) (tag : BitVec 16),
    let f := fence s (fenceIdx h)
    let r := signalFence s h v st tag
    f.state ≠ .free →
    (tagCurrent s tag = false → r.2 = .stale ∧
      r.1 = { s with part := { s.part with ctr := { s.part.ctr with fenceStale := inc32 s.part.ctr.fenceStale } } }) ∧
    (tagCurrent s tag = true → st = 0 → f.value < v → r.2 = .applied ∧ fence r.1 (fenceIdx h) = { f with value := v } ∧
      r.1.part.ctr.fenceSignals = inc32 s.part.ctr.fenceSignals) ∧
    (tagCurrent s tag = true → st = 0 → v ≤ f.value → r.2 = (if f.strict then .oooStrict else .ooo) ∧
      fence r.1 (fenceIdx h) = { f with ooo := inc32 f.ooo } ∧ r.1.part.ctr.fenceOoo = inc32 s.part.ctr.fenceOoo ∧
      r.1.part.ctxs = s.part.ctxs ∧ r.1.out = s.out) ∧
    (tagCurrent s tag = true → st ≠ 0 → f.state = .live → r.2 = .applied ∧
      fence r.1 (fenceIdx h) = { f with state := .error, err := st }) ∧
    (tagCurrent s tag = true → st ≠ 0 → f.state = .error → r.2 = .applied ∧ fence r.1 (fenceIdx h) = f) ∧
    charged s r.1 ∧ r.1.keys = s.keys ∧ r.1.fold = s.fold ∧ r.1.part.parts = s.part.parts

/-- FENCE_SIGNAL from a ring (R216, R217, R239): SIGNAL and ERROR apply the signal sequence and report the fence after it; a
strict-mode out-of-order signal completes with ERR_PARAM; QUERY reports and changes nothing. -/
def Obligations.RingSignalsReportTheFence : Prop :=
  ∀ (s : State) (c : Cmd) (k : State) (t : Ticket),
    let h := BitVec.ofNat 32 (parm c.body 16 32)
    let val := signalFence k h (BitVec.ofNat 64 (parm c.body 20 64)) 0 t.ptag
    let err := signalFence k h (BitVec.ofNat 64 (parm c.body 20 64)) (BitVec.ofNat 8 (parm c.body 28 8)) t.ptag
    let res := fun (e : State) (o : Nat) => let f := fence e (fenceIdx h)
      resultOf [(8, f.value.toNat), (16, if f.state = .error then 2 else 1), (17, f.err.toNat), (18, o)]
    (accepted opFenceSignal s c = some (k, t) → val.2 = .applied →
      exec (.fenceSignalSignal c) s = .next (finish val.1 t .ok (res val.1 0))) ∧
    (accepted opFenceSignal s c = some (k, t) → val.2 = .ooo →
      exec (.fenceSignalSignal c) s = .next (finish val.1 t .ok (res val.1 1))) ∧
    (accepted opFenceSignal s c = some (k, t) → val.2 = .oooStrict →
      exec (.fenceSignalSignal c) s = .next (finish val.1 t .errParam)) ∧
    (accepted opFenceError s c = some (k, t) → err.2 = .applied →
      exec (.fenceSignalError c) s = .next (finish err.1 t .ok (res err.1 0))) ∧
    (accepted opFenceQuery s c = some (k, t) →
      exec (.fenceSignalQuery c) s = .next (finish k t .ok (res k 0)))

/-! ## Kills, generations, teardown (07) -/

/-- R210, R211, R214: a commit request of a resident context is granted in its own step unless a kill of the PID is in
progress, when it is held; a command that ends moves HEAD past its entry; a bound DMA engine is stamped
with the PID and current generation of its context (R209). A stop that is acknowledged, of a resident or a lost context, ends
the command; the last one of a kill asks for the advance, the last one of a teardown whose advance is made clears what the
partition holds. -/
def Obligations.SchedulerEventsOfCommands : Prop :=
  ∀ (s : State) (h : BitVec 32),
    let i := ctxIdx h
    let c := ctx s i
    ctxMatch s h = true →
    (c.state = .resident →
      (commitHeld s h = false → exec (.schedCommitReq h) s = .next (emit (enterCommit s h) (.schedCommit i)) ∧
        (c.phase ≠ .done → (ctx (enterCommit s h) i).phase = .commit)) ∧
      (commitHeld s h = true → ∃ e, exec (.schedCommitReq h) s = .next e ∧ (ctx e i).held = true ∧
        e.out = s.out ∧ e.part.kills = s.part.kills ∧ e.part.gens = s.part.gens) ∧
      (c.phase ≠ .none → c.stopping = false → (∀ w ∈ s.cmd.waits, w.kind ≠ .save i) →
        exec (.schedCommandDone h) s = .next (setCtx s i { c with
          phase := .none, head := BitVec.ofNat 32 ((c.entry.toNat + 1) % 2 ^ c.qlog2) })) ∧
      (∀ eng : Fin 32, exec (.dmaBind eng h) s = .next { s with
        part := { s.part with
          dma := tset 0 s.part.dma eng.val (i + 1)
          asg := tset {} s.part.asg (0x90 + eng.val) { pid := c.pid, gen := curGen s c.pid } }
        out := .assign (0x90 + eng.val) c.pid (curGen s c.pid) :: s.out })) ∧
    (c.stopping = false → exec (.schedStopAck h) s = .next s) ∧
    (c.stopping = true →
      let e := setCtx s i { c with stopping := false, phase := .none }
      (killOf s c.pid = none → tearOf s c.pid = none → exec (.schedStopAck h) s = .next e) ∧
      (∀ k, killOf s c.pid = some k → tearOf s c.pid = none → (k.stage ≠ .stops ∨ allStopped e k.stopped = false) →
        exec (.schedStopAck h) s = .next e) ∧
      (∀ k, killOf s c.pid = some k → tearOf s c.pid = none → k.stage = .stops → allStopped e k.stopped = true →
        ∃ t, exec (.schedStopAck h) s = .next t ∧ t.part.genWait = s.part.genWait ++ [(c.pid, .kill)] ∧
          killOf t c.pid = some { k with stage := .advance } ∧ t.part.ctxs = e.part.ctxs ∧ t.part.gens = s.part.gens ∧
          t.mem = s.mem) ∧
      (∀ x, killOf s c.pid = none → tearOf s c.pid = some x →
        (x.advanced = false ∨ x.cleared = true ∨ pidStopped e c.pid = false) → exec (.schedStopAck h) s = .next e) ∧
      (∀ x, killOf s c.pid = none → tearOf s c.pid = some x → x.advanced = true → x.cleared = false →
        pidStopped e c.pid = true → ∃ t, exec (.schedStopAck h) s = .next t ∧
          tearOf t c.pid = some { x with cleared := true } ∧ (tdi t c.pid).state = .unlocked ∧
          (∀ j, (ctx t j).pid = c.pid → (ctx t j).state ≠ .resident) ∧ t.part.gens = s.part.gens))

/-- QUEUE_SIGNAL_ENTRY (R210, R216, R217): a signal of a fence of the context's partition is applied with its command in
COMMIT, under the partition's current tag (the model's reading, log entry 90); a handle that names no such fence, or a
strict-mode out-of-order signal, loses the context with fault FENCE; a kill of the partition holds the entry.
Loss of a context (R208): a resident or evicted one becomes LOST with the fault, the address and the node, out of its slot
and off its fence; its running command is asked to stop; its DMA engines and its entries in the remote unit's trackers
are freed, the counts of its partition and of the chip rise by one; no other context, no generation, fence, page or peer
entry changes. A free or a lost one is left as it is. -/
def Obligations.QueueSignalsApplyOrLoseTheContext : Prop :=
  (∀ (s : State) (i : Nat) (f : CtxFault) (addr : BitVec 48) (node : BitVec 14),
    let c := ctx s i
    let h := ctxHandle s i
    let t := loseCtx s i f addr node
    (c.state = .free ∨ c.state = .lost → t = s) ∧
    (c.state = .resident ∨ c.state = .evicted → (∀ w ∈ s.cmd.waits, w.kind ≠ .save i) →
      ctx t i = { c with
        state := .lost, slot := 0, fault := f, faultAddr := addr, faultNode := node, waitFence := 0xFFFFFFFF,
        waitValue := 0, held := false, stopping := c.phase != .none } ∧
      (∀ j, j ≠ i → ctx t j = ctx s j) ∧
      part t c.pid = { part s c.pid with lost := inc32 (part s c.pid).lost } ∧
      (∀ n, n ≠ c.pid → part t n = part s n) ∧
      t.part.ctr = { s.part.ctr with ctxLost := inc32 s.part.ctr.ctxLost } ∧
      (∀ eng, tget 0 t.part.dma eng ≠ i + 1) ∧
      (∀ r ∈ t.rmt.held, r.ctx ≠ h) ∧ (∀ l ∈ t.rmt.loads, l.req.ctx ≠ h) ∧ (∀ a ∈ t.rmt.atomics, a.req.ctx ≠ h) ∧
      (∀ k ∈ t.rmt.releases, k.req.ctx ≠ h) ∧ (∀ a ∈ t.rmt.acquires, a.ctx ≠ h) ∧
      (∀ x ∈ t.part.heldSigs, x.ctx ≠ h) ∧ (c.phase ≠ .none → .schedStop i ∈ t.out) ∧
      t.part.gens = s.part.gens ∧ t.part.fences = s.part.fences ∧ t.part.peers = s.part.peers ∧ t.part.tdi = s.part.tdi ∧
      t.rmt.own = s.rmt.own ∧ t.cmd.waits = s.cmd.waits ∧ charged s t ∧ t.boot = s.boot ∧ t.tarn = s.tarn ∧
      t.fuse = s.fuse ∧ t.keys = s.keys ∧ t.alarm = s.alarm ∧ t.ridge = s.ridge ∧ t.fold = s.fold ∧ t.range = s.range ∧
      t.iron = s.iron ∧ t.wb = s.wb ∧ t.spdm = s.spdm)) ∧
  ∀ (s : State) (h f : BitVec 32) (v : BitVec 64) (st : BitVec 8),
    let i := ctxIdx h
    let e := enterCommit s h
    let r := signalFence e f v st (curTag s (ctx s i).pid)
    ctxMatch s h = true → (ctx s i).state = .resident →
    (commitHeld s h = true → exec (.queueSignalEntry h f v st) s = .next { startCmd s h with
      part := { (startCmd s h).part with
        heldSigs := (startCmd s h).part.heldSigs ++ [{ ctx := h, fence := f, value := v, status := st }] } }) ∧
    (commitHeld s h = false →
    (fenceMatch e f = true → (fence e (fenceIdx f)).pid = (ctx s i).pid → r.2 ≠ .oooStrict →
      exec (.queueSignalEntry h f v st) s = .next r.1) ∧
    (fenceMatch e f = true → (fence e (fenceIdx f)).pid = (ctx s i).pid → r.2 = .oooStrict →
      exec (.queueSignalEntry h f v st) s = .next (loseCtx r.1 i .fence)) ∧
    ((fenceMatch e f = false ∨ (fence e (fenceIdx f)).pid ≠ (ctx s i).pid) →
      exec (.queueSignalEntry h f v st) s = .next (loseCtx e i .fence)))

/-- KILL_COMMITS_DRAINED (R211 steps 2 to 4): with no command of the PID in COMMIT, every RUN command of a resident context
is asked to stop; where none runs, the advance of the generation is asked for at once. -/
def Obligations.KillGoesOnWhenCommitsDrain : Prop :=
  ∀ (s : State) (pid : Pid) (k : Kill), killOf s pid.val = some k → k.stage = .commits →
    ((ctxsOf s pid.val).any (fun i => (ctx s i).phase == .commit) = true →
      exec (.killCommitsDrained pid) s = .next s) ∧
    ((ctxsOf s pid.val).any (fun i => (ctx s i).phase == .commit) = false →
      (ctxsOf s pid.val).all (fun i => !((ctx s i).state == .resident && (ctx s i).phase == .run)) = true →
      allStopped s k.stopped = true →
      ∃ t, exec (.killCommitsDrained pid) s = .next t ∧ t.part.genWait = s.part.genWait ++ [(pid.val, .kill)] ∧
        t.part.gens = s.part.gens ∧ t.part.ctxs = s.part.ctxs ∧ t.mem = s.mem) ∧
    ((ctxsOf s pid.val).any (fun i => (ctx s i).phase == .commit) = false →
      ∃ t, exec (.killCommitsDrained pid) s = .next t ∧ t.mem = s.mem ∧ t.part.gens = s.part.gens ∧
        ∀ i ∈ ctxsOf s pid.val, (ctx s i).state = .resident → (ctx s i).phase = .run →
          (ctx t i).stopping = true ∧ .schedStop i ∈ t.out)

/-- GEN_ADVANCE (R41, R232): the generation of a PID that waits for its advance rises by 1 modulo 2048, at most once in a
Tarn microsecond; the operator ring's and the PID's own ring's pre-advance counts become the entries posted and not fetched;
no other PID's generation changes.
PART_TEARDOWN and its end (R46, R214): an ACTIVE partition goes to TEARING, a kill of it is withdrawn, and an
advance of its generation is asked for; with the advance no other command of its PID stays started, and no unseal stream or
descriptor is FREE and its teardown is over. -/
def Obligations.GenerationAdvanceAndTeardown : Prop :=
  (∀ (s : State) (pid : Pid) (w : GenWhy), pid.val ≠ 0 → nextAdvance s pid.val = some w →
    (tget 0 s.part.genAt pid.val = s.tarn.now + 1 → exec (.genAdvance pid) s = .next s) ∧
    (tget 0 s.part.genAt pid.val ≠ s.tarn.now + 1 →
      ∃ t, exec (.genAdvance pid) s = .next t ∧ t.part.gens = tset 0 s.part.gens pid.val (curGen s pid.val + 1) ∧
        tget 0 (ring t 0).pre pid.val = ((ring s 0).tail + ringSize (ring s 0) - (ring s 0).head) % ringSize (ring s 0) ∧
        (w ≠ .teardown → tget 0 (ring t pid.val).pre pid.val =
          ((ring s pid.val).tail + ringSize (ring s pid.val) - (ring s pid.val).head) % ringSize (ring s pid.val)) ∧
        (w = .teardown →
          (∀ x ∈ t.cmd.waits, x.pid = pid.val → ∃ p a b n, x.kind = .teardown p a b n) ∧
          (∀ x ∈ t.wb.streams, x.pid ≠ pid.val) ∧ ∀ x ∈ t.wb.imports, x.pid ≠ pid.val) ∧
        (w ≠ .kill → t.mem.pot = s.mem.pot) ∧ (w = .reset → t.part.peers = s.part.peers) ∧ t.fuse = s.fuse)) ∧
  ((∀ (s : State) (c : Cmd) (k : State) (t : Ticket), accepted opTeardown s c = some (k, t) →
    let pid := tagPid t.ptag
    active k pid = true → ∃ e, exec (.partTeardown c) s = .next e ∧ (part e pid).state = .tearing ∧
      (pid, .teardown) ∈ e.part.genWait ∧ e.part.tears = k.part.tears ++ [(pid, ({} : Tear))] ∧
      e.cmd.waits = k.cmd.waits ++ [⟨t, pid, .teardown pid 0 0 0⟩] ∧ (∀ x ∈ e.part.kills, x.1 ≠ pid) ∧
      e.part.gens = k.part.gens ∧ e.mem = k.mem) ∧
  (∀ (s : State) (c : Cmd) (k : State) (t : Ticket), accepted opTeardown s c = some (k, t) →
    active k (tagPid t.ptag) = false → exec (.partTeardown c) s = .next (finish k t .errState)) ∧
  (∀ (s : State) (pid : Pid) (x : Tear), tearOf s pid.val = some x → x.cleared = true → tornDrained s pid.val = true →
    ∃ e, exec (.teardownDrained pid) s = .next e ∧ part e pid.val = {} ∧ tearOf e pid.val = none ∧
      e.part.gens = s.part.gens ∧ e.fuse = s.fuse))

/-! ## Functions, TDIs, IDE streams, the host (05, 07) -/

/-- TDISP (R204, R305): with firmware running and a session open, LOCK of an unlocked TDI of an ACTIVE confidential partition
over a stream whose keys are all in use locks it with a fresh nonce; START with that nonce moves it to RUN; START with
another nonce or in another state changes nothing; STOP of a locked TDI unlocks it as a function reset and is answered when
that is complete (R212); the queries change nothing but what is answered. -/
def Obligations.TdispMovesTheInterface : Prop :=
  ∀ (s : State) (vf : Pid) (k : Fin 16) (mx nf : Bool) (nonce : BitVec 256), dsmUp s = true → vf.val ≠ 0 →
    let t := tdi s vf.val
    (t.state = .unlocked → active s vf.val = true → (part s vf.val).conf = true → ideReady s k.val = true →
      s.keys.entFailed = false → ∃ e, exec (.lockInterfaceRequest vf k false mx nf) s = .next e ∧
        tdi e vf.val = { state := .locked, stream := some k.val, nonce := (draw s).2, lockMsix := mx, noFwUpdate := nf } ∧
        e.part.parts = s.part.parts ∧ e.part.gens = s.part.gens ∧ e.mem = s.mem) ∧
    (t.state = .unlocked → ∃ e, exec (.lockInterfaceRequest vf k true mx nf) s = .next e ∧ e.part = s.part) ∧
    (t.state = .locked → nonce = t.nonce → ∃ e, exec (.startInterfaceRequest vf nonce) s = .next e ∧
      e.part = (setTdi s vf.val { t with state := .run }).part ∧ e.mem = s.mem ∧ e.keys = s.keys) ∧
    (t.state = .locked → nonce ≠ t.nonce → ∃ e, exec (.startInterfaceRequest vf nonce) s = .next e ∧ e.part = s.part) ∧
    (t.state ≠ .unlocked → exec (.stopInterfaceRequest vf) s =
      let x := resetFn s vf.val .unlocked
      .next { x with part := { x.part with stopDue := x.part.stopDue ++ [vf.val] } }) ∧
    (t.state = .unlocked → exec (.stopInterfaceRequest vf) s = .next (emit s (.doe 0 0x07 []))) ∧
    (∃ b, exec (.getTdispVersion vf) s = .next (emit s (.doe 0 0x01 b))) ∧
    (∃ b, exec (.getTdispCapabilities vf) s = .next (emit s (.doe 0 0x02 b))) ∧
    (t.state = .locked ∨ t.state = .run → ∃ b, exec (.getDeviceInterfaceReport vf) s = .next (emit s (.doe 0 0x04 b))) ∧
    exec (.getDeviceInterfaceState vf) s = .next (emit s (.doe 0 0x05 (leBytes 1 (tdiCode t.state)))) ∧
    (∀ code, exec (.tdispUnsupportedRequest vf code) s = .next (emit s (.doe 0 0x7F (leBytes 4 0x07))))

/-- IDE_KM (R203, R261): QUERY answers; KEY_PROG writes the key into a slot of the IDE class; K_SET_GO brings a programmed
key into use with a count of its own; K_SET_STOP takes it out and moves every TDI bound to the stream and locked to ERROR. -/
def Obligations.IdeKmProgramsAndStopsKeys : Prop :=
  ∀ (s : State) (k : Fin 17) (x : IdeKey) (key : Key), dsmUp s = true →
    (∃ b, exec (.ideKmQuery k) s = .next (emit s (.doe 0 0x01 b))) ∧
    (∀ i l, ideSlot s k.val x = none → freeSlots s = i :: l → ∃ e, exec (.ideKmKeyProg k x key) s = .next e ∧
      (slot e i).key = key ∧ (x, i) ∈ (ide e k.val).keys ∧ e.part.parts = s.part.parts ∧ e.mem = s.mem) ∧
    (∀ i, ideSlot s k.val x = some i → (slot s i).bad = false → ∃ e, exec (.ideKmKeyProg k x key) s = .next e ∧
      (slot e i).key = key ∧ e.part = s.part ∧ e.mem = s.mem) ∧
    ((ideSlot s k.val x).isSome = true → ∃ e, exec (.ideKmKSetGo k x) s = .next e ∧ x ∈ (ide e k.val).go ∧
      (x ∉ (ide s k.val).go → ideUsed e k.val x = 0) ∧ e.keys = s.keys ∧ e.mem = s.mem) ∧
    (tdisOn s k.val = [] → ∃ e, exec (.ideKmKSetStop k x) s = .next e ∧
      e.part.ide = tset {} s.part.ide k.val { ide s k.val with
        keys := (ide s k.val).keys.filter fun y => y.1 != x, go := (ide s k.val).go.filter fun y => y != x } ∧
      e.part.tdi = s.part.tdi ∧ e.mem = s.mem) ∧
    (∃ e, exec (.ideKmKSetStop k x) s = .next e ∧ (∀ y ∈ (ide e k.val).keys, y.1 ≠ x) ∧
      ∀ n ∈ tdisOn s k.val, (tdi s n).state = .locked ∨ (tdi s n).state = .run → (tdi e n).state = .error)

/-- R14, R124, R204, R212, R213, R326: a function reset asks for an advance of its PID, empties its ring and its window and
leaves its TDI CONFIG_UNLOCKED; of the TLPs of no stream, a completion of an old generation is discarded, one of a function
with no partition, or of a TDI in RUN, that would reach device memory is an Unsupported Request, and one that changes what a
locked TDI fixes takes it to ERROR. A TLP on a selective stream that the key in use of its sub-stream does not open is
discarded; one that it opens is counted under the key, and of the TDI in RUN that the stream is bound to it is stamped with
the PID and reaches device memory; without its T bit it takes that TDI to ERROR; another function's is not served there.
A TLP that reads a register page reads the words where BAR0 has them (R398 to R402): the operator page and Tarn's, zeros in
the Reserved part of the window and on the page of a partition that is not ACTIVE; nothing outside the pages is the
block's. A scrub pulse of a tile that no partition holds marks it scrubbed, and one of
a held tile only counts. -/
def Obligations.HostAndTileEvents : Prop :=
  ∀ (s : State) (vf : Pid) (tile : Fin 288) (t : Tlp) (i : IdeTlp),
    (vf.val ≠ 0 → ∃ x, exec (.vfFlr vf) s = .next x ∧ (vf.val, .reset) ∈ x.part.genWait ∧ x.part.gens = s.part.gens ∧
      (ring x vf.val).head = 0 ∧ (ring x vf.val).tail = 0 ∧ (ring x vf.val).pre = [] ∧ window x vf.val = {} ∧
      (tdi x vf.val).state = .unlocked ∧
      x.mem.pot = s.mem.pot ∧ x.part.peers = s.part.peers ∧ x.part.fences = s.part.fences) ∧
    exec (.vfFlr 0) s = .next s ∧
    (t.stream = none →
      (∀ g, t.cpl = some g → t.fn.val ≠ 0 → g ≠ curGen s t.fn.val → (tdi s t.fn.val).state = .unlocked →
        exec (.hostTlp t i) s = .next (emit s (.tlpDrop t.fn.val))) ∧
      (∀ g, t.cpl = some g → g = curGen s t.fn.val → (tdi s t.fn.val).state = .unlocked →
        exec (.hostTlp t i) s = .next (emit s (.tlp t.fn.val t.fn.val))) ∧
      (t.cpl = none → t.reg = none → t.toMem = true → t.fn.val ≠ 0 → active s t.fn.val = false →
        (tdi s t.fn.val).state = .unlocked → exec (.hostTlp t i) s = .next (emit s (.tlpUr t.fn.val))) ∧
      (t.cpl = none → t.reg = none → t.toMem = true → t.fn.val ≠ 0 → (tdi s t.fn.val).state = .run → t.cfg = false →
        exec (.hostTlp t i) s = .next (emit s (.tlpUr t.fn.val))) ∧
      (t.cpl = none → t.reg = none → t.assoc = none → t.toMem = false → t.fn.val = 0 → (tdi s 0).state = .unlocked →
        exec (.hostTlp t i) s = .next (emit s (.tlp 0 0))) ∧
      (t.cpl = none → t.reg = none → t.toMem = false → t.fn.val ≠ 0 → (tdi s t.fn.val).state = .run → t.cfg = true →
        (tdi s t.fn.val).lockMsix = true →
        ∃ x, exec (.hostTlp t i) s = .next x ∧ (tdi x t.fn.val).state = .error ∧ (t.fn.val, .reset) ∈ x.part.genWait) ∧
      (∀ a len, t.cpl = none → t.reg = some (a, len) → (tdi s t.fn.val).state = .unlocked →
        (t.fn = 0 → ∀ pg off, barPlace 0 a = some (pg, off) →
          exec (.hostTlp t i) s = .next (readPage s pg off len) ∧
          (pg = .rest → exec (.hostTlp t i) s = .next (emit s (.regRead off (zeros len))))) ∧
        (barPlace t.fn a = none → exec (.hostTlp t i) s = .next s) ∧
        (t.fn ≠ 0 → a < 0x1000 → active s t.fn.val = false →
          exec (.hostTlp t i) s = .next (emit s (.regRead a (zeros len)))) ∧
        (t.fn ≠ 0 → a < 0x1000 → active s t.fn.val = true → (part s t.fn.val).conf = false →
          exec (.hostTlp t i) s = .next (readPage s (.tenant t.fn) a len)))) ∧
    (∀ k, t.stream = some k →
      let x : IdeKey := ⟨i.sub, false⟩
      let s1 := ideCount s k.val x
      (ideSlot s k.val x = none → exec (.hostTlp t i) s = .next (emit s (.tlpDrop t.fn.val))) ∧
      (∀ j key, ideSlot s k.val x = some j → slotDead s j = false → ideInUse s k.val x = some key →
        ((i.mac ≠ Config.ideMac key i.sub.val (ideUsed s k.val x) i.bytes ∨
          i.bytes ≠ Config.ideSeal key i.sub.val (ideUsed s k.val x) (Config.tlpIn t)) →
          exec (.hostTlp t i) s = .next (emit s (.tlpDrop t.fn.val))) ∧
        (i.mac = Config.ideMac key i.sub.val (ideUsed s k.val x) i.bytes →
          i.bytes = Config.ideSeal key i.sub.val (ideUsed s k.val x) (Config.tlpIn t) →
          (t.fn ≠ 0 → (tdi s t.fn.val).state = .run → (tdi s t.fn.val).stream = some k.val → t.tbit = true → t.cfg = false →
            (t.cpl = none → t.reg = none → t.toMem = true → t.req = none → active s t.fn.val = true →
              exec (.hostTlp t i) s = .next (emit s1 (.tlp t.fn.val t.fn.val))) ∧
            (∀ r, t.cpl = none → t.reg = none → t.toMem = true → t.req = some r → active s t.fn.val = true →
              let q : MxReq := { r with pid := t.fn, gen := curGen s t.fn.val, mport := 0xC0, ctx := 0 }
              let s2 := emit s1 (.tlp t.fn.val t.fn.val)
              exec (.hostTlp t i) s = .next ((present s2 { req := q }).getD s2)) ∧
            (t.cpl = some (curGen s t.fn.val) →
              exec (.hostTlp t i) s = .next (emit s1 (.tlp t.fn.val t.fn.val)))) ∧
          ((tdi s t.fn.val).state = .run → (tdi s t.fn.val).stream = some k.val → t.tbit = false → t.cpl = none →
            t.reg = none → t.toMem = false → t.fn ≠ 0 →
            ∃ e, exec (.hostTlp t i) s = .next e ∧ (tdi e t.fn.val).state = .error) ∧
          ((tdi s t.fn.val).state = .unlocked → tenantStream s (some k.val) = true → t.cpl = none → t.reg = none →
            exec (.hostTlp t i) s = .next (emit s1 (if t.toMem = true then .tlpUr t.fn.val else .tlpDrop t.fn.val)))))) ∧
    (tileOwner s tile.val = 0 → ∃ x, exec (.tileScrubDone tile) s = .next x ∧
      x.part.scrubbed = s.part.scrubbed ||| tileBit tile.val ∧
      x.part.scrubAt = tset 0 s.part.scrubAt tile.val s.tarn.now ∧ x.part.parts = s.part.parts) ∧
    (tileOwner s tile.val ≠ 0 → ∃ x, exec (.tileScrubDone tile) s = .next x ∧ x.part.scrubbed = s.part.scrubbed ∧
      x.part.scrubSeq = tset 0 s.part.scrubSeq tile.val (inc32 (tget 0 s.part.scrubSeq tile.val)))

/-! ## Memory (05, 11) -/

/-- PART_MAP PAGES, PART_UNMAP and MEM_MODE (R130, R131, R195, R197): where every page named allows it, each page's entry is
broadcast as changing to the new entry and the command waits; where one does not, the command completes with ERR_STATE and
nothing changes. A confidential partition's pages never carry the debug rights. -/
def Obligations.PageCommandsChangeEveryPageOrNone : Prop :=
  ∀ (s : State) (c : Cmd) (k : State) (t : Ticket),
    let pid := tagPid t.ptag
    let first := parm c.body 16 32
    let count := parm c.body 20 16
    let mode := modeOf (parm c.body 22 8)
    let mappable := fun q => (pot k q).state == .free && !changing k q &&
      ((pot k q).clean || ((pot k q).pid == pid && (pot k q).used))
    let started := fun (e : State) (n : Nat) => t ∈ (e.cmd.waits.map (·.tkt)) ∧
      e.cmd.waits = k.cmd.waits ++ [⟨t, pid, .pages pid (span first count) n⟩] ∧ e.mem.pot = k.mem.pot ∧
      e.part = k.part ∧ e.keys = k.keys
    (accepted opMapPages s c = some (k, t) → present0 k pid = true → spanAll first count mappable = true →
      (parmBit c.body 23 0 = true → k.rmt.own.length + count ≤ 1024) →
      (mode = .fresh → count ≤ freshUnused k pid) →
      ∃ e, exec (.partMapPages c) s = .next e ∧ started e 0 ∧
        ∀ q, first ≤ q → q < first + count → ∃ x, (q, x) ∈ e.mem.changes ∧ x.new.state = .live ∧ x.new.pid = pid ∧
          x.new.mode = mode ∧ x.new.t4c = parmBit c.body 23 0 ∧
          ((part k pid).conf = true → x.new.rights.getLsbD 0 = false ∧ x.new.rights.getLsbD 1 = false)) ∧
    (accepted opMapPages s c = some (k, t) → (present0 k pid = false ∨ spanAll first count mappable = false) →
      exec (.partMapPages c) s = .next (finish k t .errState)) ∧
    (accepted opUnmap s c = some (k, t) → present0 k pid = true → allLive k pid first count = true →
      ∃ e, exec (.partUnmap c) s = .next e ∧ started e 0 ∧
        ∀ q, first ≤ q → q < first + count → ∃ x, (q, x) ∈ e.mem.changes ∧ x.new.state = .free ∧ x.new.clean = false ∧
          x.new.pid = (pot k q).pid ∧ x.new.used = (pot k q).used) ∧
    (accepted opUnmap s c = some (k, t) → (present0 k pid = false ∨ allLive k pid first count = false) →
      exec (.partUnmap c) s = .next (finish k t .errState)) ∧
    (accepted opMemMode s c = some (k, t) → present0 k pid = true → allLive k pid first count = true →
      (mode = .fresh → count ≤ freshUnused k pid) →
      ∃ e, exec (.memMode c) s = .next e ∧ started e count ∧
        ∀ q, first ≤ q → q < first + count → ∃ x, (q, x) ∈ e.mem.changes ∧ x.new.mode = mode ∧
          x.new.state = (pot k q).state ∧ x.new.pid = (pot k q).pid ∧ x.new.rights = (pot k q).rights)

/-- R130, R131: a change whose granted requests have completed writes its entry: a page that becomes LIVE goes to FILL, any
other takes the new entry; while a granted request is outstanding, or the entry's sector stalls for a re-tag (R148), nothing
changes. Where the POT lies in memory, its sector
is written there with the new entry in it. A fill of a Fresh page waits for its leaf lines; its end writes every sector as
zeros and makes the page LIVE with CLEAN 0 and USED 1. -/
def Obligations.ChangedEntriesAreWrittenThenFilled : Prop :=
  ∀ (s : State) (page : Nat) (c : Change), s.mem.changes.find? (fun x => x.1 == page) = some (page, c) →
    let still := (∀ x ∈ s.mem.mx, x.2.missq = []) ∧ ∀ w ∈ s.cmd.waits, ∀ p l n, w.kind ≠ .pages p l n
    let first := if c.new.state = .live then { c.new with state := .fill } else c.new
    let last := { c.new with state := .live, clean := false, used := true }
    let potOut := fun (x : Pot) (t : State) => s.mem.potLive = true →
      let n := potSector s page
      let w := setPot s page x
      let p := dataPlace s n
      ∃ pri, Out.mcWrite (placePkg p) (placeSec p) (encSector s (pot w (sectorPage n)) n (potImage w page)) pri ∈ t.out
    (c.filling = false → c.torn = false → pageBusy s page = false → potBusy s page = false → (∀ x ∈ s.mem.changes, x.2.todo = []) →
      potAtHand (retireDarn s page) page first = true →
      (c.new.state = .live → c.new.mode ≠ .fresh → ∃ t, exec (.potUpdateDrained page) s = .next t ∧ pot t page = first ∧
        potOut first t ∧ t.part = s.part ∧ t.keys = s.keys ∧
        (page, { c with filling := true, todo := [] }) ∈ t.mem.changes) ∧
      (c.new.state = .live → c.new.mode = .fresh → s.mem.potLive = false →
        (∀ p ∈ leavesOf s page c.new.fslot, cairnHas (retireDarn s page) p = false) →
        ∃ t, exec (.potUpdateDrained page) s = .next t ∧ pot t page = first ∧ t.part = s.part ∧ t.keys = s.keys ∧
          (page, { c with filling := true, todo := leavesOf s page c.new.fslot }) ∈ t.mem.changes) ∧
      (c.new.state ≠ .live → still → ∃ t, exec (.potUpdateDrained page) s = .next t ∧ pot t page = first ∧
        potOut first t ∧ t.part = s.part ∧ t.keys = s.keys ∧ changing t page = false)) ∧
    (c.filling = false → pageBusy s page = true ∨ potBusy s page = true → exec (.potUpdateDrained page) s = .next s) ∧
    (c.torn = true → exec (.potUpdateDrained page) s = .next s) ∧
    (c.filling = true → c.todo = [] → potBusy s page = false → still → potAtHand (fillPage s page c) page last = true →
      ∃ t, exec (.pageFillDone page) s = .next t ∧ pot t page = last ∧ potOut last t ∧ changing t page = false ∧
        t.part = s.part ∧ t.keys = s.keys ∧
        ∀ n, page * pageSectors ≤ n → n < (page + 1) * pageSectors → let p := dataPlace s n
          ∃ pri, Out.mcWrite (placePkg p) (placeSec p) (encSector s c.new n 0) pri ∈ t.out) ∧
    ((c.filling = false ∨ c.todo ≠ [] ∨ potBusy s page = true) → exec (.pageFillDone page) s = .next s)

/-- R127: the checks of a request against its entry, in order: a request of a reserved kind or port, one that covers a byte
outside one 256-byte block or outside the data pages (an ATOM covers its location, log entry 121) is DENY; then, for PID 1 to 31, a generation that is not current is STALE; then a page that is
not LIVE under the PID, a system page for any port but 0xE0, and a right that is clear are DENY; then a debug-class request
needs CONF 0 and an authorisation for that PID; every other request is GRANT. Checks 1 and 2 are decided whatever the cache
slice holds. A request that does not stall gets that answer where the slice holds the entry as it stands. DENY and STALE touch no memory and charge no budget (but for the events of a context that a DENY loses); a DENY for a
PID other than 0 is a fault of the requesting context; a STALE answer changes nothing but its counter. From check 2 on the
statement speaks of the requests that `shapeOk` admits: it is check 1, with the engines up (R15) and an ATOM's operands of a
legal size. -/
def Obligations.RequestsAreDecidedInOrder : Prop :=
  ∀ (s : State) (r : MxReq),
    let a := r.addr.toNat
    let e := pot s (pageOf a)
    let rights := portRights r.mport.toNat
    ((3#4 < r.op ∨ rights = none ∨ 256 < a % 256 + mxSpan r ∨ 0x1E000000000 < a + mxSpan r) →
      decideNow s r = .deny) ∧
    (shapeOk s r = true → r.pid.val ≠ 0 → r.gen ≠ curGen s r.pid.val → decideNow s r = .stale) ∧
    (shapeOk s r = true → (r.pid.val = 0 ∨ r.gen = curGen s r.pid.val) →
      (e.state ≠ .live ∨ e.pid ≠ r.pid.val ∨ (e.sys = true ∧ r.mport ≠ 0xE0)) → decideNow s r = .deny) ∧
    (∀ rd wr, rights = some (rd, wr) → shapeOk s r = true → (r.pid.val = 0 ∨ r.gen = curGen s r.pid.val) →
      ((r.op = 0 ∧ e.rights.getLsbD rd = false) ∨ ((r.op = 1 ∨ r.op = 2) ∧ e.rights.getLsbD wr = false) ∨
        (r.op = 3 ∧ (e.rights.getLsbD rd && e.rights.getLsbD wr) = false)) → decideNow s r = .deny) ∧
    (shapeOk s r = true → (r.pid.val = 0 ∨ r.gen = curGen s r.pid.val) → isDebug r.mport.toNat = true →
      (e.conf = true ∨ dbgHolds s r.pid.val = false) → decideNow s r = .deny) ∧
    (∀ rd wr, rights = some (rd, wr) → shapeOk s r = true → (r.pid.val = 0 ∨ r.gen = curGen s r.pid.val) →
      potBadPage s (pageOf a) = false → e.state = .live → e.pid = r.pid.val → (e.sys = true → r.mport = 0xE0) →
      (r.op = 0 ∨ r.op = 3 → e.rights.getLsbD rd = true) → (r.op = 1 ∨ r.op = 2 ∨ r.op = 3 → e.rights.getLsbD wr = true) →
      (isDebug r.mport.toNat = true → e.conf = false ∧ dbgHolds s r.pid.val = true) → decideNow s r = .grant) ∧
    (∀ n : Nat, ((3#4 < r.op ∨ rights = none ∨ 256 < a % 256 + mxSpan r ∨ 0x1E000000000 < a + mxSpan r) →
        decideFirst s n r = .deny) ∧
      (shapeOk s r = true → r.pid.val ≠ 0 → r.gen ≠ curGen s r.pid.val → decideFirst s n r = .stale) ∧
      ((∀ x, cached s n (pageOf a) = some x → x = e) → decideFirst s n r ≠ .stall → decideFirst s n r = decideNow s r)) ∧
    (let x := shapeMx s r
      let s1 := if r.op = 3 then enterCommit x.1 r.ctx else startCmd x.1 r.ctx
      let n := engineOf s1 a
      reqShaped x.2 = true ∧ (∀ e : Eng, e.val ≠ engineOf s a → exec (.memRequest e r) s = .next s) ∧
      (∀ e, r.op = 3 → commitHeld s r.ctx = true → exec (.memRequest e r) s = .next s) ∧
      (∀ e : Eng, e.val = n → (r.op = 3 → commitHeld s r.ctx = false) → (mx s1 n).missq.length < 32 →
        decideFirst s1 n x.2 ≠ .stall → exec (.memRequest e r) s = .next (settle s1 n { req := x.2 } (decideFirst s1 n x.2)))) ∧
    (∀ (n : Nat) (g : Gnt), (g = .deny ∨ g = .stale) →
      let t := settle s n { req := r } g
      t.mem.pot = s.mem.pot ∧ ∀ x, (g = .stale ∨ ctxMatch s r.ctx = false → (mx t x).tokens = (mx s x).tokens) ∧ (mx t x).cairn = (mx s x).cairn ∧
        (mx t x).ops = (mx s x).ops ∧ (mx t x).reqs = (mx s x).reqs) ∧
    (∀ n : Nat, r.pid.val ≠ 0 → ctxMatch s r.ctx = true → (ctx s (ctxIdx r.ctx)).state = .resident →
      let c := ctx (settle s n { req := r } .deny) (ctxIdx r.ctx)
      c.state = .lost ∧ c.fault = .access ∧ c.faultAddr = BitVec.ofNat 48 r.addr.toNat) ∧
    (∀ n : Nat, let t := settle s n { req := r } .stale
      t.part = s.part ∧ t.cmd = s.cmd ∧ t.alarm = s.alarm ∧ t.out = .gnt n r.tag r.mport .stale :: s.out)

/-- MEM_REQUEST (R123, R127, R128): a request goes to the engine that its address belongs to. One whose page stands in the
cache slice and is not changing is answered at once as decided; one whose page does not is stalled and parked, and the first
for a page starts a walk; with the miss queue full the port takes nothing. A denied or stale request reaches no controller
and takes no token. -/
def Obligations.RequestsAreAnsweredOrParked : Prop :=
  ∀ (s : State) (eng : Eng) (r : MxReq), eng.val = engineOf s r.addr.toNat → reqShaped r = true → r.op ≠ 3 → r.ctx = 0 →
    ctxMatch s 0 = false →
    let q : Parked := { req := r }
    let e := eng.val
    let page := pageOf r.addr.toNat
    ((mx s e).missq.length < 32 →
      (decideFirst s e r = .grant → exec (.memRequest eng r) s = .next (settle s e q .grant) ∧
        settle s e q .grant = enterReq (emit s (.gnt e r.tag r.mport .grant)) e r .master) ∧
      (decideFirst s e r = .deny → exec (.memRequest eng r) s = .next (setMx (emit s (.gnt e r.tag r.mport .deny)) e
        { mx s e with ctr := { (mx s e).ctr with deny := inc32 (mx s e).ctr.deny } })) ∧
      (decideFirst s e r = .stale → exec (.memRequest eng r) s = .next (setMx (emit s (.gnt e r.tag r.mport .stale)) e
        { mx s e with ctr := { (mx s e).ctr with stale := inc32 (mx s e).ctr.stale } })) ∧
      (decideFirst s e r = .stall → ∃ t, exec (.memRequest eng r) s = .next t ∧ (mx t e).missq = (mx s e).missq ++ [q] ∧
        Out.gnt e r.tag r.mport .stall ∈ t.out ∧ t.mem.pot = s.mem.pot ∧
        (changing s page = false → cached s e page = none →
          (mx t e).ctr.potMiss = inc32 (mx s e).ctr.potMiss ∧ ∃ w ∈ (mx t e).walks, w.page = page))) ∧
    (32 ≤ (mx s e).missq.length → exec (.memRequest eng r) s = .next s) ∧
    (shapeOk s r = true → (r.pid.val = 0 ∨ r.gen = curGen s r.pid.val) → changing s page = true →
      decideFirst s e r = .stall)

/-- POT_WALK_DONE (R128, R129, R152, R157): the sector of a walk that verifies under the VERSION and tag of the walk's start
gives the slice its entry, and the requests that wait for the page are decided; one that darn cannot mend denies every page
of the sector from then on; a link error reads once more; a result for a page being changed is discarded. A walk that a re-tag over the sector holds
(R148) has read nothing yet. -/
def Obligations.WalksResolveMisses : Prop :=
  ∀ (s : State) (e : Eng) (page : Nat) (rd : WalkRead),
    let m := mx s e.val
    let n := potSector s page
    let p := dataPlace s n
    let en := pot s (sectorPage n)
    (m.walks.find? (fun x => x.page == page) = none → exec (.potWalkDone e page rd) s = .next s) ∧
    (∀ w, m.walks.find? (fun x => x.page == page) = some w →
      let s1 := setMx s e.val { m with walks := m.walks.filter fun x => x.page != page }
      (w.held = true → exec (.potWalkDone e page rd) s = .next s) ∧
      (w.held = false → rd.lerr = true → w.again = false → ∃ t, exec (.potWalkDone e page rd) s = .next t ∧
        t.out = .mcRead (placePkg p) (placeSec p) .rt :: s.out ∧ { w with again := true } ∈ (mx t e.val).walks) ∧
      (w.held = false → (rd.lerr = false ∨ w.again = true) →
        (changing s page = true → exec (.potWalkDone e page rd) s = .next s1) ∧
        (changing s page = false →
          if macOf s en n w.version rd.ct = w.tag then
            exec (.potWalkDone e page rd) s = .next (redecide (cacheIn (darnRead s1 (placeEng p) n) e.val page
              (potIn (decSector s en n rd.ct) page)) e.val page)
          else darn (macOf s en n w.version) rd.ct w.tag = none →
            ∃ t, exec (.potWalkDone e page rd) s = .next t ∧ potBadPage t page = true)))

/-- MC_READ_RETURN (R137, R141, R143, R145, R151): the sector that one waiting read asked for is decrypted under its page's
entry and answered, in the Seal and Fresh modes where its tag matches the MAC under the sector's version, or where darn mends
it: then it is recorded, and written back where the data was wrong. A sector of a granule whose counter line failed, or one
that darn cannot mend, is answered with POISON and no data, and counted (stated where the owner is already muted and the
request has no context; the completion of a host's read on an IDE stream left out). A tag sector that the cairn cache waits for goes into it; a link error asks for the sector once more
(R152); a sector that nothing awaits changes nothing. -/
def Obligations.ReadSectorsAreOpenedOrPoisoned : Prop :=
  ∀ (s : State) (eng : Eng) (pkg : Fin 4) (sec : BitVec 29) (d : Sector) (odecc : Bool),
    let p := placeAt (4 * eng.val + pkg.val) sec.toNat
    let e := eng.val
    let m := mx s e
    (∀ lerr, awaited s p = none → exec (.mcReadReturn eng pkg sec d lerr odecc) s = .next s) ∧
    (∀ a, awaited s p = some a → m.again.contains p = false → ∃ t pri, exec (.mcReadReturn eng pkg sec d true odecc) s = .next t ∧
      t.out = .mcRead (4 * eng.val + pkg.val) sec.toNat pri :: s.out ∧ (mx t e).again.contains p = true ∧ t.mem.pot = s.mem.pot) ∧
    ((∀ c ∈ m.cairn, c.leaving = false) → (∀ c ∈ s.mem.changes, c.2.todo = []) →
      (∀ (o : SecOp) (q : OpenReq), m.ops = [o] → m.reqs = [q] → m.wants = [] → m.ovfs = [] → dataPlace s o.sector = p →
        o.rid = q.rid → o.issued = true → o.ct = none → o.full = false → q.left = 1 → q.got = [] → q.bad = [] →
        q.who = .master → q.req.mport ≠ 0xC0 → q.req.op = 0 → q.gen = curGen s q.req.pid.val →
        let en := pot s (sectorPage o.sector)
        let mac := macOf s en o.sector (sectorVersion s en o.sector)
        let good := fun (ct : Sector) => Out.rsp e q.req.tag q.req.mport []
          (readBytes q.req [(o.sector, decSector s en o.sector ct)] [])
        let fails := s.mem.muted.contains en.pid = true → q.req.ctx = 0 → ctxMatch s 0 = false →
          ∃ t, exec (.mcReadReturn eng pkg sec d false odecc) s = .next t ∧
            t.out = .rsp e q.req.tag q.req.mport [o.sector] (readBytes q.req [] [o.sector]) :: s.out ∧
            (mx t e).ctr.poison = inc32 m.ctr.poison ∧ (mx t e).ops = []
        (granBad s o.sector = true → fails) ∧
        (granBad s o.sector = false → en.mode = .mangle → ∃ t, exec (.mcReadReturn eng pkg sec d false odecc) s = .next t ∧
          t.out = good d :: s.out ∧ (mx t e).reqs = [] ∧ (mx t e).ops = []) ∧
        (granBad s o.sector = false → en.mode ≠ .mangle →
          (en.mode = .fresh → cairnHas s (leafOf s o.sector en.fslot) = true) → m.darn = [] →
          ∀ tag, tagGet s p = some tag →
            if mac d = tag then ∃ t, exec (.mcReadReturn eng pkg sec d false odecc) s = .next t ∧ t.out = good d :: s.out ∧
              (mx t e).reqs = [] ∧ (mx t e).ops = []
            else match darn mac d tag with
              | none => fails
              | some x => ∃ t rest, exec (.mcReadReturn eng pkg sec d false odecc) s = .next t ∧ t.out = good x.1 :: rest ∧
                tget 0 (mx t e).darn o.sector = 1 ∧ (mx t e).ctr.darnFix = inc32 m.ctr.darnFix ∧
                (x.1 ≠ d → Out.mcWrite (4 * eng.val + pkg.val) sec.toNat x.1 .rt ∈ rest))) ∧
      (∀ w, m.wants = [w] → w.pl = p → w.img = none → isLine p = false → m.cairn = [] → m.pinned = [] → m.ops = [] →
        ∃ t, exec (.mcReadReturn eng pkg sec d false odecc) s = .next t ∧ (mx t e).wants = [] ∧ t.out = s.out ∧
          cairnGet t p = some { pl := p, d := d, by_ := w.client }))

/-- RETAG_DONE, REG_WINDOW_START, OVER_PROMOTE (R148, R154, R155): the re-tag of an overflowed leaf line ends with each sector
that verifies under its old VERSION, or that darn mends, and has not been written since, tagged under its new one, and the four tag sectors written; that of
an upper line with each child under a new LMAC; nothing happens while something that it reads is missing. At a window start
every client's tokens are its budget and new settings hold, once a microsecond; a sector that has waited 8 µs at OVER is
promoted.
MEM_FRESH_REGION and REG_BUDGET (R146, R154, R161): slots reserved from a pool of 131,064 and returned; a budget and class
set on the engines named for the next window where every engine's budgets stay within 2352, otherwise ERR_RESOURCE and no
change. -/
def Obligations.EngineTimersAndBudgets : Prop :=
  ((∀ (s : State) (e : Eng) line, (∀ v ∈ (mx s e.val).ovfs, v.line ≠ line) → exec (.retagDone e line) s = .next s) ∧
  (∀ (s : State) (e : Eng) (v : Ovf) rest, (mx s e.val).ovfs = v :: rest →
    (v.todo.any (ovfLacks v) = true → exec (.retagDone e v.line) s = .next s) ∧
    (v.todo.any (ovfLacks v) = false → (mx s e.val).wants = [] → (mx s e.val).ops = [] →
      (∀ c ∈ (mx s e.val).cairn, c.leaving = false) → (∀ c ∈ s.mem.changes, c.2.todo = []) →
      (∀ l, lineLevel v.line ≠ 0 → v.got = [] → cairnGet s v.line = some l →
        ∃ t, exec (.retagDone e v.line) s = .next t ∧ (mx t e.val).ovfs = rest ∧
          (mx t e.val).ctr.ovf = inc32 (mx s e.val).ctr.ovf ∧
          ∀ k c, k < 64 → k ≠ v.entry → cairnGet s (childOf v.line k) = some c →
            let p := childOf v.line k
            ∃ pri, Out.mcWrite (placePkg p) (placeSec p) (putLmac c.d (lineMac s p (versionIn l.d k) c.d)) pri ∈ t.out) ∧
      (let en := pot s (sectorPage v.base)
        let place := fun (k : Nat) => dataPlace s (v.base + k)
        lineLevel v.line = 0 → v.base % 64 = 0 → en.fslot < 131072 → s.mem.muted.contains en.pid = true →
        (mx s (placeEng v.line)).darn = [] →
        (∀ k, k < 64 → k ≠ v.entry → (tagGet s (place k)).isSome = true ∧ v.got.any (fun g => g.1 == place k) = true) →
        (∀ i, i < 4 → isLine (tagPlace (place (16 * i))) = false) →
        (∀ l, cairnGet s v.line = some l → ∀ k, k < 64 → k ≠ v.entry → minorOf l.d k = 0) →
        ∃ t, exec (.retagDone e v.line) s = .next t ∧ (mx t e.val).ovfs = rest ∧
          (mx t e.val).ctr.ovf = inc32 (mx s e.val).ctr.ovf ∧
          (∀ k g tag, k < 64 → k ≠ v.entry → v.got.find? (fun g => g.1 == place k) = some g →
            tagGet s (place k) = some tag →
            let mac := macOf s en (v.base + k) (versionIn v.old k)
            tagGet t (place k) = some (match (if mac g.2 = tag then some (g.2, tag) else darn mac g.2 tag) with
              | some x => macOf s en (v.base + k) (sectorVersion s en (v.base + k)) x.1
              | none => tag)) ∧
          ∀ i, i < 4 → let p := tagPlace (place (16 * i))
            ∃ d pri, Out.mcWrite (placePkg p) (placeSec p) d pri ∈ t.out))) ∧
  (∀ (s : State) (e : Eng), (mx s e.val).window ≠ s.tarn.now + 1 →
    exec (.regWindowStart e) s = .next (setMx s e.val { mx s e.val with
      budget := (mx s e.val).nextBudget, latency := (mx s e.val).nextLatency, tokens := (mx s e.val).nextBudget
      window := s.tarn.now + 1 })) ∧
  (∀ (s : State) (e : Eng), (mx s e.val).window = s.tarn.now + 1 → exec (.regWindowStart e) s = .next s) ∧
  (∀ (s : State) (pkg : Fin 32) (sec : BitVec 29),
    let p := placeAt pkg.val sec.toNat
    let m := mx s (placeEng p)
    (∀ l ∈ m.late, l.pl = p → l.since + 8 ≤ s.tarn.now → ∃ t, exec (.overPromote pkg sec) s = .next t ∧
      t.out = .mcPromote pkg.val sec.toNat :: s.out ∧ (mx t (placeEng p)).late.length + 1 = m.late.length ∧
      (mx t (placeEng p)).ctr.promote = inc32 m.ctr.promote ∧ t.part = s.part) ∧
    ((∀ l ∈ m.late, l.pl = p → s.tarn.now < l.since + 8) → exec (.overPromote pkg sec) s = .next s))) ∧
  (∀ (s : State) (c : Cmd) (k : State) (t : Ticket),
    let pid := tagPid t.ptag
    let n := parm c.body 16 32
    let q := part k pid
    (accepted opFreshReserve s c = some (k, t) → present0 k pid = true → freshReserved k + n ≤ 131064 →
      exec (.memFreshRegionReserve c) s =
        .next (finish (setPart k pid { q with freshRes := q.freshRes + n }) t .ok (resultOf [(8, q.freshRes + n)]))) ∧
    (accepted opFreshReserve s c = some (k, t) → present0 k pid = true → 131064 < freshReserved k + n →
      exec (.memFreshRegionReserve c) s = .next (finish k t .errResource)) ∧
    (accepted opFreshReturn s c = some (k, t) → present0 k pid = true →
      exec (.memFreshRegionReturn c) s =
        .next (finish (setPart k pid { q with freshRes := q.freshRes - n }) t .ok (resultOf [(8, q.freshRes - n)]))) ∧
    (accepted opRegBudget s c = some (k, t) →
      (allEngines.filter fun e => parmBit c.body 16 e).all (fun e => budgetFits k e (budgetClient c.body) (parm c.body 18 16))
        = true →
      ∃ e, exec (.regBudget c) s = .next (finish e t .ok) ∧ e.part = k.part ∧ e.keys = k.keys ∧
        (∀ i, i < 8 → parmBit c.body 16 i = true →
          (mx e i).nextBudget = tset 0 (mx k i).nextBudget (budgetClient c.body) (parm c.body 18 16) ∧
          (mx e i).budget = (mx k i).budget ∧ (mx e i).tokens = (mx k i).tokens)) ∧
    (accepted opRegBudget s c = some (k, t) →
      (allEngines.filter fun e => parmBit c.body 16 e).all (fun e => budgetFits k e (budgetClient c.body) (parm c.body 18 16))
        = false → exec (.regBudget c) s = .next (finish k t .errResource)))

/-- The rinse (R323, R239): RINSE queues a ticket for FREE pages while fewer than 16 are outstanding, and answers its number;
the oldest queued ticket starts under a fresh key pair when none runs; each page turn of the running ticket passes one page,
writing every data sector under the ticket's keys and marking it CLEAN where it is FREE, and skipping it where it is not; a turn waits for a re-tag over the entry's sector (R148); after the last turn the ticket is
done; RINSE_STATUS reports. -/
def Obligations.RinseTicketsRunInOrder : Prop :=
  (∀ (s : State) (c : Cmd) (k : State) (t : Ticket), accepted opRinse s c = some (k, t) →
    k.range.memb ≠ .quarantined → allFree k (parm c.body 16 32) (parm c.body 20 32) = true →
    ((liveTickets k).length < 16 → ∃ e, exec (.rinse c) s = .next (finish e t .ok (resultOf [(8, k.mem.nextTkt)])) ∧
      (∃ x ∈ e.mem.tickets, x.id = k.mem.nextTkt ∧ x.first = parm c.body 16 32 ∧ x.count = parm c.body 20 32 ∧
        x.state = .queued) ∧ e.mem.pot = k.mem.pot ∧ e.part = k.part) ∧
    (16 ≤ (liveTickets k).length → exec (.rinse c) s = .next (finish k t .busy))) ∧
  (∀ (s : State) (c : Cmd) (k : State) (t : Ticket) (x : RinseTkt), accepted opRinseStatus s c = some (k, t) →
    k.mem.tickets.find? (fun y => y.id == parm c.body 16 32) = some x →
    exec (.rinseStatus c) s = .next (finish k t .ok
      (resultOf [(8, ticketCode x.state), (12, x.turns), (16, x.count), (20, x.rinsed)]))) ∧
  (∀ (s : State) (x : RinseTkt), s.mem.tickets.any (fun y => y.state == .running) = false →
    s.mem.tickets.find? (fun y => y.state == .queued) = some x → s.keys.entFailed = false →
    ∃ t, exec .rinseTicketStart s = .next t ∧ t.mem.rinseKey.isSome = true ∧ { x with state := .running } ∈ t.mem.tickets ∧
      t.mem.pot = s.mem.pot ∧ t.part = s.part) ∧
  (∀ (s : State) (x : RinseTkt), s.mem.tickets.find? (fun y => y.state == .running) = some x →
    potBusy s (x.first + x.turns) = true → exec .rinsePageDone s = .next s) ∧
  (∀ (s : State) (x : RinseTkt), s.mem.tickets.find? (fun y => y.state == .running) = some x → x.turns + 1 < x.count →
    potBusy s (x.first + x.turns) = false → (∀ x ∈ s.mem.mx, x.2.missq = []) →
    let page := x.first + x.turns
    let new := { pot s page with clean := true, used := false }
    ((pot s page).state = .free → changing s page = false →
      potAtHand (retireDarn (mcWriteAll s 32 (rinseData s x.id page)) page) page new = true →
      ∃ t, exec .rinsePageDone s = .next t ∧ pot t page = new ∧
        { x with turns := x.turns + 1, rinsed := x.rinsed + 1 } ∈ t.mem.tickets ∧ t.part = s.part ∧ t.keys = s.keys ∧
        (∀ g ∈ t.mem.badGran, g / 256 ≠ page) ∧
        ∀ n, page * pageSectors ≤ n → n < (page + 1) * pageSectors → let p := dataPlace s n
          ∃ pri, Out.mcWrite (placePkg p) (placeSec p) (rinseSector (s.mem.rinseKey.getD (0, 0)) x.id n) pri ∈ t.out) ∧
    ((pot s page).state ≠ .free → ∃ t, exec .rinsePageDone s = .next t ∧ t.mem.pot = s.mem.pot ∧
      { x with turns := x.turns + 1 } ∈ t.mem.tickets)) ∧
  (∀ (s : State) (x : RinseTkt), s.mem.tickets.find? (fun y => y.state == .running) = some x → x.count ≤ x.turns + 1 →
    potBusy s (x.first + x.turns) = false → (pot s (x.first + x.turns)).state ≠ .free →
    ∃ t, exec .rinsePageDone s = .next t ∧
      { x with turns := x.turns + 1, state := .done } ∈ t.mem.tickets ∧ t.mem.rinseKey = none)

/-! ## Ridge (03) -/

/-- LINK_SESSION, LINK_REKEY and LINK_SCREE (R59, R62, R63, R64, R70, R82, R89). OPEN takes an OFF port of a chip in a range
to PROBING with both session keys of index 0 derived, and waits; CLOSE drains an OPEN port, and takes a DOWN or ADMITTING one
OFF at once; SHARE keeps the sum at 32; ADMIT in any membership state writes the agreed key into slot 6, or as a relay into a pool
slot, where the exchange verifies, this end's own shares signed by its alias keys (R64; the layout is the model's, log
entry 34); REKEY marks a flip where the next key is ready and the last flip is 10 ms old. A session
that opens under the range epoch of the last one goes on with its sequence numbers (R61). In the other states that the clauses name they complete
with the named error and change nothing. -/
def Obligations.PortCommandsFollowThePortState : Prop :=
  ∀ (s : State) (c : Cmd) (k : State) (t : Ticket),
    let n := parm c.body 16 8
    let l := link k n
    let shared : Link := { l with shares := tset 0 l.shares (tagPid t.ptag) (parm c.body 18 8) }
    (accepted opLinkOpen s c = some (k, t) → l.state = .off → inRange k = true →
      parm c.body 22 8 + (l.shares.map (·.2)).sum ≤ 32 → rkBad k k.range.epoch.toNat = none →
      ∃ e, exec (.linkSessionOpen c) s = .next e ∧ (link e n).state = .probing ∧ (link e n).peerNode = parm c.body 18 14 ∧
        (link e n).peerPort = parm c.body 20 8 ∧ (link e n).cableDly = parm c.body 21 8 ∧
        (link e n).transit = parm c.body 22 8 ∧ (link e n).ctr = {} ∧
        (∀ q, l.kept = some (k.range.epoch, q) → (link e n).txSeq = q) ∧
        (link e n).txCur = some (txKey e n k.range.epoch 0) ∧ (link e n).rxCur = some (rxKey e n k.range.epoch 0) ∧
        e.cmd.waits = k.cmd.waits ++ [⟨t, 0, .linkOpen n⟩] ∧ (∀ p, p ≠ n → link e p = link k p) ∧
        e.part = k.part ∧ e.keys = k.keys ∧ e.mem = k.mem ∧ e.range = k.range) ∧
    (∀ b, accepted opLinkOpen s c = some (k, t) → l.state = .off → inRange k = true →
      parm c.body 22 8 + (l.shares.map (·.2)).sum ≤ 32 → rkBad k k.range.epoch.toNat = some b →
      exec (.linkSessionOpen c) s = .next (finish b t .errIntegrity)) ∧
    (accepted opLinkOpen s c = some (k, t) → (l.state ≠ .off ∨ inRange k = false) →
      exec (.linkSessionOpen c) s = .next (finish k t .errState)) ∧
    (accepted opLinkClose s c = some (k, t) → l.state = .opened →
      exec (.linkSessionClose c) s = .next { setLink k n { l with
          closing := true, since := if l.closing then l.since else now k } with
        cmd := { k.cmd with waits := k.cmd.waits ++ [⟨t, 0, .linkClose n⟩] } }) ∧
    (accepted opLinkClose s c = some (k, t) → (l.state = .down ∨ l.state = .admitting) →
      ∃ e, exec (.linkSessionClose c) s = .next (finish e t .ok (resultOf [(8, 0)])) ∧ (link e n).state = .off ∧
        (link e n).txCur = none ∧ (link e n).rxCur = none ∧ e.part = k.part ∧ e.mem = k.mem) ∧
    (accepted opLinkClose s c = some (k, t) → (l.state = .off ∨ l.state = .probing) →
      exec (.linkSessionClose c) s = .next (finish k t .errState)) ∧
    (accepted opLinkShare s c = some (k, t) → shareSum shared ≤ 32 →
      exec (.linkSessionShare c) s = .next (finish (setLink k n shared) t .ok (resultOf [(8, portCode l.state)]))) ∧
    (accepted opLinkShare s c = some (k, t) → 32 < shareSum shared →
      exec (.linkSessionShare c) s = .next (finish k t .errResource)) ∧
    (accepted opLinkAdmit s c = some (k, t) → l.state = .off → inRange k = false → k.keys.entFailed = false →
      readBad k [0, 1] = none →
      if polClass (slot k 6).policy = 0 then match (admitExchange k n false).2 with
        | some key => ∃ e, exec (.linkSessionAdmit c) s = .next (finish e t .ok (resultOf [(8, 4)])) ∧
          (link e n).state = .admitting ∧ polClass (slot e 6).policy = classCode .agreed ∧ (slot e 6).key = key ∧
          (link e n).txCur = some ⟨0, 0, key⟩ ∧ (link e n).rxCur = some ⟨0, 0, key⟩ ∧
          (∀ i, i ≠ 6 → slot e i = slot k i) ∧ e.range = k.range ∧ e.part = k.part ∧ e.mem = k.mem
        | none => exec (.linkSessionAdmit c) s = .next (finish (admitExchange k n false).1 t .authFail (resultOf [(8, 0)]))
      else exec (.linkSessionAdmit c) s = .next (finish k t .errResource)) ∧
    (∀ i rest, accepted opLinkAdmit s c = some (k, t) → l.state = .off → inRange k = true → k.keys.entFailed = false →
      freeDerived k = i :: rest → k.range.relays.length < 4 → readBad k [0, 1] = none →
      match (admitExchange k n true).2 with
        | some key => ∃ e, exec (.linkSessionAdmit c) s = .next (finish e t .ok (resultOf [(8, 4)])) ∧
          (link e n).state = .admitting ∧ polClass (slot e i).policy = classCode .agreed ∧ (slot e i).key = key ∧
          (link e n).txCur = some ⟨0, 0, key⟩ ∧ e.range.relays = k.range.relays ++ [{ port := n, slot := i }] ∧
          e.part = k.part ∧ e.mem = k.mem
        | none => exec (.linkSessionAdmit c) s = .next (finish (admitExchange k n true).1 t .authFail (resultOf [(8, 0)]))) ∧
    (∀ relay, k.fuse.rootKind = .valid → readBad k [0, 1] = none → ∃ u shares,
      (admitExchange k n relay).1 = emit u (.admission n (shares ++ aliasSign u (asc "QBADMIT") shares ++ chainOf u 0 ++
        chainOf u 1)) ∧ u.out = k.out ∧ u.ridge = k.ridge ∧ u.part = k.part ∧ u.range = k.range) ∧
    (accepted opLinkAdmit s c = some (k, t) → l.state = .off → inRange k = true → k.keys.entFailed = false →
      (freeDerived k = [] ∨ 4 ≤ k.range.relays.length) →
      exec (.linkSessionAdmit c) s = .next (finish k t .errResource)) ∧
    (accepted opLinkAdmit s c = some (k, t) → (l.state ≠ .off ∨ k.keys.entFailed = true) →
      exec (.linkSessionAdmit c) s = .next (finish k t .errState)) ∧
    (accepted opLinkRekey s c = some (k, t) → l.state = .opened → l.txNext.isSome = true →
      (∀ u, l.lastFlip = some u → u + 10000 ≤ now k) →
      exec (.linkRekey c) s = .next (finish (setLink k n { l with flipDue := true }) t .ok)) ∧
    (accepted opLinkRekey s c = some (k, t) → l.state ≠ .opened → exec (.linkRekey c) s = .next (finish k t .errState)) ∧
    (∀ u, accepted opLinkRekey s c = some (k, t) → l.state = .opened →
      (l.txNext = none ∨ (l.lastFlip = some u ∧ now k < u + 10000)) →
      exec (.linkRekey c) s = .next (finish k t .busy)) ∧
    (accepted opLinkScree s c = some (k, t) →
      exec (.linkScree c) s = .next (finish (setLink k n { l with
        screeFM1 := parm c.body 17 8 - 1, screeCad := parm c.body 18 8 }) t .ok))

/-- FRAME_RECEIVE (R15, R52, R62, R68, R71, R72, R74, R76, R81): before QB_RDY, and without a session, a port takes nothing; a
frame of no held key or whose number its window rejects is counted as a replay; one whose clear header, tag or class fails is
counted and asked for once more, and while that retry runs only its copy is looked at, whose failure is a link tag alarm that
takes the port DOWN; its slots of the release buffer are FREE again. A verified frame of any class
returns its credits, enters its number into the window and drains to its consumer with its AGE counted on; a scree cell is
dropped there; one whose AGE reaches 160 is counted as aged. A window that has taken a number rejects it from then on, and
keeps rejecting every number it rejected before (R72). -/
def Obligations.FramesAreVerifiedInOrder : Prop :=
  ∀ (s : State) (p : Port) (f : Wire),
    let n := p.val
    let l := link s n
    let live := s.boot.rdy = true ∧ l.state ≠ .off ∧ l.state ≠ .down
    let bad := fun (x : SKey) => clearOk s n f.clear = false ∨ openWire x f = none ∨
      ∃ i, openWire x f = some i ∧ classOk i = false
    let freed := { l with slots := List.replicate (wireFlits f) .free ++ l.slots.drop (wireFlits f) }
    let tried := if clearOk s n f.clear = true then freed else l
    ((s.boot.rdy = false ∨ l.state = .off ∨ l.state = .down) → exec (.frameReceive p f) s = .next s) ∧
    (∀ r, l.retrying = some r → r ≠ (f.clear.epoch, f.clear.seq) → exec (.frameReceive p f) s = .next s) ∧
    (live → l.retrying = none →
      (selectKey l f.clear = none ∨ winRejects (winOf l f.clear.epoch) f.clear.seq.toNat = true) →
      exec (.frameReceive p f) s = .next (setLink s n { l with ctr := { l.ctr with replay := inc32 l.ctr.replay } })) ∧
    (∀ x o, live → l.retrying = none → selectKey l f.clear = some (x, o) →
      winRejects (winOf l f.clear.epoch) f.clear.seq.toNat = false → bad x →
      (l.state = .opened → exec (.frameReceive p f) s = .next (emit (setLink s n { tried with
          retrying := some (f.clear.epoch, f.clear.seq), ctr := { l.ctr with tagfail := inc32 l.ctr.tagfail } })
        (.retry n f.clear.seq))) ∧
      (l.state ≠ .opened → exec (.frameReceive p f) s =
        .next (setLink s n { tried with ctr := { l.ctr with tagfail := inc32 l.ctr.tagfail } }))) ∧
    (∀ x o, live → l.state = .opened → l.retrying = some (f.clear.epoch, f.clear.seq) → selectKey l f.clear = some (x, o) →
      winRejects (winOf l f.clear.epoch) f.clear.seq.toNat = false → bad x →
      exec (.frameReceive p f) s =
        .next (linkAlarm (if clearOk s n f.clear = true then setLink s n freed else s) n)) ∧
    (l.closing = false → s.alarm.hist = [] → s.range.retiring = false → l.transitq = [] →
      (link (linkAlarm s n) n).state = .down ∧ (link (linkAlarm s n) n).tagAlarm = true ∧
      (link (linkAlarm s n) n).txCur = none ∧ (linkAlarm s n).alarm.seen.getLsbD 1 = true ∧
      (∀ q, q ≠ n → link (linkAlarm s n) q = link s q) ∧ (linkAlarm s n).part = s.part) ∧
    (∀ x i, live → l.state = .opened → l.retrying = none → l.rxPrev = false → selectKey l f.clear = some (x, false) →
      winRejects (winOf l f.clear.epoch) f.clear.seq.toNat = false → clearOk s n f.clear = true →
      openWire x f = some i → i.cls = clsScree → i.len = 0 → i.srcNode.toNat ≠ s.range.nodeId →
      ((winOf l f.clear.epoch).valid = true → f.clear.seq.toNat ≤ (winOf l f.clear.epoch).top + 1) →
      let taken := { putWin freed (winTake (winOf l f.clear.epoch) f.clear.seq.toNat) with
        retrying := none, lastRx := now s, credits := ⟨l.credits.req + i.crReq.toNat, l.credits.rsp + i.crRsp.toNat,
          l.credits.bulk + i.crBulk.toNat, l.credits.fold + i.crFold.toNat⟩ }
      (i.age.toNat + l.cableDly < 160 → exec (.frameReceive p f) s = .next (setLink s n taken)) ∧
      (160 ≤ i.age.toNat + l.cableDly → ∃ t, exec (.frameReceive p f) s = .next t ∧
        (link t n).ctr = { l.ctr with aged := inc32 l.ctr.aged } ∧ (link t n).credits = taken.credits ∧
        t.out = s.out ∧ t.part = s.part ∧ t.mem = s.mem)) ∧
    (∀ x i, live → l.state = .opened → l.retrying = none → l.rxPrev = false → selectKey l f.clear = some (x, false) →
      winRejects (winOf l f.clear.epoch) f.clear.seq.toNat = false → clearOk s n f.clear = true →
      openWire x f = some i → classOk i = true → i.srcNode.toNat ≠ s.range.nodeId → i.age.toNat + l.cableDly < 160 →
      ((winOf l f.clear.epoch).valid = true → f.clear.seq.toNat ≤ (winOf l f.clear.epoch).top + 1) →
      exec (.frameReceive p f) s = .next (relSlots (takeOpen (setLink s n
        { putWin l (winTake (winOf l f.clear.epoch) f.clear.seq.toNat) with
          retrying := none, lastRx := now s
          slots := List.replicate (wireFlits f) .draining ++ l.slots.drop (wireFlits f)
          credits := ⟨l.credits.req + i.crReq.toNat, l.credits.rsp + i.crRsp.toNat,
            l.credits.bulk + i.crBulk.toNat, l.credits.fold + i.crFold.toNat⟩ })
        n i (i.age.toNat + l.cableDly) (wireFlits f)) n (wireFlits f) .free)) ∧
    (∀ (w : Win) (q : Nat), winRejects (winTake w q) q = true ∧
      (∀ r, winRejects w r = true → winRejects (winTake w q) r = true) ∧
      (∀ r, q < r → w.valid = false → winRejects (winTake w q) r = false) ∧
      (∀ r, w.valid = true → w.top < r → q < r → winRejects (winTake w q) r = false))

/-- What a verified frame of each class comes to (R55, R57, R77, R81, R83, R84, R86, R107, R173, R182, R188, R189, R200, R227).
A frame for another node goes to the router unchanged but for its AGE. A RANGE frame joins the range ring, or is counted
where its 64 entries are full. An answer of the current generation gives its master its data; a stale one is counted. A
request is formed from its descriptor and body. One of a stale tag is counted and writes nothing, as is one of a peer that
the partition's entry does not admit. A FOLD frame joins its unit's input stage. An admitted load, store, bulk request or new
atomic joins the ingress master, a retried atomic is answered from the cache, a seam is held for its count, a STREAM opens
or frees an entry, an ownership notice moves the page's ownership, and a fence signal is applied and acknowledged. -/
def Obligations.VerifiedFramesReachTheirConsumers : Prop :=
  (∀ (s : State) (n : Nat) (i : Inner) (age flits : Nat),
    let took := takeOpen s n i age flits
    let pid := tagPid i.dstPtag
    let b := i.payload
    let fold := i.cls == clsFold
    let g : Ingress := {
      num := s.ridge.ingressNum, via := n, src := i.srcNode.toNat, sptag := i.srcPtag, dptag := i.dstPtag, cls := i.cls
      age := age, at_ := now s, desc := if fold then {} else descOf b, data := if fold then b else b.drop 16
      flits := flits, len := i.len.toNat, padded := fold && i.padded, retry := i.retry, poison := i.poison }
    let answer := i.cls = clsResp ∨ i.cls = clsBulkData
    i.cls ≠ clsScree → i.cls ≠ clsCtrl →
    (i.dstNode.toNat ≠ s.range.nodeId → took = { s with ridge := { s.ridge with
      router := s.ridge.router ++ [{ via := n, inner := { i with age := BitVec.ofNat 8 age }, flits := flits }] } }) ∧
    (i.dstNode.toNat = s.range.nodeId → i.cls = clsRange →
      (64 ≤ s.cmd.rangeQ.length →
        took = { s with cmd := { s.cmd with rangeDropped := inc16 s.cmd.rangeDropped } }) ∧
      (s.cmd.rangeQ.length < 64 → b.length = 64 → ∃ q : RangeIn,
        took = { s with cmd := { s.cmd with rangeQ := s.cmd.rangeQ ++ [q] } } ∧ q.src = i.srcNode.toNat ∧
        q.packet.opcode = BitVec.ofNat 8 (le b 0 1) ∧ q.packet.form = BitVec.ofNat 8 (le b 2 1) ∧
        q.packet.body.seq = BitVec.ofNat 16 (le b 4 2) ∧ q.packet.body.params = BitVec.ofNat 384 (le b 16 48))) ∧
    (i.dstNode.toNat = s.range.nodeId → answer → (tagCurrent s i.dstPtag = false ∨ pidPresent s pid = false) →
      (link took n).ctr.stale = inc32 (link s n).ctr.stale ∧ took.out = s.out ∧ took.rmt = s.rmt ∧ took.part = s.part) ∧
    (∀ e, i.dstNode.toNat = s.range.nodeId → i.cls = clsResp → tagCurrent s i.dstPtag = true →
      pidPresent s pid = true → s.rmt.held = [] → (descOf b).op = kLoad → (descOf b).status = 0 → i.poison = false →
      loadEnt s (descOf b).id40 i.srcNode.toNat clsLoad = some e →
      took.out = .rmtData e.req.mport e.req.ctx (b.drop 16) :: s.out ∧
      took.rmt.loads = s.rmt.loads.filter (fun x => x.tag != e.tag) ∧ took.part = s.part ∧ took.mem = s.mem) ∧
    (i.dstNode.toNat = s.range.nodeId → i.cls ≠ clsRange → ¬ answer → ∃ u, took = takeRequest u g ∧
      u.ridge = { s.ridge with ingressNum := s.ridge.ingressNum + 1 } ∧ u.part = s.part ∧ u.mem = s.mem ∧
      u.fold = s.fold ∧ u.rmt = s.rmt ∧ u.out = s.out ∧ u.range = s.range)) ∧
  (∀ (s : State) (g : Ingress), g.via < 36 →
    let r := takeRequest s g
    let k := g.desc.stream.toNat
    let current := tagCurrent s g.dptag = true ∧ pidPresent s (tagPid g.dptag) = true
    let admitted := current ∧ peerAdmits s (tagPid g.dptag) g.src g.sptag = true ∧ opOk g = true ∧
      outsideQuad s g = false ∧ notOwner s g = false
    let back := fun (u : State) => owe u g.via g.cls g.flits
    let inert := r.mem = s.mem ∧ r.ridge.ingress = s.ridge.ingress ∧ r.rmt.owned = s.rmt.owned
    ((tagCurrent s g.dptag = false ∨ pidPresent s (tagPid g.dptag) = false) → inert ∧ r.part = s.part ∧
      (link r g.via).ctr.stale = inc32 (link s g.via).ctr.stale ∧ r.ridge.streams = s.ridge.streams) ∧
    (current → g.cls = clsFold → g.poison = false → stageFlits s g.via + g.flits ≤ 32 →
      r = setInput s g.via (inputOf s g.via ++ [{ src := g.src, sptag := g.sptag, dptag := g.dptag, flits := g.flits
                                                  len := g.len, body := g.data, padded := g.padded }])) ∧
    (current → g.cls ≠ clsFold → peerAdmits s (tagPid g.dptag) g.src g.sptag = false → inert ∧
      r.part.ctr.peerRefuse = inc32 s.part.ctr.peerRefuse ∧ r.part.ctxs = s.part.ctxs ∧ r.part.fences = s.part.fences) ∧
    (admitted → (g.cls = clsLoad ∨ g.cls = clsBulkRd ∨ (g.poison = false ∧ (g.cls = clsBulkWr ∨
        (g.cls = clsStore ∧ lostStream s g = false) ∨ (g.cls = clsAtomic ∧ amoOk g = true ∧ retryHit s g = none)))) →
      r = { s with ridge := { s.ridge with ingress := s.ridge.ingress ++ [g] } }) ∧
    (∀ x, admitted → g.poison = false → g.cls = clsAtomic → amoOk g = true → retryHit s g = some x →
      inert ∧ r = back (answer s g kAtomic .ok (leBytes ((amoBytes (kindOf g.desc.op) g.desc.size.toNat).getD 4) x.toNat))) ∧
    (admitted → g.poison = false → g.cls = clsSeam → ownsStream s g = true → segGet (stream s k).hold g.desc.seg = none →
      inert ∧ segGet (stream r k).hold g.desc.seg = some { req := g, at_ := now s } ∧
      (stream r k).landed = (stream s k).landed ∧ (stream r k).fault = (stream s k).fault ∧ r.part = s.part) ∧
    (admitted → lostStream s g = true → inert ∧ r.part = s.part ∧ r.ridge.streams = s.ridge.streams ∧
      (link r g.via).ctr.stale = inc32 (link s g.via).ctr.stale) ∧
    (admitted → g.cls = clsStream → g.desc.op = 1 →
      let j := lowest (fun n => (stream s n).used) 4095 0
      inert ∧ (4095 ≤ j → r = back (answer s g kGrant .busy)) ∧
      (j < 4095 → (stream r j).used = true ∧ (stream r j).inc = (stream s j).inc + 1 ∧ (stream r j).src = g.src ∧
        (stream r j).sptag = g.sptag ∧ (stream r j).dptag = g.dptag ∧ ∀ m, m ≠ j → stream r m = stream s m)) ∧
    (admitted → g.cls = clsStream → g.desc.op = 2 → ownsStream s g = true → inert ∧ (stream r k).used = false ∧
      (stream r k).inc = (stream s k).inc) ∧
    (admitted → g.poison = false → g.cls = clsOwn → g.desc.op = 1 → g.desc.off.toNat % 2097152 = 0 → g.desc.size = 15 →
      g.desc.id40 = 0 → g.desc.stream = 0xFFF → 16 ≤ g.data.length → le g.data 3 13 = 0 →
      (le g.data 2 1 = 1 → le g.data 0 2 = s.range.nodeId → r.mem = s.mem ∧ farPage g.src g.desc.off ∈ r.rmt.owned ∧
        ∀ x, x ≠ farPage g.src g.desc.off → (x ∈ r.rmt.owned ↔ x ∈ s.rmt.owned)) ∧
      (le g.data 2 1 = 0 → farPage g.src g.desc.off ∈ s.rmt.owned → r.mem = s.mem ∧
        farPage g.src g.desc.off ∉ r.rmt.owned ∧
        ∀ x, x ≠ farPage g.src g.desc.off → (x ∈ r.rmt.owned ↔ x ∈ s.rmt.owned))) ∧
    (admitted → g.poison = false → g.cls = clsOwn → g.desc.op = 3 → g.desc.off = 0 → g.desc.size = 15 →
      g.desc.stream = 0xFFF → 16 ≤ g.data.length → le g.data 13 3 = 0 → le g.data 12 1 ≤ 14 →
      let h : BitVec 32 := BitVec.ofNat 32 (le g.data 0 4)
      fenceMatch s h = true → (fence s (fenceIdx h)).pid = tagPid g.dptag →
      let x := signalFence s h (BitVec.ofNat 64 (le g.data 4 8)) (BitVec.ofNat 8 (le g.data 12 1)) g.dptag
      r = back (answer x.1 g kFenceAck (match x.2 with
        | .stale => .errStale
        | .oooStrict => .errParam
        | _ => .ok))))

/-- Frame starts (R15, R62, R67, R82, R89, R411). Outside scree mode a full control bucket sends the control frame first, then a
client's frame whose bucket holds it; in scree mode a slot to which nothing is offered carries a frame of the scree length all
the same; a frame carries the port's next number under its current key. A flip that is due takes the next key, and SEQ starts
at 0 where the epoch is new. A transit frame joins the port's queue, from which a frame start seals it, or is discarded as
without a route or aged, its credits returned. A joiner's ADMIT port ends with the CTRL close it sends. -/
def Obligations.FrameStartsSealInOrder : Prop :=
  ∀ (s : State) (p : Port),
    let n := p.val
    let l := link s n
    let sealed := fun (e : State) (k : SKey) (flits : Nat) => ∃ w, e.out = .frame n w :: s.out ∧ w.clear.epoch = k.epoch ∧
      w.clear.phase = phaseOf k ∧ w.clear.seq = l.txSeq ∧ w.clear.flitsM1 = BitVec.ofNat 4 (flits - 1) ∧
      (link e n).txSeq = l.txSeq + 1 ∧ (link e n).txFrames = l.txFrames + 1
    (∀ lclk offer, (s.boot.rdy = false ∨ l.screeCad ≠ 0 ∨ l.txCur = none) →
      exec (.frameSeal p lclk offer) s = .next s) ∧
    (∀ offer, (s.boot.rdy = false ∨ l.screeCad = 0 ∨ l.txCur = none) → exec (.screeSlot p offer) s = .next s) ∧
    (s.boot.rdy = true → l.transitq = [] →
      (∀ lclk, l.screeCad = 0 → l.txCur.isSome = true → l.ctlq = [] →
        exec (.frameSeal p lclk []) s = .next (setLink s n (fillBuckets l lclk))) ∧
      (∀ lclk offer k f rest, l.screeCad = 0 → l.txCur = some k → l.txNext = none → l.ctlq = f :: rest →
        128 ≤ l.ctlBucket + lclk →
        ((l.state ≠ .admitting ∨ l.closing = false) → ∃ e, exec (.frameSeal p lclk offer) s = .next e ∧
          sealed e k f.flits ∧ (link e n).ctlq = rest ∧ (link e n).ctlBucket = 0 ∧ e.ridge.outq = s.ridge.outq ∧
          e.part = s.part) ∧
        (l.state = .admitting → l.closing = true → rest = [] → ∃ e w, exec (.frameSeal p lclk offer) s = .next e ∧
          e.out = .frame n w :: s.out ∧ (link e n).state = .off ∧ (link e n).txCur = none ∧
          polClass (slot e 6).policy = 0 ∧ e.part = s.part)) ∧
      (∀ lclk i k f, l.screeCad = 0 → l.txCur = some k → l.txNext = none → l.ctlq = [] → l.state = .opened →
        l.closing = false → s.ridge.outq[i]? = some f → f.client ≤ 32 → f.track = 0 → f.inner.cls ≠ clsSeam →
        hasCredits l f.inner.cls f.flits = true → flitsFor f.inner.payload.length ≤ f.flits →
        f.flits * 64 ≤ tget 0 (fillBuckets l lclk).buckets f.client →
        ∃ e, exec (.frameSeal p lclk [i]) s = .next e ∧ sealed e k f.flits ∧ e.ridge.outq = s.ridge.outq.eraseIdx i ∧
          tget 0 (link e n).buckets f.client = tget 0 (fillBuckets l lclk).buckets f.client - f.flits * 64 ∧
          e.part = s.part) ∧
      (∀ k, l.screeCad ≠ 0 → l.txCur = some k → l.txNext = none → l.ctlq = [] → l.state ≠ .admitting →
        ∃ e, exec (.screeSlot p []) s = .next e ∧ sealed e k (l.screeFM1 + 1) ∧ e.ridge.outq = s.ridge.outq ∧
          e.part = s.part)) ∧
    (∀ k, l.txNext = some k → flipIsDue s l = true →
      (link (flip s n) n).txCur = some k ∧ (link (flip s n) n).txNext = none ∧ (link (flip s n) n).txFrames = 0 ∧
      (link (flip s n) n).lastFlip = some (now s) ∧
      (∀ c, l.txCur = some c → (link (flip s n) n).txSeq = if c.epoch = k.epoch then l.txSeq else 0)) ∧
    (∀ idx lclk t, s.ridge.router[idx]? = some t →
      let h : Handed := { t := t, res := lclk, at_ := l.lclk }
      let owes := fun (e : State) => e.ridge.router = s.ridge.router.eraseIdx idx ∧ e.out = s.out ∧ e.part = s.part ∧
        ((link s t.via).state = .opened → 1 ≤ (poolOf t.inner.cls) → poolOf t.inner.cls ≤ 4 →
          poolGet (link e t.via).owed (poolOf t.inner.cls) = poolGet (link s t.via).owed (poolOf t.inner.cls) + t.flits)
      (l.state ≠ .opened → ∃ e, exec (.transitHandoff p idx lclk) s = .next e ∧ owes e ∧
        (link e n).ctr = { l.ctr with noroute := inc32 l.ctr.noroute }) ∧
      (l.state = .opened → 160 ≤ t.inner.age.toNat + quarters lclk →
        ∃ e, exec (.transitHandoff p idx lclk) s = .next e ∧ owes e ∧
          (link e n).ctr = { l.ctr with aged := inc32 l.ctr.aged }) ∧
      (l.state = .opened → t.inner.age.toNat + quarters lclk < 160 → l.closing = true →
        exec (.transitHandoff p idx lclk) s = .next s) ∧
      (l.state = .opened → t.inner.age.toNat + quarters lclk < 160 → l.closing = false →
        exec (.transitHandoff p idx lclk) s = .next { setLink s n { l with transitq := l.transitq ++ [h] } with
          ridge := { (setLink s n { l with transitq := l.transitq ++ [h] }).ridge with
            router := s.ridge.router.eraseIdx idx } })) ∧
    (∀ lclk k h, s.boot.rdy = true → l.screeCad = 0 → l.txCur = some k → l.txNext = none → l.ctlq = [] →
      l.state = .opened → l.transitq = [h] → h.t.inner.cls ≠ clsRange → handedAge (fillBuckets l lclk) h < 160 →
      let flits := flitsFor h.t.inner.payload.length
      hasCredits l h.t.inner.cls flits = true →
      ∃ e, exec (.frameSeal p lclk []) s = .next e ∧ sealed e k flits ∧ (link e n).transitq = [] ∧ e.part = s.part)

/-- The port timers (R62, R63, R65, R66, R67, R68, R74): each acts at its time and not before. Sixty seconds mark a flip; the
next keys are derived in the background; the previous RX key is destroyed after 1 ms; 10 µs without a frame send a
keepalive; 40 µs without one from the peer take the port DOWN; a probe ends after 1 ms, an admission after 20 s; a close ends when
nothing is queued or after 50 µs; a go-back retry that fails is a link tag alarm. -/
def Obligations.PortTimersActAtTheirTime : Prop :=
  ∀ (s : State) (p : Port),
    let n := p.val
    let l := link s n
    (∀ u, l.txFirst = some u → l.state = .opened → u + 60000000 ≤ now s →
      exec (.txRekeyTimer p) s = .next (setLink s n { l with flipDue := true })) ∧
    (∀ u, l.txFirst = some u → now s < u + 60000000 → exec (.txRekeyTimer p) s = .next s) ∧
    (∀ k, (l.state = .opened ∨ l.state = .probing) → l.txCur = some k → l.txNext = none →
      exec (.txKeyDerived p false) s = .next (match rkBad s k.epoch.toNat with
        | none => setLink s n { l with txNext := some (txKey s n k.epoch (k.idx + 1)) }
        | some b => b)) ∧
    (∀ k, (l.state = .opened ∨ l.state = .probing) → l.rxCur = some k → l.rxOther = none →
      let x := if k.epoch = nextEpoch s then rxKey s n k.epoch (k.idx + 1) else rxKey s n (nextEpoch s) 0
      exec (.txKeyDerived p true) s = .next (match rkBad s (nextEpoch s).toNat with
        | none => setLink s n { l with rxOther := some x, rxPrev := false }
        | some b => b)) ∧
    (l.state ≠ .opened → l.state ≠ .probing → ∀ rx, exec (.txKeyDerived p rx) s = .next s) ∧
    (l.rxPrev = true → l.prevSince + 1000 ≤ now s → s.range.retiring = false →
      ∃ ws, exec (.rxPrevRetire p) s = .next (setLink s n { l with
        rxOther := none, rxPrev := false, prevFrames := 0, wins := ws }) ∧
        ∀ w ∈ ws, w ∈ l.wins ∧ ∃ k, l.rxCur = some k ∧ w.epoch = k.epoch) ∧
    ((l.rxPrev = false ∨ now s < l.prevSince + 1000) → exec (.rxPrevRetire p) s = .next s) ∧
    (l.state = .opened → l.ctlq = [] → l.lastTx + 10 ≤ now s →
      ∃ f, exec (.keepaliveTimer p) s = .next (setLink s n { l with ctlq := [f] }) ∧ f.inner.cls = clsCtrl ∧
        f.inner.dstNode = BitVec.ofNat 14 l.peerNode) ∧
    (now s < l.lastTx + 10 → exec (.keepaliveTimer p) s = .next s) ∧
    (l.state = .opened → l.lastRx + 40 ≤ now s → l.closing = false → s.range.retiring = false → inRange s = false →
      l.transitq = [] →
      ∃ t, exec (.peerLoss p) s = .next t ∧ (link t n).state = .down ∧ (link t n).peerLost = true ∧
        (link t n).txCur = none ∧ (∀ q, q ≠ n → link t q = link s q) ∧ t.part = s.part ∧ t.keys = s.keys) ∧
    (now s < l.lastRx + 40 → exec (.peerLoss p) s = .next s) ∧
    (l.state = .probing → l.since + 1000 ≤ now s →
      exec (.probeTimeout p) s = .next (finishWaits (portTo s n .off) (fun w => w.kind == .linkOpen n) .authFail
        (resultOf [(8, 0)]))) ∧
    (now s < l.since + 1000 → exec (.probeTimeout p) s = .next s) ∧
    (l.state = .admitting → l.lastRx + 20000000 ≤ now s →
      ∃ t, exec (.admitIdleTimeout p) s = .next t ∧ (link t n).state = .off ∧ (link t n).txCur = none ∧ t.part = s.part) ∧
    (now s < l.lastRx + 20000000 → exec (.admitIdleTimeout p) s = .next s) ∧
    (l.state = .opened → l.closing = true → ((l.ctlq = [] ∧ l.transitq = []) ∨ l.since + 50 ≤ now s) → s.range.retiring = false →
      exec (.closeDrainDone p) s = .next (finishWaits (portTo s n .off) (fun w => w.kind == .linkClose n) .ok
        (resultOf [(8, 0)]))) ∧
    ((l.closing = false ∨ ((l.ctlq ≠ [] ∨ l.transitq ≠ []) ∧ now s < l.since + 50)) → exec (.closeDrainDone p) s = .next s) ∧
    (l.state = .opened → l.retrying.isSome = true → exec (.linkRetryFail p) s = .next (linkAlarm s n)) ∧
    (l.retrying = none → exec (.linkRetryFail p) s = .next s)

/-- Requests in the ingress masters, streams and seams (R76, R83, R84, R85, R86, R182): an aged request is discarded with its
credits returned; a retry whose result is cached is answered from the cache; a write to a sector under a read-modify-write
waits, as does one that is not ready, or whose port has not the turn; each master presents its own ports' requests; a seam whose count is reached fails where its segment
has a fault, succeeds where it is a flush, and else joins its port's writes; a seam held for 1 ms is reported and ends its
stream, as do 10 ms with neither segment in use; the atomic replay cache keeps a result for 100 µs. -/
def Obligations.IngressSeamsAndStreamsInTime : Prop :=
  ∀ (s : State),
    (∀ (m : Fin 4) idx lclk g, s.ridge.ingress[idx]? = some g →
      let r := ingressReq g
      let e := engineOf s r.addr.toNat
      let go := fun (t : State) => exec (.ingressPresent m idx lclk) s = .next t
      (g.via % 4 ≠ m.val → go s) ∧ (g.via % 4 = m.val →
      (agedNow g (quarters lclk) = true → go (dropAged s idx g)) ∧
      (agedNow g (quarters lclk) = false →
        (∀ x, g.cls = clsAtomic → retryHit s g = some x → go (answerHit (setIngress s idx none) g x)) ∧
        ((g.cls ≠ clsAtomic ∨ retryHit s g = none) →
          (hotSector s e r = true → g.hot = false → ∃ t, go t ∧
            t.ridge.ingress = s.ridge.ingress.set idx { g with hot := true } ∧
            t.rmt.ctr.hotWait = inc32 s.rmt.ctr.hotWait ∧ t.mem = s.mem ∧ t.part = s.part) ∧
          (hotSector s e r = true → g.hot = true → go s) ∧
          (hotSector s e r = false → (ingressReady s e idx g = false ∨ myTurn s e g = false) → go s) ∧
          (ingressReady s e idx g = true → myTurn s e g = true →
            (present (reserve s g) { req := r, who := .remote g } = none → go s) ∧
            (∀ t, present (reserve s g) { req := r, who := .remote g } = some t → reqLen g ≤ g.pos + pieceLen g g.pos →
              go (owe (setIngress (served t e g) idx none) g.via g.cls g.flits))))))) ∧
    (∀ idx g, s.ridge.ingress[idx]? = some g → g.pos = 0 → 160 ≤ g.age + 4 * (now s - g.at_) →
      exec (.ingressFrameAged idx) s = .next (dropAged s idx g)) ∧
    (∀ idx g, s.ridge.ingress[idx]? = some g → (g.pos ≠ 0 ∨ g.age + 4 * (now s - g.at_) < 160) →
      exec (.ingressFrameAged idx) s = .next s) ∧
    (∀ (id : BitVec 12) (seg : Bool) (h : Held),
      let t := stream s id.toNat
      let g := { h.req with flits := 0 }
      segGet t.hold seg = some h →
      (∀ count : BitVec 28, count.toNat ≠ h.req.desc.id40.toNat % 2 ^ 28 → exec (.seamRelease id seg count) s = .next s) ∧
      (∀ count : BitVec 28, segGet t.landed seg ≠ count.toNat → exec (.seamRelease id seg count) s = .next s) ∧
      (∀ count : BitVec 28, count.toNat = h.req.desc.id40.toNat % 2 ^ 28 → segGet t.landed seg = count.toNat →
        (segGet t.fault seg = true → exec (.seamRelease id seg count) s = .next (endSeam s g false)) ∧
        (segGet t.fault seg = false → kindOf h.req.desc.op = 1 → exec (.seamRelease id seg count) s = .next (endSeam s g true)) ∧
        (segGet t.fault seg = false → kindOf h.req.desc.op ≠ 1 → exec (.seamRelease id seg count) s =
          .next (tryPresent (enqueue (setStream s id.toNat { t with hold := segSet t.hold seg none, idleAt := now s }) g)
            s.ridge.ingress.length g))) ∧
      (h.at_ + 1000 ≤ now s → ∃ e, exec (.seamHoldTimeout id seg) s = .next e ∧ (stream e id.toNat).used = false ∧
        Out.seamReport (tagPid h.req.dptag) h.req.src id.toNat ∈ e.out ∧ e.part = s.part ∧ e.mem = s.mem) ∧
      (now s < h.at_ + 1000 → exec (.seamHoldTimeout id seg) s = .next s)) ∧
    (∀ (id : BitVec 12),
      let t := stream s id.toNat
      (t.used = true → t.landed = (0, 0) → t.hold = (none, none) → t.idleAt + 10000 ≤ now s →
        exec (.streamIdleTimeout id) s = .next (freeStream s id.toNat) ∧
        (stream (freeStream s id.toNat) id.toNat).used = false) ∧
      ((t.landed ≠ (0, 0) ∨ now s < t.idleAt + 10000) → exec (.streamIdleTimeout id) s = .next s)) ∧
    (∀ p : Port, ∃ l, exec (.atomicCacheExpiry p) s = .next (setLink s p.val { link s p.val with replay := l }) ∧
      ∀ r, r ∈ l ↔ r ∈ (link s p.val).replay ∧ (r.result = none ∨ now s < r.at_ + 100))

/-! ## Remote requests (06) -/

/-- REMOTE_REQUEST (R41, R163 to R165, R170, R172, R173, R175 to R177, R188, R189, R210): a request of a former generation goes
nowhere; a class that the master may not issue is denied, as is a request that the source refuses, with no frame; a rack-flat
address of this chip goes to its own memory engines, a release or scoped atomic of it after what it notes, an acquire
holding its master; a request that an acquire, a kept acquire or a kill holds, or whose tracker is full, is kept, as is a
release behind a kept write of its partition (DEDUCED, log entry 123); any other is tracked and forms the frame of its class: stores and seams by the stream of (partition, node), which
a first write asks for while fewer than 4096 are held, with COUNT the segment's stores; a bulk write in frames of 4032 bytes. A
release closes each open segment of its scope with a flush, notes it and the bulk writes of its scope, and is kept until
they are in. What a request gives too little of is a free value (log entry 70). -/
def Obligations.RemoteRequestsAreFormedOrDenied : Prop :=
  ∀ (s : State) (r : RReq),
    let node := targetNode s r
    let pid := r.pid.val
    let en := peer s pid node
    let s1 := (takeShape s r).1
    let q := (takeShape s r).2
    let now_ := pid = 0 ∨ r.gen = curGen s pid
    let home := isTile r.mport.toNat && r.cls != clsOwn && (inRange s || s.range.memb == .leaving) && node == s.range.nodeId
    let mine := now_ ∧ classAllowed r = true ∧ home = false ∧ sourceRefuses s q node = false
    let kept := mustWait s q node
    let goes := mine ∧ kept = false
    let u := if commits r then enterCommit s1 r.ctx else startCmd s1 r.ctx
    let rel := r.cls = clsSeam ∧ (kindOf r.op = 2 ∨ kindOf r.op = 3)
    let acq := r.cls = clsLoad ∧ kindOf r.op = 1
    let sent := fun (e : State) (d : Desc) (tag : BitVec 16) (b : Bytes) => e.mem = s.mem ∧ e.keys = s.keys ∧
      ∃ f, e.ridge.outq = s.ridge.outq ++ [f] ∧ f.inner.cls = r.cls ∧ f.inner.dstNode = BitVec.ofNat 14 node ∧
        f.inner.dstPtag = tag ∧ f.inner.payload = descBytes d ++ b
    let plain : Desc := { off := targetOff r, op := r.op, size := q.size }
    (q.mport = r.mport ∧ q.pid = r.pid ∧ q.ctx = r.ctx ∧ q.cls = r.cls ∧ q.op = r.op ∧ targetOff q = targetOff r ∧
      (r.cls ≠ clsBulkWr → q.size.toNat < sizeLimit r.cls)) ∧
    (pid ≠ 0 → r.gen ≠ curGen s pid → exec (.remoteRequest r) s = .next s) ∧
    (now_ → classAllowed r = false → ∃ e, exec (.remoteRequest r) s = .next e ∧ (.rmtDeny r.mport r.ctx) ∈ e.out) ∧
    (now_ → classAllowed r = true → home = true →
      (keptBack s q = true → exec (.remoteRequest r) s = .next (holdReq s1 q)) ∧
      (keptBack s q = false → ¬ rel → ¬ acq → (r.cls ≠ clsAtomic ∨ scopeOf r.op = 0) →
        exec (.remoteRequest r) s = .next ((presentLocal u q none).getD (holdReq u q))) ∧
      (keptBack s q = false → acq →
        let u1 := { u with rmt := { u.rmt with
          nextTag := s.rmt.nextTag + 1
          acquires := s.rmt.acquires ++ [{ mport := r.mport, scope := scopeOf r.op, tag := s.rmt.nextTag
                                           atomic := false, ctx := r.ctx, left := (localReqs q).length }] } }
        exec (.remoteRequest r) s = .next ((presentLocal u1 q (some s.rmt.nextTag)).getD (holdReq u1 q))) ∧
      (∀ b ∈ s.rmt.bulk, keptBack s q = false → (rel ∨ (r.cls = clsAtomic ∧ scopeOf r.op ≠ 0)) →
        (∀ t ∈ s.rmt.streams, t.pid ≠ pid) → b.req.pid = r.pid → inScope s (scopeOf r.op) b.node = true →
        ∃ e k, exec (.remoteRequest r) s = .next e ∧ e.rmt.releases = s.rmt.releases ++ [k] ∧ b.xfer ∈ k.bulks ∧
          e.mem = s.mem ∧ (r.cls = clsAtomic → ∃ a, e.rmt.acquires = s.rmt.acquires ++ [a] ∧ a.mport = r.mport ∧
            a.scope = scopeOf r.op))) ∧
    ((∃ a ∈ s.rmt.acquires, a.mport = r.mport ∧ inScope s a.scope node = true) → kept = true) ∧
    ((∃ h ∈ s.rmt.held, h.mport = r.mport ∧ isAcquire s h = true ∧ inScope s (scopeOf h.op) node = true) → kept = true) ∧
    ((rel ∨ r.cls = clsAtomic) → inScope s (scopeOf r.op) node = true →
      (∃ h ∈ s.rmt.held, h.pid = r.pid ∧ writes h = true ∧ inScope s (scopeOf r.op) (targetNode s h) = true) →
      kept = true ∧ keptBack s q = true) ∧
    (now_ → classAllowed r = true → home = false → sourceRefuses s q node = true →
      (∀ w ∈ s.cmd.waits, w.tkt.ring ≠ 32) →
      ∃ e, exec (.remoteRequest r) s = .next e ∧ (.rmtDeny r.mport r.ctx) ∈ e.out ∧ e.ridge.outq = s.ridge.outq) ∧
    ((pid = 0 ∨ en.valid = false ∨ en.silent = true ∨ node ∉ nodes s ∨ writesDisowned s q node = true ∨
      (inRange s = false ∧ s.range.memb ≠ .leaving)) → sourceRefuses s q node = true) ∧
    (mine → kept = true → exec (.remoteRequest r) s = .next (holdReq s1 q)) ∧
    (goes → r.cls = clsLoad →
      ∃ e, exec (.remoteRequest r) s = .next e ∧ sent e { plain with id40 := s.rmt.nextTag } en.ptag [] ∧
        e.rmt.loads = s.rmt.loads ++ [{ req := q, node := node, tag := s.rmt.nextTag }] ∧
        (kindOf r.op = 1 → inScope s (scopeOf r.op) node = true →
          ∃ a, e.rmt.acquires = s.rmt.acquires ++ [a] ∧ a.mport = r.mport ∧ a.scope = scopeOf r.op ∧
            a.tag = s.rmt.nextTag) ∧
        ((kindOf r.op ≠ 1 ∨ inScope s (scopeOf r.op) node = false) → e.rmt.acquires = s.rmt.acquires)) ∧
    (goes → r.cls = clsBulkRd →
      ∃ e, exec (.remoteRequest r) s = .next e ∧ sent e { plain with op := 0, id40 := s.rmt.nextTag } en.ptag [] ∧
        e.rmt.loads = s.rmt.loads ++ [{ req := q, node := node, tag := s.rmt.nextTag }]) ∧
    (goes → r.cls = clsBulkWr →
      let n := (q.data.length + 4031) / 4032
      ∃ e fs bs, exec (.remoteRequest r) s = .next e ∧ e.ridge.outq = s.ridge.outq ++ fs ∧ e.rmt.bulk = s.rmt.bulk ++ bs ∧
        fs.length = n ∧ bs.length = n ∧ e.mem = s.mem ∧ ∀ i, i < n → ∃ f b, fs[i]? = some f ∧ bs[i]? = some b ∧
          b.req = q ∧ b.node = node ∧ b.tag = s.rmt.nextTag + BitVec.ofNat 40 i ∧ b.xfer = s.rmt.nextTag ∧
          f.inner.cls = clsBulkWr ∧ f.inner.dstNode = BitVec.ofNat 14 node ∧ f.inner.dstPtag = en.ptag ∧
          f.inner.payload = descBytes { plain with op := 0, off := targetOff r + BitVec.ofNat 41 (4032 * i), id40 := b.tag } ++
            (q.data.drop (4032 * i)).take 4032) ∧
    (goes → r.cls = clsOwn →
      ∃ e, exec (.remoteRequest r) s = .next e ∧ sent e { op := 3, size := 15, id40 := s.rmt.nextTag } en.ptag (fenceBody r) ∧
        e.rmt.loads = s.rmt.loads ++ [{ req := q, node := node, tag := s.rmt.nextTag }]) ∧
    (goes → r.cls = clsStore → kindOf r.op = 8 →
      ∃ e, exec (.remoteRequest r) s = .next e ∧ sent e { plain with id40 := r.ctx.setWidth 40 } en.ptag (maskedBody q) ∧
        e.rmt = s1.rmt) ∧
    (∀ t, goes → srcStream s pid node = some t → t.granted = true → t.asked = true → t.waiting = [] → t.dptag = en.ptag →
      (segOf t.segs t.seg).seam = none →
      (r.cls = clsStore → kindOf r.op ≠ 8 → ∃ e, exec (.remoteRequest r) s = .next e ∧
        sent e { plain with inc := t.inc, seg := t.seg, stream := t.id } en.ptag (maskedBody q) ∧
        ∃ u, srcStream e pid node = some u ∧ (segOf u.segs t.seg).count = (segOf t.segs t.seg).count + 1 ∧ u.seg = t.seg) ∧
      (r.cls = clsSeam → kindOf r.op ≤ 1 → ∃ e, exec (.remoteRequest r) s = .next e ∧
        sent e { plain with inc := t.inc, seg := t.seg, stream := t.id
                            id40 := BitVec.ofNat 40 (segOf t.segs t.seg).count } en.ptag (maskedBody q) ∧
        ∃ u, srcStream e pid node = some u ∧ (segOf u.segs t.seg).seam.isSome = true ∧ u.seg = !t.seg)) ∧
    (goes → (r.cls = clsStore ∧ kindOf r.op ≠ 8 ∨ r.cls = clsSeam ∧ kindOf r.op ≤ 1) → srcStream s pid node = none →
      (∀ t ∈ s.rmt.streams, t.asked = true ∨ t.closed = true) →
      ∃ e, exec (.remoteRequest r) s = .next e ∧ e.rmt.streams.length = s.rmt.streams.length + 1 ∧
        if heldStreams s < 4096 then ∃ f, e.ridge.outq = s.ridge.outq ++ [f] ∧ f.inner.cls = clsStream ∧
          f.inner.payload = descBytes { op := 1 } else e.ridge.outq = s.ridge.outq) ∧
    (goes → r.cls = clsAtomic → inScope s (scopeOf r.op) node = false →
      (∀ x ∈ s.rmt.atomics, x.id ≠ s.rmt.nextId) →
      ∃ e, exec (.remoteRequest r) s = .next e ∧ sent e { plain with id40 := s.rmt.nextId } en.ptag q.data ∧
        e.rmt.atomics = s.rmt.atomics ++ [{ req := q, node := node, id := s.rmt.nextId, dptag := en.ptag }]) ∧
    (goes → r.cls = clsSeam → (kindOf r.op = 2 ∨ kindOf r.op = 3) → inScope s (scopeOf r.op) node = true →
      (∀ b ∈ s.rmt.bulk, (∀ t ∈ s.rmt.streams, t.pid ≠ pid) → b.req.pid = r.pid → inScope s (scopeOf r.op) b.node = true →
        ∃ e k, exec (.remoteRequest r) s = .next e ∧ e.rmt.releases = s.rmt.releases ++ [k] ∧ b.xfer ∈ k.bulks) ∧
      (∀ t, s.rmt.streams = [t] → s.rmt.releases = [] → t.pid = pid → t.closed = false → t.granted = true →
        t.asked = true → t.waiting = [] → (segOf t.segs t.seg).count ≠ 0 → (segOf t.segs t.seg).seam = none →
        inScope s (scopeOf r.op) t.node = true → (peer s pid t.node).valid = true → (peer s pid t.node).silent = false →
        (peer s pid t.node).ptag = t.dptag →
        ∃ e f k u x, exec (.remoteRequest r) s = .next e ∧ e.ridge.outq = s.ridge.outq ++ [f] ∧ f.inner.cls = clsSeam ∧
          f.inner.dstNode = BitVec.ofNat 14 t.node ∧
          f.inner.payload = descBytes { off := targetOff r, op := 1, inc := t.inc, seg := t.seg, stream := t.id
                                        id40 := BitVec.ofNat 40 (segOf t.segs t.seg).count } ++ zeros 16 ∧
          e.rmt.releases = [k] ∧ srcStream e pid t.node = some u ∧ (segOf u.segs t.seg).seam = some x ∧
          seamNum x ∈ k.waits))

/-- The trackers in time, and OWN_TRANSFER (R83, R87, R170 to R175, R188). A load or bulk write unanswered for 1 ms leaves its
tracker and silences its peer entry; a seam fails after 2 ms, with the releases that
noted it; an atomic is retried once after 45 µs and reported unknown
after 130 µs; a stream unused for 5 ms is closed, and one whose grant carried BUSY asked for again while its peer entry stamps; a release is sealed once
everything it noted is in. OWN_TRANSFER gives the page its new owner; its
checks stand in the order of R233. -/
def Obligations.RemoteTrackersAndOwnership : Prop :=
  ∀ (s : State),
    (∀ tag e, s.rmt.loads.find? (fun x => x.tag == tag) = some e → past s e.sealed 1000 = true → s.rmt.held = [] →
      ∃ t, exec (.loadTimeout tag) s = .next t ∧ (∀ x ∈ t.rmt.loads, x ∈ s.rmt.loads ∧ x.tag ≠ tag) ∧
        t.rmt.ctr.loadTmo = inc32 s.rmt.ctr.loadTmo ∧ (.rmtError e.req.mport e.req.ctx) ∈ t.out ∧
        ((peer s e.req.pid.val e.node).valid = true → (peer t e.req.pid.val e.node).silent = true)) ∧
    (∀ tag e, s.rmt.loads.find? (fun x => x.tag == tag) = some e → past s e.sealed 1000 = false →
      exec (.loadTimeout tag) s = .next s) ∧
    (∀ tag e, s.rmt.bulk.find? (fun x => x.tag == tag) = some e → past s e.sealed 1000 = true → s.rmt.held = [] →
      ∃ t, exec (.bulkWriteTimeout tag) s = .next t ∧
        (∀ x ∈ t.rmt.bulk, x.xfer ≠ e.xfer ∧ ∃ y ∈ s.rmt.bulk, y.tag = x.tag ∧ y.xfer = x.xfer) ∧
        (e.lost = true → t.rmt.ctr.loadTmo = s.rmt.ctr.loadTmo ∧ t.part.peers = s.part.peers) ∧
        (e.lost = false → t.rmt.ctr.loadTmo = inc32 s.rmt.ctr.loadTmo ∧ (.rmtError e.req.mport e.req.ctx) ∈ t.out ∧
          ((peer s e.req.pid.val e.node).valid = true → (peer t e.req.pid.val e.node).silent = true))) ∧
    (∀ tag e, s.rmt.bulk.find? (fun x => x.tag == tag) = some e → past s e.sealed 1000 = false →
      exec (.bulkWriteTimeout tag) s = .next s) ∧
    (∀ (pid : Pid) (node : BitVec 14) (seg : Bool),
      ((∀ t ∈ s.rmt.streams, t.pid = pid.val → t.node = node.toNat → past s (segOf t.segs seg).seamAt 2000 = false) →
        exec (.seamTimeout pid node seg) s = .next s) ∧
      (∀ (t : SrcStream) (r : RReq), s.rmt.streams = [t] → t.pid = pid.val → t.node = node.toNat →
        (segOf t.segs seg).seam = some r → past s (segOf t.segs seg).seamAt 2000 = true → s.rmt.held = [] →
        ∃ e, exec (.seamTimeout pid node seg) s = .next e ∧
          e.rmt.ctr.seamFail = (if (segOf t.segs seg).lost = true then s.rmt.ctr.seamFail else inc32 s.rmt.ctr.seamFail) ∧
          (∀ u ∈ e.rmt.streams, (segOf u.segs seg).seam = none) ∧
          ∀ k ∈ e.rmt.releases, k ∈ s.rmt.releases ∧ seamNum r ∉ k.waits)) ∧
    (∀ id a, s.rmt.atomics.find? (fun x => x.id == id) = some a → past s a.sealed 45 = true → a.retried = false →
      ∃ t f, exec (.atomicRetryTimer id) s = .next t ∧ t.ridge.outq = s.ridge.outq ++ [f] ∧ f.inner.cls = clsAtomic ∧
        f.inner.retry = true ∧ (descOf f.inner.payload).id40 = id ∧
        ∀ x ∈ t.rmt.atomics, x.id = id → x.retried = true) ∧
    (∀ id a, s.rmt.atomics.find? (fun x => x.id == id) = some a → (past s a.sealed 45 = false ∨ a.retried = true) →
      exec (.atomicRetryTimer id) s = .next s) ∧
    (∀ id a, s.rmt.atomics.find? (fun x => x.id == id) = some a → past s a.sealed 130 = true → s.rmt.held = [] →
      ∃ t, exec (.atomicUnknownTimer id) s = .next t ∧ (∀ x ∈ t.rmt.atomics, x.id ≠ id) ∧
        (.rmtUnknown a.req.mport a.req.ctx) ∈ t.out) ∧
    (∀ id a, s.rmt.atomics.find? (fun x => x.id == id) = some a → past s a.sealed 130 = false →
      exec (.atomicUnknownTimer id) s = .next s) ∧
    (∀ (pid : Pid) (node : BitVec 14) (t : SrcStream), srcStream s pid.val node.toNat = some t →
      (t.granted = true → t.waiting = [] → t.lastUse + 5000 ≤ now s →
        (∀ x ∈ s.rmt.streams, x.asked = true ∨ x.closed = true) →
        ∃ e f, exec (.streamIdleCloseSource pid node) s = .next e ∧ srcStream e pid.val node.toNat = none ∧
          e.ridge.outq = s.ridge.outq ++ [f] ∧ f.inner.cls = clsStream ∧
          f.inner.payload = descBytes { op := 2, stream := t.id, inc := t.inc }) ∧
      ((t.granted = false ∨ t.waiting ≠ [] ∨ now s < t.lastUse + 5000) →
        exec (.streamIdleCloseSource pid node) s = .next s) ∧
      (past s t.retryAt 0 = true → stamps s t = false →
        exec (.streamGrantRetry pid node) s = .next (pumpNow s pid.val node.toNat)) ∧
      (past s t.retryAt 0 = true → stamps s t = true →
        ∃ e f, exec (.streamGrantRetry pid node) s = .next e ∧ e.ridge.outq = s.ridge.outq ++ [f] ∧
          f.inner.cls = clsStream ∧ f.inner.payload = descBytes { op := 1 }) ∧
      (past s t.retryAt 0 = false → exec (.streamGrantRetry pid node) s = .next s)) ∧
    (∀ n k, s.rmt.releases.find? (fun x => x.num == n) = some k →
      (releaseReady s k = true → exec (.releaseSeal n) s = .next (sealRelease s k)) ∧
      (∀ b ∈ s.rmt.bulk, b.xfer ∈ k.bulks → exec (.releaseSeal n) s = .next s) ∧
      (∀ x ∈ s.rmt.releases, x.num ∈ k.waits → exec (.releaseSeal n) s = .next s) ∧
      (∀ t ∈ s.rmt.streams, ∀ r ∈ openSeams t, seamNum r ∈ k.waits → exec (.releaseSeal n) s = .next s)) ∧
    (∀ (c : Cmd) (k : State) (t : Ticket), accepted opOwnTransfer s c = some (k, t) →
      let page := parm c.body 16 32
      let node := parm c.body 20 14
      let e := pot k page
      (e.state = .live → e.t4c = true →
        ∃ u, exec (.ownTransfer c) s = .next (finish u t .ok) ∧
          tget 0 u.rmt.own page = (if node = k.range.nodeId then homeOwner else node + 1) ∧
          (∀ q, q ≠ page → tget 0 u.rmt.own q = tget 0 k.rmt.own q) ∧ u.mem = k.mem ∧ u.part = k.part ∧ u.keys = k.keys) ∧
      ((e.state ≠ .live ∨ e.t4c = false) → exec (.ownTransfer c) s = .next (finish k t .errState))) ∧
    (∀ ring (b : Pkt),
      let page := parm b 16 32
      let node := parm b 20 14
      let pid := tagPid b.ptag
      ((allPages ≤ page ∨ (node ≠ s.range.nodeId ∧ (peer s pid node).valid = false)) →
        opOwnTransfer.pre s ring b = some .errParam) ∧
      (page < allPages → (node = s.range.nodeId ∨ (peer s pid node).valid = true) → (pot s page).state = .live →
        (pot s page).pid ≠ pid → opOwnTransfer.pre s ring b = some .errPerm))

/-! ## Fold units (04) -/

/-- FOLD_PLAN and FOLD_RELEASE (R98, R108, R109, R112). GRANT gives free blocks of a unit to a PID, unless a confidential
partition would share the unit; ARM reads a descriptor, refuses one that is illegal or whose preload or output leaves the
partition's pages, ends with ERR_INTEGRITY where the read is poisoned, and arms the plan described where the blocks are the
partition's and in no armed plan; DISARM frees a plan whose slots hold nothing; FORCE waits for the unit's next frame boundary while the plan is armed, which frees it;
RECLAIM frees every plan using a named block and takes the blocks from their PID to be zeroed; a zeroed block's line pairs are
zero in both copies. An armed plan's slots open with every INIT bit clear (R110). -/
def Obligations.FoldPlansAreGrantedArmedAndReleased : Prop :=
  ∀ (s : State) (c : Cmd) (k : State) (t : Ticket),
    let pid := tagPid t.ptag
    let n := parm c.body 17 16
    let q := plan k n
    let other := fun p => (part k p).conf || (part k pid).conf
    let blk := fun i => parm c.body 16 8 * 64 + parm c.body 17 8 + i
    let rblk := fun i => parm c.body 16 8 * 64 + parm c.body 19 8 + i
    (accepted opPlanGrant s c = some (k, t) → (pid = 0 ∨ active k pid = true) →
      (∀ i, i < parm c.body 18 8 → tget 0 k.fold.blocks (blk i) = 0 ∧ blk i ∉ k.fold.zeroing) →
      unitHolds k (parm c.body 16 8) pid other = false →
      ∃ e, exec (.foldPlanGrant c) s = .next (finish e t .ok) ∧
        (∀ i, i < parm c.body 18 8 → tget 0 e.fold.blocks (blk i) = pid + 1) ∧
        (∀ b, (b < blk 0 ∨ blk (parm c.body 18 8) ≤ b) → tget 0 e.fold.blocks b = tget 0 k.fold.blocks b) ∧
        e.fold.plans = k.fold.plans ∧ e.part = k.part ∧ e.mem = k.mem) ∧
    (∀ i, accepted opPlanGrant s c = some (k, t) → (pid = 0 ∨ active k pid = true) → i < parm c.body 18 8 →
      (tget 0 k.fold.blocks (blk i) ≠ 0 ∨ blk i ∈ k.fold.zeroing ∨ unitHolds k (parm c.body 16 8) pid other = true) →
      exec (.foldPlanGrant c) s = .next (finish k t .errResource)) ∧
    (∀ s2 b, c.mem = [.data b] →
      let d := planOf pid b
      ((descClean b = false ∨ planOk d = false) → opPlanArm.preMem s2 c.body c.mem = some .errParam) ∧
      (descClean b = true → planOk d = true →
        ((d.preload = true ∧ recorded s2 (tagPid c.body.ptag) d.preBase (d.nchunk * strideOf d.inFmt d.ce) = false) ∨
         (d.outMem = true ∧ recorded s2 (tagPid c.body.ptag) d.outBase (d.nchunk * strideOf d.outFmt d.ce) = false)) →
        opPlanArm.preMem s2 c.body c.mem = some .errPerm)) ∧
    (∀ b, accepted opPlanArm s c = some (k, t) → c.mem = [.data b] →
      let k := readAll k (opPlanArm.reads k t c.body c.mem) c.mem
      let d := planOf pid b
      let no := le b 0 2 % 1024
      ((pid = 0 ∨ active k pid = true) →
        ((part k pid).conf = true → inRange k = false → exec (.foldPlanArm c) s = .next (finish k t .errState)) ∧
        (((part k pid).conf = true → inRange k = true) → (plan k no).state ≠ .free →
          exec (.foldPlanArm c) s = .next (finish k t .errResource)) ∧
        (((part k pid).conf = true → inRange k = true) → (plan k no).state = .free →
          tcount k.fold.plans (fun e => e.state != .free && e.unit == d.unit) < 16 →
          d.blkFirst + d.slots * fmtBlocks d.inFmt ≤ 64 → (∀ x ∈ planBlocks d, tget 0 k.fold.blocks x = pid + 1) →
          (∀ e ∈ k.fold.plans, e.2.state = .armed → ∀ x ∈ planBlocks e.2, x ∉ planBlocks d) →
          exec (.foldPlanArm c) s = .next (finish (armPlan k no d) t .ok (resultOf [(8, no), (10, d.unit)])) ∧
          plan (armPlan k no d) no = { d with num := k.fold.arms + 1 } ∧
          (∀ m, m ≠ no → plan (armPlan k no d) m = plan k m) ∧
          ∀ i j, i < d.slots → j < 64 * fmtBlocks d.inFmt → (pairAt (armPlan k no d) (slotPair d i j)).init = false))) ∧
    (∀ a l, accepted opPlanArm s c = some (k, t) → c.mem = [.poison a l] →
      exec (.foldPlanArm c) s = .next (finish (readAll k (opPlanArm.reads k t c.body c.mem) c.mem) t .errIntegrity)) ∧
    (accepted opDisarm s c = some (k, t) → q.state ≠ .free → (q.state = .armed → holding q = false) →
      exec (.foldReleaseDisarm c) s = .next (finish (setPlan k n {}) t .ok (releaseResult q))) ∧
    (accepted opDisarm s c = some (k, t) → (q.state = .free ∨ (q.state = .armed ∧ holding q = true)) →
      exec (.foldReleaseDisarm c) s = .next (finish k t .errState)) ∧
    (accepted opDisarmForce s c = some (k, t) → q.state = .armed →
      exec (.foldReleaseDisarmForce c) s = .next { k with
        cmd := { k.cmd with waits := k.cmd.waits ++ [⟨t, pid, .disarm q.unit n⟩] } }) ∧
    (accepted opDisarmForce s c = some (k, t) → (q.state = .done ∨ q.state = .faulted) →
      exec (.foldReleaseDisarmForce c) s = .next (finish (setPlan k n {}) t .ok (releaseResult q))) ∧
    (accepted opDisarmForce s c = some (k, t) → q.state = .free →
      exec (.foldReleaseDisarmForce c) s = .next (finish k t .errState)) ∧
    (accepted opReclaim s c = some (k, t) →
      ∃ e r, exec (.foldReleaseReclaim c) s = .next (finish e t .ok r) ∧
        (∀ i, i < parm c.body 20 8 → tget 0 e.fold.blocks (rblk i) = 0 ∧
          (tget 0 k.fold.blocks (rblk i) ≠ 0 → rblk i ∈ e.fold.zeroing)) ∧
        ∀ x ∈ k.fold.plans, x.2.state ≠ .free → (∃ i, i < parm c.body 20 8 ∧ rblk i ∈ planBlocks x.2) →
          (plan e x.1).state = .free) ∧
    (∀ (u : Port) (w : Wait) (m : Nat), s.cmd.waits = [w] → w.kind = .disarm u.val m → (plan s m).fence = 0xFFFFFFFF →
      ∃ e, exec (.foldDisarmBoundary u) s = .next (finish e w.tkt .ok (releaseResult (plan s m))) ∧
        (plan e m).state = .free ∧ e.cmd.waits = [] ∧ e.fold.blocks = s.fold.blocks ∧ e.part = s.part) ∧
    (∀ u : Port, (∀ w ∈ s.cmd.waits, ∀ m, w.kind ≠ .disarm u.val m) → exec (.foldDisarmBoundary u) s = .next s) ∧
    (∀ (u : Port) (b : Fin 64), ∃ e, exec (.foldBlockZeroed u b) s = .next e ∧ (u.val * 64 + b.val) ∉ e.fold.zeroing ∧
      ((u.val * 64 + b.val) ∈ s.fold.zeroing → ∀ i, i < 64 → pairAt e ((u.val * 64 + b.val) * 64 + i) = {}) ∧
      (∀ i, i / 64 ≠ u.val * 64 + b.val → pairAt e i = pairAt s i) ∧
      (∀ x, x ≠ u.val * 64 + b.val → (x ∈ e.fold.zeroing ↔ x ∈ s.fold.zeroing)) ∧ e.fold.plans = s.fold.plans)

/-- A fold unit at work (R95 to R99, R107, R110 to R113, R117, R213). The frame at the front of the input stage is aborted
without a fault where its owner's generation has advanced, dropped without a fault where it names no armed plan of its PID and
instance, dropped with its plan faulted where a later check fails, keeps its place while its preload is awaited, and is
else committed whole: the line pairs, the contributor and the counters change together, and a complete chunk is emitted, to
the router or towards memory. A flipped bit of a committed copy fails its parity, and a pair that fails it aborts the frame,
counts no frame and faults the plan. A preload whose reads are granted fills the chunk's line pairs, or faults the plan where
it is poisoned or denied. A denied output write and a timeout fault the plan; a plan is done when all its chunks are emitted
and written. Integer SUM wraps, AXPY is a fused multiply-add, the first contribution stands as it is. -/
def Obligations.FoldFramesCommitWholeOrNotAtAll : Prop :=
  ∀ (s : State) (u : Port),
    let ctr := fun (x : State) => tget ({} : FoldCtr) x.fold.ctr u.val
    let faulted := fun (e : State) (n : Nat) (r : FoldReason) => (plan e n).state = .faulted ∧ (plan e n).reason = r ∧
      (plan e n).chunks = [] ∧ e.fold.sram = s.fold.sram ∧ ∀ m, m ≠ n → plan e m = plan s m
    (∀ l, exec (.foldFrameApply u l) s = exec (.foldFrameApply u []) (l.foldl (fun s x => upset s u.val x) s)) ∧
    (∀ x : Upset, let k := u.val * 4096 + x.pair.val
      (pairAt s k).sel = x.copy → (committed (pairAt s k)).1.length = 32 → parityBad (pairAt s k) = false →
      parityBad (pairAt (upset s u.val x) k) = true) ∧
    (inputOf s u.val = [] → exec (.foldFrameApply u []) s = .next s) ∧
    (∀ f rest, inputOf s u.val = f :: rest →
      let n := le f.body 0 2 % 1024
      let chunk := le f.body 2 4
      let by_ := le f.body 6 1 % 8
      let nelem := le f.body 8 2 % 8192
      let p := plan s n
      let old := tget ({} : Chunk) p.chunks chunk
      let apply := fun (e : State) => exec (.foldFrameApply u []) s = .next e ∧ inputOf e u.val = rest
      ((p.state ≠ .armed ∨ p.pid ≠ tagPid f.dptag ∨ p.pinst ≠ BitVec.ofNat 16 (le f.body 10 2)) →
        foldCheck s u.val f = .drop) ∧
      (p.state = .armed → p.pid = tagPid f.dptag → p.pinst = BitVec.ofNat 16 (le f.body 10 2) → p.unit ≠ u.val →
        foldCheck s u.val f = .fault .source) ∧
      (foldCheck s u.val f = .take → old.have_.getLsbD by_ = false ∧ p.base ≤ chunk ∧ chunk < p.base + p.slots ∧
        chunk < p.nchunk ∧ chunk ∉ p.past) ∧
      (tagCurrent s f.dptag = false → ∃ e, apply e ∧ e.fold.plans = s.fold.plans ∧ e.fold.sram = s.fold.sram ∧
        (ctr e).rollback = inc32 (ctr s).rollback ∧ e.part = s.part ∧ e.mem = s.mem) ∧
      (tagCurrent s f.dptag = true →
        (foldCheck s u.val f = .drop → ∃ e, apply e ∧ e.fold.plans = s.fold.plans ∧ e.fold.sram = s.fold.sram ∧
          (ctr e).reject = inc32 (ctr s).reject ∧ e.part = s.part ∧ e.mem = s.mem) ∧
        (∀ r, foldCheck s u.val f = .fault r → ∃ e, apply e ∧ faulted e n r ∧ (ctr e).reject = inc32 (ctr s).reject ∧
          charged s e) ∧
        (foldCheck s u.val f = .take → p.preload = true → old.preloaded = false →
          exec (.foldFrameApply u []) s = .next s) ∧
        (foldCheck s u.val f = .take → (p.preload = true → old.preloaded = true) → parityError s p chunk nelem = true →
          ∃ e, apply e ∧ faulted e n .parity ∧ (ctr e).rollback = inc32 (ctr s).rollback ∧
            (ctr e).frames = (ctr s).frames) ∧
        (foldCheck s u.val f = .take → (p.preload = true → old.preloaded = true) → parityError s p chunk nelem = false →
          let new := { old with have_ := old.have_ ||| 1#8 <<< by_ }
          (complete p new = false → (∀ j, (committed (pairAt s j)).1.length = 32) →
            ∃ e, apply e ∧ (ctr e).frames = inc32 (ctr s).frames ∧
              (∀ i x v, i < nelem → (convAll p.inFmt nelem (f.body.drop 16))[i]? = some x →
                (accOf s p chunk nelem)[i]? = some v → (accOf e p chunk nelem)[i]? =
                  some (if (pairAt s (slotPair p chunk (i / 32))).init then combine p.op (fmtInt p.inFmt) p.a v x.v
                    else firstVal p.op p.a x.v)) ∧
              (tget {} (plan e n).chunks chunk).have_ = new.have_ ∧ (plan e n).state = .armed ∧
              (plan e n).emitted = p.emitted ∧ (∀ m, m ≠ n → plan e m = plan s m) ∧ e.mem = s.mem ∧ e.part = s.part) ∧
          (complete p new = true → p.outMem = false →
            ∃ e o, apply e ∧ (plan e n).emitted = p.emitted + 1 ∧ tget {} (plan e n).chunks chunk = ({} : Chunk) ∧
              e.ridge.outq = s.ridge.outq ++ [o] ∧ o.inner.cls = clsFold ∧
              o.inner.dstNode = BitVec.ofNat 14 p.nextNode ∧ o.inner.dstPtag = p.nextPtag ∧
              (ctr e).chunks = inc32 (ctr s).chunks) ∧
          (complete p new = true → p.outMem = true →
            ∃ e w, apply e ∧ (plan e n).emitted = p.emitted + 1 ∧ e.fold.writing = s.fold.writing ++ [w] ∧
              w.unit = u.val ∧ w.plan = n ∧ w.chunk = chunk ∧ w.pid = p.pid ∧ w.gen = curGen s p.pid ∧
              w.off = p.outBase + chunk * strideOf p.outFmt p.ce ∧ strideOf p.outFmt p.ce ≤ w.bytes.length ∧
              (ctr e).chunks = inc32 (ctr s).chunks)))) ∧
    (∀ (n : BitVec 10) (chunk : BitVec 32),
      let p := plan s n.toNat
      let reqs := preReqs s p chunk.toNat
      let ready := p.state = .armed ∧ p.unit = u.val ∧ p.preload = true ∧ slotIsOpen p chunk.toNat = true ∧
        (tget ({} : Chunk) p.chunks chunk.toNat).preloaded = false ∧ ∀ r ∈ reqs, changing s (pageOf r.addr.toNat) = false
      let granted := ready ∧ ∀ r ∈ reqs, decideNow s r = .grant
      (∀ b, granted → parityError s p chunk.toNat p.ce = false → (∀ j, (committed (pairAt s j)).1.length = 32) →
        ∃ e, exec (.foldPreloadCommit u n chunk { rd := .data b }) s = .next e ∧
          (tget {} (plan e n.toNat).chunks chunk.toNat).preloaded = true ∧
          (∀ i x, i < p.ce → (convAll p.inFmt p.ce (slice b 0 (fmtBytes p.inFmt p.ce)))[i]? = some x →
            (accOf e p chunk.toNat p.ce)[i]? = some x.v) ∧ charged s e ∧ e.part = s.part) ∧
      (∀ b, granted → parityError s p chunk.toNat p.ce = true →
        ∃ e, exec (.foldPreloadCommit u n chunk { rd := .data b }) s = .next e ∧ faulted e n.toNat .parity) ∧
      (∀ a l, granted → (∀ x ∈ a :: l, s.mem.muted.contains
          (pot s (pageOf (p.preBase + chunk.toNat * strideOf p.inFmt p.ce + x))).pid = true) →
        ∃ e, exec (.foldPreloadCommit u n chunk { rd := .poison a l }) s = .next e ∧ faulted e n.toNat .preload) ∧
      (∀ r ∈ reqs, ∀ rd, ready → decideNow s r ≠ .grant → ctxMatch s 0 = false →
        ∃ e, exec (.foldPreloadCommit u n chunk { rd := rd }) s = .next e ∧ faulted e n.toNat .preload) ∧
      (∀ rd, (p.state ≠ .armed ∨ p.unit ≠ u.val ∨ p.preload = false ∨ slotIsOpen p chunk.toNat = false) →
        exec (.foldPreloadCommit u n chunk { rd := rd }) s = .next s)) ∧
    (∀ (n : BitVec 10) (chunk : BitVec 32) (num : Nat),
      let find := s.fold.writing.find? fun w => w.unit == u.val && w.plan == n.toNat && w.chunk == chunk.toNat && w.num == num
      let p := plan s n.toNat
      (find = none → exec (.foldOutputWriteDone u n chunk num) s = .next s) ∧
      (∀ w, find = some w → w.bytes ≠ [] →
        ((∀ r ∈ outReqs w, changing s (pageOf r.addr.toNat) = true) →
          ∃ t, exec (.foldOutputWriteDone u n chunk num) s = .next t ∧ w ∈ t.fold.writing ∧ t.mem = s.mem) ∧
        ((∀ r ∈ outReqs w, changing s (pageOf r.addr.toNat) = false ∧ (pot s (pageOf r.addr.toNat)).mode ≠ .fresh) →
          (∀ x ∈ s.mem.mx, x.2.ops = []) → s.mem.badGran = [] → ctxMatch s 0 = false →
          ((∃ r ∈ outReqs w, decideNow s r = .deny) → p.state = .armed → p.num = w.num →
            ∃ t, exec (.foldOutputWriteDone u n chunk num) s = .next t ∧ (plan t n.toNat).state = .faulted ∧
              (plan t n.toNat).reason = .output ∧ ∀ x ∈ t.fold.writing, x ∈ s.fold.writing ∧ x ≠ w) ∧
          ((∀ r ∈ outReqs w, decideNow s r = .grant) → p.state = .armed → p.num = w.num →
            ∃ t, exec (.foldOutputWriteDone u n chunk num) s = .next t ∧
              (∀ x ∈ t.fold.writing, x ∈ s.fold.writing ∧ x ≠ w) ∧
              (p.base < p.nchunk → (plan t n.toNat).state = .armed) ∧
              (p.nchunk ≤ p.base → p.unwritten = false →
                (∀ x ∈ s.fold.writing, x.plan = n.toNat → x.num = p.num → x = w) →
                (plan t n.toNat).state = .done))))) ∧
    (∀ (n : BitVec 10),
      let p := plan s n.toNat
      (∀ x, p.state = .armed → p.unit = u.val → p.lastAt = some x → x + p.tmo * 10 ≤ now s →
        ∃ t, exec (.foldPlanTimeout u n) s = .next t ∧ faulted t n.toNat .timeout) ∧
      (∀ c ∈ p.chunks, ∀ x, p.state = .armed → p.unit = u.val → c.2.firstAt = some x → x + p.tmo * 10 ≤ now s →
        ∃ t, exec (.foldPlanTimeout u n) s = .next t ∧ faulted t n.toNat .timeout) ∧
      (p.lastAt = none → (∀ c ∈ p.chunks, c.2.firstAt = none) → exec (.foldPlanTimeout u n) s = .next s)) ∧
    (∀ a x y : BitVec 32, combine 0 true a x y = x + y ∧ combine 3 false a x y = fma32 a y x ∧
      firstVal 3 a x = fma32 a x 0 ∧ firstVal 0 a x = x)

/-! ## Keys, life cycle, debug (09) -/

/-- KEY_DERIVE, KEY_WRAP, KEY_DESTROY (R198, R235, R257, R261, R262, R263, R275, R339): JOB is set once; an Iron key is derived from the
partition's root into the first slot free for it and its handle returned, ERR_PERM where the root's policy does not fit; KEY_WRAP
fills the read-once window, and completes with BUSY while it is full with ERR_STATE with no Iron
lane in service, and with ERR_INTEGRITY, its lane out of service, where the datapaths differ; where a slot
that is read does not verify, it is marked BAD and the command completes with ERR_INTEGRITY; KEY_DESTROY clears the slot, whose
incarnation advances, and completes with ERR_INTEGRITY where the slot is BAD. -/
def Obligations.KeyCommandsWriteSlots : Prop :=
  ∀ (s : State) (c : Cmd) (k : State) (t : Ticket),
    let pid := tagPid t.ptag
    let root := (tget {} k.keys.parts pid).root
    let a := parm c.body 16 32 % 256
    let b := parm c.body 20 32 % 256
    let win := tget ({} : Window) k.cmd.windows pid
    (accepted opDeriveJob s c = some (k, t) → (part k pid).jobSet = false →
      exec (.keyDeriveJob c) s = .next (finish (setPart k pid { part k pid with
        jobSet := true, job := BitVec.ofNat 64 (parm c.body 16 64) }) t .ok)) ∧
    (accepted opDeriveJob s c = some (k, t) → (part k pid).jobSet = true →
      exec (.keyDeriveJob c) s = .next (finish k t .errState)) ∧
    (∀ i rest, accepted opDeriveIron s c = some (k, t) → ironSlots k pid = i :: rest →
      keyFits k root .partroot .derivation pid = true → readBad k [root] = none →
      ∃ e, exec (.keyDeriveIron c) s = .next (finish e t .ok (resultOf [(8, (keyHandle e pid i).toNat)])) ∧
        (slot e i).key = deriveIron (slot k root).key (parm c.body 48 8) (parmBytes c.body 16 32) ∧
        polClass (slot e i).policy = classCode .iron ∧ (slot e i).inc = (slot k i).inc + 1 ∧ (slot e i).bad = false ∧
        (∀ j, j ≠ i → slot e j = slot k j) ∧ e.part = k.part ∧ e.mem = k.mem ∧ e.cmd = k.cmd) ∧
    (accepted opDeriveIron s c = some (k, t) → ironSlots k pid = [] →
      exec (.keyDeriveIron c) s = .next (finish k t .errResource)) ∧
    (accepted opDeriveIron s c = some (k, t) → ironSlots k pid ≠ [] → keyFits k root .partroot .derivation pid = false →
      exec (.keyDeriveIron c) s = .next (finish k t .errPerm)) ∧
    (∀ x, accepted opDeriveIron s c = some (k, t) → ironSlots k pid ≠ [] →
      keyFits k root .partroot .derivation pid = true → readBad k [root] = some x →
      exec (.keyDeriveIron c) s = .next (finish x t .errIntegrity)) ∧
    (∀ d, accepted (opKeyWrap d) s c = some (k, t) → noLane k = false → win.full = false → readBad k [a, b] = none →
      exec (.keyWrap ⟨c, d⟩) s = .next (if d = true then
          finish (dualFault k (laneFor k t.num) pid) t .errIntegrity
        else finishWith (fillWindow { k with iron := { k.iron with fw := terase k.iron.fw 14 } } pid
          (windowOf t (curTag k pid) (kwWrap (slot k b).key (keyBytes (slot k a).key)))) t .ok true 0)) ∧
    (∀ d, accepted (opKeyWrap d) s c = some (k, t) → noLane k = false → win.full = true →
      exec (.keyWrap ⟨c, d⟩) s = .next (finish k t .busy)) ∧
    (∀ d, accepted (opKeyWrap d) s c = some (k, t) → noLane k = true →
      exec (.keyWrap ⟨c, d⟩) s = .next (finish k t .errState)) ∧
    (∀ d x, accepted (opKeyWrap d) s c = some (k, t) → noLane k = false → win.full = false →
      readBad k [a, b] = some x → exec (.keyWrap ⟨c, d⟩) s = .next (finish x t .errIntegrity)) ∧
    (accepted opKeyDestroy s c = some (k, t) → (slot k a).bad = false →
      ∃ e, exec (.keyDestroy c) s = .next (finish e t .ok) ∧ slot e a = { inc := (slot k a).inc + 1 } ∧
        (∀ j, j ≠ a → slot e j = slot k j) ∧ e.part = k.part ∧ e.mem = k.mem ∧ e.cmd = k.cmd) ∧
    (accepted opKeyDestroy s c = some (k, t) → (slot k a).bad = true →
      exec (.keyDestroy c) s = .next (finish k t .errIntegrity))

/-- LC_ADVANCE, JTAG and the debug commands (R251, R266, R269, R272, R273, R274, R275, R377, R395): an advance programs PEND of its
record, with the root or FSALT before it where they are missing, and nothing while a transition is pending or the chip is in a
range or holds a partition; what cuts the programming leaves ERR_STATE with the bits done so far, or, for a power-down, no
reply; a challenge is drawn and named; a good token makes the authorisation of the challenge active; the authorisation ends
with SCOPE 0, with any later DBG_UNLOCK (log entry 110) and when its time is over. The TAP answers IDCODE and bypass while
it is out of reset, and more as far as the gate is open. -/
def Obligations.LifeCycleAndDebugFollowTheirGates : Prop :=
  (∀ (s : State) (cut : Cut) (c : Cmd) (k : State) (t : Ticket), accepted (opLcAdvance cut) s c = some (k, t) →
    let n := parm c.body 16 8
    let f := k.fuse
    let q := pumpCut cut
    let refused := exec (.lcAdvance cut c) s = .next (finish k t .errState)
    let ends := fun (w : Cut) (x : State) => exec (.lcAdvance cut c) s = .next (match w with
      | .whole => finish x t .ok
      | .powerDown => powerDown x
      | _ => finish x t .errState)
    let quiet := f.pending = false ∧ k.range.memb = .unbound ∧ anyPart k = false
    let gear := k.boot.vppOk = true ∧ f.fwKh ≠ 0 ∧ f.dbgKh ≠ 0 ∧ f.devId ≠ 0 ∧ trimGood f = true ∧
      k.keys.entHealthy = true ∧ k.keys.entFailed = false
    let ask := lowBits 16 (cutAt k q 16)
    (f.pending = true → refused) ∧
    (n ≠ 1 → (k.range.memb ≠ .unbound ∨ anyPart k = true) → refused) ∧
    (f.pending = false → n = 1 → isSet f.rootOk = true → gear →
      ends q (pendTo k { f with lcI := pendNext f.burns 0x80 ask f.lcI })) ∧
    (f.pending = false → n = 1 → ¬ gear → refused) ∧
    (f.pending = false → n = 1 → isSet f.rootOk = false → gear → cut = .whole →
      ∃ e d, ends .whole e ∧ e.fuse.rootA = burn f.burns 0 f.rootA d ∧
        e.fuse.rootB = burn f.burns 0x20 f.rootB d ∧ e.fuse.rootC = burn f.burns 0x40 f.rootC d ∧
        e.fuse.rootOk = burn f.burns 0x150 f.rootOk 0xFFFF ∧ e.fuse.lcI = pendNext f.burns 0x80 0xFFFF f.lcI ∧
        e.fuse.burns = f.burns + 1 ∧ e.fuse.pending = (pendSense e.fuse).isSome ∧ e.part = k.part ∧ e.mem = k.mem) ∧
    (f.pending = false → n = 1 → isSet f.rootOk = false → gear → cut = .failed →
      ∃ e, ends .failed e ∧ e.boot.vppOk = false ∧ f.rootOk &&& e.fuse.rootOk = f.rootOk ∧ e.fuse.lcI = f.lcI ∧
        e.fuse.fsalt = f.fsalt ∧ f.rootA &&& e.fuse.rootA = f.rootA ∧ f.rootB &&& e.fuse.rootB = f.rootB ∧
        f.rootC &&& e.fuse.rootC = f.rootC ∧ e.fuse.burns = f.burns + 1) ∧
    (quiet → n = 2 → 64 ≤ ones f.fsalt → ends q (pendTo k { f with lcF := pendNext f.burns 0x8C ask f.lcF })) ∧
    (quiet → n = 2 → ones f.fsalt < 64 → k.keys.entFailed = false →
      let j := cutAt k q 272
      ∃ e d, ends q e ∧ e.fuse = (pendTo k { f with
        fsalt := burn f.burns 0x60 f.fsalt (d &&& lowBits 256 j)
        lcF := if j ≤ 256 then f.lcF else pendNext f.burns 0x8C (lowBits 16 (j - 256)) f.lcF }).fuse) ∧
    (quiet → n = 2 → ones f.fsalt < 64 → k.keys.entFailed = true → refused) ∧
    (quiet → n = 3 →
      ends q (pendTo k { f with lcRPend := burn f.burns 0x98 f.lcRPend ask, lockScrap := q == .whole })) ∧
    (quiet → n = 4 →
      ends q (pendTo k { f with lcSPend := burn f.burns 0x9C f.lcSPend ask, lockScrap := q == .whole }))) ∧
  (∀ (s : State) (c : Cmd) (k : State) (t : Ticket), accepted opLcStatus s c = some (k, t) →
    exec (.lcStatus c) s = .next (finish k t .ok (resultOf [(8, lcsCode k.fuse.lcs), (9, b2n k.fuse.pending),
      (10, if k.fuse.pending then lcsCode k.fuse.ptarget else 0)]))) ∧
  (∀ (s : State) (c : Cmd) (k : State) (t : Ticket), accepted opDbgChallenge s c = some (k, t) →
    let pid := parm c.body 16 8
    let scope := parm c.body 17 8
    (scope = 0 → exec (.dbgChallenge c) s = .next (finish { k with keys := { k.keys with dbg := none, chal := none } } t .ok)) ∧
    (scope ≠ 0 → (pid = 0 ∨ active k pid = true) → k.keys.entFailed = false →
      ∃ e v, exec (.dbgChallenge c) s = .next (finish e t .ok (resultOf [(8, BitVec.toNat v)])) ∧
        v = BitVec.ofNat 128 (leNat (drawBytes (reseed k) 16).2) ∧
        e.keys.chal = some ⟨v, pid, scope, curGen k pid, now k + 60000000⟩ ∧ e.keys.dbg = k.keys.dbg ∧
        e.keys.slots = k.keys.slots ∧ e.keys.drbgReseeds = inc32 k.keys.drbgReseeds ∧ e.part = k.part ∧ e.mem = k.mem) ∧
    (scope ≠ 0 → (k.keys.entFailed = true ∨ (pid ≠ 0 ∧ active k pid = false)) →
      exec (.dbgChallenge c) s = .next (finish k t .errState))) ∧
  (∀ (s : State) (c : Cmd) (k : State) (t : Ticket), accepted opDbgUnlock s c = some (k, t) →
    let r := readAll k (opDbgUnlock.reads k t c.body c.mem) c.mem
    let spent := { r with keys := { r.keys with dbg := none } }
    (liveChal r = none → exec (.dbgUnlock c) s = .next (finish spent t .errState)) ∧
    (∀ h, liveChal r = some h → h.gen ≠ curGen r h.pid → exec (.dbgUnlock c) s = .next (finish spent t .errStale)) ∧
    (∀ h, liveChal r = some h → h.gen = curGen r h.pid → unlockBarred r h.scope = true →
      exec (.dbgUnlock c) s = .next (finish spent t .errState)) ∧
    (∀ h, liveChal r = some h → h.gen = curGen r h.pid → unlockBarred r h.scope = false →
      firstRead c.mem 7460 = none → exec (.dbgUnlock c) s = .next (finish spent t .errIntegrity)) ∧
    (∀ h b, liveChal r = some h → h.gen = curGen r h.pid → unlockBarred r h.scope = false → firstRead c.mem 7460 = some b →
      (parm c.body 22 16 = 7460 → tokenGood r h b = true →
        exec (.dbgUnlock c) s = .next (finish { r with keys := { r.keys with
          chal := none, dbg := some ⟨h.pid, h.scope, h.gen, now r + le b 42 2 * 1000000⟩
          dbgEver := r.keys.dbgEver ||| BitVec.ofNat 8 h.scope } } t .ok)) ∧
      ((parm c.body 22 16 ≠ 7460 ∨ tokenGood r h b = false) →
        exec (.dbgUnlock c) s = .next (finish { r with keys := { r.keys with chal := none, dbg := none } } t .authFail)))) ∧
  (∀ (s : State) (l : List Nat),
    let live := s.boot.tapUp = true ∧ held s = false
    let runs := { s with boot := { s.boot with scuUp := false, scu := { s.boot.scu with halted := true } } }
    (∀ h, exec (.jtagTapAccess (.trst h)) s = .next { s with boot := { s.boot with tapUp := h } }) ∧
    (∀ x, (∀ h, x ≠ .trst h) → ¬ live → exec (.jtagTapAccess x) s = .next s) ∧
    (live → exec (.jtagTapAccess .idcode) s = .next (emit s (.tdo (tapBits 32 0x51420A3F)))) ∧
    (∀ d, live → exec (.jtagTapAccess (.bypass d)) s = .next (emit s (.tdo (bypassBits d))) ∧
      (jtagOpen s = false → exec (.jtagTapAccess (.tap d)) s = .next (emit s (.tdo (bypassBits d))))) ∧
    (s.fuse.lcs = .fielded → dbgScope s = 0 → jtagOpen s = false ∧ scuOpen s = false) ∧
    (live → scuOpen s = true → s.boot.scuUp = true → exec (.jtagTapAccess .scuHalt) s = .next runs) ∧
    (live → scuOpen s = false → exec (.jtagTapAccess .scuHalt) s = .next s) ∧
    (live → (s.boot.rdy && fuseSession s && s.boot.vppOk) = true →
      exec (.jtagTapAccess (.fuse l)) s = .next { s with fuse := burnJtag s.fuse l }) ∧
    (live → (s.boot.rdy && fuseSession s && s.boot.vppOk) = false → exec (.jtagTapAccess (.fuse l)) s = .next s) ∧
    (s.fuse.lcs ≠ .maker → s.fuse.idbgKh ≠ 0 → burnJtag s.fuse l = s.fuse) ∧
    (s.fuse.lcs ≠ .maker → s.fuse.idbgKh = 0 → burnJtag s.fuse l = { s.fuse with
      idbgKh := burn s.fuse.burns 0x120 s.fuse.idbgKh (fuseMask 384 0x120 l), burns := s.fuse.burns + 1 }) ∧
    (s.fuse.lcs = .maker → ∃ d f b r x, burnJtag s.fuse l = { s.fuse with
      devId := d, fwKh := f, dbgKh := b, trim := r, trimCrc := x, burns := s.fuse.burns + 1 } ∧
      d = burn s.fuse.burns 0xB0 s.fuse.devId (fuseMask 128 0xB0 l) ∧ s.fuse.fwKh &&& f = s.fuse.fwKh ∧
      s.fuse.dbgKh &&& b = s.fuse.dbgKh ∧ s.fuse.trim &&& r = s.fuse.trim ∧ s.fuse.trimCrc &&& x = s.fuse.trimCrc)) ∧
  (∀ s : State,
    (∀ h, s.keys.chal = some h → (h.until_ ≤ now s →
        exec .dbgChallengeExpiry s = .next { s with keys := { s.keys with chal := none } }) ∧
      (now s < h.until_ → exec .dbgChallengeExpiry s = .next s)) ∧
    (∀ d, s.keys.dbg = some d → (d.until_ ≤ now s →
        exec .dbgAuthExpiry s = .next { s with keys := { s.keys with dbg := none } }) ∧
      (now s < d.until_ → exec .dbgAuthExpiry s = .next s)))

/-- The background check, the entropy source, the DRBG and quarantine (R12, R31, R255, R256, R259, R260, R323): a pass in which every slot verifies
or is BAD already changes only its time, and runs once a millisecond; a slot that does not verify is marked BAD and counted, and
what its class brings follows; a failed identity slot is derived again, a failed current range key or chip key quarantines
the chip; a window fails by its proportion test or by runs within it, each failure counts, and three failing windows in a row
fail the source; the DRBG reseeds after 100 ms, and before a request that comes after 65,536 others. Quarantine takes every
port OFF, loses every context of a partition, stops the rinse, clears the range and agreement keys and the debug
authorisation, and changes no page entry, generation, peer entry, fuse, Tarn value or other slot. -/
def Obligations.SlotAndEntropyChecks : Prop :=
  ∀ s : State,
    let q := { s with keys := { s.keys with checkAt := now s / 1000 + 1 } }
    let due := s.keys.zeroised = false ∧ s.keys.checkAt ≠ now s / 1000 + 1 ∧ s.keys.failing = []
    (∀ fl, (s.keys.zeroised = true ∨ s.keys.checkAt = now s / 1000 + 1) → exec (.ksaBackgroundCheck fl) s = .next s) ∧
    (due → (∀ x ∈ s.keys.slots, (slot s x.1).bad = true ∨ slotDead s x.1 = false) →
      exec (.ksaBackgroundCheck []) s = .next q) ∧
    (∀ i x m, due → s.keys.slots = [(i, x)] → i < 256 → x.bad = false → polClass x.policy ≠ 0 →
      x.check ≠ slotCheck s i (x.key ^^^ m) x.policy →
      exec (.ksaBackgroundCheck [(i, m)]) s =
        .next (settleFailing (slotMark (setSlot q i { x with key := x.key ^^^ m }) i))) ∧
    (∀ i, s.keys.zeroised = false → (slot s i).bad = false → polClass (slot s i).policy ≠ 0 →
      polClass (slot s i).policy ≠ classCode .ide → (i = 2 ∨ polClass (slot s i).policy = classCode .chip) →
      (slotMark s i).range.memb = .quarantined) ∧
    (due → s.alarm.hist = [] → (slot s 0).bad = false → polClass (slot s 0).policy = classCode .identity →
      let e := settleFailing (slotMark s 0)
      (slot e 0).bad = false ∧ (slot e 0).key = deriveDs s ∧ e.keys.badCnt = inc32 s.keys.badCnt ∧ e.keys.failing = [] ∧
        e.part = s.part) ∧
    (∀ w, s.keys.drbgSeeded = false → exec (.entropyWindow w) s = .next s) ∧
    (∀ w : BitVec 1024, s.keys.drbgSeeded = true →
      let l := samplesOf w
      let t := l.foldl RunTest.sample { s.keys.entRun with failed := 0 }
      let same := (l.filter fun x => x == l.headD false).length
      let n := t.failed + if 794 ≤ same then 1 else 0
      let k := { s.keys with entRun := { t with failed := 0 } }
      (n = 0 → exec (.entropyWindow w) s = .next { s with keys := { k with entConsec := 0 } }) ∧
      (n ≠ 0 → exec (.entropyWindow w) s = .next { s with keys := { k with
        entConsec := min 3 (s.keys.entConsec + 1), entFailCnt := add32 s.keys.entFailCnt n, entHealthy := false
        entFailed := s.keys.entFailed || decide (3 ≤ s.keys.entConsec + 1) } })) ∧
    (s.keys.drbgSeeded = true → s.keys.entFailed = false → s.keys.drbgSeedAt + 100000 ≤ now s →
      exec .drbgReseedTimer s = .next { s with keys := { s.keys with
        drbg := drbgReseed s.keys.drbg (entropyIn s), seeds := s.keys.seeds + 1
        drbgReseeds := inc32 s.keys.drbgReseeds, drbgGen := 0, drbgSeedAt := now s } }) ∧
    (now s < s.keys.drbgSeedAt + 100000 → exec .drbgReseedTimer s = .next s) ∧
    (∀ n, (drawBytes s n).1.keys.drbgReseeds =
      if 65536 ≤ s.keys.drbgGen ∨ s.keys.drbgSeedAt + 100000 ≤ now s then inc32 s.keys.drbgReseeds else s.keys.drbgReseeds) ∧
    (s.range.memb ≠ .quarantined →
      let e := quarantine s
      e.range.memb = .quarantined ∧ e.alarm.quar = true ∧ e.boot.alarmN = true ∧ e.keys.dbg = none ∧
      (∀ p : Port, (link e p.val).state = .off ∧ (link e p.val).txCur = none ∧ (link e p.val).rxCur = none) ∧
      (∀ i, ((ctx s i).state = .resident ∨ (ctx s i).state = .evicted) → (part s (ctx s i).pid).state ≠ .free →
        (ctx e i).state = .lost) ∧
      (∀ k ∈ e.mem.tickets, k.state ≠ .queued ∧ k.state ≠ .running) ∧ e.mem.rinseKey = none ∧
      (∀ i ∈ rangeSlots s, (slot e i).key = 0 ∧ (slot e i).policy = 0) ∧
      (∀ i, i ∉ rangeSlots s → slot e i = slot s i) ∧ e.mem.pot = s.mem.pot ∧ e.mem.keys = s.mem.keys ∧
      e.part.peers = s.part.peers ∧ (∀ pid, curGen e pid = curGen s pid) ∧ e.fuse = s.fuse ∧ e.tarn = s.tarn)

/-! ## Boot, power, reset, firmware (10, 14) -/

/-- The boot steps (R279 to R282, R290): each begins when the one before it ends; a step that fails stops boot with its cause,
and nothing more happens before a reset. Step 2 senses the fuses, step 3 runs the start-up test on its samples and seeds the
DRBG, step 4 arms TC0 to TC5, step 5 leaves
the K_TREE and IKEY slots alone filled, step 6 loads the selected image and derives DS and FWS from a valid root; in step 7 the
base registers are written once each, the second of them starts memory initialisation, which makes the system pages LIVE, and
QB_RDY follows that, the known-answer tests and qb_mc_rdy. A draw waits for a passing health-test window. -/
def Obligations.BootStepsInOrder : Prop :=
  ∀ (s : State),
    let b := s.boot
    let stopped := fun (e : State) (c : Nat) => e.boot.failStep = b.step ∧ e.boot.cause = c ∧ e.boot.scuUp = false ∧
      e.boot.rdy = false ∧ booting e = false
    (∀ ok i, booting s = false → exec (.bootStepDone ok i) s = .next s) ∧
    (booting s = true → b.everReady = false →
      (∀ ok i, b.step = 1 → exec (.bootStepDone ok i) s = .next { s with boot := { b with step := 2 } }) ∧
      (∀ ok i, b.step = 2 →
        let f := fuseSense s.fuse
        (f.rootKind = .failed → ∃ e, exec (.bootStepDone ok i) s = .next e ∧ stopped e 1 ∧ e.fuse = f) ∧
        (f.rootKind ≠ .failed → f.trimOk = false → ∃ e, exec (.bootStepDone ok i) s = .next e ∧ stopped e 2 ∧
          e.fuse = f) ∧
        (f.rootKind ≠ .failed → f.trimOk = true →
          exec (.bootStepDone ok i) s = .next { s with fuse := f, boot := { b with step := 3 } })) ∧
      (∀ ok i, b.step = 3 → startupFails i.samples = false → ∃ nonce : Bytes, nonce.length = 32 ∧
        exec (.bootStepDone ok i) s = .next { s with
          keys := { s.keys with
            drbg := drbgInit (entropyIn s ++ nonce ++ leBytes 16 s.fuse.devId.toNat), seeds := s.keys.seeds + 1
            entHealthy := true, drbgSeeded := true, drbgGen := 0, drbgSeedAt := now s }
          boot := { b with step := 4 } }) ∧
      (∀ ok i, b.step = 3 → startupFails i.samples = true → ∃ e, exec (.bootStepDone ok i) s = .next e ∧ stopped e 3 ∧
        e.fuse = s.fuse ∧ e.keys = s.keys) ∧
      (∀ i, b.step = 4 → exec (.bootStepDone true i) s = .next { s with
        tarn := { s.tarn with trimmed := true, refsrc := true, armed := s.tarn.armed ||| 0x3F#8 }
        boot := { b with step := 5 } }) ∧
      (∀ ok i, b.step = 5 → drawOk s = false → exec (.bootStepDone ok i) s = .next s) ∧
      (∀ ok i, b.step = 5 → drawOk s = true → ∃ e, exec (.bootStepDone ok i) s = .next e ∧ e.boot = { b with step := 6 } ∧
        (∀ i, i ≠ 4 → i ≠ 5 → slot e i = {}) ∧ polClass (slot e 4).policy = classCode .chip ∧
        polClass (slot e 5).policy = classCode .chip ∧ e.mem.tree = (slot e 4).key ∧ lowKey e.mem.ikey = (slot e 5).key ∧
        (∀ j, (mx e j).cairn = [] ∧ (mx e j).cache = []) ∧ e.fuse = s.fuse ∧ e.part = s.part) ∧
      (∀ i, b.step = 6 →
        (selectImage (readFlash s i.flash) = none → ∃ e, exec (.bootStepDone true i) s = .next e ∧ stopped e 6 ∧
          e.boot.tried = (bootOrder (readFlash s i.flash)).1.boot.tried) ∧
        (∀ t, selectImage (readFlash s i.flash) = some t → ∃ e, exec (.bootStepDone true i) s = .next e ∧ e.boot.step = 7 ∧
          e.boot.run = t.boot.run ∧ e.boot.runSlot = t.boot.runSlot ∧ e.boot.scu = t.boot.scu ∧
          e.boot.scuUp = true ∧ e.fuse = t.fuse ∧
          (t.fuse.rootKind = .valid → (slot e 0).key = deriveDs t ∧ (slot e 0).bad = false ∧ (slot e 1).bad = false) ∧
          (t.fuse.rootKind ≠ .valid → e.keys = t.keys))) ∧
      (∀ i, b.step = 7 → exec (.bootStepDone true i) s = .next { s with boot := { b with tested := true } }) ∧
      (∀ i, (b.step = 4 ∨ b.step = 6 ∨ b.step = 7) → ∃ e, exec (.bootStepDone false i) s = .next e ∧
        stopped e (if b.step = 6 then 5 else b.step) ∧ e.fuse = s.fuse)) ∧
    exec .mcReady s = .next { s with boot := { b with mcRdy := true } } ∧
    (inStep7 s = true → b.mcRdy = false → b.everReady = false → b.mcWaitFrom + 200000 ≤ now s →
      ∃ e, exec .mcReadyTimeout s = .next e ∧ stopped e 8) ∧
    ((b.mcRdy = true ∨ now s < b.mcWaitFrom + 200000) → exec .mcReadyTimeout s = .next s) ∧
    (inStep7 s = true → b.scuUp = true →
      (∀ p : BitVec 20, s.mem.potSet = false → s.mem.descSet = false →
        exec (.qbBaseWrite false p) s = .next { s with mem := { s.mem with
          potBase := p.toNat, potSet := true, initRun := false } }) ∧
      (∀ p : BitVec 20, s.mem.potSet = true → s.mem.descSet = false → systemPagesOk s.mem.potBase p.toNat = true →
        exec (.qbBaseWrite true p) s = .next { s with mem := { s.mem with
          descBase := p.toNat, descSet := true, initRun := true } }) ∧
      (∀ p : BitVec 20, s.mem.potSet = true → s.mem.descSet = false → systemPagesOk s.mem.potBase p.toNat = false →
        exec (.qbBaseWrite true p) s = .next s) ∧
      (∀ p : BitVec 20, s.mem.potSet = false → s.mem.descSet = false →
        exec (.qbBaseWrite true p) s = .next { s with mem := { s.mem with
          descBase := p.toNat, descSet := true, initRun := false } }) ∧
      (∀ p : BitVec 20, s.mem.potSet = false → s.mem.descSet = true → systemPagesOk p.toNat s.mem.descBase = true →
        exec (.qbBaseWrite false p) s = .next { s with mem := { s.mem with
          potBase := p.toNat, potSet := true, initRun := true } }) ∧
      (∀ p : BitVec 20, s.mem.potSet = true → exec (.qbBaseWrite false p) s = .next s) ∧
      (∀ p : BitVec 20, s.mem.descSet = true → exec (.qbBaseWrite true p) s = .next s)) ∧
    (inStep7 s = false → ∀ d p, exec (.qbBaseWrite d p) s = .next s) ∧
    (inStep7 s = true → b.mcRdy = true → s.mem.initRun = true → drawOk s = true → readBad s [0] = none →
      readBad s [1] = none → systemPagesOk s.mem.potBase s.mem.descBase = true →
      ∃ e, exec .memInitDone s = .next e ∧ e.mem.potLive = true ∧ e.mem.initRun = false ∧
        (∀ i, i < 8 → pot e ((systemPages s.mem.potBase s.mem.descBase).getD i 0) = systemEntry i) ∧
        (∀ p, p ∉ systemPages s.mem.potBase s.mem.descBase → pot e p = pot s p) ∧ e.fuse = s.fuse ∧
        e.boot.step = s.boot.step) ∧
    ((inStep7 s = false ∨ b.mcRdy = false ∨ s.mem.initRun = false ∨ drawOk s = false) → exec .memInitDone s = .next s) ∧
    (inStep7 s = true → b.tested = true → s.mem.potLive = true → b.mcRdy = true → b.scuUp = true →
      ∃ e, exec .bootReady s = .next e ∧ e.boot.rdy = true ∧ e.boot.step = 8 ∧ e.boot.everReady = true ∧
        e.part.tileReset = BitVec.allOnes 288 ∧ (b.trial = true → e.boot.tried = false) ∧ e.mem = s.mem ∧ e.keys = s.keys) ∧
    ((inStep7 s = false ∨ b.tested = false ∨ s.mem.potLive = false ∨ b.mcRdy = false ∨ b.scuUp = false) → exec .bootReady s = .next s)

/-- Supplies, resets and Tarn's inputs (R265, R377, R379 to R384, R391, R394, R395): boot begins when qb_rst_n is high with
every supply good, and stops at step 1 where the tamper pin is low; a supply that rises out of order is logged when the last
of the three is good; a reset takes every unit but Tarn, the flash and the fuse bits to its reset state; a power-down clears
keys and ports and is acknowledged; a loss of VDD_Q without it raises the alarm pin; VPP_Q where it may not be is counted; an
armed comparator trips once, and brings quarantine or zeroise, and the loss of the supply that it watches; the tamper input
zeroises from 40 ns on and never below 20 ns; while the core is held only Tarn logs. -/
def Obligations.PowerResetAndTamper : Prop :=
  ∀ (s : State),
    let b := s.boot
    let begun := fun (x : BootState) => { x with inReset := false, sleep := false, step := 1 }
    let cleared := fun (e : State) => e.part = {} ∧ e.mem = {} ∧ e.cmd = {} ∧ e.range = {} ∧ e.ridge = {} ∧ e.fold = {} ∧
      e.keys = { draws := e.keys.draws, seeds := e.keys.seeds } ∧ e.boot.rdy = false ∧ e.boot.step = 0 ∧ e.alarm = {}
    let fresh := fun (e : State) => cleared e ∧ e.keys.draws = s.keys.draws ∧ e.fuse = unsense s.fuse
    (b.tarnGood = true → exec .tarnStart s = .next s) ∧
    (∀ early, exec (.supplyGood .vddTarn early) s = exec .tarnStart s) ∧
    (b.tarnGood = false → b.rstHigh = false → b.tamperLow = false → (b.vddqGood = false ∨ b.vddaGood = false) →
      exec .tarnStart s = .next { s with
        tarn := { orderWait := b.vddqGood || b.vddaGood, armed := 0xA0#8 ||| armedBy b.vddqGood b.vddaGood }
        boot := { b with tarnGood := true, tried := false, trialSeq := 0 } }) ∧
    (b.tarnGood = false → b.rstHigh = false → b.tamperLow = false → b.vddqGood = true → b.vddaGood = true →
      ∃ e x, exec .tarnStart s = .next e ∧ e.boot.tarnGood = true ∧ e.tarn.log = [x] ∧ x.kind = 0x10 ∧
        e.tarn.orderErr = true ∧ e.tarn.tripped = 0 ∧ e.part = s.part) ∧
    (b.tarnGood = true → b.vddaGood = true → b.rstHigh = true → b.inReset = true → s.tarn.orderWait = false →
      b.tamperLow = false → exec (.supplyGood .vddQ false) s = .next { s with
        boot := begun { b with vddqGood := true }, tarn := { s.tarn with armed := s.tarn.armed ||| 0x43#8 ||| 0x18#8 } }) ∧
    (b.tarnGood = true → b.vddqGood = false → exec (.supplyGood .vddaQ false) s = .next { s with
      boot := { b with vddaGood := true }, tarn := { s.tarn with armed := s.tarn.armed ||| 0x04#8 } }) ∧
    (∀ k early, (k = .vddaQ ∨ k = .vddQ) → b.rstHigh = false →
      (early = true ∨ b.tarnGood = false ∨ (k = .vddQ ∧ b.vddaGood = false) ∨ s.tarn.orderWait = true) →
      ∃ e, exec (.supplyGood k early) s = .next e ∧ (if k = .vddQ then e.boot.vddqGood else e.boot.vddaGood) = true ∧
        e.part = s.part ∧ e.keys = s.keys ∧
        (suppliesGood e = false → e.tarn.orderWait = true ∧ e.tarn.log = s.tarn.log ∧ e.tarn.orderErr = s.tarn.orderErr) ∧
        (suppliesGood e = true → e.tarn.orderWait = false ∧ e.tarn.orderErr = true ∧
          ∃ x, e.tarn.log = x :: s.tarn.log.take 63 ∧ x.kind = 0x10)) ∧
    (b.tarnGood = true → b.vddqGood = true → b.vddaGood = true → b.inReset = true →
      (b.tamperLow = false → exec .chipResetDeassert s = .next { s with
        boot := begun { b with rstHigh := true }, tarn := { s.tarn with armed := s.tarn.armed ||| 0x18#8 } }) ∧
      (b.tamperLow = true → b.rdy = false → b.everReady = false → b.failStep = 0 →
        ∃ e, exec .chipResetDeassert s = .next e ∧ e.boot.failStep = 1 ∧ e.boot.cause = 9 ∧ e.keys.zeroised = true)) ∧
    ((b.tarnGood = false ∨ b.vddqGood = false ∨ b.vddaGood = false ∨ b.inReset = false) →
      exec .chipResetDeassert s = .next { s with boot := { b with rstHigh := true } }) ∧
    (∃ e, exec .chipResetAssert s = .next e ∧ fresh e ∧ e.boot.inReset = true ∧ e.boot.rstHigh = false ∧
      e.boot.alarmN = false ∧ e.boot.flash = b.flash ∧ e.boot.tried = b.tried ∧
      e.tarn.now = s.tarn.now ∧ e.tarn.log = (drainLog s).tarn.log ∧ e.tarn.tripped = 0 ∧ e.pending = s.pending) ∧
    (held s = false → b.pdAck = false →
      ∃ e, exec .pwrDownReq s = .next e ∧ e.boot.pdAck = true ∧ e.boot.rdy = false ∧ e.boot.scuUp = false ∧
        e.cmd.waits = [] ∧ (∀ p : Port, (link e p.val).state = .off ∧ (link e p.val).txCur = none) ∧
        (∀ i, (slot e i).key = 0 ∧ (slot e i).policy = 0) ∧ e.mem.keys = [] ∧ e.keys.drbgSeeded = false ∧
        e.tarn.pdOrderly = true ∧ e.fuse = s.fuse) ∧
    ((held s = true ∨ b.pdAck = true) → exec .pwrDownReq s = .next s) ∧
    (b.pdAck = false → exec .sleepEntry s = .next s) ∧
    (b.pdAck = true → ∃ e, exec .sleepEntry s = .next e ∧ fresh e ∧ e.boot.sleep = true ∧ e.boot.vddqGood = false ∧
      e.boot.vddaGood = false ∧ e.tarn.now = s.tarn.now) ∧
    (∀ q, b.vddqGood = false → b.inReset = true → exec (.vddQLoss q) s = .next s) ∧
    (∀ q, b.vddqGood = true → ∃ e, exec (.vddQLoss q) s = .next e ∧ cleared e ∧ e.boot.vddqGood = false ∧
      e.boot.inReset = true ∧ (b.pdAck = true → fresh e) ∧ (b.pdAck = false → e.boot.alarmN = true ∧ e.tarn.pdOrderly = false)) ∧
    (b.tarnGood = false → exec .vddTarnBrownout s = .next s) ∧
    (b.tarnGood = true → ∃ e, exec .vddTarnBrownout s = .next e ∧ fresh e ∧ e.boot.tarnGood = false ∧
      e.boot.vddqGood = false ∧ e.boot.vddaGood = false ∧ e.boot.alarmN = false ∧
      e.boot.inReset = true ∧ e.tarn.log = [] ∧ e.tarn.armed = 0 ∧ e.out = .zeroiseLine :: s.out) ∧
    exec (.vppHigh .low) s = .next { s with boot := { b with vppHigh := false, vppOk := false } } ∧
    (∀ l, l ≠ .low → b.vppHigh = true → exec (.vppHigh l) s = .next { s with boot := { b with vppOk := l == .inWindow } }) ∧
    (∀ early, exec (.supplyGood .vppQ early) s = .next (vppUp s true)) ∧
    (∀ l, l ≠ .low → b.vppHigh = false → exec (.vppHigh l) s = .next (vppUp s (l == .inWindow))) ∧
    (∀ w, (vppForbidden s = false → vppUp s w = { s with boot := { b with vppHigh := true, vppOk := w } }) ∧
      (vppForbidden s = true → ∃ x, (vppUp s w).boot = { b with vppHigh := true, vppOk := w } ∧
        (vppUp s w).tarn.log = x :: s.tarn.log.take 63 ∧ x.kind = 0x12 ∧
        (vppUp s w).tarn.vppViol = (if s.tarn.vppViol = 255 then 255 else s.tarn.vppViol + 1) ∧ (vppUp s w).fuse = s.fuse)) ∧
    (∀ (c : Fin 8) (v : BitVec 16), (s.tarn.armed.getLsbD c.val = false ∨ (s.tarn.tripped.getLsbD c.val = true ∧ 3 ≤ c.val)) →
      exec (.comparatorTrip c v) s = .next s) ∧
    (∀ (c : Fin 8) (v : BitVec 16), s.tarn.armed.getLsbD c.val = true → s.tarn.tripped.getLsbD c.val = false →
      held s = false →
      ∃ e, exec (.comparatorTrip c v) s = .next e ∧ e.tarn.tripped.getLsbD c.val = true ∧
        (c.val ≠ 0 → e.range.memb = .quarantined) ∧ (6 ≤ c.val → e.keys.zeroised = true ∧ e.mem.keys = []) ∧
        (c.val = 0 → cleared e ∧ e.boot.vddqGood = false ∧ e.boot.inReset = true ∧ e.boot.alarmN = true) ∧
        (c.val = 1 → e.boot.vddqGood = false) ∧ (c.val = 2 → e.boot.vddaGood = false) ∧
        (c.val = 5 → b.step = 4 → b.rdy = false → b.everReady = false → b.failStep = 0 →
          e.boot.failStep = 4 ∧ e.boot.cause = 4)) ∧
    (∀ ns, ns < 20 → b.tamperLow = false → exec (.tamperInput (some ns)) s = .next s) ∧
    (∀ ns, b.tamperLow = true → exec (.tamperInput (some ns)) s = .next { s with boot := { b with tamperLow := false } }) ∧
    (∀ w : Option Nat, (∀ ns, w = some ns → 40 ≤ ns) → b.tamperLow = false → b.tarnGood = true →
      (held s = false → ∃ e, exec (.tamperInput w) s = .next e ∧ e.keys.zeroised = true ∧ e.range.memb = .quarantined ∧
        e.tarn.tamperIn = true ∧ e.boot.tamperLow = w.isNone ∧ ∀ i, (slot e i).key = 0) ∧
      (held s = true → ∃ e x, exec (.tamperInput w) s = .next e ∧ e.tarn.log = x :: s.tarn.log.take 63 ∧
        e.boot.alarmN = true ∧ e.boot.tamperLow = w.isNone ∧ e.keys = s.keys ∧ e.range = s.range)) ∧
    exec .refclkSwitch s = .next { s with tarn := { s.tarn with refsrc := false } } ∧
    (5 ≤ b.step → held s = false → exec .refclkReturn s = .next { s with tarn := { s.tarn with refsrc := true } }) ∧
    ((b.step < 5 ∨ held s = true) → exec .refclkReturn s = .next s)

/-- The SCU at run time, firmware commands and diagnostics (R239, R286, R291, R292, R295 to R297, R306, R308): a watchdog expiry or
a fault
raises SA_FW, takes the SCU down and clears DMEM while the data paths stay, a corrected error counts, and an access that the
memory map admits does nothing; a restart starts the image
again, loaded anew where its hash differs, and completes firmware commands not started with BUSY;
FW_STAGE ends with ERR_STATE while the latest record is TRIAL, and else answers the first failing check of R286, and leaves
the slot invalid where its write is cut; FW_ACTIVATE
writes a TRIAL record once a stage has completed;
DIAG_ECHO, DIAG_KAT and ATT_EVIDENCE report. -/
def Obligations.FirmwareRunsStagesAndReports : Prop :=
  (∀ (s : State), scuPowered s = true → s.boot.everReady = true → s.alarm.hist = [] →
    let down := fun (e : State) => e.boot.scu.dmem = [] ∧ e.boot.scu.imem = s.boot.scu.imem ∧ e.boot.scuUp = false ∧
      e.boot.scuResets = inc32 s.boot.scuResets ∧
      e.alarm.seen.getLsbD 9 = true ∧ e.boot.rdy = s.boot.rdy ∧ e.part = s.part ∧ charged s e ∧ e.ridge = s.ridge
    (s.boot.wdogFrom + 250000 ≤ now s → ∃ e, exec .scuWatchdogExpiry s = .next e ∧ down e) ∧
    (∀ d, scuDies s d = true → ∃ e, exec (.scuFault d) s = .next e ∧ down e)) ∧
  (∀ (s : State) (a : BitVec 32), (scuPowered s = true → scuEccAt a = true →
      exec (.scuFault (.corrected a)) s = .next { s with boot := { s.boot with scuEcc := inc32 s.boot.scuEcc } }) ∧
    (scuEccAt a = false → exec (.scuFault (.corrected a)) s = .next s ∧ exec (.scuFault (.double a)) s = .next s) ∧
    (∀ d, scuPowered s = false → exec (.scuFault d) s = .next s) ∧
    (∀ k, scuFaults s k a = false → exec (.scuFault (.access k a)) s = .next s) ∧
    (0x10000000 ≤ a.toNat → a.toNat < 0x10100000 → scuFaults s .read a = false ∧ scuFaults s .fetch a = false ∧
      scuFaults s .write a = s.boot.scu.imemLock) ∧
    (0x20000000 ≤ a.toNat → a.toNat < 0x20080000 → scuFaults s .read a = false ∧ scuFaults s .write a = false ∧
      scuFaults s .fetch a = true) ∧
    (0x40100000 ≤ a.toNat → ∀ k, scuFaults s k a = true)) ∧
  (∀ (s : State), now s < s.boot.wdogFrom + 250000 → exec .scuWatchdogExpiry s = .next s) ∧
  (∀ (s : State), (s.boot.scuUp = true → exec .watchdogRestart s = .next { s with boot := { s.boot with wdogFrom := now s } }) ∧
    (s.boot.scuUp = false → exec .watchdogRestart s = .next s)) ∧
  (∀ (s : State), scuPowered s = true → s.boot.scuUp = false → s.boot.scu.halted = false →
    (∀ w ∈ s.cmd.waits, waitsOnChip w.kind = false) → exec .scuRestartDone s = .next (postDue (
      let k := reloadScu s
      let e := (s.cmd.fwq.filter fun q => !q.fast).foldl (fun x q => finish x q.tkt .busy) { k with
        cmd := { k.cmd with fwq := s.cmd.fwq.filter (·.fast) } }
      { e with boot := { e.boot with scuUp := true, wdogFrom := now s } }))) ∧
  (∀ (s : State) (im : Image), s.boot.run = some im → (reloadScu s).boot.scu =
    if sha s.boot.scu.imem = slice im.header 64 48 then { s.boot.scu with
      imemLock := true, pc := 0x10000000#32 + im.entry } else { loadScu im with retained := s.boot.scu.retained }) ∧
  (∀ (s : State) (cut : Cut) (c : Cmd) (k : State) (t : Ticket), accepted (opFwStage cut) s c = some (k, t) →
    let r := readAll k ((opFwStage cut).reads k t c.body c.mem) c.mem
    let goes := trialWritten r = false
    (trialWritten r = true → exec (.fwStage cut c) s = .next (finish r t .errState)) ∧
    (goes → firstRead c.mem (fwLen c.body) = none → exec (.fwStage cut c) s = .next (finish r t .errIntegrity)) ∧
    (∀ b, firstRead c.mem (fwLen c.body) = some b →
      (∀ st, goes → imageCheck r (parseImage b) = some st → exec (.fwStage cut c) s = .next (finish r t st)) ∧
      (goes → imageCheck r (parseImage b) = none →
        ∃ e, exec (.fwStage cut c) s = .next (match cut with
            | .whole => finish e t .ok (resultOf [(8, (parseImage b).svn.toNat)])
            | .failed => finish e t .errIntegrity
            | .zeroised => finish e t .errState
            | .powerDown => powerDown e) ∧
          e.boot.staged = (r.boot.staged || cut == .whole) ∧
          otherImage e = (if cut = .whole then some (parseImage b) else none) ∧
          slotImage e r.boot.runSlot = slotImage r r.boot.runSlot ∧ latestRec e = latestRec r ∧ e.keys = r.keys))) ∧
  (∀ (s : State) (c : Cmd) (k : State) (t : Ticket), accepted opFwActivate s c = some (k, t) →
    ((k.boot.staged = false ∨ trialWritten k = true ∨ updateLocked k = true ∨ otherImage k = none) →
      exec (.fwActivate c) s = .next (finish k t .errState)) ∧
    (∀ im, k.boot.staged = true → trialWritten k = false → updateLocked k = false → otherImage k = some im →
      ∃ e r, exec (.fwActivate c) s = .next (finish e t .ok) ∧
        e.boot.flash = (if r.seq.getLsbD 0 then { k.boot.flash with rec1 := recBytes r }
          else { k.boot.flash with rec0 := recBytes r }) ∧
        r.state = 1 ∧ (r.slot = !k.boot.runSlot) ∧ r.digest = imageDigest im ∧
        (∀ q, latestRec k = some q → r.seq = q.seq + 1) ∧ (latestRec k = none → r.seq = 0) ∧ e.fuse = k.fuse ∧ e.keys = k.keys)) ∧
  (∀ (s : State) (c : Cmd) (k : State) (t : Ticket), accepted opDiagEcho s c = some (k, t) →
    exec (.diagEcho c) s = .next (finish k t .ok (c.body.params.setWidth 192))) ∧
  (∀ (s : State) (r : BitVec 5) (c : Cmd) (k : State) (t : Ticket), accepted (opDiagKat r) s c = some (k, t) →
    (anyActive k = true → exec (.diagKat r c) s = .next (finish k t .errState)) ∧
    (anyActive k = false → exec (.diagKat r c) s = .next (finish k t .ok
      (resultOf [(8, (BitVec.ofNat 5 (parm c.body 16 5) &&& r).toNat)])))) ∧
  (∀ (s : State) (c : Cmd) (k : State) (t : Ticket), accepted opAttEvidence s c = some (k, t) →
    (k.fuse.rootKind = .absent → exec (.attEvidence c) s = .next (finish k t .errState)) ∧
    (k.fuse.rootKind ≠ .absent → (∀ x, readBad k [1] = some x → exec (.attEvidence c) s = .next (finish x t .errIntegrity))) ∧
    (k.fuse.rootKind ≠ .absent → readBad k [1] = none →
      let b := evidence k (askerPid t.ring) (parmBytes c.body 16 32)
      exec (.attEvidence c) s = .next (finish (memPut k (askerPid t.ring) (parm c.body 48 48) b) t .ok
        (resultOf [(8, b.length)]))))

/-! ## SPDM, weights, Iron, telemetry (10, 11, 12) -/

/-- The SPDM responder (R302 to R305, R307, R308, R404; message layouts of DSP0274, the model's log entry 49): a mailbox row's
request, as its bytes or, where the row holds none, as its operands give them, is answered while firmware runs and the mailbox
is open, and what each is answered. Where DS or FWS does not verify a request that rests on them gets ERROR with Busy, and one
that needs a draw gets ERROR with Unspecified after the entropy source has failed. A request out of order, a session that does
not exist and every other code get ERROR; a response longer than the requester takes is kept for CHUNK_GET; a session belongs
to its mailbox, at most 8 are held. While VF_DOE_EN is 0 a function's mailbox discards requests and sets DOE Error; while
firmware is down a DOE mailbox reports busy. ATT_SPDM answers through the same responder into the partition's memory. -/
def Obligations.SpdmRequestsAreAnswered : Prop :=
  (∀ (s : State) (mb : Mailbox),
    let n := mbNum mb
    let c := conn s n
    let row : SpdmReq → Instr := fun q => match q with
      | .version => .getVersion mb
      | .capabilities => .getCapabilities mb
      | .algorithms o => .negotiateAlgorithms mb o
      | .digests => .getDigests mb
      | .certificate x => .getCertificate mb x
      | .challenge k x => .spdmChallenge mb k x
      | .measurements i g x => .getMeasurements mb i g x
      | .keyExchange k x => .keyExchange mb k x
      | .finish k v => .spdmFinish mb k v
      | .heartbeat k => .spdmHeartbeat mb k
      | .keyUpdate k => .keyUpdate mb k
      | .endSession k => .endSession mb k
      | .chunkGet k => .chunkGet mb k
      | .unsupported k => .spdmUnsupportedRequest mb k
      | .hybridSig k => .hybridSig mb k
      | .manifest f k x => .rangeManifest mb f k x
    let sent := fun (t : State) (code : BitVec 8) (m : Bytes) =>
      if m.length ≤ 4096 then SpdmRsp.mk t code m
      else SpdmRsp.mk (setConn t n { conn t n with bigOut := m }) 0x7F [0x13, 0x7F, 0x0F, 0]
    let error := fun (q : SpdmReq) (code data : BitVec 8) =>
      ∀ b, spdmAnswer s n q b = SpdmRsp.mk s 0x7F [0x13, 0x7F, code, data]
    let gives := fun (q : SpdmReq) (t : State) (code : BitVec 8) (m : Bytes) => ∀ b, spdmAnswer s n q b = SpdmRsp.mk t code m
    let ready := 3 ≤ c.stage ∧ readBad s [0, 1] = none
    (∀ q, mbSent mb = [] → sentAs q (mbSent mb) = some (reqBytes q)) ∧
    (∀ q, sentAs q (mbSent mb) = none → exec (row q) s = .next s) ∧
    (∀ q b, sentAs q (mbSent mb) = some b →
      (responderUp s = true → doeClosed s n = false → exec (row q) s =
        .next (emit (spdmAnswer s n q b).s (.spdm n (spdmAnswer s n q b).code (spdmAnswer s n q b).msg))) ∧
      (responderUp s = true → doeClosed s n = true → exec (row q) s =
        .next { s with spdm := { s.spdm with doeErr := s.spdm.doeErr ||| oneBit 32 n } }) ∧
      (responderUp s = false → exec (row q) s = .next (if s.boot.rdy = true ∧ n < 32 then emit s (.doeBusy n) else s))) ∧
    (∀ b, ∃ e, spdmAnswer s n .version b = SpdmRsp.mk e 0x04 [0x10, 0x04, 0, 0, 0, 1, 0, 0x13] ∧
      (conn e n).stage = 1 ∧ (conn e n).lastChal = none ∧ (conn e n).vca = b ++ [0x10, 0x04, 0, 0, 0, 1, 0, 0x13] ∧
      (∀ x ∈ e.spdm.sessions, x.mb ≠ n) ∧ e.keys = s.keys) ∧
    (c.stage < 3 → (∀ x, error (.certificate x) 4 0) ∧ error .digests 4 0 ∧ (∀ k x, error (.challenge k x) 4 0) ∧
      (∀ k, error (.hybridSig k) 4 0) ∧ (∀ k g x, error (.measurements k g x) 4 0) ∧ (∀ k x, error (.keyExchange k x) 4 0) ∧
      (∀ f k x, error (.manifest f k x) 4 0)) ∧
    (c.stage < 1 → error .capabilities 4 0) ∧ (c.stage < 2 → ∀ o, error (.algorithms o) 4 0) ∧
    (1 ≤ c.stage → ∀ b, ∃ e r, spdmAnswer s n .capabilities b = SpdmRsp.mk e 0x61 r ∧ 2 ≤ (conn e n).stage ∧
      c.stage ≤ (conn e n).stage ∧ (conn e n).vca = c.vca ++ b ++ r ∧
      r = [0x13, 0x61, 0, 0, 0, Config.ctExponent, 0, 0] ++ leBytes 4 0x662F6 ++ leBytes 4 4096 ++ leBytes 4 65536) ∧
    (2 ≤ c.stage → error (.algorithms false) 1 0 ∧
      ∀ b, ∃ e, spdmAnswer s n (.algorithms true) b = SpdmRsp.mk e 0x63 ([0x13, 0x63, 4, 0] ++ algBody) ∧
        (conn e n).stage = 3 ∧ (conn e n).vca = c.vca ++ b ++ ([0x13, 0x63, 4, 0] ++ algBody)) ∧
    (∀ t, 3 ≤ c.stage → readBad s [0, 1] = some t →
      let busy := fun q => gives q t 0x7F [0x13, 0x7F, 3, 0]
      busy .digests ∧ (∀ x, busy (.certificate x)) ∧ (∀ k, busy (.hybridSig k)) ∧ (∀ k x, busy (.challenge k x)) ∧
      (∀ k x, busy (.keyExchange k x)) ∧ (∀ i g x, busy (.measurements i g x)) ∧ (∀ f k x, busy (.manifest f k x))) ∧
    (ready → s.keys.entFailed = true →
      (∀ k x, error (.challenge k x) 5 0) ∧ (∀ k x, error (.keyExchange k x) 5 0) ∧
      (∀ i g x, error (.measurements i g x) 5 0)) ∧
    (ready → s.fuse.rootKind ≠ .valid → gives .digests s 0x01 [0x13, 0x01, 3, 0] ∧ (∀ x, error (.certificate x) 1 0) ∧
      (s.keys.entFailed = false → (∀ k x, error (.challenge k x) 1 0) ∧ (∀ k x, error (.keyExchange k x) 1 0) ∧
        (∀ i x, error (.measurements i true x) 1 0))) ∧
    (ready → s.fuse.rootKind = .valid →
      (∀ b, let r := [0x13, 0x01, 3, 3] ++ sha (chainOf s 0) ++ sha (chainOf s 1)
        spdmAnswer s n .digests b = sent (setConn s n { c with certs := c.certs ++ b ++ r }) 0x01 r) ∧
      (∀ x : CertReq, (1 < x.slot.toNat ∨ (chainAt s x.slot).length ≤ x.off) → error (.certificate x) 1 0) ∧
      (∀ (x : CertReq) b, x.slot.toNat ≤ 1 → x.off < (chainAt s x.slot).length →
        let y := ((chainAt s x.slot).drop x.off).take x.len
        let r := [0x13, 0x02, x.slot, 0] ++ leBytes 2 y.length ++
          leBytes 2 ((chainAt s x.slot).length - x.off - y.length) ++ y
        spdmAnswer s n (.certificate x) b = sent (setConn s n { c with certs := c.certs ++ b ++ r }) 0x02 r)) ∧
    (ready → s.fuse.rootKind = .valid → s.keys.entFailed = false →
      (∀ x b, ∃ t y h, h = sha (c.vca ++ c.certs ++ b ++ ([0x13, 0x03, 0, 3] ++ sha (chainOf s 0) ++ y)) ∧
        spdmAnswer s n (.challenge 0 x) b =
          sent t 0x03 ([0x13, 0x03, 0, 3] ++ sha (chainOf s 0) ++ y ++ Config.ecSign (aliasEc s) (Config.spdmSigned 3 h)) ∧
        (conn t n).lastChal = some h ∧ (conn t n).certs = [] ∧ t.spdm.sessions = s.spdm.sessions) ∧
      (∀ k x, k ≠ 0 → error (.challenge k x) 1 0) ∧ (∀ k x, k ≠ 0 → error (.keyExchange k x) 1 0) ∧
      (∀ x, Config.ecValid x = false → error (.keyExchange 0 x) 1 0) ∧
      (∀ x, Config.ecValid x = true → 8 ≤ s.spdm.sessions.length → error (.keyExchange 0 x) 10 0) ∧
      (∀ x b, Config.ecValid x = true → s.spdm.sessions.length < 8 → ∃ t m k,
        spdmAnswer s n (.keyExchange 0 x) b = sent t 0x64 m ∧
        t.spdm.sessions = s.spdm.sessions ++ [{ id := s.spdm.nextSess, mb := n, secret := k }] ∧
        t.spdm.nextSess = s.spdm.nextSess + 1)) ∧
    (ready → s.keys.entFailed = false →
      (∀ i g x, measRecord s (mbFn n) i = none → error (.measurements i g x) 1 0) ∧
      (∀ i g x b, (g = true → s.fuse.rootKind = .valid) → (∃ r, measRecord s (mbFn n) i = some r) →
        ∃ t m, spdmAnswer s n (.measurements i g x) b = sent t 0x60 m ∧ (g = true → (conn t n).meas = []) ∧
          (g = false → (conn t n).lastMeas = c.lastMeas))) ∧
    (ready →
      (∀ sel b, spdmAnswer s n (.hybridSig sel) b = let p := hybridPayload s n sel
        sent s 0x7E ([0x13, 0x7E, 0, 0, 3, 0, 2] ++ leBytes 2 Config.vendorId.toNat ++ leBytes 2 p.length ++ p)) ∧
      (∀ f k x b, spdmAnswer s n (.manifest f k x) b = let p := manifestPayload s f k x
        sent s 0x7E ([0x13, 0x7E, 0, 0, 3, 0, 2] ++ leBytes 2 Config.vendorId.toNat ++ leBytes 2 p.length ++ p))) ∧
    (∀ id, sessOf s n id = none → (∀ v, error (.finish id v) 2 0) ∧ error (.heartbeat id) 2 0 ∧ error (.keyUpdate id) 2 0 ∧
      error (.endSession id) 2 0) ∧
    (∀ id x, sessOf s n id = some x → x.ready = false →
      (∀ v, Config.finishOk x.secret v = true →
        gives (.finish id v) (mapSess s id fun y => { y with ready := true }) 0x65 [0x13, 0x65, 0, 0]) ∧
      (∀ v, Config.finishOk x.secret v = false → gives (.finish id v) (dropSess s id) 0x7F [0x13, 0x7F, 6, 0]) ∧
      error (.heartbeat id) 4 0 ∧ error (.keyUpdate id) 4 0 ∧ error (.endSession id) 4 0) ∧
    (∀ id x, sessOf s n id = some x → x.ready = true → (∀ v, error (.finish id v) 4 0) ∧
      gives (.heartbeat id) s 0x68 [0x13, 0x68, 0, 0] ∧
      gives (.keyUpdate id) (mapSess s id fun y => { y with updates := y.updates + 1 }) 0x69 [0x13, 0x69, 0, 0] ∧
      gives (.endSession id) (dropSess s id) 0x6C [0x13, 0x6C, 0, 0]) ∧
    (∀ k, error (.unsupported k) 7 k) ∧
    (∀ k, (c.bigOut = [] ∨ c.bigOut.length ≤ (chunkAt k).1) → error (.chunkGet k) 1 0) ∧
    (∀ k b, c.bigOut ≠ [] → (chunkAt k).1 < c.bigOut.length →
      let last := c.bigOut.length ≤ (chunkAt k).1 + (chunkAt k).2
      let piece := (c.bigOut.drop (chunkAt k).1).take (chunkAt k).2
      ∃ e, spdmAnswer s n (.chunkGet k) b = SpdmRsp.mk e 0x06
          ([0x13, 0x06, (if last then 1 else 0), 0] ++ leBytes 2 k ++ [0, 0] ++ leBytes 4 piece.length ++
          (if k = 0 then leBytes 4 c.bigOut.length else []) ++ piece) ∧
        (conn e n).bigOut = if last then [] else c.bigOut) ∧
    (responderUp s = true → doeClosed s n = false →
      (∀ k b, (b.length ≤ 65536 ∧ k = 0) → exec (.chunkSend mb k false b) s =
        .next (emit (setConn s n { c with chunkIn := b, chunkNo := k + 1 }) (.spdm n 0x05 ([0x13, 0x05, 0, 0] ++ leBytes 2 k)))) ∧
      (∀ b : Bytes, b.length ≤ 65536 →
        let r := spdmAnswer (setConn s n { c with chunkIn := [], chunkNo := 0 }) n
          (parseSpdm (lastSess s n) (BitVec.ofNat 8 (le b 1 1)) b) b
        exec (.chunkSend mb 0 true b) s = .next (emit r.s (.spdm n 0x05 ([0x13, 0x05, 0, 0, 0, 0] ++ r.msg)))) ∧
      (∀ k last b, k ≠ 0 → k ≠ c.chunkNo → exec (.chunkSend mb k last b) s =
        .next (emit (setConn s n { c with chunkIn := [], chunkNo := 0 }) (.spdm n 0x7F [0x13, 0x7F, 1, 0]))))) ∧
  (∀ (s : State) (req : BitVec 8) (c : Cmd) (k : State) (t : Ticket), accepted (opAttSpdm req) s c = some (k, t) →
    let pid := if 1 ≤ t.ring ∧ t.ring ≤ 31 then t.ring else 0
    let x := readAll k ((opAttSpdm req).reads k t c.body c.mem) c.mem
    (firstRead c.mem (parm c.body 22 16) = none → exec (.attSpdm req c) s = .next (finish x t .errIntegrity)) ∧
    (∀ b, firstRead c.mem (parm c.body 22 16) = some b →
      let r := if req = 0x85 then spdmChunk x (32 + pid) (le b 4 2) (le b 2 1 % 2 == 1) (b.drop 12)
        else spdmAnswer x (32 + pid) (parseSpdm (lastSess x (32 + pid)) req b) b
      (parm c.body 30 16 < r.msg.length → exec (.attSpdm req c) s = .next (finish x t .errParam)) ∧
      (r.msg.length ≤ parm c.body 30 16 → exec (.attSpdm req c) s =
        .next (finish (memPut (emit r.s (.spdm (32 + pid) r.code r.msg)) pid (parm c.body 24 48) r.msg) t .ok
          (resultOf [(8, r.msg.length)])))))

/-- Weight bundles and telemetry (R313 to R322, R327, R328): WB_IMPORT decides in the order of R315, makes the bundle and writes
its statement where the partition holds the set's key, derives it at the Summit, and asks the Summit elsewhere, which ends
with BUSY after 10 ms; WB_GRANT decides in the order of R319 and holds the bundle key; a stream waits its turn, reads and
opens its segments in order, writes each through the DMA engine and ends whole, or clears its destination and counts; WB_REVOKE waits for the running stream, then clears
the bundle and the set that nothing else uses. The gate latches confidential counters once a millisecond. -/
def Obligations.WeightsAndTelemetry : Prop :=
  (∀ (s : State) (c : Cmd) (a : State) (t : Ticket), accepted opWbImport s c = some (a, t) →
    let k := readAll a (opWbImport.reads a t c.body c.mem) c.mem
    let pid := tagPid t.ptag
    (firstRead c.mem 64 = none → exec (.wbImport c) s = .next (finish k t .errIntegrity)) ∧
    (∀ h l, firstRead c.mem 64 = some h → firstRead (c.mem.drop 1) (8 * le h 32 2) = some l →
      let id := setIdOf (part k pid).job h l
      let dest := le h 40 6
      let b : Bundle := { live := true, id := BitVec.ofNat 64 (le h 8 8), nseg := le h 16 4, setid := id }
      (∀ st, importCheck k pid h l = some st → exec (.wbImport c) s = .next (finish k t st)) ∧
      (∀ d, importCheck k pid h l = none → setOf k pid id = some d → setKeyFits k pid d = false →
        exec (.wbImport c) s = .next (finish k t .errPerm)) ∧
      (∀ d x, importCheck k pid h l = none → setOf k pid id = some d → setKeyFits k pid d = true →
        readBad k [d.slot] = some x → exec (.wbImport c) s = .next (finish x t .errIntegrity)) ∧
      (∀ d, importCheck k pid h l = none → setOf k pid id = some d → setKeyFits k pid d = true → readBad k [d.slot] = none →
        ∃ e i, exec (.wbImport c) s = .next (finish e t .ok (resultOf [(8, (bundleHandle e pid i).toNat)])) ∧
          bundle e pid i = { b with inc := (bundle k pid i).inc } ∧ e.wb.sets = k.wb.sets ∧ e.keys = k.keys ∧
          (∀ p j, p * 16 + j ≠ pid * 16 + i → bundle e p j = bundle k p j) ∧
          e.out = .memWrite pid dest (statement k pid b (slot k d.slot).key) :: k.out) ∧
      (importCheck k pid h l = none → setOf k pid id = none → k.range.role = .summit →
        let r := setKeyFor k k.range.nodeId (le h 20 4) (hash48 id) (nhashOf l (le h 32 2))
        (∀ x, rkBad k (le h 20 4) = some x → exec (.wbImport c) s = .next (finish x t .errIntegrity)) ∧
        (rkBad k (le h 20 4) = none → r.1 ≠ .ok → exec (.wbImport c) s = .next (finish k t r.1)) ∧
        (rkBad k (le h 20 4) = none → r.1 = .ok → ∃ e i j, exec (.wbImport c) s = .next (finish e t .ok (resultOf [(8, (bundleHandle e pid i).toNat)])) ∧
          bundle e pid i = { b with inc := (bundle k pid i).inc } ∧ e.wb.sets = k.wb.sets ++ [⟨pid, id, j⟩] ∧
          (slot e j).key = r.2 ∧ polClass (slot e j).policy = classCode .devset ∧ (∀ n, n ≠ j → slot e n = slot k n))) ∧
      (importCheck k pid h l = none → setOf k pid id = none → k.range.role ≠ .summit →
        ∃ e m, exec (.wbImport c) s = .next e ∧ e.cmd.waits = k.cmd.waits ++ [⟨t, pid, .setkey pid⟩] ∧
          e.wb.imports = k.wb.imports ++ [⟨t.num, pid, k.range.nextSeq, b, dest, now k⟩] ∧
          e.range.sent = k.range.sent ++ [{ msg := m, why := .setkey t.num, at_ := now k }] ∧ m.dst = k.range.summit ∧
          m.form = 0x1B ∧ e.wb.bundles = k.wb.bundles ∧ e.keys = k.keys))) ∧
  (∀ (s : State) (pid : Pid), ∃ e, exec (.setkeyTimeout pid) s = .next e ∧ e.wb.bundles = s.wb.bundles ∧ e.keys.slots = s.keys.slots ∧
    (∀ m ∈ s.wb.imports, m.pid = pid.val → m.at_ + 10000 ≤ now s →
      m ∉ e.wb.imports ∧ ∀ w ∈ e.cmd.waits, w.tkt.num ≠ m.num) ∧
    ((∀ m ∈ s.wb.imports, m.pid = pid.val → now s < m.at_ + 10000) → e = s)) ∧
  (∀ (s : State) (c : Cmd) (a : State) (t : Ticket), accepted opWbGrant s c = some (a, t) →
    let k := readAll a (opWbGrant.reads a t c.body c.mem) c.mem
    let pid := tagPid t.ptag
    let i := bundleIdx (bundleOfPkt c.body)
    let b := bundle k pid i
    let ends := fun st => exec (.wbGrant c) s = .next (finish k t st)
    (firstRead c.mem 1769 = none → ends .errIntegrity) ∧
    (∀ g, firstRead c.mem 1769 = some g →
      let right := slice g 0 4 = asc "QSGR" ∧ le g 4 1 = 1 ∧ le g 5 3 = 0 ∧ slice g 8 48 = hash48 b.setid ∧
        le g 56 8 = b.id.toNat
      (¬ right → ends .errParam) ∧ (right → setOf k pid b.setid = none → ends .errUnattested) ∧
      (∀ d, right → setOf k pid b.setid = some d → hasKey k b = true → ends .errState) ∧
      (∀ d, right → setOf k pid b.setid = some d → hasKey k b = false → freeSlots k = [] → ends .errResource) ∧
      (∀ d, right → setOf k pid b.setid = some d → hasKey k b = false → freeSlots k ≠ [] → setKeyFits k pid d = false →
        ends .errPerm) ∧
      (∀ d x, right → setOf k pid b.setid = some d → hasKey k b = false → freeSlots k ≠ [] → setKeyFits k pid d = true →
        readBad k [d.slot] = some x → exec (.wbGrant c) s = .next (finish x t .errIntegrity)) ∧
      (∀ d, right → setOf k pid b.setid = some d → hasKey k b = false → freeSlots k ≠ [] → setKeyFits k pid d = true →
        readBad k [d.slot] = none → openGrant (slot k d.slot).key g = none → ends .authFail) ∧
      (∀ d n r x, right → setOf k pid b.setid = some d → hasKey k b = false → freeSlots k = n :: r →
        setKeyFits k pid d = true → readBad k [d.slot] = none → openGrant (slot k d.slot).key g = some x →
        ∃ e, exec (.wbGrant c) s = .next (finish e t .ok) ∧ bundle e pid i = { b with slot := n } ∧ (slot e n).key = x ∧
          polClass (slot e n).policy = classCode .bundle ∧ polPid (slot e n).policy = pid % 32 ∧
          (∀ m, m ≠ n → (b.slot = 0 ∨ m ≠ b.slot) → slot e m = slot k m) ∧ e.wb.sets = k.wb.sets ∧ e.out = k.out))) ∧
  (∀ (s : State) (c : Cmd) (k : State) (t : Ticket), accepted opWbUnseal s c = some (k, t) →
    let pid := tagPid t.ptag
    let i := bundleIdx (bundleOfPkt c.body)
    let b := bundle k pid i
    (∀ x, keyBad k b = some x → exec (.wbUnsealStream c) s = .next (finish x t .errIntegrity)) ∧
    (b.slot = 0 → exec (.wbUnsealStream c) s = .next (finish k t .errState)) ∧
    (b.slot ≠ 0 → keyBad k b = none → keyFits k b.slot .bundle .memUnseal pid = false →
      exec (.wbUnsealStream c) s = .next (finish k t .errPerm)) ∧
    (b.slot ≠ 0 → keyBad k b = none → keyFits k b.slot .bundle .memUnseal pid = true → exec (.wbUnsealStream c) s = .next { k with
      wb := { k.wb with streams := k.wb.streams ++ [⟨t.num, pid, i, parm c.body 20 48, parm c.body 26 48, parm c.body 36 32,
        parm c.body 32 32, BitVec.ofNat 32 (parm c.body 40 32)⟩] }
      cmd := { k.cmd with waits := k.cmd.waits ++ [⟨t, pid, .stream pid⟩] } })) ∧
  (∀ (s : State) (pid : Pid) (m : List ReadIn),
    (streamsOf s pid.val = [] → exec (.wbStreamDone pid m) s = .next s) ∧
    (∀ x l, streamsOf s pid.val = x :: l →
      let b := bundle s x.pid x.idx
      let key := (slot s b.slot).key
      let segs := (m.take x.nseg).zipIdx
      let r := segs.foldl (segStep key b x) (s, true)
      (∀ d, readBad s [b.slot] = some d → exec (.wbStreamDone pid m) s = .next (failStream d x)) ∧
      (readBad s [b.slot] = none → r.2 = false → exec (.wbStreamDone pid m) s = .next (failStream r.1 x)) ∧
      (readBad s [b.slot] = none → r.2 = true → m.length < x.nseg → exec (.wbStreamDone pid m) s = .next s) ∧
      (readBad s [b.slot] = none → r.2 = true → x.nseg ≤ m.length →
        exec (.wbStreamDone pid m) s = .next (endStream r.1 x .ok)) ∧
      (r.2 = true → ∀ e ∈ segs, ∃ y z, e.1 = .data y ∧ openSegment key b (x.first + e.2) y = some z) ∧
      ((∃ e ∈ segs, ∀ y, e.1 = .data y → openSegment key b (x.first + e.2) y = none) → r.2 = false) ∧
      (∀ u n y z, segGranted u x n = true → openSegment key b (x.first + n) y = some z →
        segStep key b x (u, true) (.data y, n) =
          (dmaWrite (segRead u x n (.data y)) (Fin.ofNat 32 x.pid) (x.dst + n * 4096) z, true)) ∧
      (∀ u n e, segGranted u x n = false → segStep key b x (u, true) (e, n) = (u, false)) ∧
      (∀ u, failStream u x = endStream (zeroDest { u with wb := { u.wb with integrity := inc32 u.wb.integrity } } x) x
        .errIntegrity) ∧
      (∀ u st, (∀ w ∈ (endStream u x st).cmd.waits, w.tkt.num ≠ x.num) ∧
        ∀ y ∈ (endStream u x st).wb.streams, y.num ≠ x.num))) ∧
  (∀ (s : State) (c : Cmd) (k : State) (t : Ticket), accepted opWbRevoke s c = some (k, t) →
    let pid := tagPid t.ptag
    let i := bundleIdx (bundleOfPkt c.body)
    let b := bundle k pid i
    (∀ x, keyBad k b = some x → exec (.wbRevoke c) s = .next (finish x t .errIntegrity)) ∧
    (keyBad k b = none → bundleBusy k pid i = true → exec (.wbRevoke c) s = .next { k with
      cmd := { k.cmd with waits := k.cmd.waits ++ [⟨t, pid, .revoke pid i⟩] } }) ∧
    (keyBad k b = none → bundleBusy k pid i = false → ∃ e, exec (.wbRevoke c) s = .next (finish e t .ok) ∧
      bundle e pid i = { inc := b.inc + 1 } ∧ (b.slot ≠ 0 → (slot e b.slot).key = 0) ∧
      (∀ d, (∀ j, j < 16 → j ≠ i → (bundle k pid j).live = true → (bundle k pid j).setid ≠ b.setid) →
        setOf k pid b.setid = some d → d ∉ e.wb.sets ∧ (slot e d.slot).key = 0) ∧
      (∀ d ∈ k.wb.sets, d.setid ≠ b.setid → d ∈ e.wb.sets) ∧ charged k e)) ∧
  (∀ s : State, (s.boot.rdy = false ∨ s.tel.latchAt = now s / 1000 + 1 → exec .telLatch s = .next s) ∧
    (s.boot.rdy = true → s.tel.latchAt ≠ now s / 1000 + 1 →
      ∃ x, exec .telLatch s = .next { s with tel := x } ∧ x.latchAt = now s / 1000 + 1 ∧ x.cnt = s.tel.cnt ∧
        (∀ p ∈ confPids s, ∀ i, i < 6 → tget 0 x.latched (p * 8 + i) = tget 0 s.tel.cnt (p * 8 + i) / 4096) ∧
        (∀ p ∈ confPids s, ∀ i, i < 8 → tget 0 x.latched (p * 8 + i) = telCount s p i / 4096) ∧
        (∀ p, p ∉ confPids s → tget 0 x.latchNo p = tget 0 s.tel.latchNo p ∧
          ∀ i, i < 8 → tget 0 x.latched (p * 8 + i) = tget 0 s.tel.latched (p * 8 + i))) ∧
    (∀ raw, s.boot.rdy = true → raw ≠ [] → exec (.telPowerWindow raw) s = .next { s with tel := { s.tel with
      power := min 255 (((raw.map BitVec.toNat).sum + 10 * raw.length) / (20 * raw.length))
      window := (s.tel.window + 1) % 65536 } }) ∧
    (∀ raw, s.boot.rdy = false → exec (.telPowerWindow raw) s = .next s))

/-- Iron (R338 to R349): each command's checks and effect. IRON_OPEN binds a FREE or SAVED number; an update carries the
context on and writes its output, a GCM decryption holds it in a buffer; IRON_FINAL answers tag or digest, releases or drops a
held buffer, and frees the number; IRON_SAVE writes the image under the next SAVESEQ; IRON_RESTORE takes the latest image
once. Where the key slot that a command reads does not verify it is marked BAD and the command ends with ERR_INTEGRITY. Where
the datapaths differ, in any of them that has come to its computation, it ends with ERR_INTEGRITY, its context is
unchanged, a held buffer is zeros and the lane leaves service, to come back when its tests pass. A held buffer goes after
10 ms. -/
def Obligations.IronCommandsFollowTheContextStates : Prop :=
  (∀ (d : Bool) (s : State) (c : Cmd) (k : State) (t : Ticket), accepted (opIronOpen d) s c = some (k, t) →
    let pid := tagPid t.ptag
    let n := ictxNo c.body
    let h := BitVec.ofNat 32 (parm c.body 20 32)
    let mode := BitVec.ofNat 8 (parm c.body 17 8)
    let old := ironCtx k pid n
    let run := exec (.ironOpen ⟨c, d⟩) s
    let ends := fun st => run = .next (finish k t st)
    let up := noLane k = false ∧ ironBound old = false
    (¬ up → ends .errState) ∧ (up → 4 ≤ boundOf k pid → ends .errResource) ∧
    (up → boundOf k pid < 4 → 14 ≤ boundAll k → ends .busy) ∧
    (up → boundOf k pid < 4 → boundAll k < 14 → ∀ z, ctxBad k mode h = some z → run = .next (finish z t .errIntegrity)) ∧
    (up → boundOf k pid < 4 → boundAll k < 14 → ctxBad k mode h = none → d = true →
      run = .next (finish (dualFault k (laneFor k t.num) pid) t .errIntegrity)) ∧
    (up → boundOf k pid < 4 → boundAll k < 14 → ctxBad k mode h = none → d = false →
      ∃ x, run = .next (finish (setIron k pid n x) t .ok) ∧ x.state = .opened ∧ x.mode = mode ∧ x.key = h ∧
        x.dataLen = 0 ∧ x.aadLen = 0 ∧ x.hw = freeHw k ∧ x.last = old.last ∧
        x.consumed = (old.consumed || old.state == .saved))) ∧
  (∀ (aad d : Bool) (s : State) (c : Cmd) (a : State) (t : Ticket), accepted (opIronUpdate aad d) s c = some (a, t) →
    let k := readAll a ((opIronUpdate aad d).reads a t c.body c.mem) c.mem
    let pid := tagPid t.ptag
    let n := ictxNo c.body
    let x := ironCtx k pid n
    let ln := laneFor k t.num
    let hold := !aad && ialg x.mode == 1 && idec x.mode
    let done := resultOf [(8, ilen c.body)]
    let run := exec (if aad then .ironUpdateAad d c else .ironUpdateData d c) s
    let ends := fun (u : State) => run = .next (if d = true then finish (dualFault k ln pid) t .errIntegrity else u)
    let up := noLane k = false ∧ orderOk aad x = true
    (¬ up → run = .next (finish k t .errState)) ∧
    (up → hold = true → 3 ≤ heldBy k ln → run = .next (finish k t .busy)) ∧
    (∀ z, up → (hold = true → heldBy k ln < 3) → ctxBad k x.mode x.key = some z →
      run = .next (finish z t .errIntegrity)) ∧
    (up → (hold = true → heldBy k ln < 3) → ctxBad k x.mode x.key = none →
      (firstRead c.mem (ilen c.body) = none → run = .next (finish k t .errIntegrity)) ∧
      (∀ b, firstRead c.mem (ilen c.body) = some b →
        (aad = true → ends (finish (setIron k pid n (ironAad (ctxKey k x) x b)) t .ok done)) ∧
        (aad = false → ironData (ctxKey k x) x b = none → ends (finish k t .authFail)) ∧
        (∀ y o, aad = false → ironData (ctxKey k x) x b = some (y, o) →
          (hold = true → ends (finish (putBuf (setIron k pid n { y with
            state := .held, heldBuf := freeBuf k ln, heldDst := idst c.body, heldAt := now k }) (freeBuf k ln) o) t .ok done)) ∧
          (hold = false → ends (finish (memPut (setIron k pid n y) pid (idst c.body) o false) t .ok done)))))) ∧
  (∀ (d : Bool) (s : State) (c : Cmd) (k : State) (t : Ticket), accepted (opIronFinal d) s c = some (k, t) →
    let pid := tagPid t.ptag
    let n := ictxNo c.body
    let x := ironCtx k pid n
    let freed := ironEnd k pid n
    let held := heldBytes k x
    let tag := blkBytes (ironTag (ctxKey k x) x)
    let run := exec (.ironFinal d c) s
    let ends := fun (u : State) => run =
      .next (if d = true then finish (dualFault k (laneFor k t.num) pid) t .errIntegrity else u)
    let up := noLane k = false ∧ ironBound x = true ∧ ctxBad k x.mode x.key = none
    ((noLane k = true ∨ ironBound x = false) → run = .next (finish k t .errState)) ∧
    (∀ z, noLane k = false → ironBound x = true → ctxBad k x.mode x.key = some z →
      run = .next (finish z t .errIntegrity)) ∧
    (up → ialg x.mode = 1 → idec x.mode = true →
      (d = true → run = .next (finish (dualFault (putBuf k x.heldBuf (zeros held.length))
        (laneFor (putBuf k x.heldBuf (zeros held.length)) t.num) pid) t .errIntegrity)) ∧
      (d = false → tag ≠ parmBytes c.body 20 16 → run = .next (finish freed t .ok)) ∧
      (d = false → tag = parmBytes c.body 20 16 → rangeOk k pid x.heldDst held.length rDWR = true →
        run = .next (finish (memPut freed pid x.heldDst held false) t .ok (resultOf [(8, 1)]))) ∧
      (d = false → tag = parmBytes c.body 20 16 → rangeOk k pid x.heldDst held.length rDWR = false →
        run = .next (finish k t .errPerm))) ∧
    (up → ialg x.mode = 1 → idec x.mode = false → ends (finish freed t .ok (resultOf [(8, leNat tag)]))) ∧
    (up → ihash x.mode = true →
      let g := ironDigest x
      (rangeOk k pid x.dest g.length rDWR = true →
        ends (finish (memPut freed pid x.dest g false) t .ok (resultOf [(8, leNat (g.take 16))]))) ∧
      (rangeOk k pid x.dest g.length rDWR = false → ends (finish k t .errPerm))) ∧
    (up → ihash x.mode = false → ialg x.mode ≠ 1 → ends (finish freed t .ok)) ∧
    ironCtx freed pid n = { last := x.last, consumed := x.consumed } ∧
    (x.state = .held → tget [] freed.iron.bufs x.heldBuf = []) ∧
    (∀ m, m ≠ pid * 16 + n → tget {} freed.iron.ctxs m = tget {} k.iron.ctxs m)) ∧
  (∀ (s : State) (c : Cmd) (k : State) (t : Ticket), accepted (opIronSave false) s c = some (k, t) →
    let pid := tagPid t.ptag
    let n := ictxNo c.body
    let x := ironCtx k pid n
    let up := noLane k = false ∧ x.state = .opened
    (¬ up → exec (.ironSave false c) s = .next (finish k t .errState)) ∧
    (∀ z, up → wrapBad k pid = some z → exec (.ironSave false c) s = .next (finish z t .errIntegrity)) ∧
    (up → wrapBad k pid = none → ∃ e b, exec (.ironSave false c) s =
        .next (finish (memPut e pid (parm c.body 20 48) b false) t .ok (resultOf [(8, 296)])) ∧
      (part e pid).saveSeq = (part k pid).saveSeq + 1 ∧
      ironCtx e pid n = { state := .saved, last := (part k pid).saveSeq + 1 } ∧
      (∀ m, m ≠ pid * 16 + n → tget {} e.iron.ctxs m = tget {} k.iron.ctxs m) ∧ e.keys = k.keys ∧ e.mem = k.mem)) ∧
  (∀ (d : Bool) (s : State) (c : Cmd) (a : State) (t : Ticket), accepted (opIronRestore d) s c = some (a, t) →
    let k := readAll a ((opIronRestore d).reads a t c.body c.mem) c.mem
    let pid := tagPid t.ptag
    let n := ictxNo c.body
    let old := ironCtx k pid n
    let q := part k pid
    let run := exec (.ironRestore d c) s
    let ends := fun st => run = .next (finish k t st)
    let tried := fun (u : State) => run =
      .next (if d = true then finish (dualFault k (laneFor k t.num) pid) t .errIntegrity else u)
    (firstRead c.mem 296 = none → ends .errIntegrity) ∧
    (∀ b, firstRead c.mem 296 = some b →
      let c3 := le b 5 1 = 0 ↔ k.fuse.lcs = .maker
      let c4 := noLane k = false ∧ ironBound old = false
      let c6 := le b 8 2 = q.ctag.toNat ∧ le b 12 4 = q.mepoch.toNat
      let whole := imageShape b n = true ∧ c3 ∧ c4 ∧ bindable k pid = none ∧ c6
      (imageShape b n = false → ends .errParam) ∧ (imageShape b n = true → ¬ c3 → ends .errLifecycle) ∧
      (imageShape b n = true → c3 → ¬ c4 → ends .errState) ∧
      (∀ st, imageShape b n = true → c3 → c4 → bindable k pid = some st → ends st) ∧
      (imageShape b n = true → c3 → c4 → bindable k pid = none → ¬ c6 → ends .authFail) ∧
      (∀ z, whole → wrapBad k pid = some z → run = .next (finish z t .errIntegrity)) ∧
      (whole → wrapBad k pid = none → openImage k pid n b = none → tried (finish k t .authFail)) ∧
      (∀ y, whole → wrapBad k pid = none → openImage k pid n b = some y →
        let z := imageState y
        (modeOk z.mode = false → tried (finish k t .authFail)) ∧
        (modeOk z.mode = true → (BitVec.ofNat 64 (le b 16 8) ≠ old.last ∨ old.consumed = true) →
          tried (finish k t .errStale)) ∧
        (modeOk z.mode = true → BitVec.ofNat 64 (le b 16 8) = old.last → old.consumed = false →
          (ialg z.mode ≠ 5 → ironNamed k z.key pid = false → tried (finish k t .errParam)) ∧
          ((ialg z.mode = 5 ∨ ironNamed k z.key pid = true) → tried
            (finish (setIron k pid n { z with hw := freeHw k, last := old.last, consumed := true }) t .ok)))))) ∧
  (∀ (s : State) (c : Cmd) (k : State) (t : Ticket), accepted (opIronSave true) s c = some (k, t) → noLane k = false →
    (ironCtx k (tagPid t.ptag) (ictxNo c.body)).state = .opened → wrapBad k (tagPid t.ptag) = none →
    exec (.ironSave true c) s = .next (finish (dualFault k (laneFor k t.num) (tagPid t.ptag)) t .errIntegrity)) ∧
  (∀ (s : State) (n pid : Nat), s.alarm.hist = [] → (lane s n).missed = 0 → (n = 0 ∨ n = 1) →
    let e := dualFault s n pid
    lane e n = { lane s n with oos := true, missed := 1, retired := false } ∧ e.iron.ctxs = s.iron.ctxs ∧
    e.iron.dual = inc32 s.iron.dual ∧ e.alarm.seen.getLsbD (alarmCode .ironDual - 1) = true ∧ charged s e) ∧
  (∀ (s : State) (n : Fin 2) (ok : Bool), let l := lane s n.val
    (l.oos = false → exec (.ironLaneKatDone n ok) s = .next s) ∧
    (l.oos = true → ∃ e, exec (.ironLaneKatDone n ok) s = .next e ∧ e.iron.kat = inc32 s.iron.kat ∧
      lane e n.val = { l with oos := !(ok && !l.retired) } ∧ e.iron.ctxs = s.iron.ctxs)) ∧
  (∀ (s : State) (pid : Pid) (n : Fin 16), let x := ironCtx s pid.val n.val
    (x.state = .held → x.heldAt + 10000 ≤ now s → exec (.ironHoldExpiry pid n) s = .next (ironEnd s pid.val n.val)) ∧
    ((x.state ≠ .held ∨ now s < x.heldAt + 10000) → exec (.ironHoldExpiry pid n) s = .next s))

/-! ## The range (02, 13) -/

/-- RANGE_JOIN, RANGE_LEAVE, RANGE_EPOCH and RANGE_PAIR (R29, R31, R357, R358, R360, R371): FORM makes the chip the Summit of
a new range at epoch 1; JOIN sends JOIN_REQ and waits; a member leaves through its Summit, and the last member by itself; an
ADVANCE is due at once; OFFER writes an offer, ACCEPT checks the partner's message and sets PAIRED, or destroys the offer's
keys where the pairing fails (DEDUCED, log entry 115); UNPAIR destroys the pair key. -/
def Obligations.RangeCommandsFormJoinLeaveAndPair : Prop :=
  ∀ (s : State) (c : Cmd) (k : State) (t : Ticket),
    let node := parm c.body 16 16
    let port := parm c.body 18 8
    let barred := k.range.memb ≠ .unbound ∨ jtagScuActive k = true
    (accepted opJoinForm s c = some (k, t) →
      let k := readAll k (opJoinForm.reads k t c.body c.mem) c.mem
      let barred := k.range.memb ≠ .unbound ∨ jtagScuActive k = true
      let ends := fun st => exec (.rangeJoinForm c) s = .next (finish k t st)
      let free := ¬ barred ∧ k.keys.entFailed = false
      (¬ free → ends .errState) ∧ (free → firstRead c.mem 8 = none → ends .errIntegrity) ∧
      (∀ h, free → firstRead c.mem 8 = some h →
          (firstRead (c.mem.drop 1) (48 * le h 5 1) = none → ends .errIntegrity) ∧
          (∀ b, firstRead (c.mem.drop 1) (48 * le h 5 1) = some b →
            ∃ e, exec (.rangeJoinForm c) s = .next (finish e t .ok (resultOf [(8, e.range.rangeId.toNat), (16, node), (20, 1)])) ∧
              e.range.memb = .member ∧ e.range.role = .summit ∧ e.range.epoch = 1 ∧ e.range.nodeId = node ∧
              e.range.summit = node ∧ e.range.shoulder = none ∧ e.range.test = parmBit c.body 19 1 ∧
              e.range.minSvn = BitVec.ofNat 32 (parm c.body 20 32) ∧ e.range.afs = h ++ b ∧
              e.range.members = [selfMember k node 1] ∧
              ((slot k 2).bad = false → polClass (slot e 2).policy = classCode .range) ∧
              (∀ i, i ≠ 2 → slot e i = slot k i) ∧ e.part = k.part ∧ e.mem = k.mem ∧ e.fuse = k.fuse))) ∧
    (∀ (n : Nat) (p : Pkt), (nodeOk p = false → opJoinForm.pre s n p = some .errParam) ∧
      (nodeOk p = true → scuReadable s (parm p 24 48) 8 = false → opJoinForm.pre s n p = some .errPerm) ∧
      (∀ m h, firstRead m 8 = some h → (afsHeadOk h = false → opJoinForm.preMem s p m = some .errParam) ∧
        (afsHeadOk h = true → scuReadable s (parm p 24 48 + 8) (48 * le h 5 1) = false →
          opJoinForm.preMem s p m = some .errPerm)) ∧
      (pairArea s (parm p 16 48) = false → opPairOffer.pre s n p = some .errPerm) ∧
      (32768 < parm p 22 16 → opPairAccept.pre s n p = some .errParam) ∧
      (parm p 22 16 ≤ 32768 → pairArea s (parm p 16 48) = false → opPairAccept.pre s n p = some .errPerm)) ∧
    (accepted opJoinJoin s c = some (k, t) →
      ((barred ∨ (link k port).state ≠ .admitting) → exec (.rangeJoinJoin c) s = .next (finish k t .errState)) ∧
      (¬ barred → (link k port).state = .admitting →
        ∃ e m, exec (.rangeJoinJoin c) s = .next e ∧ e.cmd.waits = k.cmd.waits ++ [⟨t, 0, .rangeJoin⟩] ∧
          e.range.memb = .joining ∧ e.range.join = some ⟨port, node, parmBit c.body 19 0, now k⟩ ∧
          e.range.sent = k.range.sent ++ [⟨m, .join, 1, now k⟩] ∧ m.via = port ∧ m.opcode = 0x01 ∧ m.form = 0x11 ∧
          m.seq = k.range.nextSeq ∧ e.keys = k.keys)) ∧
    (accepted opRangeLeave s c = some (k, t) →
      ((inRange k = false ∨ tenantExists k = true) → exec (.rangeLeave c) s = .next (finish k t .errState)) ∧
      (inRange k = true → tenantExists k = false → k.range.role = .summit →
        (k.range.memb ≠ .member ∨ others k (nodes k) ≠ []) → exec (.rangeLeave c) s = .next (finish k t .errState)) ∧
      (tenantExists k = false → k.range.role = .summit → k.range.memb = .member → others k (nodes k) = [] →
        ∃ e, exec (.rangeLeave c) s = .next (finish e t .ok) ∧ e.range.memb = .unbound ∧ e.range.members = [] ∧
          (slot e 2).key = 0 ∧ (slot e 3).key = 0 ∧ (slot e 7).key = 0) ∧
      (inRange k = true → tenantExists k = false → k.range.role ≠ .summit →
        ∃ e m, exec (.rangeLeave c) s = .next e ∧ e.cmd.waits = k.cmd.waits ++ [⟨t, 0, .rangeLeave⟩] ∧
          e.range.memb = .leaving ∧ e.range.leaveAt = some (now k) ∧ e.range.sent = k.range.sent ++ [⟨m, .leave, 1, now k⟩] ∧
          m.dst = k.range.summit ∧ m.opcode = 0x01 ∧ m.form = 0x16 ∧ e.keys = k.keys)) ∧
    (accepted opEpochAdvance s c = some (k, t) →
      let running := k.range.adv.isSome
      let may := isSummit k = true ∧ (k.range.memb = .member ∨ running = true)
      ((¬ may ∨ k.keys.entFailed = true) → exec (.rangeEpochAdvance c) s = .next (finish k t .errState)) ∧
      (may → k.keys.entFailed = false → 0x3FFFFFFF ≤ k.range.epoch.toNat + b2n running →
        exec (.rangeEpochAdvance c) s = .next (finish k t .errResource)) ∧
      (may → k.keys.entFailed = false → k.range.epoch.toNat + b2n running < 0x3FFFFFFF → exec (.rangeEpochAdvance c) s = .next { k with
        range := { k.range with advNow := true }
        cmd := { k.cmd with waits := k.cmd.waits ++ [⟨t, 0, .epochAdvance running⟩] } })) ∧
    (accepted opPairOffer s c = some (k, t) → readBad k [0, 1] = none →
      let at_ := parm c.body 16 48
      let free := pairState k = true ∧ k.range.paired = false ∧ k.keys.entFailed = false
      (¬ free → exec (.rangePairOffer c) s = .next (finish k t .errState)) ∧
      (free →
        ∃ e b o, exec (.rangePairOffer c) s = .next (finish (memPut e 0 at_ b) t .ok (resultOf [(8, b.length)])) ∧
          slice b 0 4 = asc "QPOF" ∧ e.range.pair.offer = some o ∧ o.bytes = b ∧ o.at_ = now k ∧
          e.range.paired = false ∧ e.keys.slots = k.keys.slots ∧ e.part = k.part ∧ e.mem = k.mem)) ∧
    (accepted opPairAccept s c = some (k, t) →
      let k := readAll k (opPairAccept.reads k t c.body c.mem) c.mem
      let at_ := parm c.body 16 48
      let len := parm c.body 22 16
      let ends := fun st => exec (.rangePairAccept c) s = .next (finish k t st)
      let free := pairState k = true ∧ k.range.paired = false
      (¬ free → ends .errState) ∧ (free → firstRead c.mem len = none → ends .errIntegrity) ∧
      (∀ b, free → firstRead c.mem len = some b →
        let first := k.range.pair.offer.isNone
        (pairLayout k first b = false → ends .errParam) ∧
        (pairLayout k first b = true → pairSigned b = false → ends .authFail) ∧
        (pairLayout k first b = true → pairSigned b = true → pairAttested k b = false → ends .errUnattested) ∧
        (pairCheck k first b = none →
          (∀ o, k.range.pair.offer = some o →
            let fails := exec (.rangePairAccept c) s =
              .next (finish { k with range := { k.range with pair := { k.range.pair with offer := none } } } t .authFail)
            ((BitVec.ofNat 384 (beNat (slice b 72 48)) ≠ o.hash ∨ Config.ecValid (slice b 152 97) = false ∨
              Config.kemDecap o.kem (slice b 249 1568) = none) → fails) ∧
            (∀ z, BitVec.ofNat 384 (beNat (slice b 72 48)) = o.hash → Config.ecValid (slice b 152 97) = true →
              Config.kemDecap o.kem (slice b 249 1568) = some z →
              let p := pairKeys o.bytes b (slice (Config.ecdh o.seed (slice b 152 97)) 0 48) (slice z 0 32)
              (slice b 1817 16 ≠ p.2 → fails) ∧
              (slice b 1817 16 = p.2 → ∃ e, exec (.rangePairAccept c) s = .next (finish e t .ok (resultOf [(8, le b 8 8)])) ∧
                e.range.paired = true ∧ e.range.pair.offer = none ∧ e.range.pair.base = at_ ∧
                e.range.pair.peer = BitVec.ofNat 64 (le b 8 8) ∧ e.range.pair.heardAt = now k ∧
                (slotDead k 2 = false → (slot e 7).key = p.1 ∧ ∀ i, i ≠ 7 → slot e i = slot k i)))) ∧
          (k.range.pair.offer = none → k.keys.entFailed = true → ends .errState) ∧
          (k.range.pair.offer = none → Config.ecValid (slice b 152 97) = false → k.keys.entFailed = false → ends .authFail) ∧
          (k.range.pair.offer = none → Config.ecValid (slice b 152 97) = true → k.keys.entFailed = false →
            readBad k [0, 1] = none →
            ∃ e y, exec (.rangePairAccept c) s = .next (finish e t .ok (resultOf [(8, le b 8 8), (16, List.length y)])) ∧
              e.range.paired = true ∧ e.range.pair.base = at_ ∧ e.range.pair.peer = BitVec.ofNat 64 (le b 8 8) ∧
              .memWrite 0 at_ y ∈ e.out ∧ slice y 0 4 = asc "QPAC" ∧
              (slotDead k 2 = false → ∀ i, i ≠ 7 → slot e i = slot k i))))) ∧
    (accepted opUnpair s c = some (k, t) →
      (pairState k = false → exec (.rangePairUnpair c) s = .next (finish k t .errState)) ∧
      (pairState k = true → ∃ e, exec (.rangePairUnpair c) s = .next (finish e t .ok) ∧
        slot e 7 = { inc := (slot k 7).inc + 1, bad := (slot k 7).bad } ∧ (∀ i, i ≠ 7 → slot e i = slot k i) ∧
        e.range = { k.range with pair := { k.range.pair with clearing := k.range.paired } }))

/-- Range messages are taken once (R355): while firmware is down nothing happens; one that fails a check ends with its status
(R227, R233); a message that was answered before gets the same answers and nothing else. Joining, leaving and evidence (R32, R35, R358 to R360, R363): what each message changes at the
Summit, the joiner, the relay and the member, and what it is answered. -/
def Obligations.JoiningLeavingAndEvidence : Prop :=
  ∀ (s : State) (m : RMsg),
    let up := s.boot.rdy = true ∧ s.boot.scuUp = true
    let same := fun (x : Seen) => x.src == m.src && x.via == m.via && x.seq == m.seq
    let fresh := fun (i : Instr) => s.range.seen.any same = false ∧ up ∧ msgStatus s i = none
    let said := fun (e : State) (a : Msg) =>
      ∃ q l, e.range.seen = { src := m.src, via := m.via, seq := m.seq, answers := [{ a with seq := q }] } :: l
    let silent := fun (e : State) => ∃ l, e.range.seen = { src := m.src, via := m.via, seq := m.seq } :: l
    let back := fun (form : BitVec 8) (p : BitVec 384) (b : Bytes) =>
      ({ dst := m.src, via := m.via, opcode := 0x01, form := form, params := p, data := b } : Msg)
    let plain := [Instr.joinReq m, .joinNonce m, .joinAdmit m, .joinRefuse m, .leave m, .leaveAck m, .refresh m, .refreshEvid m,
      .delta m, .prepare m, .prepAck m, .switch m, .abort m, .heartbeat m, .loss m, .probe m, .probeAck m, .shadow m,
      .shadowAck m, .setkeyRsp m, .pairkey m]
    (¬ up → ∀ i ∈ Instr.frag m :: .setkeyReq m :: plain, exec i s = .next s) ∧
    (∀ i st, i ∈ Instr.frag m :: .setkeyReq m :: plain → up → msgStatus s i = some st →
      ∃ k t, exec i s = .next (finish k t st) ∧ k.range = s.range ∧ k.keys = s.keys ∧ k.part = s.part ∧ k.ridge = s.ridge) ∧
    (∀ x i, i ∈ plain → up → msgStatus s i = none → (i = .joinReq m → drawLate s = false) →
      (i = .prepare m → rxBusy s = false) → s.range.seen.find? same = some x → exec i s = .next (x.answers.foldl transmit s)) ∧
    (up → msgStatus s (.joinReq m) = none → drawLate s = true → exec (.joinReq m) s = .next s) ∧
    (fresh (.joinReq m) → isSummit s = true → drawLate s = false →
      let node := mp m 16 2
      let sh := m.params.getLsbD 16
      (advancing s = true → ∃ e, exec (.joinReq m) s = .next e ∧ said e (back 0x15 (BitVec.ofNat 384 1) []) ∧
        e.range.joiners = s.range.joiners ∧ e.keys = s.keys) ∧
      (advancing s = false → sh = true → rackOf node = rackOf s.range.nodeId → ∃ e, exec (.joinReq m) s = .next e ∧
        said e (refuseJoin m .errParam) ∧ e.range.joiners = s.range.joiners ∧ e.keys = s.keys) ∧
      (advancing s = false → (sh = true → rackOf node ≠ rackOf s.range.nodeId) → s.keys.entFailed = false →
        ∃ e n, exec (.joinReq m) s = .next e ∧ said e (back 0x12 (paramsOf [(16, num (keyBytes n))]) []) ∧
          { src := m.src, via := m.via, nodeId := node, shoulder := sh, nonce := n } ∈ e.range.joiners ∧
          e.range.members = s.range.members ∧ e.keys.slots = s.keys.slots)) ∧
    (fresh (.joinReq m) → fromRelay s m = true → inRange s = true → isSummit s = false → ∃ e, exec (.joinReq m) s = .next e ∧
      said e { dst := s.range.summit, opcode := 0x01, form := 0x11, params := m.params, data := m.data } ∧
      e.range.relayQ = ((liveAsks s).filter fun x => x.port != m.via) ++ [⟨m.via, 0x11, mp m 16 2, now s⟩] ∧
      (∀ k ∈ s.range.relays, k.port = m.via → { k with node := mp m 16 2 } ∈ e.range.relays) ∧ e.keys = s.keys) ∧
    (fresh (.joinNonce m) → forJoin s m = true → readBad s [0, 1] = none → ∃ e x, exec (.joinNonce m) s = .next e ∧ silent e ∧
      e.range.sent = (s.range.sent.filter fun y => !(y.why == .join)) ++ [⟨x, .join, 1, now s⟩] ∧ x.form = 0x13 ∧ x.via = m.via ∧
      x.data = evidence s 0 (mpBytes m 16 32) ++ certs s ∧ e.range.memb = .joining ∧ e.keys = s.keys) ∧
    (s.range.join = none →
      let l := liveAsks s
      let on := fun (form : BitVec 8) (e : State) => e.keys = s.keys ∧
        (∀ q, l.find? (answers m form) = some q → e.range.relayQ = l.filter (fun x => x != q) ∧
          said e { dst := 0, via := q.port, opcode := 0x01, form := form, params := m.params, data := m.data }) ∧
        (l.find? (answers m form) = none → e.range.relayQ = l ∧ silent e)
      (fresh (.joinNonce m) → ∃ e, exec (.joinNonce m) s = .next e ∧ on 0x12 e) ∧
      (fresh (.joinAdmit m) → ∃ e, exec (.joinAdmit m) s = .next e ∧ on 0x14 e) ∧
      (fresh (.joinRefuse m) → ∃ e, exec (.joinRefuse m) s = .next e ∧ on 0x15 e)) ∧
    (∀ j, fresh (.joinEvid m) → isSummit s = true → drawLate s = false → (recentAdmits s).length < 100 →
      (s.range.joiners.find? fun j => j.src == m.src && j.via == m.via && keyBytes j.nonce == slice m.data 16 32 &&
        j.adm.isNone) = some j →
      let s0 := { s with range := { s.range with admits := recentAdmits s } }
      let dead := readBad s0 (admitSlots s0)
      (∀ x, joinCheck s0 j m.data = none → dead = some x → ∃ e, exec (.joinEvid m) s = .next e ∧ silent e) ∧
      (∀ st, joinCheck s0 j m.data = some st → ∃ e, exec (.joinEvid m) s = .next e ∧ said e (refuseJoin m st) ∧
        j ∉ e.range.joiners ∧ e.range.members = s.range.members) ∧
      (joinCheck s0 j m.data = none → dead = none → s.keys.entFailed = true → ∃ e, exec (.joinEvid m) s = .next e ∧
        said e (refuseJoin m .errState) ∧ e.range.members = s.range.members) ∧
      (joinCheck s0 j m.data = none → dead = none → s.keys.entFailed = false → readBad s [0, 1] = none →
        s.range.shoulder = none → ∃ e b, exec (.joinEvid m) s = .next e ∧
        said e (back 0x14 0 b) ∧ j ∉ e.range.joiners ∧ (∃ x ∈ e.range.members, x.node = j.nodeId ∧
          x.admitted = s.range.epoch.setWidth 32 ∧ x.evidAt = now s) ∧
        e.range.reasonAt = some (s.range.reasonAt.getD (now s)) ∧ e.range.epoch = s.range.epoch ∧
        (rackOf j.nodeId ≠ rackOf s.range.nodeId → e.range.shoulder = some j.nodeId)) ∧
      (∀ d, joinCheck s0 j m.data = none → dead = none → s.keys.entFailed = false → s.range.shoulder = some d → d ≠ j.nodeId →
        ∃ e, exec (.joinEvid m) s = .next e ∧ silent e ∧
        { j with evidSeq := m.seq, adm := some (m.data.drop evidLen, e.range.shadowNum) } ∈ e.range.joiners ∧ e.keys = s.keys ∧
        e.range.shoulder = some d ∧ ∃ x ∈ e.range.members, x.node = j.nodeId)) ∧
    (up → msgStatus s (.joinEvid m) = none → isSummit s = true → (100 ≤ (recentAdmits s).length ∨ drawLate s = true) →
      exec (.joinEvid m) s =
      .next { s with range := { s.range with admits := recentAdmits s } }) ∧
    (∀ j, forJoin s m = true → s.range.join = some j → readBad s [0, 1] = none →
      let closes := fun (e : State) => (link s j.port).state = .admitting →
        (link e j.port).state = .admitting ∧ (link e j.port).closing = true
      let failed := fun (e : State) (st : Status) => e.range.memb = .unbound ∧ e.range.join = none ∧ closes e ∧
        (∀ w ∈ e.cmd.waits, w.kind ≠ .rangeJoin) ∧ e.keys.slots = s.keys.slots ∧
        (∀ w, s.cmd.waits = [w] → w.kind = .rangeJoin → w.tkt.ring = 0 → w.tkt.irq = false → w.tkt.mute = false →
          ringAreaOk s 0 (ring s 0).rbase (w.tkt.idx * 32) 32 rDWR = true → ∃ y r, .reply 0 w.tkt.idx y r ∈ e.out ∧ r.status = st)
      (fresh (.joinAdmit m) → openAdmit s m.data = none → ∃ e, exec (.joinAdmit m) s = .next e ∧ failed e .authFail) ∧
      (∀ a, fresh (.joinAdmit m) → openAdmit s m.data = some a → le m.data 23 1 ≠ 2 →
        (le m.data 23 1 ≠ 1 ∨ le m.data 22 1 % 2 ≠ 1) →
        ∃ e, exec (.joinAdmit m) s = .next e ∧ failed e .errUnattested) ∧
      (∀ a, fresh (.joinAdmit m) → openAdmit s m.data = some a → le m.data 23 1 = 2 →
        ∃ e, exec (.joinAdmit m) s = .next e ∧ silent e ∧
        e.range.memb = .member ∧ e.range.join = none ∧ e.range.epoch = BitVec.ofNat 30 (le a.head 10 4) ∧
        e.range.rangeId = BitVec.ofNat 64 (le a.head 0 8) ∧ e.range.nodeId = le a.head 8 2 % 16384 ∧
        e.range.summit = le a.head 14 2 ∧ e.range.minSvn = BitVec.ofNat 32 (le a.head 18 4) ∧ e.range.afs = a.afs ∧
        e.range.paired = a.pk.isSome ∧ nodes e = nodesOf a.list ∧ e.range.heardAt = now s ∧
        ((slot s 2).bad = false → (slot e 2).key = a.rk) ∧ closes e ∧
        (∀ x, a.pk = some x → (slot s 7).bad = false → (slot e 7).key = x) ∧
        (∀ i, i ≠ 2 → i ≠ 7 → slot e i = slot s i) ∧
        (∀ w ∈ e.cmd.waits, w.kind ≠ .rangeJoin)) ∧
      (∀ st, fresh (.joinRefuse m) → failureOf (mp m 16 1) = some st → ∃ e, exec (.joinRefuse m) s = .next e ∧ failed e st) ∧
      (fresh (.joinRefuse m) → failureOf (mp m 16 1) = none → ∃ e, exec (.joinRefuse m) s = .next e ∧ silent e ∧ e.range.join = some j)) ∧
    (fresh (.leave m) → isSummit s = true → m.src ∈ nodes s → m.src ≠ s.range.nodeId → ∃ e, exec (.leave m) s = .next e ∧
      said e (back 0x17 0 []) ∧ m.src ∈ e.range.toRemove ∧ e.range.members = s.range.members ∧
      e.range.reasonAt = some (s.range.reasonAt.getD (now s))) ∧
    (fresh (.leave m) → (isSummit s = false ∨ m.src ∉ nodes s) → ∃ e, exec (.leave m) s = .next e ∧ silent e ∧
      e.range.toRemove = s.range.toRemove) ∧
    (fresh (.leaveAck m) → s.range.memb = .leaving → m.src = s.range.summit → ∃ e, exec (.leaveAck m) s = .next e ∧
      e.range.memb = .unbound ∧ e.range.members = [] ∧ (slot e 2).key = 0 ∧ (slot e 3).key = 0 ∧ (slot e 7).key = 0 ∧
      (∀ p : Port, (link e p.val).state ≠ .opened) ∧ ∀ w ∈ e.cmd.waits, w.kind ≠ .rangeLeave) ∧
    (fresh (.leaveAck m) → (s.range.memb ≠ .leaving ∨ m.src ≠ s.range.summit) → ∃ e, exec (.leaveAck m) s = .next e ∧ silent e ∧
      e.range.memb = s.range.memb ∧ e.keys = s.keys) ∧
    (fresh (.refresh m) → inRange s = true → readBad s [0, 1] = none → ∃ e, exec (.refresh m) s = .next e ∧
      said e (back 0x19 0 (evidence s 0 (mpBytes m 16 32))) ∧ e.keys = s.keys ∧ e.range.memb = s.range.memb) ∧
    (∀ q x, fresh (.refreshEvid m) → (s.range.refreshing.find? fun e => e.1 == m.src) = some q → memberOf s m.src = some x →
      (refreshGood s x q.2.1 m.data = true → ∃ e, exec (.refreshEvid m) s = .next e ∧ silent e ∧
        (∀ y ∈ e.range.refreshing, y.1 ≠ m.src) ∧ { x with evidAt := now s, evidPre := 0 } ∈ e.range.members ∧
        e.range.toRemove = s.range.toRemove) ∧
      (refreshGood s x q.2.1 m.data = false → ∃ e, exec (.refreshEvid m) s = .next e ∧ silent e ∧
        (∀ y ∈ e.range.refreshing, y.1 ≠ m.src) ∧ e.range.members = s.range.members ∧ m.src ∈ e.range.toRemove))

/-- The messages of an advance, of liveness and of the services (R316, R356, R361, R362, R364, R365, R366): what each one,
taken for the first time while firmware runs, changes and is answered. -/
def Obligations.EpochLivenessAndServiceMessages : Prop :=
  ∀ (s : State) (m : RMsg),
    let up := s.boot.rdy = true ∧ s.boot.scuUp = true
    let fresh := fun (i : Instr) => s.range.seen.any (fun x => x.src == m.src && x.via == m.via && x.seq == m.seq) = false ∧
      up ∧ msgStatus s i = none
    let pairOk := s.range.paired = false ∨ slotDead s 7 = false
    let said := fun (e : State) (form : BitVec 8) (p : BitVec 384) => ∃ q l,
      e.range.seen = ⟨m.src, m.via, m.seq, [{ dst := m.src, via := m.via, form := form, seq := q, params := p }]⟩ :: l
    let silent := fun (e : State) => ∃ l, e.range.seen = { src := m.src, via := m.via, seq := m.seq } :: l
    let left := fun (e : State) => e.range.memb = .unbound ∧ e.range.epoch = 0 ∧ e.range.members = [] ∧ (slot e 2).key = 0 ∧
      (slot e 3).key = 0 ∧ (slot e 7).key = 0 ∧ e.wb.sets = [] ∧ ∀ p : Port, (link e p.val).state ≠ .opened
    let ep := mp m 16 4
    let next := s.range.epoch.toNat + 1
    let keysOk := readBad s [2] = none ∧ rkBad s (le m.data 96 4) = none
    let list := (List.range (min 20 (mp m 20 1))).map fun i => mp m (22 + 2 * i) 2
    (fresh (.delta m) → inRange s = true → ep = next → ∃ e, exec (.delta m) s = .next e ∧ silent e ∧ e.range.epoch = s.range.epoch ∧
      e.range.deltaEpoch = BitVec.ofNat 30 ep ∧ e.range.members = s.range.members ∧
      (mp m 21 1 = 0 → s.range.deltaEpoch.toNat ≠ ep → e.range.deltaRem = list ∧ e.range.deltaAdd = []) ∧
      (mp m 21 1 = 1 → s.range.deltaEpoch.toNat = ep →
        e.range.deltaAdd = s.range.deltaAdd ++ list ∧ e.range.deltaRem = s.range.deltaRem)) ∧
    (fresh (.prepare m) → isSummit s = false → (inRange s = false ∨ ep ≠ next) → ∃ e, exec (.prepare m) s = .next e ∧
      said e 0x12 (paramsOf [(16, ep), (20, statusCode .errStale)]) ∧ e.keys = s.keys ∧ e.range.prep = s.range.prep) ∧
    (∀ k, fresh (.prepare m) → inRange s = true → s.range.role ≠ .summit → ep = next →
      (s.range.prep ≠ none ∨ rxBusy s = false) → rkBad s s.range.epoch.toNat = none → (slot s 2).bad = false →
      unwrapped (nodeWrap (rkOf s s.range.epoch.toNat) "epoch-wrap" s.range.nodeId ep) (mpBytes m 20 40) = some k →
      ∃ e, exec (.prepare m) s = .next e ∧ said e 0x12 (paramsOf [(16, ep), (20, 0)]) ∧ (slot e 2).key = k ∧
        (s.range.prep = none → (slot s 3).bad = false → (slot e 3).key = (slot s 2).key) ∧ e.range.memb = .reforming ∧
        e.range.prep = some ⟨BitVec.ofNat 30 ep, now s⟩ ∧ e.range.epoch = s.range.epoch) ∧
    (up → msgStatus s (.prepare m) = none → inRange s = true → s.range.role ≠ .summit → ep = next → s.range.prep = none →
      rxBusy s = true → exec (.prepare m) s = .next { s with range := { s.range with prepWait := some m } }) ∧
    (fresh (.prepare m) → inRange s = true → s.range.role ≠ .summit → ep = next →
      (s.range.prep ≠ none ∨ rxBusy s = false) → ((rkBad s s.range.epoch.toNat).isSome = true ∨ unwrapped (nodeWrap (rkOf s s.range.epoch.toNat) "epoch-wrap"
        s.range.nodeId ep) (mpBytes m 20 40) = none) →
      ∃ e, exec (.prepare m) s = .next e ∧ said e 0x12 (paramsOf [(16, ep), (20, statusCode .authFail)])) ∧
    (∀ a, fresh (.prepAck m) → s.range.adv = some a → ep = a.epoch.toNat → m.src ∈ others s a.keep → m.src ∉ a.answered →
      let a1 := { a with answered := a.answered ++ [m.src], acked := if mp m 20 1 = 0 then a.acked ++ [m.src] else a.acked }
      waitOver s a1 = false → ∃ e, exec (.prepAck m) s = .next e ∧ silent e ∧ e.range.adv = some a1 ∧
        e.range.epoch = s.range.epoch ∧ e.keys = s.keys) ∧
    (∀ a, fresh (.prepAck m) → s.range.adv = some a → ep = a.epoch.toNat → m.src ∈ others s a.keep → m.src ∉ a.answered →
      let acked := if mp m 20 1 = 0 then a.acked ++ [m.src] else a.acked
      waitOver s { a with answered := a.answered ++ [m.src], acked := acked } = true →
      (s.range.members.length < 2 * (acked.length + 1) → readBad s [2, a.slot] = none → a.slot ≠ 2 → pairOk →
        ∃ e, exec (.prepAck m) s = .next e ∧ e.range.epoch = a.epoch ∧
        e.range.adv = none ∧ (slot e 2).key = (slot s a.slot).key ∧ e.range.takeover = false ∧
        (∀ x, x ∈ e.range.members ↔ x ∈ s.range.members ∧ (x.node = s.range.nodeId ∨ x.node ∈ acked))) ∧
      (2 * (acked.length + 1) ≤ s.range.members.length → ∃ e, exec (.prepAck m) s = .next e ∧ left e)) ∧
    (∀ q, fresh (.switch m) → s.range.prep = some q → inRange s = true → ep = q.epoch.toNat → s.range.deltaEpoch = q.epoch →
      slotDead s 2 = false →
      ∃ e, exec (.switch m) s = .next e ∧ silent e ∧ e.range.epoch = q.epoch ∧ e.range.prep = none ∧ e.range.summit = m.src ∧
        e.range.heardAt = now s ∧ e.range.shoulder = nodeNamed (mp m 20 2) ∧ e.range.deltaRem = [] ∧
        (∀ n ∈ nodes e, n ∈ s.range.deltaAdd ∨ (n ∈ nodes s ∧ n ∉ s.range.deltaRem)) ∧
        (s.range.role ≠ .summit → nodeNamed (mp m 20 2) = some s.range.nodeId → e.range.role = .shoulder) ∧
        (m.params.getLsbD 48 = false → e.range.paired = false ∧ (slot e 7).key = 0) ∧
        (∀ n ∈ s.range.deltaRem, ∀ pid, (peer e pid n).valid = true → n < 16384 → (peer e pid n).silent = true) ∧
        (slot e 2).key = (slot s 2).key) ∧
    (fresh (.switch m) → (s.range.prep = none ∨ inRange s = false) → ∃ e, exec (.switch m) s = .next e ∧ silent e ∧
      e.range.epoch = s.range.epoch ∧ e.keys = s.keys) ∧
    (fresh (.abort m) → inRange s = true → s.range.role ≠ .summit → ep = next → ∃ e, exec (.abort m) s = .next e ∧ left e) ∧
    (fresh (.abort m) → (inRange s = false ∨ s.range.role = .summit ∨ ep ≠ next) → ∃ e, exec (.abort m) s = .next e ∧ silent e ∧
      e.range.memb = s.range.memb ∧ e.keys = s.keys) ∧
    (fresh (.heartbeat m) → inRange s = true → s.range.role ≠ .summit → mp m 20 2 = m.src → ∃ e, exec (.heartbeat m) s = .next e ∧ silent e ∧
      e.range.heardAt = now s ∧ e.range.summit = m.src ∧ e.range.shoulder = nodeNamed (mp m 22 2) ∧
      e.range.epoch = s.range.epoch ∧ e.keys = s.keys) ∧
    (fresh (.loss m) → isSummit s = true → mp m 16 2 ∈ nodes s → mp m 16 2 ≠ s.range.nodeId →
      (∃ x ∈ s.range.probes, x.node = mp m 16 2) → ∃ e, exec (.loss m) s = .next e ∧ silent e ∧
        e.range.probes = s.range.probes.map (fun x => if x.node = mp m 16 2 then { x with losses := x.losses + 1 } else x) ∧
        e.range.ctr = s.range.ctr) ∧
    (fresh (.loss m) → isSummit s = true → mp m 16 2 ∈ nodes s → mp m 16 2 ≠ s.range.nodeId → drawOk s = true →
      (∀ x ∈ s.range.probes, x.node ≠ mp m 16 2) → ∃ e v, exec (.loss m) s = .next e ∧ silent e ∧
        e.range.probes = s.range.probes ++ [⟨mp m 16 2, v, now s, 1⟩] ∧ e.range.ctr.probes = inc32 s.range.ctr.probes ∧
        e.range.members = s.range.members) ∧
    (fresh (.probe m) → inRange s = true → ∃ e, exec (.probe m) s = .next e ∧ said e 0x18 (paramsOf [(16, mp m 16 8)]) ∧ e.keys = s.keys) ∧
    (∀ x ∈ s.range.probes, fresh (.probeAck m) → x.node = m.src → x.token.toNat = mp m 16 8 → ∃ e, exec (.probeAck m) s = .next e ∧
      silent e ∧ x ∉ e.range.probes ∧ e.range.ctr.probes = add32 s.range.ctr.probes
        ((s.range.probes.filter fun y => y.node == m.src && y.token.toNat == mp m 16 8).map (·.losses)).sum ∧
      e.range.toRemove = s.range.toRemove) ∧
    (fresh (.shadow m) → inRange s = true → s.range.role ≠ .summit → m.src = s.range.summit →
      let answer := paramsOf [(16, le m.data 0 4), (24, le m.data 4 2)]
      let n := le m.data 0 4
      let b := m.data.drop 8
      let x := (s.range.shadowIn.find? fun y => y.num == n).getD { num := n, count := le m.data 6 2 }
      let l := (s.range.shadowIn.filter fun z => z.num != n) ++ [{ x with parts := x.parts ++ [(le m.data 4 2, b, now s)] }]
      let gone := nodesOf (slice b (51 + 2 * le b 47 2) (2 * le b (49 + 2 * le b 47 2) 2))
      ((∀ y ∈ x.parts, y.1 ≠ le m.data 4 2) → (∀ z ∈ l, shadowReady s z = false) →
        ∃ e, exec (.shadow m) s = .next e ∧ said e 0x1A answer ∧ e.range.shadowIn = l ∧ e.range.members = s.range.members) ∧
      (s.range.shadowIn = [] → le m.data 6 2 = 1 → le m.data 4 2 = 0 →
        (le b 16 1 / 4 % 2 = 0 ∨ n = s.range.shadowGot + 1) → ∃ e, exec (.shadow m) s = .next e ∧ said e 0x1A answer ∧
        e.range.shadowed = true ∧ e.range.shadowIn = [] ∧ e.range.shadowGot = n ∧ e.range.minSvn = BitVec.ofNat 32 (le b 12 4) ∧
        e.range.members = if le b 16 1 / 4 % 2 = 0 then [] else s.range.members.filter fun z => !gone.contains z.node)) ∧
    (fresh (.shadowAck m) → isSummit s = true → s.range.shoulder = some m.src → readBad s (admitSlots s) = none →
      readBad s [0, 1] = none → ∃ e, exec (.shadowAck m) s = .next e ∧ silent e ∧
      (∀ x ∈ e.range.sent, x.why ≠ .shadow (mp m 16 8) (mp m 24 2)) ∧ e.range.members = s.range.members) ∧
    (up → msgStatus s (.setkeyReq m) = none → s.range.adv.isSome = true → s.range.takeover = false →
      exec (.setkeyReq m) s = .next (waitSwitch s false m)) ∧
    (fresh (.setkeyReq m) → isSummit s = true → keysOk → (s.range.takeover = true → ∃ e, exec (.setkeyReq m) s = .next e ∧
      said e 0x1C (paramsOf [(16, statusCode .busy)]) ∧ e.keys = s.keys)) ∧
    (fresh (.setkeyReq m) → isSummit s = true → keysOk → s.range.adv = none → s.range.takeover = false →
      let r := setKeyFor s m.src (le m.data 96 4) (slice m.data 0 48) (slice m.data 48 48)
      ∃ e, exec (.setkeyReq m) s = .next e ∧ e.keys = s.keys ∧ e.range.members = s.range.members ∧
        said e 0x1C (if r.1 = .ok then paramsOf [(20, wrapped (memberWrap (slot s 2).key m.src) r.2)]
          else paramsOf [(16, statusCode r.1)])) ∧
    (∀ i k, fresh (.setkeyRsp m) → oldestImport s m.src = some i → mp m 16 1 = 0 → readBad s [2] = none →
      unwrapped (memberWrap (slot s 2).key s.range.nodeId) (mpBytes m 20 40) = some k → ∃ e, exec (.setkeyRsp m) s = .next e ∧
        silent e ∧ (∀ x ∈ e.wb.imports, x.num ≠ i.num) ∧ ∀ w ∈ e.cmd.waits, w.tkt.num ≠ i.num) ∧
    (∀ i st, fresh (.setkeyRsp m) → oldestImport s m.src = some i → mp m 16 1 ≠ 0 → failureOf (mp m 16 1) = some st →
      ∃ e, exec (.setkeyRsp m) s = .next e ∧ silent e ∧ (∀ x ∈ e.wb.imports, x.num ≠ i.num) ∧
        (∀ w ∈ e.cmd.waits, w.tkt.num ≠ i.num) ∧ e.wb.bundles = s.wb.bundles ∧ e.keys.slots = s.keys.slots) ∧
    (∀ k, fresh (.pairkey m) → inRange s = true → s.range.role ≠ .summit → ep = s.range.epoch.toNat →
      rkBad s s.range.epoch.toNat = none → (slot s 7).bad = false → unwrapped (nodeWrap (rkOf s s.range.epoch.toNat) "pair-wrap" s.range.nodeId ep) (mpBytes m 20 40) = some k →
      ∃ e, exec (.pairkey m) s = .next e ∧ silent e ∧ (slot e 7).key = k ∧ e.range.paired = true ∧
        ∀ i, i ≠ 7 → slot e i = slot s i) ∧
    (∀ r pid node tag (st : BitVec 8) (v : BitVec 192), (s.range.sent.find? fun r => r.msg.seq == m.seq && r.msg.dst == m.src) = some r →
      r.why = .bind pid node → bindTag s pid node = some tag →
      let yes := decide (st = 0) && v.getLsbD 0 && v.getLsbD 1 && v.getLsbD 2
      ∃ e, exec (.rangeReply m st v) s = .next e ∧ e.keys.slots = s.keys.slots ∧
        (∀ w ∈ e.cmd.waits, w.kind ≠ .peerBind pid node tag) ∧
        peer e pid node = { ptag := tag, valid := yes, bound := yes } ∧
        (∀ p n, p * 16384 + n ≠ pid * 16384 + node → peer e p n = peer s p n)) ∧
    (∀ (st : BitVec 8) (v : BitVec 192), (∀ r ∈ s.range.sent, r.msg.seq ≠ m.seq ∨ r.msg.dst ≠ m.src) →
      exec (.rangeReply m st v) s = .next s) ∧
    (up → msgStatus s (.frag m) = none →
      let n := BitVec.ofNat 16 (mp m 16 2)
      let mine := fun (q : Reasm) => q.src == m.src && q.via == m.via && q.num == n
      let d := (mpBytes m 24 40).take (mp m 22 1)
      (s.range.reasm.any mine = false → 16 ≤ s.range.reasm.length → exec (.frag m) s = .next s) ∧
      (s.range.reasm.any mine = false → s.range.reasm.length < 16 → 2 ≤ mp m 20 2 → mp m 20 2 ≤ 1229 → mp m 18 2 < mp m 20 2 →
        d ≠ [] → exec (.frag m) s = .next { s with range := { s.range with
          reasm := s.range.reasm ++ [⟨m.src, m.via, n, mp m 20 2, now s, [(mp m 18 2, d)]⟩] } }) ∧
      (∀ q, s.range.reasm = [q] → mine q = true → q.count = mp m 20 2 → q.count ≤ 1229 → mp m 18 2 < q.count →
        d ≠ [] → (∀ f ∈ q.frags, f.1 ≠ mp m 18 2) → q.frags.length + 1 = q.count →
        (49152 < (q.frags.map fun f => f.2.length).sum + d.length →
          exec (.frag m) s = .next { s with range := { s.range with reasm := [] } }) ∧
        ((q.frags.map fun f => f.2.length).sum + d.length ≤ 49152 → exec (.frag m) s = .next (deliverMsg { s with range := { s.range with reasm := [] } }
          { src := m.src, via := m.via, seq := n, data := joined { q with frags := q.frags ++ [(mp m 18 2, d)] } }))))

/-- The range's timers (R31, R355, R356, R358, R360 to R365, R367, R370 to R372): each acts when its time has come, and before
changes nothing. -/
def Obligations.RangeTimersActAtTheirTime : Prop :=
  ∀ s : State,
    let left := fun (e : State) => e.range.memb = .unbound ∧ e.range.epoch = 0 ∧ e.range.members = [] ∧ (slot e 2).key = 0 ∧
      (slot e 3).key = 0 ∧ (slot e 7).key = 0 ∧ e.wb.sets = [] ∧ ∀ p : Port, (link e p.val).state ≠ .opened
    let put := fun (r : RangeState) => Host.Outcome.next { s with range := r }
    let r := s.range
    (∀ dst n, (r.sent.find? fun x => x.msg.dst == dst && x.msg.seq == n) = none →
      exec (.rangeResendTimer dst n) s = .next s) ∧
    (∀ dst n x, (r.sent.find? fun x => x.msg.dst == dst && x.msg.seq == n) = some x →
      (now s < x.at_ + 2000 → exec (.rangeResendTimer dst n) s = .next s) ∧
      (x.at_ + 2000 ≤ now s → x.sends < 5 → heldBack s x.why = false → ∃ e, exec (.rangeResendTimer dst n) s = .next e ∧
        e.range.sent = r.sent.map (fun y => if y = x then { x with sends := x.sends + 1, at_ := now s } else y) ∧
        e.range.ctr.resends = inc32 r.ctr.resends ∧ e.range.nextSeq = r.nextSeq) ∧
      (x.at_ + 2000 ≤ now s → 5 ≤ x.sends → (x.why = .leave ∨ ∃ m, x.why = .refresh m) →
        exec (.rangeResendTimer dst n) s = put { r with sent := r.sent.filter fun y => y != x }) ∧
      (∀ j, x.at_ + 2000 ≤ now s → 5 ≤ x.sends → x.why = .join → r.join = some j → ∃ e y,
        exec (.rangeResendTimer dst n) s = .next e ∧ e.range.join = some j ∧ y.form = 0x11 ∧ y.seq = r.nextSeq ∧
        e.range.sent = (r.sent.filter fun y => y != x) ++ [⟨y, .join, 1, now s⟩])) ∧
    (∀ src n, exec (.reassemblyTimeout src n) s = put { r with
      reasm := r.reasm.filter fun q => !(q.src == src && q.num == n && decide (q.at_ + 100000 ≤ now s)) }) ∧
    (r.join = none → exec .joinTimeout s = .next s) ∧
    (∀ j, r.join = some j → (now s < j.at_ + 10000000 → exec .joinTimeout s = .next s) ∧
      (j.at_ + 10000000 ≤ now s → ∃ e, exec .joinTimeout s = .next e ∧ e.range.memb = .unbound ∧ e.range.join = none ∧
        ((link s j.port).state = .admitting → (link e j.port).state = .admitting ∧ (link e j.port).closing = true) ∧
        ∀ w ∈ e.cmd.waits, w.kind ≠ .rangeJoin)) ∧
    (r.leaveAt = none → exec .leaveTimeout s = .next s) ∧
    (∀ t, r.leaveAt = some t → (r.memb ≠ .leaving ∨ now s < t + 1000000 → exec .leaveTimeout s = .next s) ∧
      (r.memb = .leaving → t + 1000000 ≤ now s → ∃ e, exec .leaveTimeout s = .next e ∧ left e)) ∧
    ((isSummit s = false ∨ now s < r.beatAt + 1000000) → exec .heartbeatSend s = .next s) ∧
    (isSummit s = true → r.beatAt + 1000000 ≤ now s → ∃ e, exec .heartbeatSend s = .next e ∧
      e.ridge.outq.length = s.ridge.outq.length + (others s (nodes s)).length ∧
      e.range = { r with beatAt := now s, nextSeq := e.range.nextSeq }) ∧
    (inRange s = true → r.role ≠ .summit → r.heardAt + 5000000 ≤ now s → ∃ e, exec .heartbeatLoss s = .next e ∧ left e) ∧
    (inRange s = true → others s (nodes s) ≠ [] → (∀ p : Port, (link s p.val).state ≠ .opened) → r.openAt + 1000000 ≤ now s →
      ∃ e, exec .heartbeatLoss s = .next e ∧ left e) ∧
    ((inRange s = false ∨ ((r.role = .summit ∨ now s < r.heardAt + 5000000) ∧ (others s (nodes s) = [] ∨
      now s < r.openAt + 1000000 ∨ ∃ p : Port, (link s p.val).state = .opened))) → exec .heartbeatLoss s = .next s) ∧
    (∀ n q, (r.probes.find? fun x => x.node == n) = some q →
      (now s < q.at_ + 2000 → exec (.rangeProbeTimeout n) s = .next s) ∧
      (q.at_ + 2000 ≤ now s → isSummit s = true → n ∈ nodes s → ∃ e, exec (.rangeProbeTimeout n) s = .next e ∧
        n ∈ e.range.toRemove ∧ e.range.advNow = true ∧ (∀ x ∈ e.range.probes, x.node ≠ n) ∧ e.range.members = r.members) ∧
      (q.at_ + 2000 ≤ now s → inRange s = true → r.role = .shoulder → n = r.summit → exec (.rangeProbeTimeout n) s =
        put { r with probes := r.probes.filter (fun x => x.node != n), summitLost := true })) ∧
    (∀ n, (∀ x ∈ r.probes, x.node ≠ n) → exec (.rangeProbeTimeout n) s = .next s) ∧
    (let may := isSummit s && r.adv.isNone && !lastEpoch s && advanceDue s
     let due := may && drawOk s
     (may = true → s.keys.entFailed = true → exec .epochAdvanceStart s =
       .next (finishWaits s (fun w => match w.kind with | .epochAdvance _ => true | _ => false) .errState)) ∧
     ((may = false ∨ (s.keys.entFailed = false ∧ drawOk s = false)) → exec .epochAdvanceStart s = .next s) ∧
     (∀ x, due = true → rkBad s r.epoch.toNat = some x → ∃ e, exec .epochAdvanceStart s = .next e ∧ e.range.adv = none) ∧
     (due = true → rkBad s r.epoch.toNat = none → drawnSlot s = none → exec .epochAdvanceStart s = .next s) ∧
     (∀ w n, n ∈ nodes s → due = true → rkBad s r.epoch.toNat = none → drawnSlot s = some w → n ≠ r.nodeId →
        n ∉ r.toRemove → (∀ x ∈ r.members, evidAge s x ≤ 1800000000) →
        ∃ e a, exec .epochAdvanceStart s = .next e ∧ e.range.adv = some a ∧ a.epoch = r.epoch + 1 ∧ n ∈ a.keep ∧
          a.removed = r.toRemove ∧ a.answered = [] ∧ a.round = 0 ∧ e.range.memb = .reforming ∧ e.range.epoch = r.epoch ∧
          e.range.toRemove = [] ∧ e.range.advNow = false ∧ a.slot = w ∧
          polClass (slot e w).policy = classCode .range ∧ ∀ i, i ≠ w → slot e i = slot s i) ∧
     (∀ w x, due = true → rkBad s r.epoch.toNat = none → readBad s [2] = none → drawnSlot s = some w →
        (r.paired = false ∨ slotDead s 7 = false) → r.members = [x] → x.node = r.nodeId → ∃ e, exec .epochAdvanceStart s = .next e ∧
        e.range.epoch = r.epoch + 1 ∧ e.range.adv = none ∧ nodes e = [r.nodeId] ∧
        e.range.ctr.advances = inc32 r.ctr.advances)) ∧
    (r.adv = none → exec .prepareWaitTimeout s = .next s) ∧
    (∀ a, r.adv = some a →
      let wait := if a.round = 0 then 150000 else 50000
      (now s < a.at_ + wait → exec .prepareWaitTimeout s = .next s) ∧
      (a.at_ + wait ≤ now s → a.round < 2 → (∃ n ∈ others s a.keep, n ∉ a.answered) → ∃ e, exec .prepareWaitTimeout s = .next e ∧
        e.range = { r with adv := some { a with round := a.round + 1, at_ := now s } }) ∧
      (a.at_ + wait ≤ now s → (2 ≤ a.round ∨ ∀ n ∈ others s a.keep, n ∈ a.answered) → r.members.length < 2 * (a.acked.length + 1) → readBad s [2, a.slot] = none →
        a.slot ≠ 2 → (r.paired = false ∨ slotDead s 7 = false) →
        ∃ e, exec .prepareWaitTimeout s = .next e ∧ e.range.epoch = a.epoch ∧ e.range.adv = none ∧
          (slot e 2).key = (slot s a.slot).key ∧
          (∀ n ∈ others s a.keep, n ∉ a.acked → n ∈ e.range.toRemove ∧ e.range.advNow = true)) ∧
      (a.at_ + wait ≤ now s → (2 ≤ a.round ∨ ∀ n ∈ others s a.keep, n ∈ a.answered) → 2 * (a.acked.length + 1) ≤ r.members.length →
        ∃ e, exec .prepareWaitTimeout s = .next e ∧ left e)) ∧
    (∀ q, r.prep = some q → ((inRange s = false ∨ now s < q.at_ + 1000000) → exec .switchTimeout s = .next s) ∧
      (inRange s = true → q.at_ + 1000000 ≤ now s → ∃ e, exec .switchTimeout s = .next e ∧ left e)) ∧
    (∀ n, isSummit s = true → n ∈ nodes s → n ≠ r.nodeId → (∀ x ∈ r.refreshing, x.1 ≠ n) → drawOk s = true →
      ∃ e v y, exec (.refreshTimer n) s = .next e ∧ e.range.refreshing = r.refreshing ++ [(n, v, now s)] ∧
        e.range.sent = r.sent ++ [⟨y, .refresh n, 1, now s⟩] ∧ y.dst = n ∧ y.opcode = 0x01 ∧ y.form = 0x18 ∧
        e.range.members = r.members) ∧
    (∀ n, (isSummit s = false ∨ n ∉ nodes s ∨ n = r.nodeId ∨ (∃ x ∈ r.refreshing, x.1 = n) ∨ drawOk s = false) →
      exec (.refreshTimer n) s = .next s) ∧
    (∀ n q, (r.refreshing.find? fun x => x.1 == n) = some q →
      ((isSummit s = false ∨ r.takeover = true ∨ now s < q.2.2 + 10000000) → exec (.refreshTimeout n) s = .next s) ∧
      (isSummit s = true → r.takeover = false → q.2.2 + 10000000 ≤ now s → ∃ e, exec (.refreshTimeout n) s = .next e ∧ n ∈ e.range.toRemove ∧
        (∀ x ∈ e.range.refreshing, x.1 ≠ n) ∧ e.range.members = r.members ∧ e.range.advNow = r.advNow)) ∧
    ((inRange s = false ∨ r.role ≠ .shoulder ∨ r.summitLost = false) → exec .shoulderTakeover s = .next s) ∧
    (∀ x, inRange s = true → r.role = .shoulder → r.summitLost = true → rkBad s r.epoch.toNat = some x →
      ∃ e, exec .shoulderTakeover s = .next e ∧ inRange e = false) ∧
    (inRange s = true → r.role = .shoulder → r.summitLost = true → rkBad s r.epoch.toNat = none →
      ∃ e, exec .shoulderTakeover s = .next e ∧ e.range.pair.heardAt = now s ∧
      e.range.role = .summit ∧ e.range.summit = r.nodeId ∧ e.range.shoulder = none ∧ e.range.takeover = true ∧
      r.summit ∈ e.range.toRemove ∧ e.range.advNow = true ∧ e.range.epoch = r.epoch ∧ e.range.prep = none ∧
      e.range.ctr.takeovers = inc32 r.ctr.takeovers ∧
      (∀ q, r.prep = some q → r.epoch.toNat ≠ q.epoch.toNat → (slot s 2).bad = false → (slot e 2).key = (slot s 3).key)) ∧
    ((inRange s = false ∨ r.role ≠ .shoulder ∨ now s < r.heardAt + 3000000) → exec .shoulderHeartbeatTimeout s = .next s) ∧
    (inRange s = true → r.role = .shoulder → r.heardAt + 3000000 ≤ now s → drawOk s = true →
      (∀ x ∈ r.probes, x.node ≠ r.summit) →
      ∃ e v, exec .shoulderHeartbeatTimeout s = .next e ∧ e.range.probes = r.probes ++ [⟨r.summit, v, now s, 0⟩] ∧
        e.range.memb = r.memb) ∧
    ((streaming s = false ∨ now s < r.pair.sentAt + 1000000) → exec .pairHeartbeatTimer s = .next s) ∧
    (∀ x, streaming s = true → r.pair.sentAt + 1000000 ≤ now s → readBad s [7] = some x →
      exec .pairHeartbeatTimer s = .next x) ∧
    (streaming s = true → r.pair.sentAt + 1000000 ≤ now s → readBad s [7] = none → ∃ e b, exec .pairHeartbeatTimer s = .next e ∧
      e.range = { r with pair := { r.pair with outSeq := r.pair.outSeq + 1, sentAt := now s } } ∧
      let off := r.pair.base + 64 * ((r.pair.outSeq + 1) % 512)
      e.out = if rangeOk s 0 off 64 rTWR then .memWrite 0 off b :: s.out else s.out) ∧
    ((streaming s = false ∨ now s < r.pair.polledAt + 100000) → ∀ l, exec (.pairMailboxPoll l) s = .next s) ∧
    (streaming s = true → r.pair.polledAt + 100000 ≤ now s → slotDead s 7 = true → ∀ b : Bytes,
      ∃ e, exec (.pairMailboxPoll [b]) s = .next e ∧ e.range.ctr.pairReject = inc32 r.ctr.pairReject ∧
        e.range.pair.inSeq = r.pair.inSeq) ∧
    (streaming s = true → r.pair.polledAt + 100000 ≤ now s → slotDead s 7 = false → ∀ b : Bytes,
      let q := le b 0 8
      let good := r.pair.inSeq < q ∧ b.length = 64 ∧ (gcmOpen (stateKey s r.pair.peer) (recordIv r.pair.peer q) (slice b 0 8)
        (slice b 8 40) (blk (slice b 48 16))).isSome = true
      (good → exec (.pairMailboxPoll [b]) s =
        put { r with pair := { r.pair with polledAt := now s, inSeq := q, heardAt := now s } }) ∧
      (¬ good → exec (.pairMailboxPoll [b]) s =
        put { r with pair := { r.pair with polledAt := now s }, ctr := { r.ctr with pairReject := inc32 r.ctr.pairReject } })) ∧
    ((streaming s = false ∨ now s < r.pair.heardAt + 10000000) → exec .pairPartnerLoss s = .next s) ∧
    (streaming s = true → r.pair.heardAt + 10000000 ≤ now s →
      exec .pairPartnerLoss s = put { r with advNow := true, pair := { r.pair with clearing := true } }) ∧
    (∀ o, r.pair.offer = some o → (now s < o.at_ + 600000000 → exec .pairOfferExpiry s = .next s) ∧
      (o.at_ + 600000000 ≤ now s → exec .pairOfferExpiry s = put { r with pair := { r.pair with offer := none } }))

/-! ## What every step keeps -/

/-- R251: a programmed fuse bit stays programmed, whatever command is taken. -/
def Obligations.FuseBitsStayProgrammed : Prop :=
  ∀ (p : FuseState) (s t : State),
    let tries := fun (a b : List LcTry) => ∀ (i : Nat) (x : LcTry), a[i]? = some x → ∃ y : LcTry, b[i]? = some y ∧
      x.pend &&& y.pend = x.pend ∧ x.conf &&& y.conf = x.conf ∧ x.abn &&& y.abn = x.abn
    let kept := fun (f : FuseState) => p.rootA &&& f.rootA = p.rootA ∧ p.rootB &&& f.rootB = p.rootB ∧
      p.rootC &&& f.rootC = p.rootC ∧ p.fsalt &&& f.fsalt = p.fsalt ∧ tries p.lcI f.lcI ∧ tries p.lcF f.lcF ∧
      p.lcRPend &&& f.lcRPend = p.lcRPend ∧ p.lcRConf &&& f.lcRConf = p.lcRConf ∧ p.lcSPend &&& f.lcSPend = p.lcSPend ∧
      p.lcSConf &&& f.lcSConf = p.lcSConf ∧ p.svn &&& f.svn = p.svn ∧ p.devId &&& f.devId = p.devId ∧
      p.fwKh &&& f.fwKh = p.fwKh ∧ p.dbgKh &&& f.dbgKh = p.dbgKh ∧ p.idbgKh &&& f.idbgKh = p.idbgKh ∧
      p.rootOk &&& f.rootOk = p.rootOk ∧ p.trim &&& f.trim = p.trim ∧ p.trimCrc &&& f.trimCrc = p.trimCrc
    kept s.fuse → step s = .next t → kept t.fuse

/-- Every step takes one command from the front of the queue, or none where it is empty, and adds none; and Tarn's log keeps
its form (R393): at most 64 entries, newest first, numbered one after the other modulo 65,536. -/
def Obligations.QueueAndTarnLogKeepTheirOrder : Prop :=
  ∀ (s t : State),
    let logOk := fun (x : TarnState) => x.log.length ≤ 64 ∧ x.logTotal < 65536 ∧
      ∀ (i : Nat) (e : LogEntry), x.log[i]? = some e → e.seq = (x.logTotal + 65535 - i) % 65536
    step s = .next t → t.pending = s.pending.tail ∧ (logOk s.tarn → logOk t.tarn)

/-- The state after reset has what the two statements above keep: no entry in Tarn's log, no command in the queue; and by
the model's choice (log entry 4) it is a chip in MAKER of whose fuses none is programmed. -/
def Obligations.ResetMeetsWhatEveryStepKeeps : Prop :=
  let s := State.reset
  s.pending = [] ∧ s.tarn.log = [] ∧ s.tarn.logTotal = 0 ∧ s.fuse.rootA = 0 ∧ s.fuse.rootB = 0 ∧ s.fuse.rootC = 0 ∧
  s.fuse.fsalt = 0 ∧ s.fuse.rootOk = 0 ∧ s.fuse.svn = 0 ∧ s.fuse.lcs = .maker ∧ s.fuse.lcSPend = 0 ∧ s.fuse.lcRPend = 0
end

