-- ==== Sys2Proof/Laws/Tbl.lean ====
section
/-! SUPPORT. What the table operations do: reading back, leaving other keys alone, keeping the canonical
form. -/

namespace Sys2Proof.Machine

set_option linter.unusedSectionVars false

variable {α : Type} [DecidableEq α] {d : α}

@[simp] theorem tget_nil (i : Nat) : tget d ([] : Tbl α) i = d := rfl

theorem tget_tput_same (t : Tbl α) (i : Nat) (x : α) : tget d (tput t i x) i = x := by
  induction t with
  | nil => simp [tput, tget]
  | cons e t ih =>
    obtain ⟨k, v⟩ := e
    simp only [tput]
    split
    · simp [tget]
    · split
      · simp [tget]
      · rename_i h1 h2; simp only [tget, h1, if_false]; exact ih

theorem tget_tput_other (t : Tbl α) {i j : Nat} (x : α) (h : j ≠ i) :
    tget d (tput t i x) j = tget d t j := by
  induction t with
  | nil => simp [tput, tget, h]
  | cons e t ih =>
    obtain ⟨k, v⟩ := e
    simp only [tput]
    split
    · subst_vars; simp [tget, h]
    · split
      · simp [tget, h]
      · simp only [tget]; split
        · rfl
        · exact ih

/-- A key that no entry has reads as the default. -/
theorem tget_absent (t : Tbl α) (i : Nat) (h : ∀ e ∈ t, e.1 ≠ i) : tget d t i = d := by
  induction t with
  | nil => rfl
  | cons e t ih =>
    obtain ⟨k, v⟩ := e
    have hk : i ≠ k := fun hk => h (k, v) (by simp) hk.symm
    simp only [tget, hk, if_false]
    exact ih fun e he => h e (by simp [he])

/-- Dropping entries by a test on the key leaves the keys that pass it as they were. -/
theorem tget_filter (t : Tbl α) (p : Nat → Bool) (i : Nat) :
    tget d (t.filter fun e => p e.1) i = if p i then tget d t i else d := by
  induction t with
  | nil => simp
  | cons e t ih =>
    obtain ⟨k, v⟩ := e
    simp only [List.filter_cons, tget]
    by_cases hk : i = k
    · subst hk
      by_cases hp : p i
      · simp [hp, tget]
      · simp [hp, ih]
    · by_cases hp : p k
      · simp [hp, tget, hk, ih]
      · simp [hp, hk, ih]

theorem tget_terase_other (t : Tbl α) {i j : Nat} (h : j ≠ i) :
    tget d (terase t i) j = tget d t j := by
  have := tget_filter (d := d) t (fun k => k != i) j
  simpa [terase, h] using this

theorem tget_terase_same (t : Tbl α) (i : Nat) : tget d (terase t i) i = d :=
  tget_absent _ _ fun e he => by simpa using (List.mem_filter.mp he).2

/-- What is written reads back. -/
@[simp] theorem tget_tset_same (t : Tbl α) (i : Nat) (x : α) : tget d (tset d t i x) i = x := by
  unfold tset; split
  · subst_vars; exact tget_terase_same t i
  · exact tget_tput_same t i x

/-- A write leaves every other key as it was. -/
theorem tget_tset_other (t : Tbl α) {i j : Nat} (x : α) (h : j ≠ i) :
    tget d (tset d t i x) j = tget d t j := by
  unfold tset; split
  · exact tget_terase_other t h
  · exact tget_tput_other t x h

theorem tget_tset (t : Tbl α) (i j : Nat) (x : α) :
    tget d (tset d t i x) j = if j = i then x else tget d t j := by
  split
  · subst_vars; exact tget_tset_same t _ x
  · exact tget_tset_other t x ‹_›

theorem tabove_tput {t : Tbl α} {i j : Nat} {x : α} (h : tabove j t = true) (hj : j < i) :
    tabove j (tput t i x) = true := by
  induction t with
  | nil => simp [tput, tabove, hj]
  | cons e t ih =>
    obtain ⟨k, v⟩ := e
    simp only [tabove, List.all_cons, Bool.and_eq_true, decide_eq_true_eq] at h ih ⊢
    simp only [tput]
    split
    · simp [hj, h.2]
    · split
      · simp [hj, h.1, h.2]
      · simp [h.1, ih h.2]

theorem tabove_mono {t : Tbl α} {i j : Nat} (h : tabove j t = true) (hj : i ≤ j) :
    tabove i t = true := by
  simp only [tabove, List.all_eq_true, decide_eq_true_eq] at h ⊢
  intro e he; have := h e he; omega

theorem tabove_filter {t : Tbl α} {p : Nat × α → Bool} {j : Nat} (h : tabove j t = true) :
    tabove j (t.filter p) = true := by
  simp only [tabove, List.all_eq_true, List.mem_filter, decide_eq_true_eq] at h ⊢
  exact fun e he => h e he.1

/-- Dropping entries keeps the canonical form. -/
theorem twf_filter {t : Tbl α} (p : Nat × α → Bool) (hw : twf d t = true) : twf d (t.filter p) = true := by
  induction t with
  | nil => rfl
  | cons e t ih =>
    obtain ⟨k, v⟩ := e
    simp only [twf, Bool.and_eq_true] at hw
    simp only [List.filter_cons]
    split
    · simp only [twf, Bool.and_eq_true]
      exact ⟨⟨hw.1.1, tabove_filter hw.1.2⟩, ih hw.2⟩
    · exact ih hw.2

theorem twf_terase {t : Tbl α} {i : Nat} (hw : twf d t = true) : twf d (terase t i) = true := twf_filter _ hw

theorem twf_tput {t : Tbl α} {i : Nat} {x : α} (hw : twf d t = true) (hx : x ≠ d) :
    twf d (tput t i x) = true := by
  induction t with
  | nil => simp [tput, twf, hx, tabove]
  | cons e t ih =>
    obtain ⟨k, v⟩ := e
    simp only [twf, Bool.and_eq_true] at hw
    simp only [tput]
    split
    · subst_vars; simp [twf, hx, hw.1.2, hw.2]
    · split
      · rename_i h
        have : tabove i ((k, v) :: t) = true := by
          have := tabove_mono hw.1.2 (Nat.le_of_lt h)
          simp only [tabove, List.all_cons, Bool.and_eq_true, decide_eq_true_eq] at this ⊢
          exact ⟨h, this⟩
        simp only [twf, Bool.and_eq_true]
        exact ⟨⟨by simp [hx], this⟩, hw⟩
      · rename_i h1 h2
        simp only [twf, Bool.and_eq_true]
        exact ⟨⟨hw.1.1, tabove_tput hw.1.2 (by omega)⟩, ih hw.2⟩

/-- Every write keeps the canonical form. -/
theorem twf_tset {t : Tbl α} (i : Nat) (x : α) (hw : twf d t = true) :
    twf d (tset d t i x) = true := by
  unfold tset; split
  · exact twf_terase hw
  · rename_i h; exact twf_tput hw h

theorem tabove_map {t : Tbl α} {f : Nat → α → α} {j : Nat} (h : tabove j t = true) :
    tabove j (t.map fun e => (e.1, f e.1 e.2)) = true := by
  simp only [tabove, List.all_eq_true, List.mem_map, decide_eq_true_eq, forall_exists_index, and_imp] at h ⊢
  rintro e x hx rfl
  exact h x hx

/-- Applying a function to every value keeps the canonical form. -/
theorem twf_tmapAll {t : Tbl α} (f : Nat → α → α) (hw : twf d t = true) :
    twf d (tmapAll d t f) = true := by
  induction t with
  | nil => rfl
  | cons e t ih =>
    obtain ⟨k, v⟩ := e
    simp only [twf, Bool.and_eq_true] at hw
    have h1 := ih hw.2
    have h2 := tabove_filter (p := fun e => decide (e.2 ≠ d)) (tabove_map (f := f) hw.1.2)
    simp only [tmapAll, List.map_cons, List.filter_cons] at h1 h2 ⊢
    split
    · rename_i hv
      simp only [twf, Bool.and_eq_true]
      exact ⟨⟨hv, h2⟩, h1⟩
    · exact h1

end Sys2Proof.Machine
end

