-- ==== Sys2Proof/Laws/State.lean ====
section
/-! SUPPORT. What each named update of the state leaves as it was, and what it reads back as. -/

namespace Sys2Proof.Machine

/-! ## Frames: one conjunction for each update -/

@[simp] theorem setRing_frame (s : State) (n : Nat) (x : Ring) :
    (setRing s n x).boot = s.boot ∧ (setRing s n x).tarn = s.tarn ∧ (setRing s n x).fuse = s.fuse ∧
    (setRing s n x).keys = s.keys ∧ (setRing s n x).alarm = s.alarm ∧ (setRing s n x).part = s.part ∧
    (setRing s n x).mem = s.mem ∧ (setRing s n x).ridge = s.ridge ∧ (setRing s n x).rmt = s.rmt ∧
    (setRing s n x).fold = s.fold ∧ (setRing s n x).range = s.range ∧ (setRing s n x).iron = s.iron ∧
    (setRing s n x).wb = s.wb ∧ (setRing s n x).tel = s.tel ∧ (setRing s n x).spdm = s.spdm ∧
    (setRing s n x).pending = s.pending ∧ (setRing s n x).out = s.out ∧ (setRing s n x).cmd.evts = s.cmd.evts ∧
    (setRing s n x).cmd.windows = s.cmd.windows ∧ (setRing s n x).cmd.rangeQ = s.cmd.rangeQ ∧
    (setRing s n x).cmd.rangeDropped = s.cmd.rangeDropped ∧ (setRing s n x).cmd.fwq = s.cmd.fwq ∧
    (setRing s n x).cmd.waits = s.cmd.waits ∧ (setRing s n x).cmd.opTurn = s.cmd.opTurn ∧
    (setRing s n x).cmd.lastTenant = s.cmd.lastTenant ∧ (setRing s n x).cmd.msix = s.cmd.msix ∧
    (setRing s n x).cmd.tenantHold = s.cmd.tenantHold ∧ (setRing s n x).cmd.vfDoeEn = s.cmd.vfDoeEn ∧
    (setRing s n x).cmd.fetches = s.cmd.fetches ∧
    (setRing s n x).cmd.ideUse = s.cmd.ideUse := by
  and_intros <;> rfl

@[simp] theorem setEvt_frame (s : State) (n : Nat) (x : Evt) :
    (setEvt s n x).boot = s.boot ∧ (setEvt s n x).tarn = s.tarn ∧ (setEvt s n x).fuse = s.fuse ∧
    (setEvt s n x).keys = s.keys ∧ (setEvt s n x).alarm = s.alarm ∧ (setEvt s n x).part = s.part ∧
    (setEvt s n x).mem = s.mem ∧ (setEvt s n x).ridge = s.ridge ∧ (setEvt s n x).rmt = s.rmt ∧
    (setEvt s n x).fold = s.fold ∧ (setEvt s n x).range = s.range ∧ (setEvt s n x).iron = s.iron ∧
    (setEvt s n x).wb = s.wb ∧ (setEvt s n x).tel = s.tel ∧ (setEvt s n x).spdm = s.spdm ∧
    (setEvt s n x).pending = s.pending ∧ (setEvt s n x).out = s.out ∧ (setEvt s n x).cmd.rings = s.cmd.rings ∧
    (setEvt s n x).cmd.windows = s.cmd.windows ∧ (setEvt s n x).cmd.rangeQ = s.cmd.rangeQ ∧
    (setEvt s n x).cmd.rangeDropped = s.cmd.rangeDropped ∧ (setEvt s n x).cmd.fwq = s.cmd.fwq ∧
    (setEvt s n x).cmd.waits = s.cmd.waits ∧ (setEvt s n x).cmd.opTurn = s.cmd.opTurn ∧
    (setEvt s n x).cmd.lastTenant = s.cmd.lastTenant ∧ (setEvt s n x).cmd.msix = s.cmd.msix ∧
    (setEvt s n x).cmd.tenantHold = s.cmd.tenantHold ∧ (setEvt s n x).cmd.vfDoeEn = s.cmd.vfDoeEn ∧
    (setEvt s n x).cmd.fetches = s.cmd.fetches ∧
    (setEvt s n x).cmd.ideUse = s.cmd.ideUse := by
  and_intros <;> rfl

@[simp] theorem fillWindow_frame (s : State) (n : Nat) (x : Window) :
    (fillWindow s n x).boot = s.boot ∧ (fillWindow s n x).tarn = s.tarn ∧ (fillWindow s n x).fuse = s.fuse ∧
    (fillWindow s n x).keys = s.keys ∧ (fillWindow s n x).alarm = s.alarm ∧ (fillWindow s n x).part = s.part ∧
    (fillWindow s n x).mem = s.mem ∧ (fillWindow s n x).ridge = s.ridge ∧ (fillWindow s n x).rmt = s.rmt ∧
    (fillWindow s n x).fold = s.fold ∧ (fillWindow s n x).range = s.range ∧ (fillWindow s n x).iron = s.iron ∧
    (fillWindow s n x).wb = s.wb ∧ (fillWindow s n x).tel = s.tel ∧ (fillWindow s n x).spdm = s.spdm ∧
    (fillWindow s n x).pending = s.pending ∧ (fillWindow s n x).out = s.out ∧
    (fillWindow s n x).cmd.rings = s.cmd.rings ∧ (fillWindow s n x).cmd.evts = s.cmd.evts ∧
    (fillWindow s n x).cmd.rangeQ = s.cmd.rangeQ ∧ (fillWindow s n x).cmd.rangeDropped = s.cmd.rangeDropped ∧
    (fillWindow s n x).cmd.fwq = s.cmd.fwq ∧ (fillWindow s n x).cmd.waits = s.cmd.waits ∧
    (fillWindow s n x).cmd.opTurn = s.cmd.opTurn ∧ (fillWindow s n x).cmd.lastTenant = s.cmd.lastTenant ∧
    (fillWindow s n x).cmd.msix = s.cmd.msix ∧ (fillWindow s n x).cmd.tenantHold = s.cmd.tenantHold ∧
    (fillWindow s n x).cmd.vfDoeEn = s.cmd.vfDoeEn ∧ (fillWindow s n x).cmd.fetches = s.cmd.fetches ∧
    (fillWindow s n x).cmd.ideUse = s.cmd.ideUse := by
  and_intros <;> rfl

@[simp] theorem setPart_frame (s : State) (n : Nat) (x : Part) :
    (setPart s n x).boot = s.boot ∧ (setPart s n x).tarn = s.tarn ∧ (setPart s n x).fuse = s.fuse ∧
    (setPart s n x).keys = s.keys ∧ (setPart s n x).alarm = s.alarm ∧ (setPart s n x).cmd = s.cmd ∧
    (setPart s n x).mem = s.mem ∧ (setPart s n x).ridge = s.ridge ∧ (setPart s n x).rmt = s.rmt ∧
    (setPart s n x).fold = s.fold ∧ (setPart s n x).range = s.range ∧ (setPart s n x).iron = s.iron ∧
    (setPart s n x).wb = s.wb ∧ (setPart s n x).tel = s.tel ∧ (setPart s n x).spdm = s.spdm ∧
    (setPart s n x).pending = s.pending ∧ (setPart s n x).out = s.out ∧ (setPart s n x).part.gens = s.part.gens ∧
    (setPart s n x).part.genAt = s.part.genAt ∧ (setPart s n x).part.genWait = s.part.genWait ∧
    (setPart s n x).part.mepochNext = s.part.mepochNext ∧ (setPart s n x).part.peers = s.part.peers ∧
    (setPart s n x).part.ctxs = s.part.ctxs ∧ (setPart s n x).part.fences = s.part.fences ∧
    (setPart s n x).part.kills = s.part.kills ∧ (setPart s n x).part.tears = s.part.tears ∧
    (setPart s n x).part.dma = s.part.dma ∧ (setPart s n x).part.asg = s.part.asg ∧
    (setPart s n x).part.tdi = s.part.tdi ∧ (setPart s n x).part.ide = s.part.ide ∧
    (setPart s n x).part.scrubbed = s.part.scrubbed ∧ (setPart s n x).part.scrubSeq = s.part.scrubSeq ∧
    (setPart s n x).part.scrubAt = s.part.scrubAt ∧ (setPart s n x).part.tileReset = s.part.tileReset ∧
    (setPart s n x).part.ctr = s.part.ctr ∧
    (setPart s n x).part.heldSigs = s.part.heldSigs ∧
    (setPart s n x).part.stopDue = s.part.stopDue := by
  and_intros <;> rfl

@[simp] theorem setTdi_frame (s : State) (n : Nat) (x : TdiSt) :
    (setTdi s n x).boot = s.boot ∧ (setTdi s n x).tarn = s.tarn ∧ (setTdi s n x).fuse = s.fuse ∧
    (setTdi s n x).keys = s.keys ∧ (setTdi s n x).alarm = s.alarm ∧ (setTdi s n x).cmd = s.cmd ∧
    (setTdi s n x).mem = s.mem ∧ (setTdi s n x).ridge = s.ridge ∧ (setTdi s n x).rmt = s.rmt ∧
    (setTdi s n x).fold = s.fold ∧ (setTdi s n x).range = s.range ∧ (setTdi s n x).iron = s.iron ∧
    (setTdi s n x).wb = s.wb ∧ (setTdi s n x).tel = s.tel ∧ (setTdi s n x).spdm = s.spdm ∧
    (setTdi s n x).pending = s.pending ∧ (setTdi s n x).out = s.out ∧ (setTdi s n x).part.parts = s.part.parts ∧
    (setTdi s n x).part.gens = s.part.gens ∧ (setTdi s n x).part.genAt = s.part.genAt ∧
    (setTdi s n x).part.genWait = s.part.genWait ∧ (setTdi s n x).part.mepochNext = s.part.mepochNext ∧
    (setTdi s n x).part.peers = s.part.peers ∧ (setTdi s n x).part.ctxs = s.part.ctxs ∧
    (setTdi s n x).part.fences = s.part.fences ∧ (setTdi s n x).part.kills = s.part.kills ∧
    (setTdi s n x).part.tears = s.part.tears ∧ (setTdi s n x).part.dma = s.part.dma ∧
    (setTdi s n x).part.asg = s.part.asg ∧ (setTdi s n x).part.ide = s.part.ide ∧
    (setTdi s n x).part.scrubbed = s.part.scrubbed ∧ (setTdi s n x).part.scrubSeq = s.part.scrubSeq ∧
    (setTdi s n x).part.scrubAt = s.part.scrubAt ∧ (setTdi s n x).part.tileReset = s.part.tileReset ∧
    (setTdi s n x).part.ctr = s.part.ctr ∧
    (setTdi s n x).part.heldSigs = s.part.heldSigs ∧
    (setTdi s n x).part.stopDue = s.part.stopDue := by
  and_intros <;> rfl

@[simp] theorem setCtx_frame (s : State) (n : Nat) (x : Ctx) :
    (setCtx s n x).boot = s.boot ∧ (setCtx s n x).tarn = s.tarn ∧ (setCtx s n x).fuse = s.fuse ∧
    (setCtx s n x).keys = s.keys ∧ (setCtx s n x).alarm = s.alarm ∧ (setCtx s n x).cmd = s.cmd ∧
    (setCtx s n x).mem = s.mem ∧ (setCtx s n x).ridge = s.ridge ∧ (setCtx s n x).rmt = s.rmt ∧
    (setCtx s n x).fold = s.fold ∧ (setCtx s n x).range = s.range ∧ (setCtx s n x).iron = s.iron ∧
    (setCtx s n x).wb = s.wb ∧ (setCtx s n x).tel = s.tel ∧ (setCtx s n x).spdm = s.spdm ∧
    (setCtx s n x).pending = s.pending ∧ (setCtx s n x).out = s.out ∧ (setCtx s n x).part.parts = s.part.parts ∧
    (setCtx s n x).part.gens = s.part.gens ∧ (setCtx s n x).part.genAt = s.part.genAt ∧
    (setCtx s n x).part.genWait = s.part.genWait ∧ (setCtx s n x).part.mepochNext = s.part.mepochNext ∧
    (setCtx s n x).part.peers = s.part.peers ∧ (setCtx s n x).part.fences = s.part.fences ∧
    (setCtx s n x).part.kills = s.part.kills ∧ (setCtx s n x).part.tears = s.part.tears ∧
    (setCtx s n x).part.dma = s.part.dma ∧ (setCtx s n x).part.asg = s.part.asg ∧
    (setCtx s n x).part.tdi = s.part.tdi ∧ (setCtx s n x).part.ide = s.part.ide ∧
    (setCtx s n x).part.scrubbed = s.part.scrubbed ∧ (setCtx s n x).part.scrubSeq = s.part.scrubSeq ∧
    (setCtx s n x).part.scrubAt = s.part.scrubAt ∧ (setCtx s n x).part.tileReset = s.part.tileReset ∧
    (setCtx s n x).part.ctr = s.part.ctr ∧
    (setCtx s n x).part.heldSigs = s.part.heldSigs ∧
    (setCtx s n x).part.stopDue = s.part.stopDue := by
  and_intros <;> rfl

@[simp] theorem setFence_frame (s : State) (n : Nat) (x : Fence) :
    (setFence s n x).boot = s.boot ∧ (setFence s n x).tarn = s.tarn ∧ (setFence s n x).fuse = s.fuse ∧
    (setFence s n x).keys = s.keys ∧ (setFence s n x).alarm = s.alarm ∧ (setFence s n x).cmd = s.cmd ∧
    (setFence s n x).mem = s.mem ∧ (setFence s n x).ridge = s.ridge ∧ (setFence s n x).rmt = s.rmt ∧
    (setFence s n x).fold = s.fold ∧ (setFence s n x).range = s.range ∧ (setFence s n x).iron = s.iron ∧
    (setFence s n x).wb = s.wb ∧ (setFence s n x).tel = s.tel ∧ (setFence s n x).spdm = s.spdm ∧
    (setFence s n x).pending = s.pending ∧ (setFence s n x).out = s.out ∧
    (setFence s n x).part.parts = s.part.parts ∧ (setFence s n x).part.gens = s.part.gens ∧
    (setFence s n x).part.genAt = s.part.genAt ∧ (setFence s n x).part.genWait = s.part.genWait ∧
    (setFence s n x).part.mepochNext = s.part.mepochNext ∧ (setFence s n x).part.peers = s.part.peers ∧
    (setFence s n x).part.ctxs = s.part.ctxs ∧ (setFence s n x).part.kills = s.part.kills ∧
    (setFence s n x).part.tears = s.part.tears ∧ (setFence s n x).part.dma = s.part.dma ∧
    (setFence s n x).part.asg = s.part.asg ∧ (setFence s n x).part.tdi = s.part.tdi ∧
    (setFence s n x).part.ide = s.part.ide ∧ (setFence s n x).part.scrubbed = s.part.scrubbed ∧
    (setFence s n x).part.scrubSeq = s.part.scrubSeq ∧ (setFence s n x).part.scrubAt = s.part.scrubAt ∧
    (setFence s n x).part.tileReset = s.part.tileReset ∧ (setFence s n x).part.ctr = s.part.ctr ∧
    (setFence s n x).part.heldSigs = s.part.heldSigs ∧
    (setFence s n x).part.stopDue = s.part.stopDue := by
  and_intros <;> rfl

@[simp] theorem setPeer_frame (s : State) (m n : Nat) (x : Peer) :
    (setPeer s m n x).boot = s.boot ∧ (setPeer s m n x).tarn = s.tarn ∧ (setPeer s m n x).fuse = s.fuse ∧
    (setPeer s m n x).keys = s.keys ∧ (setPeer s m n x).alarm = s.alarm ∧ (setPeer s m n x).cmd = s.cmd ∧
    (setPeer s m n x).mem = s.mem ∧ (setPeer s m n x).ridge = s.ridge ∧ (setPeer s m n x).rmt = s.rmt ∧
    (setPeer s m n x).fold = s.fold ∧ (setPeer s m n x).range = s.range ∧ (setPeer s m n x).iron = s.iron ∧
    (setPeer s m n x).wb = s.wb ∧ (setPeer s m n x).tel = s.tel ∧ (setPeer s m n x).spdm = s.spdm ∧
    (setPeer s m n x).pending = s.pending ∧ (setPeer s m n x).out = s.out ∧
    (setPeer s m n x).part.parts = s.part.parts ∧ (setPeer s m n x).part.gens = s.part.gens ∧
    (setPeer s m n x).part.genAt = s.part.genAt ∧ (setPeer s m n x).part.genWait = s.part.genWait ∧
    (setPeer s m n x).part.mepochNext = s.part.mepochNext ∧ (setPeer s m n x).part.ctxs = s.part.ctxs ∧
    (setPeer s m n x).part.fences = s.part.fences ∧ (setPeer s m n x).part.kills = s.part.kills ∧
    (setPeer s m n x).part.tears = s.part.tears ∧ (setPeer s m n x).part.dma = s.part.dma ∧
    (setPeer s m n x).part.asg = s.part.asg ∧ (setPeer s m n x).part.tdi = s.part.tdi ∧
    (setPeer s m n x).part.ide = s.part.ide ∧ (setPeer s m n x).part.scrubbed = s.part.scrubbed ∧
    (setPeer s m n x).part.scrubSeq = s.part.scrubSeq ∧ (setPeer s m n x).part.scrubAt = s.part.scrubAt ∧
    (setPeer s m n x).part.tileReset = s.part.tileReset ∧ (setPeer s m n x).part.ctr = s.part.ctr ∧
    (setPeer s m n x).part.heldSigs = s.part.heldSigs ∧
    (setPeer s m n x).part.stopDue = s.part.stopDue := by
  and_intros <;> rfl

@[simp] theorem partCtr_frame (s : State) (f : PartCtr → PartCtr) :
    (partCtr s f).boot = s.boot ∧ (partCtr s f).tarn = s.tarn ∧ (partCtr s f).fuse = s.fuse ∧
    (partCtr s f).keys = s.keys ∧ (partCtr s f).alarm = s.alarm ∧ (partCtr s f).cmd = s.cmd ∧
    (partCtr s f).mem = s.mem ∧ (partCtr s f).ridge = s.ridge ∧ (partCtr s f).rmt = s.rmt ∧
    (partCtr s f).fold = s.fold ∧ (partCtr s f).range = s.range ∧ (partCtr s f).iron = s.iron ∧
    (partCtr s f).wb = s.wb ∧ (partCtr s f).tel = s.tel ∧ (partCtr s f).spdm = s.spdm ∧
    (partCtr s f).pending = s.pending ∧ (partCtr s f).out = s.out ∧ (partCtr s f).part.parts = s.part.parts ∧
    (partCtr s f).part.gens = s.part.gens ∧ (partCtr s f).part.genAt = s.part.genAt ∧
    (partCtr s f).part.genWait = s.part.genWait ∧ (partCtr s f).part.mepochNext = s.part.mepochNext ∧
    (partCtr s f).part.peers = s.part.peers ∧ (partCtr s f).part.ctxs = s.part.ctxs ∧
    (partCtr s f).part.fences = s.part.fences ∧ (partCtr s f).part.kills = s.part.kills ∧
    (partCtr s f).part.tears = s.part.tears ∧ (partCtr s f).part.dma = s.part.dma ∧
    (partCtr s f).part.asg = s.part.asg ∧ (partCtr s f).part.tdi = s.part.tdi ∧
    (partCtr s f).part.ide = s.part.ide ∧ (partCtr s f).part.scrubbed = s.part.scrubbed ∧
    (partCtr s f).part.scrubSeq = s.part.scrubSeq ∧ (partCtr s f).part.scrubAt = s.part.scrubAt ∧
    (partCtr s f).part.tileReset = s.part.tileReset ∧
    (partCtr s f).part.heldSigs = s.part.heldSigs ∧
    (partCtr s f).part.stopDue = s.part.stopDue := by
  and_intros <;> rfl

@[simp] theorem setPot_frame (s : State) (n : Nat) (x : Pot) :
    (setPot s n x).boot = s.boot ∧ (setPot s n x).tarn = s.tarn ∧ (setPot s n x).fuse = s.fuse ∧
    (setPot s n x).keys = s.keys ∧ (setPot s n x).alarm = s.alarm ∧ (setPot s n x).cmd = s.cmd ∧
    (setPot s n x).part = s.part ∧ (setPot s n x).ridge = s.ridge ∧ (setPot s n x).rmt = s.rmt ∧
    (setPot s n x).fold = s.fold ∧ (setPot s n x).range = s.range ∧ (setPot s n x).iron = s.iron ∧
    (setPot s n x).wb = s.wb ∧ (setPot s n x).tel = s.tel ∧ (setPot s n x).spdm = s.spdm ∧
    (setPot s n x).pending = s.pending ∧ (setPot s n x).out = s.out ∧ (setPot s n x).mem.potBase = s.mem.potBase ∧
    (setPot s n x).mem.potSet = s.mem.potSet ∧ (setPot s n x).mem.descBase = s.mem.descBase ∧
    (setPot s n x).mem.descSet = s.mem.descSet ∧ (setPot s n x).mem.potLive = s.mem.potLive ∧
    (setPot s n x).mem.initRun = s.mem.initRun ∧ (setPot s n x).mem.changes = s.mem.changes ∧
    (setPot s n x).mem.potBad = s.mem.potBad ∧ (setPot s n x).mem.mx = s.mem.mx ∧
    (setPot s n x).mem.roots = s.mem.roots ∧
    (setPot s n x).mem.badGran = s.mem.badGran ∧ (setPot s n x).mem.keys = s.mem.keys ∧
    (setPot s n x).mem.muted = s.mem.muted ∧ (setPot s n x).mem.tickets = s.mem.tickets ∧
    (setPot s n x).mem.nextTkt = s.mem.nextTkt ∧ (setPot s n x).mem.rinseKey = s.mem.rinseKey ∧
    (setPot s n x).mem.nextRid = s.mem.nextRid ∧
    (setPot s n x).mem.tree = s.mem.tree ∧
    (setPot s n x).mem.ikey = s.mem.ikey ∧
    (setPot s n x).mem.doneDue = s.mem.doneDue := by
  and_intros <;> rfl

@[simp] theorem setMx_frame (s : State) (n : Nat) (x : Mx) :
    (setMx s n x).boot = s.boot ∧ (setMx s n x).tarn = s.tarn ∧ (setMx s n x).fuse = s.fuse ∧
    (setMx s n x).keys = s.keys ∧ (setMx s n x).alarm = s.alarm ∧ (setMx s n x).cmd = s.cmd ∧
    (setMx s n x).part = s.part ∧ (setMx s n x).ridge = s.ridge ∧ (setMx s n x).rmt = s.rmt ∧
    (setMx s n x).fold = s.fold ∧ (setMx s n x).range = s.range ∧ (setMx s n x).iron = s.iron ∧
    (setMx s n x).wb = s.wb ∧ (setMx s n x).tel = s.tel ∧ (setMx s n x).spdm = s.spdm ∧
    (setMx s n x).pending = s.pending ∧ (setMx s n x).out = s.out ∧ (setMx s n x).mem.pot = s.mem.pot ∧
    (setMx s n x).mem.potBase = s.mem.potBase ∧ (setMx s n x).mem.potSet = s.mem.potSet ∧
    (setMx s n x).mem.descBase = s.mem.descBase ∧ (setMx s n x).mem.descSet = s.mem.descSet ∧
    (setMx s n x).mem.potLive = s.mem.potLive ∧ (setMx s n x).mem.initRun = s.mem.initRun ∧
    (setMx s n x).mem.changes = s.mem.changes ∧ (setMx s n x).mem.potBad = s.mem.potBad ∧
    (setMx s n x).mem.roots = s.mem.roots ∧
    (setMx s n x).mem.badGran = s.mem.badGran ∧ (setMx s n x).mem.keys = s.mem.keys ∧
    (setMx s n x).mem.muted = s.mem.muted ∧ (setMx s n x).mem.tickets = s.mem.tickets ∧
    (setMx s n x).mem.nextTkt = s.mem.nextTkt ∧ (setMx s n x).mem.rinseKey = s.mem.rinseKey ∧
    (setMx s n x).mem.nextRid = s.mem.nextRid ∧
    (setMx s n x).mem.tree = s.mem.tree ∧
    (setMx s n x).mem.ikey = s.mem.ikey ∧
    (setMx s n x).mem.doneDue = s.mem.doneDue := by
  and_intros <;> rfl

@[simp] theorem mxCtr_frame (s : State) (n : Nat) (f : MxCtr → MxCtr) :
    (mxCtr s n f).boot = s.boot ∧ (mxCtr s n f).tarn = s.tarn ∧ (mxCtr s n f).fuse = s.fuse ∧
    (mxCtr s n f).keys = s.keys ∧ (mxCtr s n f).alarm = s.alarm ∧ (mxCtr s n f).cmd = s.cmd ∧
    (mxCtr s n f).part = s.part ∧ (mxCtr s n f).ridge = s.ridge ∧ (mxCtr s n f).rmt = s.rmt ∧
    (mxCtr s n f).fold = s.fold ∧ (mxCtr s n f).range = s.range ∧ (mxCtr s n f).iron = s.iron ∧
    (mxCtr s n f).wb = s.wb ∧ (mxCtr s n f).tel = s.tel ∧ (mxCtr s n f).spdm = s.spdm ∧
    (mxCtr s n f).pending = s.pending ∧ (mxCtr s n f).out = s.out ∧ (mxCtr s n f).mem.pot = s.mem.pot ∧
    (mxCtr s n f).mem.potBase = s.mem.potBase ∧ (mxCtr s n f).mem.potSet = s.mem.potSet ∧
    (mxCtr s n f).mem.descBase = s.mem.descBase ∧ (mxCtr s n f).mem.descSet = s.mem.descSet ∧
    (mxCtr s n f).mem.potLive = s.mem.potLive ∧ (mxCtr s n f).mem.initRun = s.mem.initRun ∧
    (mxCtr s n f).mem.changes = s.mem.changes ∧ (mxCtr s n f).mem.potBad = s.mem.potBad ∧
    (mxCtr s n f).mem.roots = s.mem.roots ∧
    (mxCtr s n f).mem.badGran = s.mem.badGran ∧ (mxCtr s n f).mem.keys = s.mem.keys ∧
    (mxCtr s n f).mem.muted = s.mem.muted ∧ (mxCtr s n f).mem.tickets = s.mem.tickets ∧
    (mxCtr s n f).mem.nextTkt = s.mem.nextTkt ∧ (mxCtr s n f).mem.rinseKey = s.mem.rinseKey ∧
    (mxCtr s n f).mem.nextRid = s.mem.nextRid ∧
    (mxCtr s n f).mem.tree = s.mem.tree ∧
    (mxCtr s n f).mem.ikey = s.mem.ikey ∧
    (mxCtr s n f).mem.doneDue = s.mem.doneDue := by
  and_intros <;> rfl

@[simp] theorem setLink_frame (s : State) (n : Nat) (x : Link) :
    (setLink s n x).boot = s.boot ∧ (setLink s n x).tarn = s.tarn ∧ (setLink s n x).fuse = s.fuse ∧
    (setLink s n x).keys = s.keys ∧ (setLink s n x).alarm = s.alarm ∧ (setLink s n x).cmd = s.cmd ∧
    (setLink s n x).part = s.part ∧ (setLink s n x).mem = s.mem ∧ (setLink s n x).rmt = s.rmt ∧
    (setLink s n x).fold = s.fold ∧ (setLink s n x).range = s.range ∧ (setLink s n x).iron = s.iron ∧
    (setLink s n x).wb = s.wb ∧ (setLink s n x).tel = s.tel ∧ (setLink s n x).spdm = s.spdm ∧
    (setLink s n x).pending = s.pending ∧ (setLink s n x).out = s.out ∧
    (setLink s n x).ridge.streams = s.ridge.streams ∧ (setLink s n x).ridge.router = s.ridge.router ∧
    (setLink s n x).ridge.outq = s.ridge.outq ∧ (setLink s n x).ridge.ingress = s.ridge.ingress ∧
    (setLink s n x).ridge.ingressNum = s.ridge.ingressNum ∧ (setLink s n x).ridge.parts = s.ridge.parts ∧
    (setLink s n x).ridge.txSample = s.ridge.txSample ∧
    (setLink s n x).ridge.rrMaster = s.ridge.rrMaster ∧
    (setLink s n x).ridge.rrPort = s.ridge.rrPort := by
  and_intros <;> rfl

@[simp] theorem linkCtr_frame (s : State) (n : Nat) (f : LinkCtr → LinkCtr) :
    (linkCtr s n f).boot = s.boot ∧ (linkCtr s n f).tarn = s.tarn ∧ (linkCtr s n f).fuse = s.fuse ∧
    (linkCtr s n f).keys = s.keys ∧ (linkCtr s n f).alarm = s.alarm ∧ (linkCtr s n f).cmd = s.cmd ∧
    (linkCtr s n f).part = s.part ∧ (linkCtr s n f).mem = s.mem ∧ (linkCtr s n f).rmt = s.rmt ∧
    (linkCtr s n f).fold = s.fold ∧ (linkCtr s n f).range = s.range ∧ (linkCtr s n f).iron = s.iron ∧
    (linkCtr s n f).wb = s.wb ∧ (linkCtr s n f).tel = s.tel ∧ (linkCtr s n f).spdm = s.spdm ∧
    (linkCtr s n f).pending = s.pending ∧ (linkCtr s n f).out = s.out ∧
    (linkCtr s n f).ridge.streams = s.ridge.streams ∧ (linkCtr s n f).ridge.router = s.ridge.router ∧
    (linkCtr s n f).ridge.outq = s.ridge.outq ∧ (linkCtr s n f).ridge.ingress = s.ridge.ingress ∧
    (linkCtr s n f).ridge.ingressNum = s.ridge.ingressNum ∧ (linkCtr s n f).ridge.parts = s.ridge.parts ∧
    (linkCtr s n f).ridge.txSample = s.ridge.txSample ∧
    (linkCtr s n f).ridge.rrMaster = s.ridge.rrMaster ∧
    (linkCtr s n f).ridge.rrPort = s.ridge.rrPort := by
  and_intros <;> rfl

@[simp] theorem rmtCtr_frame (s : State) (f : RmtCtr → RmtCtr) :
    (rmtCtr s f).boot = s.boot ∧ (rmtCtr s f).tarn = s.tarn ∧ (rmtCtr s f).fuse = s.fuse ∧
    (rmtCtr s f).keys = s.keys ∧ (rmtCtr s f).alarm = s.alarm ∧ (rmtCtr s f).cmd = s.cmd ∧
    (rmtCtr s f).part = s.part ∧ (rmtCtr s f).mem = s.mem ∧ (rmtCtr s f).ridge = s.ridge ∧
    (rmtCtr s f).fold = s.fold ∧ (rmtCtr s f).range = s.range ∧ (rmtCtr s f).iron = s.iron ∧
    (rmtCtr s f).wb = s.wb ∧ (rmtCtr s f).tel = s.tel ∧ (rmtCtr s f).spdm = s.spdm ∧
    (rmtCtr s f).pending = s.pending ∧ (rmtCtr s f).out = s.out ∧ (rmtCtr s f).rmt.loads = s.rmt.loads ∧
    (rmtCtr s f).rmt.bulk = s.rmt.bulk ∧ (rmtCtr s f).rmt.atomics = s.rmt.atomics ∧
    (rmtCtr s f).rmt.streams = s.rmt.streams ∧ (rmtCtr s f).rmt.releases = s.rmt.releases ∧
    (rmtCtr s f).rmt.acquires = s.rmt.acquires ∧ (rmtCtr s f).rmt.nextTag = s.rmt.nextTag ∧
    (rmtCtr s f).rmt.nextId = s.rmt.nextId ∧ (rmtCtr s f).rmt.nextSeam = s.rmt.nextSeam ∧
    (rmtCtr s f).rmt.own = s.rmt.own ∧ (rmtCtr s f).rmt.owned = s.rmt.owned ∧
    (rmtCtr s f).rmt.disowned = s.rmt.disowned ∧
    (rmtCtr s f).rmt.held = s.rmt.held ∧
    (rmtCtr s f).rmt.frees = s.rmt.frees := by
  and_intros <;> rfl

@[simp] theorem setSlot_frame (s : State) (n : Nat) (x : Slot) :
    (setSlot s n x).boot = s.boot ∧ (setSlot s n x).tarn = s.tarn ∧ (setSlot s n x).fuse = s.fuse ∧
    (setSlot s n x).alarm = s.alarm ∧ (setSlot s n x).cmd = s.cmd ∧ (setSlot s n x).part = s.part ∧
    (setSlot s n x).mem = s.mem ∧ (setSlot s n x).ridge = s.ridge ∧ (setSlot s n x).rmt = s.rmt ∧
    (setSlot s n x).fold = s.fold ∧ (setSlot s n x).range = s.range ∧ (setSlot s n x).iron = s.iron ∧
    (setSlot s n x).wb = s.wb ∧ (setSlot s n x).tel = s.tel ∧ (setSlot s n x).spdm = s.spdm ∧
    (setSlot s n x).pending = s.pending ∧ (setSlot s n x).out = s.out ∧
    (setSlot s n x).keys.chkKey = s.keys.chkKey ∧ (setSlot s n x).keys.zeroised = s.keys.zeroised ∧
    (setSlot s n x).keys.parts = s.keys.parts ∧ (setSlot s n x).keys.badCnt = s.keys.badCnt ∧
    (setSlot s n x).keys.entFailed = s.keys.entFailed ∧ (setSlot s n x).keys.entHealthy = s.keys.entHealthy ∧
    (setSlot s n x).keys.drbgSeeded = s.keys.drbgSeeded ∧ (setSlot s n x).keys.entConsec = s.keys.entConsec ∧
    (setSlot s n x).keys.entFailCnt = s.keys.entFailCnt ∧ (setSlot s n x).keys.drbgReseeds = s.keys.drbgReseeds ∧
    (setSlot s n x).keys.drbgGen = s.keys.drbgGen ∧ (setSlot s n x).keys.drbgSeedAt = s.keys.drbgSeedAt ∧
    (setSlot s n x).keys.draws = s.keys.draws ∧ (setSlot s n x).keys.chal = s.keys.chal ∧
    (setSlot s n x).keys.dbg = s.keys.dbg ∧ (setSlot s n x).keys.dbgEver = s.keys.dbgEver ∧
    (setSlot s n x).keys.dbgDeny = s.keys.dbgDeny ∧ (setSlot s n x).keys.checkAt = s.keys.checkAt ∧
    (setSlot s n x).keys.drbg = s.keys.drbg ∧
    (setSlot s n x).keys.entRun = s.keys.entRun ∧
    (setSlot s n x).keys.failing = s.keys.failing ∧
    (setSlot s n x).keys.seeds = s.keys.seeds := by
  and_intros <;> rfl

@[simp] theorem telAdd_frame (s : State) (m n k : Nat) :
    (telAdd s m n k).boot = s.boot ∧ (telAdd s m n k).tarn = s.tarn ∧ (telAdd s m n k).fuse = s.fuse ∧
    (telAdd s m n k).keys = s.keys ∧ (telAdd s m n k).alarm = s.alarm ∧ (telAdd s m n k).cmd = s.cmd ∧
    (telAdd s m n k).part = s.part ∧ (telAdd s m n k).mem = s.mem ∧ (telAdd s m n k).ridge = s.ridge ∧
    (telAdd s m n k).rmt = s.rmt ∧ (telAdd s m n k).fold = s.fold ∧ (telAdd s m n k).range = s.range ∧
    (telAdd s m n k).iron = s.iron ∧ (telAdd s m n k).wb = s.wb ∧ (telAdd s m n k).spdm = s.spdm ∧
    (telAdd s m n k).pending = s.pending ∧ (telAdd s m n k).out = s.out ∧
    (telAdd s m n k).tel.latched = s.tel.latched ∧ (telAdd s m n k).tel.latchNo = s.tel.latchNo ∧
    (telAdd s m n k).tel.latchAt = s.tel.latchAt ∧ (telAdd s m n k).tel.sel = s.tel.sel ∧
    (telAdd s m n k).tel.power = s.tel.power ∧ (telAdd s m n k).tel.window = s.tel.window ∧
    (telAdd s m n k).tel.rinsePages = s.tel.rinsePages ∧ (telAdd s m n k).tel.tileScrubs = s.tel.tileScrubs ∧
    (telAdd s m n k).tel.since = s.tel.since := by
  and_intros <;> rfl

@[simp] theorem emit_frame (s : State) (o : Out) :
    (emit s o).boot = s.boot ∧ (emit s o).tarn = s.tarn ∧ (emit s o).fuse = s.fuse ∧ (emit s o).keys = s.keys ∧
    (emit s o).alarm = s.alarm ∧ (emit s o).cmd = s.cmd ∧ (emit s o).part = s.part ∧ (emit s o).mem = s.mem ∧
    (emit s o).ridge = s.ridge ∧ (emit s o).rmt = s.rmt ∧ (emit s o).fold = s.fold ∧ (emit s o).range = s.range ∧
    (emit s o).iron = s.iron ∧ (emit s o).wb = s.wb ∧ (emit s o).tel = s.tel ∧ (emit s o).spdm = s.spdm ∧
    (emit s o).pending = s.pending := by
  and_intros <;> rfl

/-! ## What the accessors read after the updates -/

theorem ring_setRing (s : State) (i j : Nat) (x : Ring) :
    ring (setRing s i x) j = if j = i then x else ring s j := tget_tset ..

@[simp] theorem ring_setRing_same (s : State) (i : Nat) (x : Ring) : ring (setRing s i x) i = x := tget_tset_same ..

theorem evt_setEvt (s : State) (i j : Nat) (x : Evt) :
    evt (setEvt s i x) j = if j = i then x else evt s j := tget_tset ..

@[simp] theorem evt_setEvt_same (s : State) (i : Nat) (x : Evt) : evt (setEvt s i x) i = x := tget_tset_same ..

theorem part_setPart (s : State) (i j : Nat) (x : Part) :
    part (setPart s i x) j = if j = i then x else part s j := tget_tset ..

@[simp] theorem part_setPart_same (s : State) (i : Nat) (x : Part) : part (setPart s i x) i = x := tget_tset_same ..

theorem tdi_setTdi (s : State) (i j : Nat) (x : TdiSt) :
    tdi (setTdi s i x) j = if j = i then x else tdi s j := tget_tset ..

@[simp] theorem tdi_setTdi_same (s : State) (i : Nat) (x : TdiSt) : tdi (setTdi s i x) i = x := tget_tset_same ..

theorem ctx_setCtx (s : State) (i j : Nat) (x : Ctx) :
    ctx (setCtx s i x) j = if j = i then x else ctx s j := tget_tset ..

@[simp] theorem ctx_setCtx_same (s : State) (i : Nat) (x : Ctx) : ctx (setCtx s i x) i = x := tget_tset_same ..

theorem fence_setFence (s : State) (i j : Nat) (x : Fence) :
    fence (setFence s i x) j = if j = i then x else fence s j := tget_tset ..

@[simp] theorem fence_setFence_same (s : State) (i : Nat) (x : Fence) : fence (setFence s i x) i = x := tget_tset_same ..

theorem pot_setPot (s : State) (i j : Nat) (x : Pot) :
    pot (setPot s i x) j = if j = i then x else pot s j := tget_tset ..

@[simp] theorem pot_setPot_same (s : State) (i : Nat) (x : Pot) : pot (setPot s i x) i = x := tget_tset_same ..

theorem mx_setMx (s : State) (i j : Nat) (x : Mx) :
    mx (setMx s i x) j = if j = i then x else mx s j := tget_tset ..

@[simp] theorem mx_setMx_same (s : State) (i : Nat) (x : Mx) : mx (setMx s i x) i = x := tget_tset_same ..

theorem link_setLink (s : State) (i j : Nat) (x : Link) :
    link (setLink s i x) j = if j = i then x else link s j := tget_tset ..

@[simp] theorem link_setLink_same (s : State) (i : Nat) (x : Link) : link (setLink s i x) i = x := tget_tset_same ..

theorem slot_setSlot (s : State) (i j : Nat) (x : Slot) :
    slot (setSlot s i x) j = if j = i then x else slot s j := tget_tset ..

@[simp] theorem slot_setSlot_same (s : State) (i : Nat) (x : Slot) : slot (setSlot s i x) i = x := tget_tset_same ..

@[simp] theorem setRing_reads (s : State) (n : Nat) (x : Ring) (i : Nat) :
    evt (setRing s n x) i = evt s i ∧ part (setRing s n x) i = part s i ∧ tdi (setRing s n x) i = tdi s i ∧
    ctx (setRing s n x) i = ctx s i ∧ fence (setRing s n x) i = fence s i ∧ pot (setRing s n x) i = pot s i ∧
    mx (setRing s n x) i = mx s i ∧ link (setRing s n x) i = link s i ∧ slot (setRing s n x) i = slot s i ∧
    curGen (setRing s n x) i = curGen s i ∧ now (setRing s n x) = now s := by
  and_intros <;> rfl

@[simp] theorem setEvt_reads (s : State) (n : Nat) (x : Evt) (i : Nat) :
    ring (setEvt s n x) i = ring s i ∧ part (setEvt s n x) i = part s i ∧ tdi (setEvt s n x) i = tdi s i ∧
    ctx (setEvt s n x) i = ctx s i ∧ fence (setEvt s n x) i = fence s i ∧ pot (setEvt s n x) i = pot s i ∧
    mx (setEvt s n x) i = mx s i ∧ link (setEvt s n x) i = link s i ∧ slot (setEvt s n x) i = slot s i ∧
    curGen (setEvt s n x) i = curGen s i ∧ now (setEvt s n x) = now s := by
  and_intros <;> rfl

@[simp] theorem fillWindow_reads (s : State) (n : Nat) (x : Window) (i : Nat) :
    ring (fillWindow s n x) i = ring s i ∧ evt (fillWindow s n x) i = evt s i ∧
    part (fillWindow s n x) i = part s i ∧ tdi (fillWindow s n x) i = tdi s i ∧
    ctx (fillWindow s n x) i = ctx s i ∧ fence (fillWindow s n x) i = fence s i ∧
    pot (fillWindow s n x) i = pot s i ∧ mx (fillWindow s n x) i = mx s i ∧ link (fillWindow s n x) i = link s i ∧
    slot (fillWindow s n x) i = slot s i ∧ curGen (fillWindow s n x) i = curGen s i ∧ now (fillWindow s n x) = now s := by
  and_intros <;> rfl

@[simp] theorem setPart_reads (s : State) (n : Nat) (x : Part) (i : Nat) :
    ring (setPart s n x) i = ring s i ∧ evt (setPart s n x) i = evt s i ∧ tdi (setPart s n x) i = tdi s i ∧
    ctx (setPart s n x) i = ctx s i ∧ fence (setPart s n x) i = fence s i ∧ pot (setPart s n x) i = pot s i ∧
    mx (setPart s n x) i = mx s i ∧ link (setPart s n x) i = link s i ∧ slot (setPart s n x) i = slot s i ∧
    curGen (setPart s n x) i = curGen s i ∧ now (setPart s n x) = now s := by
  and_intros <;> rfl

@[simp] theorem setTdi_reads (s : State) (n : Nat) (x : TdiSt) (i : Nat) :
    ring (setTdi s n x) i = ring s i ∧ evt (setTdi s n x) i = evt s i ∧ part (setTdi s n x) i = part s i ∧
    ctx (setTdi s n x) i = ctx s i ∧ fence (setTdi s n x) i = fence s i ∧ pot (setTdi s n x) i = pot s i ∧
    mx (setTdi s n x) i = mx s i ∧ link (setTdi s n x) i = link s i ∧ slot (setTdi s n x) i = slot s i ∧
    curGen (setTdi s n x) i = curGen s i ∧ now (setTdi s n x) = now s := by
  and_intros <;> rfl

@[simp] theorem setCtx_reads (s : State) (n : Nat) (x : Ctx) (i : Nat) :
    ring (setCtx s n x) i = ring s i ∧ evt (setCtx s n x) i = evt s i ∧ part (setCtx s n x) i = part s i ∧
    tdi (setCtx s n x) i = tdi s i ∧ fence (setCtx s n x) i = fence s i ∧ pot (setCtx s n x) i = pot s i ∧
    mx (setCtx s n x) i = mx s i ∧ link (setCtx s n x) i = link s i ∧ slot (setCtx s n x) i = slot s i ∧
    curGen (setCtx s n x) i = curGen s i ∧ now (setCtx s n x) = now s := by
  and_intros <;> rfl

@[simp] theorem setFence_reads (s : State) (n : Nat) (x : Fence) (i : Nat) :
    ring (setFence s n x) i = ring s i ∧ evt (setFence s n x) i = evt s i ∧ part (setFence s n x) i = part s i ∧
    tdi (setFence s n x) i = tdi s i ∧ ctx (setFence s n x) i = ctx s i ∧ pot (setFence s n x) i = pot s i ∧
    mx (setFence s n x) i = mx s i ∧ link (setFence s n x) i = link s i ∧ slot (setFence s n x) i = slot s i ∧
    curGen (setFence s n x) i = curGen s i ∧ now (setFence s n x) = now s := by
  and_intros <;> rfl

@[simp] theorem setPeer_reads (s : State) (m n : Nat) (x : Peer) (i : Nat) :
    ring (setPeer s m n x) i = ring s i ∧ evt (setPeer s m n x) i = evt s i ∧ part (setPeer s m n x) i = part s i ∧
    tdi (setPeer s m n x) i = tdi s i ∧ ctx (setPeer s m n x) i = ctx s i ∧ fence (setPeer s m n x) i = fence s i ∧
    pot (setPeer s m n x) i = pot s i ∧ mx (setPeer s m n x) i = mx s i ∧ link (setPeer s m n x) i = link s i ∧
    slot (setPeer s m n x) i = slot s i ∧ curGen (setPeer s m n x) i = curGen s i ∧ now (setPeer s m n x) = now s := by
  and_intros <;> rfl

@[simp] theorem partCtr_reads (s : State) (f : PartCtr → PartCtr) (i : Nat) :
    ring (partCtr s f) i = ring s i ∧ evt (partCtr s f) i = evt s i ∧ part (partCtr s f) i = part s i ∧
    tdi (partCtr s f) i = tdi s i ∧ ctx (partCtr s f) i = ctx s i ∧ fence (partCtr s f) i = fence s i ∧
    pot (partCtr s f) i = pot s i ∧ mx (partCtr s f) i = mx s i ∧ link (partCtr s f) i = link s i ∧
    slot (partCtr s f) i = slot s i ∧ curGen (partCtr s f) i = curGen s i ∧ now (partCtr s f) = now s := by
  and_intros <;> rfl

@[simp] theorem setPot_reads (s : State) (n : Nat) (x : Pot) (i : Nat) :
    ring (setPot s n x) i = ring s i ∧ evt (setPot s n x) i = evt s i ∧ part (setPot s n x) i = part s i ∧
    tdi (setPot s n x) i = tdi s i ∧ ctx (setPot s n x) i = ctx s i ∧ fence (setPot s n x) i = fence s i ∧
    mx (setPot s n x) i = mx s i ∧ link (setPot s n x) i = link s i ∧ slot (setPot s n x) i = slot s i ∧
    curGen (setPot s n x) i = curGen s i ∧ now (setPot s n x) = now s := by
  and_intros <;> rfl

@[simp] theorem setMx_reads (s : State) (n : Nat) (x : Mx) (i : Nat) :
    ring (setMx s n x) i = ring s i ∧ evt (setMx s n x) i = evt s i ∧ part (setMx s n x) i = part s i ∧
    tdi (setMx s n x) i = tdi s i ∧ ctx (setMx s n x) i = ctx s i ∧ fence (setMx s n x) i = fence s i ∧
    pot (setMx s n x) i = pot s i ∧ link (setMx s n x) i = link s i ∧ slot (setMx s n x) i = slot s i ∧
    curGen (setMx s n x) i = curGen s i ∧ now (setMx s n x) = now s := by
  and_intros <;> rfl

@[simp] theorem mxCtr_reads (s : State) (n : Nat) (f : MxCtr → MxCtr) (i : Nat) :
    ring (mxCtr s n f) i = ring s i ∧ evt (mxCtr s n f) i = evt s i ∧ part (mxCtr s n f) i = part s i ∧
    tdi (mxCtr s n f) i = tdi s i ∧ ctx (mxCtr s n f) i = ctx s i ∧ fence (mxCtr s n f) i = fence s i ∧
    pot (mxCtr s n f) i = pot s i ∧ link (mxCtr s n f) i = link s i ∧ slot (mxCtr s n f) i = slot s i ∧
    curGen (mxCtr s n f) i = curGen s i ∧ now (mxCtr s n f) = now s := by
  and_intros <;> rfl

@[simp] theorem setLink_reads (s : State) (n : Nat) (x : Link) (i : Nat) :
    ring (setLink s n x) i = ring s i ∧ evt (setLink s n x) i = evt s i ∧ part (setLink s n x) i = part s i ∧
    tdi (setLink s n x) i = tdi s i ∧ ctx (setLink s n x) i = ctx s i ∧ fence (setLink s n x) i = fence s i ∧
    pot (setLink s n x) i = pot s i ∧ mx (setLink s n x) i = mx s i ∧ slot (setLink s n x) i = slot s i ∧
    curGen (setLink s n x) i = curGen s i ∧ now (setLink s n x) = now s := by
  and_intros <;> rfl

@[simp] theorem linkCtr_reads (s : State) (n : Nat) (f : LinkCtr → LinkCtr) (i : Nat) :
    ring (linkCtr s n f) i = ring s i ∧ evt (linkCtr s n f) i = evt s i ∧ part (linkCtr s n f) i = part s i ∧
    tdi (linkCtr s n f) i = tdi s i ∧ ctx (linkCtr s n f) i = ctx s i ∧ fence (linkCtr s n f) i = fence s i ∧
    pot (linkCtr s n f) i = pot s i ∧ mx (linkCtr s n f) i = mx s i ∧ slot (linkCtr s n f) i = slot s i ∧
    curGen (linkCtr s n f) i = curGen s i ∧ now (linkCtr s n f) = now s := by
  and_intros <;> rfl

@[simp] theorem rmtCtr_reads (s : State) (f : RmtCtr → RmtCtr) (i : Nat) :
    ring (rmtCtr s f) i = ring s i ∧ evt (rmtCtr s f) i = evt s i ∧ part (rmtCtr s f) i = part s i ∧
    tdi (rmtCtr s f) i = tdi s i ∧ ctx (rmtCtr s f) i = ctx s i ∧ fence (rmtCtr s f) i = fence s i ∧
    pot (rmtCtr s f) i = pot s i ∧ mx (rmtCtr s f) i = mx s i ∧ link (rmtCtr s f) i = link s i ∧
    slot (rmtCtr s f) i = slot s i ∧ curGen (rmtCtr s f) i = curGen s i ∧ now (rmtCtr s f) = now s := by
  and_intros <;> rfl

@[simp] theorem setSlot_reads (s : State) (n : Nat) (x : Slot) (i : Nat) :
    ring (setSlot s n x) i = ring s i ∧ evt (setSlot s n x) i = evt s i ∧ part (setSlot s n x) i = part s i ∧
    tdi (setSlot s n x) i = tdi s i ∧ ctx (setSlot s n x) i = ctx s i ∧ fence (setSlot s n x) i = fence s i ∧
    pot (setSlot s n x) i = pot s i ∧ mx (setSlot s n x) i = mx s i ∧ link (setSlot s n x) i = link s i ∧
    curGen (setSlot s n x) i = curGen s i ∧ now (setSlot s n x) = now s := by
  and_intros <;> rfl

@[simp] theorem telAdd_reads (s : State) (m n k : Nat) (i : Nat) :
    ring (telAdd s m n k) i = ring s i ∧ evt (telAdd s m n k) i = evt s i ∧ part (telAdd s m n k) i = part s i ∧
    tdi (telAdd s m n k) i = tdi s i ∧ ctx (telAdd s m n k) i = ctx s i ∧ fence (telAdd s m n k) i = fence s i ∧
    pot (telAdd s m n k) i = pot s i ∧ mx (telAdd s m n k) i = mx s i ∧ link (telAdd s m n k) i = link s i ∧
    slot (telAdd s m n k) i = slot s i ∧ curGen (telAdd s m n k) i = curGen s i ∧ now (telAdd s m n k) = now s := by
  and_intros <;> rfl

@[simp] theorem emit_reads (s : State) (o : Out) (i : Nat) :
    ring (emit s o) i = ring s i ∧ evt (emit s o) i = evt s i ∧ part (emit s o) i = part s i ∧
    tdi (emit s o) i = tdi s i ∧ ctx (emit s o) i = ctx s i ∧ fence (emit s o) i = fence s i ∧
    pot (emit s o) i = pot s i ∧ mx (emit s o) i = mx s i ∧ link (emit s o) i = link s i ∧
    slot (emit s o) i = slot s i ∧ curGen (emit s o) i = curGen s i ∧ now (emit s o) = now s := by
  and_intros <;> rfl

end Sys2Proof.Machine
end

