-- ==== Sys2Proof/Laws/Command.lean ====
section
/-! SUPPORT. The path of a command: what one that passes its checks comes to, and what a reply leaves as it was. -/

namespace Sys2Proof.Machine

/-- A command that passes every check before 9 comes to what its run comes to. -/
theorem issue_of_accepted {op : Op} {s : State} {c : Cmd} {k : State} {t : Ticket}
    (h : accepted op s c = some (k, t)) :
    issue op s c = conclude (readAll k (op.reads k t c.body c.mem) c.mem) t
      (op.run (readAll k (op.reads k t c.body c.mem) c.mem) t c.body c.mem) := by
  unfold accepted at h
  unfold issue
  cases hj : take s c.ring { opcode := op.opcode, form := op.form, body := c.body } with
  | none => simp [hj] at h
  | some j =>
    simp only [hj] at h
    simp only [receive]
    cases hs : seqCheck j.s j.t.ring c.body with
    | none => simp [hs] at h
    | some s1 =>
      simp only [hs] at h ⊢
      split at h
      · rename_i hc
        simp only [Bool.and_eq_true, beq_iff_eq] at hc
        obtain ⟨⟨⟨⟨⟨h1, h2⟩, h3⟩, h6⟩, h4⟩, h5⟩ := hc
        injection h with h
        injection h with ha hb
        subst ha hb
        rw [h1]
        simp only [startOrQueue, h2, if_true, runOp, h3, h4, h5, h6, Bool.and_self]
      · cases h

/-- The ticket of a taken entry. -/
theorem take_ticket {s : State} {n : Nat} {pk : Packet} {j : Taken} (h : take s n pk = some j) :
    j.t.ring = n ∧ j.t.opcode = pk.opcode ∧ j.t.form = pk.form ∧ j.t.seq = pk.body.seq ∧ j.t.ptag = pk.body.ptag := by
  unfold take at h
  split at h
  · split at h
    · injection h with h; subst h; exact ⟨rfl, rfl, rfl, rfl, rfl⟩
    · cases h
  · split at h
    · rename_i h32
      split at h
      · cases h
      · split at h
        · injection h with h; subst h; exact ⟨(eq_of_beq h32).symm, rfl, rfl, rfl, rfl⟩
        · cases h
    · split at h
      · rename_i h33
        split at h
        · injection h with h; subst h; exact ⟨(eq_of_beq h33).symm, rfl, rfl, rfl, rfl⟩
        · cases h
      · cases h

/-- What a command that passes its checks has passed, and its ticket. -/
theorem accepted_facts {op : Op} {s : State} {c : Cmd} {k : State} {t : Ticket} (h : accepted op s c = some (k, t)) :
    op.pre k t.ring c.body = none ∧ op.preMem k c.body c.mem = none ∧ lcPermit k op.opcode = true ∧
    op.lc k c.body = true ∧ (∃ s1 pre, k = begun op.fast s1 t ∧ check35 op s1 t.ring c.body pre = none) ∧
    t.ring = c.ring ∧ t.opcode = op.opcode ∧ t.form = op.form ∧ t.ptag = c.body.ptag := by
  unfold accepted at h
  split at h
  · cases h
  · rename_i j hj
    have ht := take_ticket hj
    split at h
    · cases h
    · rename_i s1 hs
      dsimp only at h
      split at h
      · rename_i hc
        simp only [Bool.and_eq_true, beq_iff_eq] at hc
        obtain ⟨⟨⟨⟨⟨h1, h2⟩, h3⟩, h6⟩, h4⟩, h5⟩ := hc
        injection h with h
        injection h with ha hb
        subst ha hb
        exact ⟨h3, h6, h4, h5, ⟨_, _, rfl, h1⟩, ht.1, ht.2.1, ht.2.2.1, ht.2.2.2.2⟩
      · cases h

/-! ## Charges -/

theorem charged.refl (s : State) : charged s s := ⟨rfl, rfl, fun _ => rfl⟩

theorem charged.trans {s t u : State} (h : charged s t) (k : charged t u) : charged s u := by
  obtain ⟨a, b, c⟩ := h
  obtain ⟨a', b', c'⟩ := k
  refine ⟨by rw [a', a], by rw [b', b], fun e => ?_⟩
  rw [c' e, c e]

theorem charged_telAdd (s : State) (pid i n : Nat) : charged s (telAdd s pid i n) := ⟨rfl, rfl, fun _ => rfl⟩

/-- An update of one engine's tokens and count of partial writes is a charge. -/
theorem charged_setMx (s : State) (e : Nat) (m : Mx)
    (h : m = { mx s e with tokens := m.tokens, ctr := { (mx s e).ctr with rmw := m.ctr.rmw } }) :
    charged s (setMx s e m) := by
  refine ⟨rfl, rfl, fun j => ?_⟩
  rw [mx_setMx]
  split
  · rename_i hj; subst hj; exact h
  · rfl

theorem charged_charge (s : State) (e client n : Nat) (rt : Bool) : charged s (charge s e client n rt) := by
  unfold charge
  dsimp only
  split
  · exact charged_setMx _ _ _ rfl
  · exact (charged_setMx _ _ _ rfl).trans (charged_telAdd ..)

theorem charged_rmw (s : State) (e n : Nat) :
    charged s (mxCtr s e fun c => { c with rmw := add32 c.rmw n }) := charged_setMx _ _ _ rfl

/-- `t` is `s` but for charges. -/
def OnlyCharges (s t : State) : Prop :=
  charged s t ∧ ∃ m x, t = { s with mem := { s.mem with mx := m }, tel := x }

theorem OnlyCharges.trans {s t u : State} (h : OnlyCharges s t) (k : OnlyCharges t u) : OnlyCharges s u := by
  obtain ⟨a, _, _, rfl⟩ := h
  obtain ⟨b, _, _, rfl⟩ := k
  exact ⟨a.trans b, _, _, rfl⟩

theorem OnlyCharges.foldl {α : Type} (f : State → α → State) (h : ∀ s a, OnlyCharges s (f s a)) (l : List α) (s : State) :
    OnlyCharges s (l.foldl f s) := by
  induction l generalizing s with
  | nil => exact ⟨.refl s, _, _, rfl⟩
  | cons a l ih => exact (h s a).trans (ih _)

theorem charge_only (s : State) (e client n : Nat) (rt : Bool) : OnlyCharges s (charge s e client n rt) := by
  refine ⟨charged_charge .., ?_⟩
  unfold charge; dsimp only; split <;> exact ⟨_, _, rfl⟩

theorem telAdd_only (s : State) (pid i n : Nat) : OnlyCharges s (telAdd s pid i n) := ⟨charged_telAdd .., _, _, rfl⟩

theorem passSectors_only (s : State) (e pid n k : Nat) (rt : Bool) : OnlyCharges s (passSectors s e pid n k rt) := by
  unfold passSectors; dsimp only
  have h := (charge_only s e pid (n + k) rt).trans (telAdd_only _ pid 0 n)
  split
  · exact h
  · exact (h.trans ⟨charged_rmw .., _, _, rfl⟩).trans (telAdd_only ..)

/-- An access of the block's own makes charges alone, and nothing leaves the block. -/
theorem passOwn_only (s : State) (pid off len : Nat) (write rt : Bool) :
    OnlyCharges s (passOwn s pid off len write rt) := by
  unfold passOwn; split
  · exact ⟨.refl s, _, _, rfl⟩
  · exact .foldl _ (fun _ _ => passSectors_only ..) _ s

/-- A TLP that leaves counts under its stream's key, and writes the trace. -/
theorem sendTlp_frame (s : State) (fn : Nat) (sub : Fin 3) (addr : Nat) (b : Bytes) :
    ∃ u o, sendTlp s fn sub addr b = { s with cmd := { s.cmd with ideUse := u }, out := o } := by
  unfold sendTlp
  split
  · exact ⟨_, _, rfl⟩
  · split <;> exact ⟨_, _, rfl⟩

/-- The fields that no event and no vector writes; of the engines and the telemetry, all but charges. -/
def sameButCmd (s t : State) : Prop :=
  t.boot = s.boot ∧ t.tarn = s.tarn ∧ t.fuse = s.fuse ∧ t.keys = s.keys ∧ t.alarm = s.alarm ∧ t.part = s.part ∧
  charged s t ∧ t.ridge = s.ridge ∧ t.rmt = s.rmt ∧ t.fold = s.fold ∧ t.range = s.range ∧ t.iron = s.iron ∧
  t.wb = s.wb ∧ t.spdm = s.spdm ∧ t.pending = s.pending

/-- So does one that differs in command state and the trace alone. -/
theorem sameButCmd.cmd (s : State) (c : CmdState) (o : List Out) : sameButCmd s { s with cmd := c, out := o } := by
  unfold sameButCmd
  and_intros
  all_goals first | rfl | exact fun _ => rfl

theorem sameButCmd.refl (s : State) : sameButCmd s s := .cmd s s.cmd s.out

theorem sameButCmd.trans {s t u : State} (h : sameButCmd s t) (k : sameButCmd t u) : sameButCmd s u := by
  unfold sameButCmd at *
  obtain ⟨a1, a2, a3, a4, a5, a6, a7, a8, a9, a10, a11, a12, a13, a14, a15⟩ := h
  obtain ⟨b1, b2, b3, b4, b5, b6, b7, b8, b9, b10, b11, b12, b13, b14, b15⟩ := k
  exact ⟨b1.trans a1, b2.trans a2, b3.trans a3, b4.trans a4, b5.trans a5, b6.trans a6, a7.trans b7, b8.trans a8,
    b9.trans a9, b10.trans a10, b11.trans a11, b12.trans a12, b13.trans a13, b14.trans a14, b15.trans a15⟩

theorem sendTlp_same (s : State) (fn : Nat) (sub : Fin 3) (addr : Nat) (b : Bytes) :
    sameButCmd s (sendTlp s fn sub addr b) := by
  obtain ⟨u, o, h⟩ := sendTlp_frame s fn sub addr b
  rw [h]; exact .cmd ..

theorem passOwn_same (s : State) (pid off len : Nat) (write rt : Bool) :
    sameButCmd s (passOwn s pid off len write rt) := by
  obtain ⟨hc, m, x, h⟩ := passOwn_only s pid off len write rt
  unfold sameButCmd
  refine ⟨?_, ?_, ?_, ?_, ?_, ?_, hc, ?_, ?_, ?_, ?_, ?_, ?_, ?_, ?_⟩ <;> rw [h]

/-- Bytes written to a ring's area make charges, or leave in a TLP. -/
theorem ringWrite_same (s : State) (n : Nat) (host : Bool) (addr : Nat) (b : Bytes) :
    sameButCmd s (ringWrite s n host addr b) := by
  unfold ringWrite; split
  · exact sendTlp_same ..
  · exact passOwn_same ..

/-- Raising a vector writes command state and the trace alone. -/
theorem raiseVec_same (s : State) (fn vec : Nat) : sameButCmd s (raiseVec s fn vec) := by
  unfold raiseVec sendVec; dsimp only; split
  · exact ((sameButCmd.cmd ..).trans (sendTlp_same ..)).trans (.cmd ..)
  · exact .cmd ..

/-- So does an event entry, but for the charges of its write. -/
theorem putEvent_same (s : State) (fn : Nat) (w : BitVec 128) : sameButCmd s (putEvent s fn w) := by
  unfold putEvent; dsimp only; split
  · exact ((sameButCmd.cmd ..).trans (ringWrite_same ..)).trans (.cmd ..)
  · exact .cmd ..

/-- So does an event with its vector. -/
theorem postEvent_same (s : State) (fn : Nat) (w : BitVec 128) : sameButCmd s (postEvent s fn w) := by
  unfold postEvent; dsimp only; split
  · exact (putEvent_same s fn w).trans (raiseVec_same ..)
  · exact putEvent_same s fn w

/-- So does a fence event. -/
theorem postFence_same (s : State) (fn vec : Nat) (irq : Bool) (w : BitVec 128) :
    sameButCmd s (postFence s fn vec irq w) := by
  unfold postFence; dsimp only; split
  · exact (putEvent_same s fn w).trans (raiseVec_same ..)
  · exact putEvent_same s fn w

/-- So does an event on the operator's ring. -/
theorem postOperator_same (s : State) (pid type : Nat) (b0 : BitVec 32) (b8 b15 : Nat) :
    sameButCmd s (postOperator s pid type b0 b8 b15) := by
  unfold postOperator; split <;> exact postEvent_same ..

/-- So does an event on both rings. -/
theorem postBoth_same (s : State) (pid type : Nat) (b0 : BitVec 32) (b8 b15 : Nat) :
    sameButCmd s (postBoth s pid type b0 b8 b15) := by
  unfold postBoth; dsimp only; split
  · exact postOperator_same ..
  · exact (postEvent_same ..).trans (postOperator_same ..)

/-- So does a ring's fault. -/
theorem ringFault_same (s : State) (n : Nat) : sameButCmd s (ringFault s n) := by
  unfold ringFault
  exact (sameButCmd.cmd ..).trans (postEvent_same ..)

/-- So does the write of a reply. -/
theorem replyWrite_same (s : State) (t : Ticket) (b : Bytes) : sameButCmd s (replyWrite s t b) := by
  unfold replyWrite; split
  · exact .refl s
  · exact ringWrite_same ..

/-- Beside the command state, the trace and charges, only the ridge differs. -/
theorem sameButCmd.ridge {s t : State} (h : sameButCmd s t) :
    sameButCmd { s with ridge := t.ridge } t ∧ t.ridge = s.ridge := by
  unfold sameButCmd at *
  obtain ⟨a1, a2, a3, a4, a5, a6, a7, a8, a9, a10, a11, a12, a13, a14, a15⟩ := h
  exact ⟨⟨a1, a2, a3, a4, a5, a6, a7, rfl, a9, a10, a11, a12, a13, a14, a15⟩, a8⟩

/-- A reply leaves every field but command state, the trace, charges, the debug denial counter and, for the range ring,
the ridge as it was. -/
theorem finishWith_frame (s : State) (t : Ticket) (st : Status) (ro : Bool) (r : BitVec 192) :
    let u := finishWith s t st ro r
    u.boot = s.boot ∧ u.tarn = s.tarn ∧ u.fuse = s.fuse ∧ u.alarm = s.alarm ∧ u.part = s.part ∧ charged s u ∧
    u.rmt = s.rmt ∧ u.fold = s.fold ∧ u.range = s.range ∧ u.iron = s.iron ∧ u.wb = s.wb ∧
    u.spdm = s.spdm ∧ u.pending = s.pending ∧ (t.ring ≠ 32 → u.ridge = s.ridge) ∧
    u.keys.slots = s.keys.slots ∧ (t.opcode ≠ 0x73 ∨ st = .ok → u.keys = s.keys) := by
  intro u
  have hu : u = finishWith s t st ro r := rfl
  clear_value u
  have h0 : ∀ a : State, a = (if t.opcode == 0x73 && st != .ok then
      { s with keys := { s.keys with dbgDeny := inc32 s.keys.dbgDeny } } else s) →
      (t.opcode ≠ 0x73 ∨ st = .ok → a = s) ∧ a.keys.slots = s.keys.slots ∧ a = { s with keys := a.keys } := by
    intro a ha
    subst ha
    split
    · rename_i hc
      simp only [Bool.and_eq_true, beq_iff_eq, bne_iff_ne] at hc
      exact ⟨fun h => by rcases h with h | h <;> simp_all, rfl, rfl⟩
    · exact ⟨fun _ => rfl, rfl, rfl⟩
  obtain ⟨ha, hb, hc⟩ := h0 _ rfl
  generalize hA : (if t.opcode == 0x73 && st != .ok then
      { s with keys := { s.keys with dbgDeny := inc32 s.keys.dbgDeny } } else s) = a at ha hb hc
  have key : sameButCmd { a with ridge := u.ridge } u ∧ (t.ring ≠ 32 → u.ridge = a.ridge) := by
    have less : sameButCmd a (lessInflight a t.ring) := .cmd ..
    unfold finishWith at hu
    simp only [hA] at hu
    subst hu
    split
    · rename_i h
      refine ⟨?_, fun h' => absurd (by simpa using h) h'⟩
      simp only [pushRange, push]
      split <;> exact .cmd ..
    · split
      · exact ⟨less.ridge.1, fun _ => less.ridge.2⟩
      · generalize hB : (if (t.ring == 33 || ringAreaOk s t.ring (ring s t.ring).rbase (t.idx * 32) 32 rDWR) = true then _
          else _ : State) = b
        have h1 : sameButCmd a b := by
          subst hB
          split
          · exact (less.trans (replyWrite_same ..)).trans (.cmd ..)
          · exact less.trans (ringFault_same ..)
        split
        · have h2 := (h1.trans (postEvent_same b t.ring (evWord t.cookie (evHandle t.ring 1)
            (t.seq.toNat + t.opcode.toNat * 65536) (statusCode st)))).ridge
          exact ⟨h2.1, fun _ => h2.2⟩
        · exact ⟨h1.ridge.1, fun _ => h1.ridge.2⟩
  obtain ⟨⟨b1, b2, b3, b4, b5, b6, b7, b8, b9, b10, b11, b12, b13, b14, b15⟩, h2⟩ := key
  have hc' : charged s a := by rw [hc]; exact ⟨rfl, rfl, fun _ => rfl⟩
  have hr : a.ridge = s.ridge := by rw [hc]
  refine ⟨b1.trans ?_, b2.trans ?_, b3.trans ?_, b5.trans ?_, b6.trans ?_, hc'.trans ⟨b7.1, b7.2.1, b7.2.2⟩, b9.trans ?_,
    b10.trans ?_, b11.trans ?_, b12.trans ?_, b13.trans ?_, b14.trans ?_, b15.trans ?_, fun h => (h2 h).trans hr,
    (congrArg (·.slots) b4).trans hb, fun h => b4.trans (congrArg (·.keys) (ha h))⟩ <;> rw [hc]

/-- A fetch changes command state, the trace and charges alone. -/
theorem take_same {s : State} {n : Nat} {pk : Packet} {j : Taken} (h : take s n pk = some j) : sameButCmd s j.s := by
  unfold take at h
  split at h
  · split at h
    · injection h with h
      subst h
      unfold takeEntry
      dsimp only
      split
      · exact ((sameButCmd.cmd ..).trans (sendTlp_same ..)).trans (.cmd ..)
      · exact ((sameButCmd.cmd ..).trans (passOwn_same ..)).trans (.cmd ..)
    · cases h
  · split at h
    · split at h
      · cases h
      · split at h
        · injection h with h; subst h; exact .cmd ..
        · cases h
    · split at h
      · split at h
        · injection h with h; subst h; exact .cmd ..
        · cases h
      · cases h

/-- So the state on which a command acts differs from the one it was fetched in by command state, the trace and charges. -/
theorem accepted_same {op : Op} {s : State} {c : Cmd} {k : State} {t : Ticket} (h : accepted op s c = some (k, t)) :
    sameButCmd s k := by
  unfold accepted at h
  split at h
  · cases h
  · rename_i j hj
    have hs := take_same hj
    split at h
    · cases h
    · rename_i s1 h1
      dsimp only at h
      split at h
      · injection h with h
        injection h with ha hb
        have h2 : sameButCmd j.s s1 := by
          unfold seqCheck at h1
          split at h1
          · injection h1 with h1; subst h1; exact .refl _
          · split at h1
            · injection h1 with h1; subst h1; exact .cmd ..
            · cases h1
        have h3 : sameButCmd s1 (begun op.fast s1 j.t) := by
          unfold begun noteTurn
          split
          · exact .refl _
          · split
            · exact .cmd ..
            · split
              · exact .cmd ..
              · exact .refl _
        exact ha ▸ (hs.trans h2).trans h3
      · cases h

end Sys2Proof.Machine
end

