-- ==== Sys2Proof/Laws/Crypto.lean ====
section
/-! SUPPORT. What is sealed opens: GCM (SP 800-38D) and the frames of R54, for every block cipher. -/

namespace Sys2Proof.Laws

open Sys2Proof Sys2Proof.Machine

/-- A byte string combined twice with one stream is itself. -/
theorem xorBytes_xorBytes : ∀ (a b : Bytes), a.length ≤ b.length → xorBytes (xorBytes a b) b = a
  | [], _, _ => by simp [xorBytes]
  | _ :: _, [], h => by simp at h
  | x :: a, y :: b, h => by
    have ih := xorBytes_xorBytes a b (by simpa using h)
    simp only [xorBytes] at ih ⊢
    simp [ih]

theorem leBytes_length : ∀ n x, (leBytes n x).length = n
  | 0, _ => rfl
  | n + 1, x => by simp [leBytes, leBytes_length n]

theorem ctrStream_length (k : Key) : ∀ n c, (ctrStream k n c).length = 16 * n
  | 0, _ => rfl
  | n + 1, c => by
    simp only [ctrStream, List.length_append, ctrStream_length k n, blkBytes, beBytes, List.length_reverse, leBytes_length]
    omega

/-- GCM's cipher keeps the length of what it is given. -/
theorem gcmCrypt_length (k : Key) (iv b : Bytes) : (gcmCrypt k iv b).length = b.length := by
  simp only [gcmCrypt, xorBytes, List.length_zipWith, ctrStream_length]
  omega

/-- GCM's cipher undoes itself. -/
theorem gcmCrypt_gcmCrypt (k : Key) (iv b : Bytes) : gcmCrypt k iv (gcmCrypt k iv b) = b := by
  have h := gcmCrypt_length k iv b
  unfold gcmCrypt at h ⊢
  rw [h]
  exact xorBytes_xorBytes _ _ (by rw [ctrStream_length]; omega)

/-- What GCM seals opens to its plaintext. -/
theorem gcmOpen_gcmSeal (k : Key) (iv aad pt : Bytes) :
    gcmOpen k iv aad (gcmSeal k iv aad pt).1 (gcmSeal k iv aad pt).2 = some pt := by
  simp [gcmOpen, gcmSeal, gcmCrypt_gcmCrypt]

theorem slice_length (b : Bytes) (off n : Nat) : (slice b off n).length = n := by
  simp only [slice, zeros, List.length_append, List.length_take, List.length_replicate, List.length_drop]
  omega

/-- A sealed frame of 1 to 16 flits opens under its key to the plaintext that was sealed (R54). -/
theorem openWire_sealWire (k : SKey) (dir : Bool) (seq : BitVec 64) (i : Inner) (flits : Nat)
    (h1 : 1 ≤ flits) (h2 : flits ≤ 16) :
    openWire k (sealWire k dir seq i flits) = some (innerIn (slice (innerBytes i ++ i.payload) 0 (bodyLen flits))) := by
  have hf : wireFlits (sealWire k dir seq i flits) = flits := by
    simp [wireFlits, sealWire, BitVec.toNat_ofNat]; omega
  unfold openWire
  rw [hf]
  have hl : (sealWire k dir seq i flits).ct.length = bodyLen flits := by
    simp [sealWire, gcmSeal, gcmCrypt_length, slice_length]
  simp only [hl]
  simp [sealWire, gcmOpen_gcmSeal]

end Sys2Proof.Laws
end

