-- ==== Sys2Proof/Laws/Memory.lean ====
section
/-! SUPPORT. What the memory engines' traffic with the controllers changes, and places. -/

namespace Sys2Proof.Machine

/-! ## Traffic of the memory engines -/

/-- `t` is `s` but for the memory engines themselves, the outputs and the telemetry counts. -/
def OnlyMx (s t : State) : Prop :=
  ∃ m o x, t = { s with mem := { s.mem with mx := m }, out := o, tel := x }

theorem OnlyMx.rfl' (s : State) : OnlyMx s s := ⟨_, _, _, rfl⟩

theorem OnlyMx.trans {s t u : State} (h : OnlyMx s t) (k : OnlyMx t u) : OnlyMx s u := by
  obtain ⟨_, _, _, rfl⟩ := h
  obtain ⟨_, _, _, rfl⟩ := k
  exact ⟨_, _, _, rfl⟩

/-- What such a change leaves. -/
theorem OnlyMx.frame {s t : State} (h : OnlyMx s t) :
    t.boot = s.boot ∧ t.tarn = s.tarn ∧ t.fuse = s.fuse ∧ t.keys = s.keys ∧ t.alarm = s.alarm ∧ t.cmd = s.cmd ∧
    t.part = s.part ∧ t.ridge = s.ridge ∧ t.rmt = s.rmt ∧ t.fold = s.fold ∧ t.range = s.range ∧ t.iron = s.iron ∧
    t.wb = s.wb ∧ t.spdm = s.spdm ∧ t.pending = s.pending ∧ t.mem = { s.mem with mx := t.mem.mx } := by
  obtain ⟨_, _, _, rfl⟩ := h
  simp

/-- The table of the POT and what stands beside it are left. -/
theorem OnlyMx.table {s t : State} (h : OnlyMx s t) :
    t.mem.pot = s.mem.pot ∧ t.mem.potLive = s.mem.potLive ∧ t.mem.potBase = s.mem.potBase ∧ t.mem.changes = s.mem.changes ∧
    t.mem.keys = s.mem.keys ∧ t.mem.badGran = s.mem.badGran ∧ t.mem.roots = s.mem.roots ∧ t.mem.ikey = s.mem.ikey ∧
    t.mem.tickets = s.mem.tickets ∧ t.mem.rinseKey = s.mem.rinseKey ∧ t.mem.muted = s.mem.muted := by
  obtain ⟨_, _, _, rfl⟩ := h
  simp

theorem OnlyMx.foldl {α : Type} (f : State → α → State) (h : ∀ s a, OnlyMx s (f s a)) (l : List α) (s : State) :
    OnlyMx s (l.foldl f s) := by
  induction l generalizing s with
  | nil => exact .rfl' s
  | cons a l ih => exact (h s a).trans (ih _)

theorem onlyMx_setMx (s : State) (e : Nat) (m : Mx) : OnlyMx s (setMx s e m) := ⟨_, _, _, rfl⟩
theorem onlyMx_emit (s : State) (o : Out) : OnlyMx s (emit s o) := ⟨_, _, _, rfl⟩
theorem onlyMx_telAdd (s : State) (pid i n : Nat) : OnlyMx s (telAdd s pid i n) := ⟨_, _, _, rfl⟩

theorem onlyMx_charge (s : State) (e client n : Nat) (rt : Bool) : OnlyMx s (charge s e client n rt) := by
  unfold charge
  dsimp only
  split
  · exact onlyMx_setMx ..
  · exact (onlyMx_setMx ..).trans (onlyMx_telAdd ..)

theorem onlyMx_noteLate (s : State) (pl : Nat) (w : Bool) (p : Pri) : OnlyMx s (noteLate s pl w p) := by
  unfold noteLate
  split
  · exact onlyMx_setMx ..
  · exact .rfl' s

theorem onlyMx_mcRead (s : State) (client : Nat) (rt : Bool) (pl : Nat) : OnlyMx s (mcRead s client rt pl) :=
  ((onlyMx_charge ..).trans (onlyMx_noteLate ..)).trans (onlyMx_emit ..)

theorem onlyMx_mcWrite (s : State) (client : Nat) (rt : Bool) (pl : Nat) (d : Sector) :
    OnlyMx s (mcWrite s client rt pl d) :=
  ((onlyMx_charge ..).trans (onlyMx_noteLate ..)).trans (onlyMx_emit ..)

theorem onlyMx_mcWriteAll (s : State) (client : Nat) (l : List (Nat × Sector)) : OnlyMx s (mcWriteAll s client l) := by
  refine OnlyMx.foldl _ (fun s e => ?_) _ s
  dsimp only
  split
  · exact (onlyMx_charge s e client _ false).trans ⟨_, _, _, rfl⟩
  · exact ((onlyMx_charge s e client _ false).trans (onlyMx_setMx ..)).trans ⟨_, _, _, rfl⟩

theorem onlyMx_putTagSectors (s : State) (l : List (Nat × Sector)) (pin : Bool) : OnlyMx s (putTagSectors s l pin) :=
  OnlyMx.foldl _ (fun _ _ => onlyMx_setMx ..) _ s

/-- The fill of a page reaches the controllers and the engines' tag sectors alone. -/
theorem onlyMx_fillPage (s : State) (page : Nat) (c : Change) : OnlyMx s (fillPage s page c) := by
  unfold fillPage
  dsimp only
  split
  · exact onlyMx_mcWriteAll ..
  · exact (onlyMx_mcWriteAll ..).trans (onlyMx_putTagSectors ..)

theorem onlyMx_retireDarn (s : State) (page : Nat) : OnlyMx s (retireDarn s page) := ⟨_, _, _, rfl⟩

theorem onlyMx_cairnSet (s : State) (c : CLine) : OnlyMx s (cairnSet s c) := by
  unfold cairnSet
  dsimp only
  split <;> exact onlyMx_setMx ..

/-- An engine takes a request exactly while its miss queue has room (R128). -/
theorem present_isSome (s : State) (q : Parked) :
    (present s q).isSome = true ↔ (mx s (engineOf s q.req.addr.toNat)).missq.length < 32 := by
  unfold present
  dsimp only
  split
  · rename_i h
    simp only [Option.isSome_none, Bool.false_eq_true, false_iff]
    omega
  · rename_i h
    simp only [Option.isSome_some, true_iff]
    omega

/-! ## Places -/

/-- A place is its package and its package-local sector. -/
theorem placeAt_parts (p : Nat) : placeAt (placePkg p) (placeSec p) = p := by
  unfold placeAt placePkg placeSec
  omega

@[simp] theorem placePkg_placeAt (k i : Nat) (h : i < 2 ^ 29) : placePkg (placeAt k i) = k := by
  unfold placeAt placePkg
  omega

@[simp] theorem placeSec_placeAt (k i : Nat) (h : i < 2 ^ 29) : placeSec (placeAt k i) = i := by
  unfold placeAt placeSec
  omega

theorem pkgOf_lt (s : State) (page g : Nat) : pkgOf s page g < 32 := (BitVec.ofNat 5 g ^^^ interleave s page (g / 32)).isLt

theorem engineOf_lt (s : State) (off : Nat) : engineOf s off < 8 := by
  have h := pkgOf_lt s (off / 2 ^ 21) (off / 8192 % 256)
  unfold engineOf
  omega

/-- A data sector lies in one of the 32 packages. -/
theorem dataPlace_lt (s : State) (n : Nat) : dataPlace s n < 2 ^ 34 := by
  have h := pkgOf_lt s (sectorPage n) (n % pageSectors / 64)
  have h' := (bankPlace s (BitVec.ofNat 23 (sectorPage n * 8 + n % pageSectors / 64 / 32))).isLt
  unfold dataPlace granPlace placeAt
  omega

/-- The engine of a place below 2^34 is one of the eight. -/
theorem placeEng_lt {p : Nat} (h : p < 2 ^ 34) : placeEng p < 8 := by
  unfold placeEng
  omega

/-- Every data sector's place is that of a package and a package-local sector that the controllers have. -/
theorem dataPlace_is (s : State) (n : Nat) :
    ∃ (pkg : Fin 32) (sec : BitVec 29), placeAt pkg.val sec.toNat = dataPlace s n := by
  have h := dataPlace_lt s n
  refine ⟨⟨placePkg (dataPlace s n), by unfold placePkg; omega⟩, BitVec.ofNat 29 (placeSec (dataPlace s n)), ?_⟩
  have h2 : placeSec (dataPlace s n) < 2 ^ 29 := by unfold placeSec; omega
  rw [BitVec.toNat_ofNat, Nat.mod_eq_of_lt h2]
  exact placeAt_parts _

/-- The keyed function moves the low 19 bits of a granule index alone (R133). -/
theorem bankPlace_high (s : State) (i : BitVec 23) : (bankPlace s i).toNat / 2 ^ 19 = i.toNat / 2 ^ 19 := by
  have h : bankPlace s i >>> 19 = i >>> 19 := by
    apply BitVec.eq_of_getLsbD_eq
    intro j hj
    simp [bankPlace]
  have h2 := congrArg BitVec.toNat h
  simpa [BitVec.toNat_ushiftRight, Nat.shiftRight_eq_div_pow] using h2

/-- A sector of a data page lies in the data area of its package (R133, R134). -/
theorem dataPlace_in_data (s : State) (n : Nat) (h : sectorPage n < 983040) :
    placeSec (dataPlace s n) < tagBase ∧ placePkg (dataPlace s n) = pkgOf s (sectorPage n) (n % pageSectors / 64) ∧
    placeSec (dataPlace s n) % 64 = n % 64 := by
  have hk := pkgOf_lt s (sectorPage n) (n % pageSectors / 64)
  have hg : n % pageSectors / 64 / 32 < 8 := by unfold pageSectors; omega
  have hi : (BitVec.ofNat 23 (sectorPage n * 8 + n % pageSectors / 64 / 32)).toNat =
      sectorPage n * 8 + n % pageSectors / 64 / 32 := by
    rw [BitVec.toNat_ofNat]; omega
  have hb := bankPlace_high s (BitVec.ofNat 23 (sectorPage n * 8 + n % pageSectors / 64 / 32))
  rw [hi] at hb
  unfold dataPlace granPlace placeAt placeSec placePkg tagBase
  omega

/-- The tag sector of a data sector is no counter line (R134). -/
theorem tagPlace_data (s : State) (n : Nat) (h : sectorPage n < 983040) : isLine (tagPlace (dataPlace s n)) = false := by
  have hd := (dataPlace_in_data s n h).1
  unfold tagBase at hd
  unfold isLine tagPlace
  rw [placeSec_placeAt _ _ (by unfold tagBase; omega)]
  exact decide_eq_false (by unfold leafBase tagBase; omega)

/-- The leaf line of a sector of a Fresh page is a line of level 0 (R134, R146). -/
theorem leafOf_level (s : State) (n fslot : Nat) (h : fslot < 131072) :
    isLine (leafOf s n fslot) = true ∧ lineLevel (leafOf s n fslot) = 0 ∧
    lineNum (leafOf s n fslot) = fslot * 8 + n % pageSectors / 64 / 32 := by
  have hg : n % pageSectors / 64 / 32 < 8 := by unfold pageSectors; omega
  have hs : placeSec (leafOf s n fslot) = leafBase + fslot * 8 + n % pageSectors / 64 / 32 := by
    unfold leafOf
    rw [placeSec_placeAt _ _ (by unfold leafBase; omega)]
  have hl : lineLevel (leafOf s n fslot) = 0 := by
    unfold lineLevel
    rw [hs, if_neg (by unfold level2Base leafBase; omega), if_neg (by unfold level1Base leafBase; omega)]
  refine ⟨?_, hl, ?_⟩
  · simp only [isLine, hs, decide_eq_true_eq]
    omega
  · simp only [lineNum, hl, hs, levelBase, beq_self_eq_true, if_true]
    omega

end Sys2Proof.Machine
end

