-- ==== Sys2Proof/WellFormed.lean ====
section
/-! DEFINITION. Which operands a row's port can deliver: rings that exist, nodes and ports of a range message,
sizes that the registers, frames and messages have. The meanings are total and do not ask. -/

namespace Sys2Proof

/-- The ring of a command exists (R223). -/
def ringExists (c : Cmd) : Bool := decide (c.ring ≤ 33)

/-- A range message comes from a node by the range ring or an ADMIT port (R13, R355). -/
def rangeMsgOk (m : RMsg) : Bool := decide (m.src < 16384) && decide (m.via ≤ 36)

/-- A register write covers whole aligned words of one 64 KiB page, or of a 4 KiB page, or of the rest of the window (R398, R399). -/
def regSpanOk (pg : Page) (off n : Nat) : Bool :=
  off % 4 == 0 && (n == 4 || n == 8) && off % n == 0 &&
  decide (off + n ≤ match pg with | .operator => 65536 | .tarn => 4096 | .tenant _ => 4096 | .rest => 0x1EF000)

/-- A read of window bytes stays in the 96-byte window and covers whole words (R235). -/
def windowSpanOk (off len : Nat) : Bool := off % 4 == 0 && len % 4 == 0 && decide (0 < len) && decide (off + len ≤ 96)

/-- The data of a memory request has its size, and so has a mask (R123). -/
def mxShapeOk (r : MxReq) : Bool :=
  (r.data.isEmpty || r.data.length == r.size.toNat + 1) && (r.mask.isEmpty || r.mask.length == r.size.toNat + 1)

/-- SPDM request codes that have a row of their own (R302, R304, R307). -/
def spdmOwnRow : List (BitVec 8) :=
  [0x84, 0xE1, 0xE3, 0x81, 0x82, 0x83, 0xE0, 0xE4, 0xE5, 0xE8, 0xE9, 0xEC, 0x85, 0x86, 0xFE]

/-- TDISP request codes that have a row of their own (R204). -/
def tdispOwnRow : List (BitVec 8) := [0x81, 0x82, 0x83, 0x84, 0x85, 0x86, 0x87]

/-- A ring fetch reads at most four entries (R225). -/
def fetchCountOk (l : Option (List (Packet × List ReadIn))) : Bool :=
  match l with
  | none => true
  | some l => decide (1 ≤ l.length) && decide (l.length ≤ 4)

/-- Place numbers that a router offers, all different. -/
def offerOk (l : List Nat) : Bool := decide l.Nodup

/-- The operands of a command are such as its port delivers. -/
def wellFormed : Instr → Bool
  | .rangeJoinJoin c | .rangeJoinForm c | .rangeLeave c | .rangeEpochAdvance c | .rangeStatus c
  | .rangePairOffer c | .rangePairAccept c | .rangePairUnpair c | .partCreate c | .partAssignTilesAdd c
  | .partAssignTilesRemove c | .partMapPages c | .partMapPeer c | .partUnmap c | .partTeardown c
  | .partStatusSummary _ c | .ctxLoadNew c | .ctxLoadResume c | .ctxEvictSave c | .ctxEvictKill c
  | .ctxEvictDiscard c | .ctxEvictAbandon c | .fenceCreate c | .fenceDestroy c | .fenceSignalSignal c
  | .fenceSignalError c | .fenceSignalQuery c | .memMode c | .memFreshRegionReserve c
  | .memFreshRegionReturn c | .rinse c | .rinseStatus c | .regBudget c | .ownTransfer c
  | .linkSessionOpen c | .linkSessionClose c | .linkSessionShare c | .linkSessionAdmit c | .linkRekey c
  | .linkScree c | .foldPlanArm c | .foldPlanGrant c | .foldReleaseDisarm c | .foldReleaseDisarmForce c
  | .foldReleaseReclaim c | .attEvidence c | .attSpdm _ c | .keyDeriveJob c | .keyDeriveIron c
  | .keyDestroy c | .wbImport c | .wbGrant c | .wbUnsealStream c | .wbRevoke c
  | .ironUpdateData _ c | .ironUpdateAad _ c | .ironFinal _ c | .ironSave _ c | .ironRestore _ c
  | .lcAdvance _ c | .lcStatus c | .dbgChallenge c | .dbgUnlock c | .fwStage _ c | .fwActivate c
  | .diagEcho c | .diagKat _ c | .keyWrap ⟨c, _⟩ | .ironOpen ⟨c, _⟩ => ringExists c
  | .partStatusBind m | .frag m | .joinReq m | .joinNonce m | .joinEvid m | .joinAdmit m | .joinRefuse m
  | .leave m | .leaveAck m | .refresh m | .refreshEvid m | .delta m | .prepare m | .prepAck m | .switch m
  | .abort m | .heartbeat m | .loss m | .probe m | .probeAck m | .shadow m | .shadowAck m | .setkeyReq m
  | .setkeyRsp m | .pairkey m | .rangeReply m _ _ => rangeMsgOk m
  | .ringFetch _ l => fetchCountOk l
  | .registerWrite _ pg off b => regSpanOk pg off b.length
  | .readOnceWindowRead _ _ off len => windowSpanOk off len
  | .memRequest _ r => mxShapeOk r
  | .hostTlp t _ => match t.req with
    | none => true
    | some r => mxShapeOk r
  | .frameSeal _ _ offer | .screeSlot _ offer => offerOk offer
  | .tdispUnsupportedRequest _ code => !tdispOwnRow.contains code
  | .spdmUnsupportedRequest _ code => !spdmOwnRow.contains code
  | .rangeResendTimer dst _ => decide (dst < 16384)
  | .reassemblyTimeout src _ => decide (src < 16384)
  | .rangeProbeTimeout node | .refreshTimer node | .refreshTimeout node => decide (node < 16384)
  | .ksaBackgroundCheck flips => flips.all fun f => decide (f.1 < 256)
  | .jtagTapAccess x => match x with
    | .fuse l => l.all fun b => decide (b < 16384)
    | _ => true
  | _ => true

end Sys2Proof
end

