-- ==== Sys2Proof/Tests/Slice0.lean ====
section
/-! SUPPORT. Tests: an ill-formed operand for each check of WellFormed, a witness for the hypotheses of each statement, and
what single steps do on small states. Each test's expected values come from the rule it names. -/

set_option Elab.async false

namespace Sys2Proof.Tests

open Sys2Proof Sys2Proof.Machine

/-! ## Small states -/

/-- A command of a ring. -/
def cmd (ring ptag : Nat) (ps : List (Nat × Nat)) (m : List ReadIn := []) : Cmd :=
  { ring := ring, body := { seq := 0, ptag := BitVec.ofNat 16 ptag, params := paramsOf ps }, mem := m }

/-- A command of the operator ring for the chip. -/
def oper (ps : List (Nat × Nat)) (m : List ReadIn := []) : Cmd := cmd 0 0 ps m
/-- A command of the operator ring for PID 3. -/
def oper3 (ps : List (Nat × Nat)) (m : List ReadIn := []) : Cmd := cmd 0 6144 ps m
/-- A command of PID 3's ring. -/
def ten (ps : List (Nat × Nat)) (m : List ReadIn := []) : Cmd := cmd 3 6144 ps m

/-- A ring in host memory with entries posted. -/
def rg : Ring := { en := true, loc := true, clog2 := 4, tail := 8 }
/-- A LIVE page with every right. -/
def livePage (pid : Nat) (m : PMode) : Pot := { pid := pid, mode := m, state := .live, rights := 0x3FF }

/-- A chip in FIELDED that runs; PID 3 is an open partition; page 10 belongs to PID 0, page 20 to PID 3. -/
def base : State :=
  { boot := { rdy := true, inReset := false, rstHigh := true, step := 8, mcRdy := true, vddqGood := true, vddaGood := true
              scuUp := true, everReady := true }
    fuse := { lcs := .fielded, trimOk := true, sensed := true, rootKind := .valid }
    keys := { entHealthy := true, drbgSeeded := true }
    cmd := { rings := [(0, rg), (3, rg)] }
    part := { parts := [(3, { state := .active, ctag := 6144, mepoch := 1 })], mepochNext := 2 }
    mem := { pot := [(10, livePage 0 .seal), (20, livePage 3 .seal)], potLive := true } }

/-- The same with PID 3 confidential, its TDI in RUN and its job set. -/
def conf : State := { base with part := {
  parts := [(3, { state := .active, ctag := 6144, mepoch := 1, conf := true })], mepochNext := 2
  tdi := [(3, { state := .run, stream := some 2 })] } }

/-- The same as Summit of a range with one other member. -/
def summit : State := { base with range := {
  memb := .member, role := .summit, nodeId := 5, summit := 5, epoch := 7, members := [{ node := 5 }, { node := 70 }] } }

/-- A command passes its checks, and then something holds of the state it acts on. -/
def passes (o : Op) (s : State) (c : Cmd) (f : State → Ticket → Bool := fun _ _ => true) : Bool :=
  match accepted o s c with
  | some (k, t) => f k t
  | none => false

/-- A message of the range ring. -/
def msg (src : Nat) (ps : List (Nat × Nat)) : RMsg := { src := src, params := paramsOf ps }

/-- The state after one step that completes. -/
def after (i : Instr) (s : State) (f : State → Bool) : Bool :=
  match step { s with pending := [i] } with
  | .next t => f t && t.pending.isEmpty
  | _ => false

/-- The operator's access to its page. -/
def op : Acc := { pid := 0 }

/-- A state in which PID 3 has a context, a fence and an operator fence. -/
def busy : State := { base with part := { base.part with
  ctxs := [(4, { state := .resident, inc := 1, pid := 3, ptag := 6144, slot := 4, owner := 9 }),
           (40, { state := .evicted, inc := 2, pid := 3, ptag := 6144, owner := 9, qbase := 0x2800000, qlog2 := 6 })]
  fences := [(0, { state := .live, pid := 3, value := 5, ptag := 6144 })] } }

/-- The state `busy` with PID 3's context 4 running a command. -/
def running (p : Phase) : State := { busy with part := { busy.part with
  ctxs := [(4, { ctx busy 4 with phase := p })] } }
/-- The state `busy` with its context 4 in RUN. -/
def runs4 : State := running .run
/-- The state `busy` with its context 4 LOST. -/
def lostCtx : State := { busy with part := { busy.part with ctxs := [(4, { ctx busy 40 with state := .lost })] } }
/-- Every context slot is resident with PID 3. -/
def fullSlots (c : CtxState) : State := { base with part := { base.part with
  ctxs := (List.range 64).map fun i => (i, { state := c, pid := 3, ptag := 6144, slot := i }) } }
/-- Context 4 of `busy` waits on its fence 0. -/
def waited : State := { busy with part := { busy.part with
  ctxs := [(4, { ctx busy 4 with waitFence := fenceHandle busy 0, waitValue := 9 })] } }
/-- One RINSE that waits for the SCU's turn. -/
def queued1 : State := { base with cmd := { base.cmd with rings := [(0, { rg with inflight := 1 })]
                                                          fwq := [⟨{}, ⟨0x22, 0, (oper [(16, 1), (20, 1)]).body⟩, false⟩] } }
/-- Context 4's command is in COMMIT while a kill of PID 3 waits for it. -/
def killing3 (p : Phase) : State := { running p with part := { (running p).part with
  kills := [(3, { stage := .commits, ctx := 4 })] } }
/-- The state with firmware's DSM running and a session open. -/
def dsm (t : Tdi) : State := { conf with
  spdm := { sessions := [{ id := 1, mb := 0, secret := 0, ready := true }] }
  part := { conf.part with tdi := [(3, { state := t })], ide := [(2, { go := ideKeys })] } }
/-- A slot as the chip writes it. -/
def good (i : Nat) (k : Key) (p : BitVec 32) : Slot := { key := k, policy := p, check := slotCheck base i k p }
/-- The state `conf` with keys in use on its TDI's stream. -/
def sealed : State := { conf with
  part := { conf.part with ide := [(2, { keys := ideKeys.map fun k => (k, 20), go := ideKeys })] }
  keys := { conf.keys with slots := [(20, good 20 4 (policy .ide .hostIde 3 0 0))] } }
/-- A page change in progress. -/
def change (c : Change) : State := { base with mem := { base.mem with changes := [(10, c)] } }
/-- A read of PID 0 at page 10. -/
def rd10 : MxReq := { addr := 0x1400000, pid := 0, gen := 0, mport := 0xE0, op := 0, size := 63 }

/-- The microsecond of a state. -/
def atTime (t : Nat) (s : State) : State := { s with tarn := { s.tarn with now := t } }
/-- The eight engines alike. -/
def eng8 (m : Mx) : Tbl Mx := (List.range 8).map fun e => (e, m)
theorem tget_eng8 (m : Mx) {e : Nat} (h : e < 8) : tget {} (eng8 m) e = m := by
  interval_cases e <;> rfl
/-- A state with its engines so. -/
def withEng (s : State) (m : Mx) : State := { s with mem := { s.mem with mx := eng8 m } }
/-- The engine of sector 0x28000 of page 10 waits for it for one read, and so do the others. -/
def reading (m : PMode) (bad : List Nat) : State := { base with mem := { base.mem with
  pot := [(10, livePage 0 m)], badGran := bad, muted := [0]
  mx := eng8 { reqs := [{ rid := 0, req := rd10, gen := 0, left := 1 }]
               ops := [{ rid := 0, sector := 0x28000, full := false, issued := true }] } } }
/-- The place of that sector. -/
def pl10 : Nat := dataPlace base 0x28000
/-- A leaf line whose entry 0 has overflowed, for page 10, with what its re-tag reads at hand or not. -/
def ovf10 (got : Bool) : Ovf := { line := leafBase, old := 0, entry := 0, base := 0x28000, client := 0
                                  todo := (List.range 64).map fun k => dataPlace base (0x28000 + k)
                                  got := if got then (List.range 64).map fun k => (dataPlace base (0x28000 + k), 0) else [] }
/-- The engines with that overflow. -/
def retagging (got : Bool) : State :=
  let p := fun k => dataPlace base (0x28000 + k)
  { base with mem := { base.mem with
    pot := [(10, livePage 0 .fresh)], muted := [0]
    mx := eng8 { pinned := (List.range 4).map fun i => (tagPlace (p (16 * i)), 0)
                 ovfs := [ovf10 got] } } }
/-- A line of level 1 of package 0 that has overflowed. -/
def retagging1 : State := withEng base
  { ovfs := [{ line := level1Base, old := 0, entry := 0, client := 0, todo := [] }] }
/-- A Summit with port 0 as given. -/
def linked (l : Link) : State := { summit with ridge := { links := [(0, l)] } }
/-- An OPEN port to node 70. -/
def up : Link := { state := .opened, peerNode := 70, peerPort := 1, txCur := some ⟨7, 0, 1⟩, rxCur := some ⟨7, 0, 2⟩ }
/-- A scree cell of node 70, as this end gets it. -/
def cell : Inner := { cls := clsScree, srcNode := 70, dstNode := 5, crReq := 3 }
/-- The cell on the wire. -/
def cellWire : Wire := sealWire ⟨7, 0, 2⟩ (!txDir (linked up) 0) 9 cell 1
/-- A STORE of 8 bytes to page 20 that a port has verified. -/
def storeIn : Ingress := { via := 0, src := 70, sptag := 6144, dptag := 6144, cls := clsStore
                           desc := { off := 0x2800000, op := 0, size := 7 }, data := zeros 24 }
/-- A chip with one verified request, and its engine 1 with the operations given. -/
def arrived (g : Ingress) (ops : List SecOp) : State :=
  let s := { linked up with ridge := { links := [(0, up)], ingress := [g] } }
  withEng s { cache := [(20, livePage 3 .seal)], ops := ops
              reqs := ops.map fun o => { rid := o.rid, req := { rd10 with op := 2 }, gen := 0, left := 1 } }
/-- A stream with a held seam in segment 0. -/
def seamed (landed : Nat) (fault : Bool) (at_ : Nat) : State := { linked up with ridge := { links := [(0, up)], streams := [(7, {
  used := true, src := 70, sptag := 6144, dptag := 6144, landed := (landed, 0), fault := (fault, false)
  hold := (some ⟨{ storeIn with cls := clsSeam, desc := { storeIn.desc with op := 1, id40 := 2, stream := 7 } }, at_⟩, none) })] } }

/-- A Summit of two whose PID 3 has node 6 as a peer. -/
def peered (r : RmtState := {}) : State := { summit with
  range := { summit.range with members := [{ node := 5 }, { node := 6 }] }
  part := { summit.part with peers := [(3 * 16384 + 6, { ptag := 6144, valid := true })] }, rmt := r
  ridge := { links := [(0, up)] } }
/-- A remote request of PID 3 to node 6, by a DMA engine where its class is of bulk data and by a tile otherwise. -/
def far (cls : BitVec 4) (op : BitVec 8) (size : BitVec 8) (data : Bytes := []) (mask : List Bool := []) : RReq :=
  { mport := if cls == clsBulkRd || cls == clsBulkWr || cls == clsOwn then 0x90 else 5, flat := 6 * 2 ^ 41 + 0x1000
    pid := 3, gen := 0, ctx := 0, cls := cls, op := op, node := 6, off := 0x1000, size := size
    data := data, mask := mask }
/-- A Summit whose PID 3 has node 70 as a peer, which has requests of it. -/
def peer70 : State := { summit with
  ridge := { links := [(0, up)] }
  part := { summit.part with peers := [(3 * 16384 + 70, { ptag := 6144, valid := true })]
                             fences := [(0, { state := .live, pid := 3, value := 5, ptag := 6144 })] } }
/-- A request goes out. -/
def goesOut (s : State) (r : RReq) : Bool :=
  let q := (takeShape s r).2
  let node := targetNode s r
  r.gen == curGen s 3 && classAllowed r && !ownAddress s r && !sourceRefuses s q node && !mustWait s r node && node == 6
/-- A granted stream of PID 3 to node 6. -/
def granted : SrcStream := { pid := 3, node := 6, granted := true, asked := true, id := 9, dptag := 6144 }

/-- Bytes with the given values at the given places. -/
def bytesOf (n : Nat) (l : List (Nat × Nat)) : Bytes := leBytes n (l.foldl (fun a x => a + x.2 * 2 ^ (8 * x.1)) 0)
/-- An armed plan 4 of PID 3 on unit 0: one contributor, two chunks of 32 elements. -/
def armed : FoldPlan := { state := .armed, pid := 3, ncontrib := 1, slots := 2, tmo := 1, nchunk := 2, ce := 32, srcs := [70] }
/-- A state with plan 4 and one frame in the input stage of unit 0. -/
def folding (p : FoldPlan) (f : List FoldFrame := []) (w : List Wait := []) : State := { base with
  fold := { plans := [(4, p)], blocks := [(0, 4), (1, 4)], input := [(0, f)] }, cmd := { base.cmd with waits := w }
  part := { base.part with peers := [(3 * 16384 + 70, { ptag := 6144, valid := true })] } }
/-- A frame of 32 elements for a plan. -/
def foldFrame (pl chunk : Nat) : FoldFrame := { src := 70, sptag := 6144, dptag := 6144, flits := 1, len := 144
                                                body := bytesOf 144 [(0, pl), (2, chunk), (8, 32)] }
/-- The descriptor of plan 4. -/
def desc4 (l : List (Nat × Nat)) : Bytes := bytesOf 64 ([(0, 4), (7, 1), (8, 2), (10, 1), (12, 2), (44, 32)] ++ l)
/-- Frame accepted, dropped, or a fault. -/
def takes (s : State) (f : FoldFrame) : Bool := foldCheck s 0 f matches .take

/-- Plan 4 with a flipped bit in the first word of its first line pair. -/
def flipped : State := upset (folding armed) 0 { pair := 64, copy := false, bit := 0 }
/-- Chunk 0 of plan 4 of PID 3, to be written at a device offset. -/
def outAt (off : Nat) : FoldOut := { unit := 0, plan := 4, num := 0, chunk := 0, pid := 3, gen := 0, off := off, bytes := zeros 256 }
/-- A plan with one chunk to be written. -/
def writingAt (off : Nat) (base_ : Nat := 1) : State :=
  let s := folding { armed with outMem := true, outBase := off, base := base_ }
  { s with fold := { s.fold with writing := [outAt off] } }

/-- PID 3's PARTROOT is in slot 8, and two Iron keys of it in slots 9 and 10, of which 9 may leave wrapped and 10 wraps. -/
def keyed : State := { conf with keys := { conf.keys with
  parts := [(3, { root := 8, held := 11 })]
  slots := [(8, good 8 1 (policy .partroot .derivation 3 0 2)), (9, good 9 2 (policy .iron .iron 3 0 5)),
            (10, good 10 3 (policy .iron .iron 3 0 9))] } }
/-- A member of a range whose FWS and range key derive. -/
def rooted : State := { base with
  range := { summit.range with role := .member }
  keys := { base.keys with slots := [(1, good 1 7 (policy .fwlayer .derivation 0 0 2)), (2, good 2 8 (policy .range .derivation 0 0 2))] } }
/-- The same with a slot BAD. -/
def keyedBad (i : Nat) : State := setSlot keyed i { slot keyed i with bad := true }

/-- A slot that holds what its check value says verifies, and so does an EMPTY one; a BAD one does not. -/
theorem slotDead_good (s : State) (i : Nat) (h : (∃ k p, slot s i = good i k p) ∨ slot s i = {})
    (hc : s.keys.chkKey = base.keys.chkKey) : slotDead s i = false := by
  rcases h with ⟨k, p, hk⟩ | hk
  · simp [slotDead, hk, good, slotCheck, hc]
  · have h0 : ∀ x : Slot, x = {} → (x.bad || (polClass x.policy != 0 && x.check != slotCheck s i x.key x.policy)) = false := by
      rintro x rfl
      rfl
    exact h0 _ hk
theorem readBad_good (s : State) (l : List Nat) (h : ∀ i ∈ l, (∃ k p, slot s i = good i k p) ∨ slot s i = {})
    (hc : s.keys.chkKey = base.keys.chkKey) : readBad s l = none := by
  have h1 : l.any (slotDead s) = false := by
    rw [List.any_eq_false]
    exact fun i hi => by simp [slotDead_good s i (h i hi) hc]
  simp [readBad, h1]
theorem readBad_bad (s : State) (i : Nat) (l : List Nat) (h : i ∈ l) (hb : (slot s i).bad = true) : (readBad s l).isSome = true := by
  have h1 : l.any (slotDead s) = true := List.any_eq_true.mpr ⟨i, h, by simp [slotDead, hb]⟩
  simp [readBad, h1]

/-- A chip in MAKER whose fuses are ready for the advance to INTEGRATOR, but for the root. -/
def made : State := { base with
  part := {}
  fuse := { base.fuse with lcs := .maker, fwKh := 1, dbgKh := 1, devId := 1, rootKind := .absent
                           trimCrc := crc16 (leBytes 510 base.fuse.trim.toNat) }
  boot := { base.boot with vppOk := true } }
/-- The same in another state, with nothing running. -/
def alone (l : Lcs) : State := { base with part := {}, fuse := { base.fuse with lcs := l } }
/-- A challenge outstanding for PID 3. -/
def asked (scope : Nat) (gen : BitVec 11) (until_ : Nat) : State :=
  { base with keys := { base.keys with chal := some ⟨5, 3, scope, gen, until_⟩ } }
/-- A chip that boots, at a step. -/
def bootAt (n : Nat) : State := { State.reset with
  boot := { State.reset.boot with inReset := false, rstHigh := true, vddqGood := true, vddaGood := true, step := n } }
/-- Step 7, with the controllers ready. -/
def step7 (m : MemState) : State := { bootAt 7 with mem := m, boot := { (bootAt 7).boot with mcRdy := true, scuUp := true } }

/-- A chip whose SPDM connection on mailbox 0 has come to a stage. -/
def talking (n : Nat) (big : Bytes := []) (ready : Bool := true) : State := { base with
  spdm := { conns := [(0, { stage := n, bigOut := big, chunkNo := 3 })], sessions := [{ id := 9, mb := 0, secret := 0, ready := ready }] } }
/-- PID 3 confidential with a bundle 0, its set key in slot 12, and its bundle key in slot 13 or not yet. -/
def weights (n : Nat) (l : List WbStream := []) : State := { conf with
  keys := { conf.keys with slots := [(12, good 12 1 (policy .devset .pke 3 0 2)), (13, good 13 2 (policy .bundle .memUnseal 3 0 0))] }
  wb := { bundles := [(48, { live := true, nseg := 1, slot := n })], sets := [⟨3, 0, 12⟩], streams := l }
  mem := { conf.mem with pot := [(20, livePage 3 .seal), (21, livePage 3 .seal)] } }
/-- A stream of PID 3. -/
def stream3 : WbStream := { num := 0, pid := 3, idx := 0, src := 0x2800000, dst := 0x2A00000, first := 0, nseg := 1, fence := 0xFFFFFFFF }
/-- A bundle header for one member, source page 0x2800000, destination 0x2A00000, epoch 7. -/
def wbHead : Bytes := asc "QWBH" ++ bytesOf 60 [(0, 1), (4, 9), (12, 1), (16, 7), (28, 1), (30, 0x2800000), (36, 0x2A00000)]
/-- Its list: this chip's node, and the partition's tag and epoch. -/
def wbList : Bytes := bytesOf 8 [(0, 5), (2, 6144), (4, 1)]
/-- PID 3 in the range of epoch 7, with its job set, a range key, and the set key where it is held. -/
def importing (r : Role) (l : List DevSet := []) : State := { weights 0 with
  range := { summit.range with role := r }
  part := { conf.part with parts := [(3, { state := .active, ctag := 6144, mepoch := 1, conf := true, jobSet := true })] }
  fuse := { conf.fuse with lcs := .fielded }
  keys := { (weights 0).keys with slots := (2, good 2 3 (policy .range .derivation 0 0 2)) :: (weights 0).keys.slots }
  wb := { bundles := [], sets := l }
  mem := { conf.mem with pot := [(20, livePage 3 .seal), (21, livePage 3 .seal)] } }
/-- The handle of bundle 0. -/
def wb0 : Nat := (bundleHandle (weights 0) 3 0).toNat
/-- PID 3 with context number 2 bound as given. -/
def ironed (x : IronCtx) : State := { keyed with iron := { ctxs := [(50, x)] } }

/-- A member of a range whose Summit is node 70. -/
def member_ : State := { summit with range := { summit.range with role := .member, summit := 70, openAt := 0 } }
/-- A joining chip on port 2. -/
def joiner : State := { base with
  range := { memb := .joining, join := some ⟨2, 9, false, 0⟩ }, ridge := { links := [(2, { up with state := .admitting })] } }
/-- A Summit with an advance of two members, and the answers it has. -/
def adv2 (l : List Nat) (rounds : Nat := 0) : State := { summit with range := { summit.range with
  memb := .reforming, adv := some { epoch := 8, keep := [5, 70], removed := [], answered := l, round := rounds, at_ := 0 } } }
/-- A member that has prepared epoch 8. -/
def prepared : State := { member_ with range := { member_.range with
  memb := .reforming, prep := some ⟨8, 0⟩, deltaEpoch := 8 } }
/-- A paired Summit. -/
def paired : State := { summit with range := { summit.range with paired := true } }
/-- Pages of PID 0 for a mailbox. -/
def paging : State := { summit with mem := { summit.mem with pot := [(10, livePage 0 .seal)] } }

/-- A message has not been taken, and firmware runs. -/
def freshMsg (s : State) (m : RMsg) : Bool :=
  !(s.range.seen.any fun x => x.src == m.src && x.via == m.via && x.seq == m.seq) && s.boot.rdy && s.boot.scuUp
/-- The reply that a step wrote last. -/
def lastReply (i : Instr) (s : State) (f : Reply → Bool) : Bool :=
  after i s fun t => t.out.any fun o => match o with
    | .reply _ _ _ r => f r
    | _ => false

/-- PID 9 with tag 0x4812 and fence 0x4801_0007 at value 0x120 (the example of 08). -/
def pid9 : State := { base with
  cmd := { base.cmd with rings := [(9, rg)] }
  part := { base.part with
    parts := [(9, { state := .active, ctag := 0x480F })], gens := [(9, 0x12)]
    fences := [(7, { state := .live, inc := 1, pid := 9, value := 0x120, ptag := 0x4812 })] } }

/-! ## Ill-formed operands -/

theorem test_ring_34_is_ill_formed : wellFormed (.rangeLeave (cmd 34 0 [])) = false := by decide
theorem test_node_16384_is_ill_formed : wellFormed (.leave (msg 16384 [])) = false := by decide
theorem test_fetch_of_five_is_ill_formed :
    wellFormed (.ringFetch 0 (some (List.replicate 5 (⟨0, 0, {}⟩, [])))) = false := by decide
theorem test_odd_write_is_ill_formed : wellFormed (.registerWrite op .operator 2 [0, 0, 0, 0]) = false := by decide
theorem test_window_past_96_is_ill_formed : wellFormed (.readOnceWindowRead op 0 96 4) = false := by decide
theorem test_short_data_is_ill_formed :
    wellFormed (.memRequest 0 { addr := 0, pid := 0, gen := 0, mport := 0xE0, op := 1, data := [1, 2], size := 3 }) = false := by
  decide
theorem test_repeated_offer_is_ill_formed : wellFormed (.frameSeal 0 0 [1, 1]) = false := by decide
theorem test_get_version_is_no_other_code : wellFormed (.spdmUnsupportedRequest (.doe 0) 0x84) = false := by decide
theorem test_lock_is_no_other_code : wellFormed (.tdispUnsupportedRequest 1 0x83) = false := by decide
theorem test_slot_256_is_ill_formed : wellFormed (.ksaBackgroundCheck [(256, 0)]) = false := by decide
theorem test_fuse_bit_16384_is_ill_formed : wellFormed (.jtagTapAccess (.fuse [16384])) = false := by decide
theorem test_timer_node_16384_is_ill_formed : wellFormed (.rangeProbeTimeout 16384) = false := by decide
theorem test_well_formed_commands : (wellFormed (.rangeLeave (oper [])) && wellFormed (.leave (msg 16383 [])) &&
    wellFormed (.frameSeal 0 0 [0, 1]) && wellFormed (.readOnceWindowRead op 0 92 4)) = true := by decide

/-! ## Witnesses: rings, partitions, contexts, fences -/

theorem witness_StepRunsFrontCommand : { base with pending := [Instr.mcReady, .bootReady] }.pending =
    .mcReady :: [.bootReady] := by decide
theorem witness_EmptyQueueIsATarnTick : State.reset.pending = [] ∧ State.reset.boot.tarnGood = true ∧
    State.reset.tarn.now + 1 < 2 ^ 64 ∧ State.reset.keys.failing = [] ∧
    { base with keys := { base.keys with failing := [9] } }.keys.failing ≠ [] ∧ base.boot.tarnGood = true ∧
    State.reset.range.prepWait = none ∧ State.reset.range.later = [] ∧ State.reset.rmt.streams = [] ∧
    State.reset.rmt.held = [] ∧ State.reset.alarm.fifo = [] := by decide
theorem test_tick_drains_the_fifo : (match step { base with alarm := { base.alarm with fifo := [⟨0, 5, 0, 48, 0, 9, 0⟩] } } with
    | .next u => u.alarm.fifo.isEmpty && u.tarn.log.length == 1 && u.tarn.now == base.tarn.now + 1
    | _ => false) = true := by decide +kernel
theorem witness_tick_without_tarn : { base with boot := { base.boot with tarnGood := false } }.boot.tarnGood = false := by decide
theorem witness_SequenceNumberRule : regOpen base op (fnPage 0) = true ∧ (ring { base with cmd := {} } 0).en = false ∧
    bits 0x800 9 4 = 4 ∧ bits 0x1800 9 4 = 12 ∧ baseOk false 0 = true ∧
    (0 ≠ 32 ∧ (oper []).body.seq = (ring base 0).seqExp ∧ (1 : BitVec 16) ≠ (ring base 0).seqExp) ∧
    (opOf ⟨0x22, 9, {}⟩ []).isNone = true ∧ (opOf ⟨0xFF, 0, {}⟩ []).isNone = true ∧ opcodeKnown 0x22 = true ∧
    opcodeKnown 0xFF = false := by decide +kernel
theorem witness_FirstFailingCheckDecides :
    check3 opRinse 0 (oper [(16, 1), (20, 1)]).body = true ∧ check3 opRinse 0 (oper3 []).body = false ∧
    check4 opRinse 3 (oper [(16, 1)]).body = false ∧ check4 opPartCreate 0 (oper3 []).body = true ∧
    tagCurrent base 6144 = true ∧ tagCurrent base 6145 = false ∧
    check3 opRinse 0 { (oper []).body with flags := 4 } = false ∧ opRinse.whole (oper []).body = true ∧
    ¬(opCtxLoadNew.opcode = 0x15 ∧ opCtxLoadNew.form = 2) ∧ (oper3 []).body.ptag ≠ 0 ∧
    tagPid (oper []).body.ptag ≠ 3 := by decide +kernel
theorem witness_RingAndEventRingRegisterWrites : regOpen base op (fnPage 0) = true ∧ (ring base 0).en = true ∧
    2 ^ (ring base 0).clog2 = 16 ∧ (ring base 1).en = false ∧ regOpen { base with cmd := {} } op (fnPage 0) = true ∧
    bits 0x40 1 5 = 0 ∧ bits 0x4C 1 5 = 6 ∧ (evt base 0).en = false ∧ baseOk true 0 = true ∧
    (3 : Nat) % 4096 < 2 ^ (ring base 0).clog2 ∧ 2 ^ (ring base 0).clog2 ≤ 0x5010 % 4096 ∧ bits 0x600 9 4 < 4 ∧
    (ring { base with cmd := {} } 0).en = false ∧ (evt { base with cmd := { evts := [(0, { en := true })] } } 0).en = true ∧
    (0x80000000#32).getLsbD 31 = true := by decide +kernel
theorem witness_OperatorPageWritesAndClosedPages : regOpen base op .operator = true ∧
    (2#32).getLsbD 1 = true ∧ (1#32).getLsbD 1 = false ∧ State.reset.boot.inReset = true ∧
    pagesOpen { base with boot := { base.boot with pdAck := true } } = false ∧ admitAcc base op .operator = .yes ∧
    regOpen base op .rest = true ∧ regOpen base op (fnPage 0) = true ∧ (ring base 0).en = true ∧
    regOpen { base with cmd := {} } op (fnPage 0) = true ∧ (ring { base with cmd := {} } 0).en = false ∧
    (evt base 0).en = false ∧ (evt { base with cmd := { evts := [(0, { en := true })] } } 0).en = true ∧
    admitAcc { base with boot := { base.boot with pdAck := true } } op (fnPage 0) ≠ .ur true ∧
    admitAcc { base with boot := { base.boot with pdAck := true } } op (fnPage 0) ≠ .ur false := by
  decide +kernel
theorem witness_ReadsThatChangeState : admitAcc base op .tarn = .yes ∧ base.boot.scuUp = true ∧
    admitAcc base op (fnPage 0) = .yes ∧ admitAcc base { pid := 3 } (fnPage 3) = .yes ∧ pagesOpen base = true := by decide +kernel
theorem witness_FetchAndFirmwareStart : fetchable base 0 = true ∧ fetchWanted base 0 = true ∧ fetchWanted base 1 = false ∧
    ((opOf ⟨0x22, 0, (oper [(16, 1), (20, 1)]).body⟩ []).map fun o => (o.opcode, o.form)) = some (0x22, 0) ∧
    after (.ringFetch 0 (some [(⟨0x22, 0, (oper [(16, 1), (20, 1)]).body⟩, [])])) base (fun t => fetchable t 0) = true ∧
    (let b := (oper [(16, 1), (20, 1)]).body
     placeOk queued1 false {} b && (check5 opRinse queued1 b 0).isNone && queued1.boot.rdy && queued1.boot.scuUp &&
     !tagCurrent base 6145 && !placeOk { queued1 with boot := { queued1.boot with scuUp := false } } false {} b &&
     !(fetchWanted base 1)) = true ∧
    (let s : State := { base with cmd := { base.cmd with rangeQ := [⟨9, 36, ⟨0x81, 0, {}⟩⟩] } }
     s.cmd.fwq.isEmpty && s.cmd.rangeQ.length == 1 && s.boot.rdy && s.boot.scuUp && s.cmd.waits.isEmpty) = true := by
  decide +kernel
theorem witness_RepliesAndDeferredVectors : ringAreaOk (lessInflight base 0) 0 (ring base 0).rbase 0 32 rDWR = true ∧
    (let s := { base with cmd := { base.cmd with msix := [(5, { deferred := true })] } }
     (tget ({} : Moder) s.cmd.msix 5).deferred = true ∧ (tget ({} : Moder) s.cmd.msix 5).last + (evt s 0).mod ≤ s.tarn.now ∧
     outStream s 0 = none) ∧
    (let s := { sealed with cmd := { base.cmd with msix := [(3 * 2048 + 5, { deferred := true })] } }
     outStream s 3 = some 2 ∧ (tget ({} : Moder) s.cmd.msix (3 * 2048 + 5)).deferred = true ∧
     (ideInUse s 2 ⟨0, true⟩).isSome = true) ∧
    outStream base 0 = none ∧ (ring base 0).loc = true ∧ (ring { base with cmd := {} } 0).loc = false := by
  decide +kernel
theorem witness_PartCreateMakesAnActivePartition :
    passes opPartCreate rooted (cmd 0 4096 [(16, 1)])
      (fun k t => (part k (tagPid t.ptag)).state == .free && !k.keys.entFailed && decide (5 ≤ (freeDerived k).length) &&
        k.range.memb == .member && !k.range.test && !jtagScuActive k && keyFits k 1 .fwlayer .derivation 0 &&
        keyFits k 2 .range .derivation 0) = true ∧
    passes opPartCreate base (cmd 0 4096 []) (fun k t => k.range.memb != .quarantined && (part k (tagPid t.ptag)).state == .free &&
      !k.keys.entFailed && decide (5 ≤ (freeDerived k).length) && !keyFits k 1 .fwlayer .derivation 0) = true ∧
    passes opPartCreate { rooted with keys := setSlot rooted 1 { slot rooted 1 with bad := true } |>.keys } (cmd 0 4096 [])
      (fun k _ => (slot k 1).bad && keyFits k 1 .fwlayer .derivation 0 && decide (5 ≤ (freeDerived k).length)) = true := by
  decide +kernel
/-- The slots of that chip verify, in the state that the command acts on too. -/
theorem witness_rooted_verifies (k : State) (h : k.keys = rooted.keys) :
    readBad k [1, 2] = none ∧ readBad k [1] = none := by
  have hs : ∀ i, slot k i = slot rooted i := fun i => by simp only [slot, h]
  have hc : k.keys.chkKey = base.keys.chkKey := by rw [h]; rfl
  exact ⟨readBad_good k _ (by simp only [List.mem_cons, List.not_mem_nil, or_false]; rintro i (rfl | rfl) <;> exact .inl ⟨_, _, hs _⟩) hc,
    readBad_good k _ (by simp only [List.mem_cons, List.not_mem_nil, or_false]; rintro i rfl; exact .inl ⟨_, _, hs _⟩) hc⟩
theorem witness_rooted_keys (c : Cmd) (k : State) (t : Ticket) (h : accepted opPartCreate rooted c = some (k, t)) :
    readBad k [1, 2] = none ∧ readBad k [1] = none := witness_rooted_verifies k (accepted_same h).2.2.2.1
theorem witness_TilesMoveAllOrNone :
    passes opTilesAdd { base with part := { base.part with scrubbed := 3 } } (oper3 [(16, 3)])
      (fun k t => active k 3 && (tileList (tilesOf (oper3 [(16, 3)]).body)).all fun i => tileOwner k i == 0 &&
        k.part.scrubbed.getLsbD i && (tileOwner k (tileMate i) == 0 || tileOwner k (tileMate i) == tagPid t.ptag)) = true ∧
    passes opTilesAdd base (oper3 [(16, 3)]) (fun k _ => !k.part.scrubbed.getLsbD 0) = true ∧
    passes opTilesRemove { base with part := { base.part with parts := [(3, { state := .active, ctag := 6144, tiles := 3 })] } }
      (oper3 [(16, 1)]) (fun k _ => active k 3 && !hasResident k 3 && (part k 3).tiles.getLsbD 0) = true ∧
    passes opTilesRemove busy (oper3 [(16, 1)]) (fun k _ => hasResident k 3) = true := by decide +kernel
theorem witness_PeerEntriesAreWrittenOrBound :
    passes opMapPeer base (oper3 [(16, 9), (18, 6144)]) (fun k _ => active k 3 && !(part k 3).conf) = true ∧
    passes opMapPeer base (oper3 [(16, 16383), (20, 1)]) (fun k _ => active k 3) = true ∧
    passes opMapPeer conf (oper3 [(16, 9), (18, 6144)]) (fun k _ => (part k 3).conf && !(part k 3).jobSet) = true ∧
    passes opMapPeer { conf with part := { conf.part with parts := [(3, { part conf 3 with jobSet := true })] } }
      (oper3 [(16, 9), (18, 6144)]) (fun k _ => (part k 3).conf && (part k 3).jobSet) = true ∧
    bindTag { conf with cmd := { conf.cmd with waits := [⟨{}, 3, .peerBind 3 9 6144⟩] } } 3 9 = some 6144 := by
  decide +kernel
theorem witness_StatusCommandsOnlyReport :
    passes (opPartStatus false) base (oper3 []) = true ∧ passes (opPartStatus true) base (ten []) = true ∧
    passes opRangeStatus base (oper []) = true ∧
    (rangeAccepted opPartBind summit { msg 9 [(16, 1)] with ptag := 6144 }).isSome = true ∧
    summit.range.memb ≠ .reforming ∧ summit.range.takeover = false ∧
    (rangeAccepted opPartBind { summit with range := { summit.range with takeover := true } }
      { msg 9 [(16, 1)] with ptag := 6144 }).any (fun x => x.1.range.takeover) = true ∧
    passes opRangeStatus base (oper []) (fun k _ => k.range.memb == .unbound) = true ∧
    passes opRangeStatus summit (oper []) (fun k _ => k.range.memb != .unbound) = true := by decide +kernel
theorem witness_CtxLoadMakesResident :
    passes opCtxLoadNew base (ten [(16, 9), (24, 0x2800000), (30, 6)])
      (fun k _ => loadable k 3 && decide (freeSlot k < 64) && decide (freeCtx k < 16384)) = true ∧
    passes opCtxLoadNew conf (ten [(16, 9), (24, 0x2800000), (30, 6)]) (fun k _ => !loadable k 3) = true ∧
    passes opCtxLoadNew (fullSlots .resident) (ten [(16, 9), (24, 0x2800000), (30, 6)])
      (fun k _ => loadable k 3 && decide (64 ≤ freeSlot k)) = true ∧
    passes opCtxLoadResume busy (ten [(16, (ctxHandle busy 40).toNat)])
      (fun k _ => loadable k 3 && (ctx k 40).state == .evicted && decide (freeSlot k < 64)) = true ∧
    passes opCtxLoadResume (lostCtx) (ten [(16, (ctxHandle lostCtx 4).toNat)]) (fun k _ => (ctx k 4).state == .lost) = true := by decide +kernel
theorem witness_CtxEvictFollowsTheStateTable :
    passes opCtxEvictSave busy (ten [(16, (ctxHandle busy 4).toNat)]) (fun k _ => (ctx k 4).state == .resident && (ctx k 4).phase == .none) = true ∧
    passes opCtxEvictKill busy (ten [(16, (ctxHandle busy 4).toNat)]) (fun k _ => (ctx k 4).state == .resident) = true ∧
    passes opCtxEvictKill lostCtx (ten [(16, (ctxHandle lostCtx 4).toNat)]) (fun k _ => (ctx k 4).state == .lost) = true ∧
    passes opCtxEvictSave runs4 (ten [(16, (ctxHandle runs4 4).toNat)]) (fun k _ => (ctx k 4).phase != .none) = true ∧
    passes opCtxEvictDiscard busy (ten [(16, (ctxHandle busy 4).toNat)]) (fun k _ => (ctx k 4).state == .resident) = true ∧
    passes opCtxEvictDiscard busy (ten [(16, (ctxHandle busy 40).toNat)]) (fun k _ => (ctx k 40).state == .evicted) = true ∧
    passes opCtxEvictAbandon busy (ten [(16, 9)]) = true := by decide +kernel
theorem witness_FencesAreCreatedAndFreed :
    passes opFenceCreate base (ten [(16, 7), (20, 3), (22, 1), (24, 9)]) = true ∧
    passes opFenceCreate base (ten [(16, 7), (20, 3), (22, 1), (24, 9)]) (fun k _ => active k 3 && decide (freeFence k < 65535)) = true ∧
    passes opFenceDestroy busy (ten [(16, (fenceHandle busy 0).toNat)])
      (fun k _ => !fenceBusy k (fenceHandle busy 0)) = true ∧
    passes opFenceDestroy (waited) (ten [(16, (fenceHandle busy 0).toNat)])
      (fun k _ => fenceBusy k (fenceHandle busy 0)) = true := by decide +kernel
theorem witness_FenceSignalSequence :
    passes opFenceSignal busy (ten [(16, (fenceHandle busy 0).toNat), (20, 6)]) = true ∧
    passes opFenceError busy (ten [(16, (fenceHandle busy 0).toNat), (28, 14)]) = true ∧
    passes opFenceQuery busy (ten [(16, (fenceHandle busy 0).toNat)]) = true ∧
    (fence busy 0).state = .live ∧ tagCurrent busy 6144 = true ∧ tagCurrent busy 6145 = false ∧ (fence busy 0).value < 6#64 ∧
    (5#64) ≤ (fence busy 0).value ∧ (14#8) ≠ 0 ∧
    (fence { busy with part := { busy.part with fences := [(0, { fence busy 0 with state := .error })] } } 0).state = .error := by decide +kernel
theorem witness_GenerationAdvanceAndTeardown :
    passes opTeardown base (oper3 []) (fun k _ => active k 3) = true ∧
    passes opTeardown { base with part := { base.part with parts := [] } } (oper3 []) (fun k _ => !active k 3) = true ∧
    tget 0 base.part.genAt 3 ≠ base.tarn.now + 1 ∧
    tget 0 { base with part := { base.part with genAt := [(3, 1)] } }.part.genAt 3 = base.tarn.now + 1 ∧
    nextAdvance { base with part := { base.part with genWait := [(3, .reset)] } } 3 = some .reset ∧
    nextAdvance { base with part := { base.part with genWait := [(3, .teardown)] } } 3 = some .teardown ∧
    nextAdvance { base with part := { base.part with genWait := [(3, .kill)] } } 3 = some .kill ∧
    tearOf { base with part := { base.part with tears := [(3, { advanced := true, cleared := true })] } } 3 =
      some { advanced := true, cleared := true } ∧
    tornDrained { base with part := { base.part with tears := [(3, { advanced := true, cleared := true })] } } 3 = true := by
  decide +kernel

/-! ## Witnesses: signals, kills, interfaces, memory -/

theorem witness_RingSignalsReportTheFence :
    (let h := fenceHandle busy 0
     passes opFenceSignal busy (ten [(16, h.toNat), (20, 6)]) (fun k t => (signalFence k h 6 0 t.ptag).2 == .applied) &&
     passes opFenceSignal busy (ten [(16, h.toNat), (20, 5)]) (fun k t => (signalFence k h 5 0 t.ptag).2 == .ooo) &&
     passes opFenceError busy (ten [(16, h.toNat), (28, 14)]) (fun k t => (signalFence k h 0 14 t.ptag).2 == .applied) &&
     passes opFenceQuery busy (ten [(16, h.toNat)])) = true ∧
    (let s := { busy with part := { busy.part with fences := [(0, { fence busy 0 with strict := true })] } }
     passes opFenceSignal s (ten [(16, (fenceHandle s 0).toNat), (20, 4)])
       (fun k t => (signalFence k (fenceHandle s 0) 4 0 t.ptag).2 == .oooStrict)) = true := by decide +kernel
theorem witness_SchedulerEventsOfCommands :
    (ctxMatch busy (ctxHandle busy 4) && (ctx busy 4).state == .resident && !commitHeld busy (ctxHandle busy 4) &&
     commitHeld (killing3 .run) (ctxHandle (killing3 .run) 4) && (ctx (running .run) 4).phase == .run &&
     (running .run).cmd.waits.isEmpty) = true ∧
    (let s := { busy with part := { busy.part with ctxs := [(4, { ctx busy 4 with stopping := true })] } }
     ctxMatch s (ctxHandle s 4) && (ctx s 4).stopping && killOf s 3 == none && tearOf s 3 == none) = true ∧
    (let s := fun (c : CtxState) (k : List (Nat × Kill)) (x : List (Nat × Tear)) => ({ busy with part := { busy.part with
       ctxs := [(4, { ctx busy 4 with state := c, phase := .run, stopping := true })], kills := k, tears := x } } : State)
     let e := fun (s : State) => setCtx s 4 { ctx s 4 with stopping := false, phase := .none }
     let a := s .lost [(3, { stage := .stops, ctx := 4, stopped := [4] })] []
     let b := s .resident [(3, { stage := .commits, ctx := 4 })] []
     let c := s .lost [] [(3, { advanced := true })]
     let d := s .resident [] [(3, {})]
     ctxMatch a (ctxHandle a 4) && (killOf a 3).any (fun k => k.stage == .stops && allStopped (e a) k.stopped) &&
     tearOf a 3 == none && ctxMatch b (ctxHandle b 4) && (killOf b 3).any (fun k => k.stage != .stops) && tearOf b 3 == none &&
     ctxMatch c (ctxHandle c 4) && killOf c 3 == none && (tearOf c 3).any (fun x => x.advanced && !x.cleared) &&
     pidStopped (e c) 3 && ctxMatch d (ctxHandle d 4) && killOf d 3 == none && (tearOf d 3).any (fun x => !x.advanced)) = true ∧
    (ctxMatch lostCtx (ctxHandle lostCtx 4) && !(ctx lostCtx 4).stopping) = true := by
  decide +kernel
theorem witness_QueueSignalsApplyOrLoseTheContext :
    (let h := ctxHandle busy 4
     let e := enterCommit busy h
     ctxMatch busy h && !commitHeld busy h && fenceMatch e (fenceHandle busy 0) && !fenceMatch e 7 &&
     (fence e 0).pid == 3 && (signalFence e (fenceHandle busy 0) 6 0 6144).2 != .oooStrict) = true ∧
    (let s := { busy with part := { busy.part with fences := [(0, { fence busy 0 with strict := true })] } }
     let e := enterCommit s (ctxHandle s 4)
     fenceMatch e (fenceHandle s 0) && (signalFence e (fenceHandle s 0) 5 0 6144).2 == .oooStrict) = true ∧
    (let s := killing3 .run
     let h := ctxHandle s 4
     ctxMatch s h && (ctx s 4).state == .resident && commitHeld s h) = true ∧
    ((ctx busy 9).state == .free && (ctx lostCtx 4).state == .lost && (ctx runs4 4).state == .resident &&
     (ctx runs4 4).phase == .run && (ctx busy 40).state == .evicted && busy.cmd.waits.isEmpty && runs4.cmd.waits.isEmpty)
      = true := by
  decide +kernel
theorem witness_KillGoesOnWhenCommitsDrain :
    ((killOf (killing3 .commit) 3).any (fun k => k.stage == .commits) &&
     (ctxsOf (killing3 .commit) 3).any (fun i => (ctx (killing3 .commit) i).phase == .commit) &&
     (killOf (killing3 .none) 3).any (fun k => k.stage == .commits && allStopped (killing3 .none) k.stopped) &&
     !(ctxsOf (killing3 .none) 3).any (fun i => (ctx (killing3 .none) i).phase == .commit) &&
     (ctxsOf (killing3 .none) 3).all (fun i => (ctx (killing3 .none) i).phase != .run) &&
     (ctxsOf (killing3 .run) 3).any (fun i => (ctx (killing3 .run) i).state == .resident && (ctx (killing3 .run) i).phase == .run) &&
     !(ctxsOf (killing3 .run) 3).any (fun i => (ctx (killing3 .run) i).phase == .commit)) = true := by decide +kernel
theorem witness_TdispMovesTheInterface :
    (dsmUp (dsm .unlocked) && dsmUp (dsm .locked) && active (dsm .unlocked) 3 && (part (dsm .unlocked) 3).conf &&
     ideReady (dsm .unlocked) 2 && !(dsm .unlocked).keys.entFailed && (tdi (dsm .locked) 3).nonce == 0 &&
     (tdi (dsm .run) 3).state == .run) = true := by decide +kernel
theorem witness_IdeKmProgramsAndStopsKeys :
    (dsmUp (dsm .unlocked) && (freeSlots (dsm .unlocked)).head? == some 8 &&
     ideSlot (dsm .unlocked) 16 ⟨0, true⟩ == none && tdisOn (dsm .unlocked) 16 == []) = true ∧
    (let s : State := { dsm .unlocked with part := { (dsm .unlocked).part with ide := [(16, { keys := [(⟨0, true⟩, 9)] })] } }
     dsmUp s && ideSlot s 16 ⟨0, true⟩ == some 9 && !(slot s 9).bad) = true ∧
    tdisOn { dsm .locked with part := { (dsm .locked).part with tdi := [(3, { state := .locked, stream := some 2 })] } } 2 = [3] := by
  decide +kernel
theorem witness_HostAndTileEvents :
    (let m : Tlp := { fn := 31, toMem := true }
     let c : Tlp := { fn := 3, toMem := false, cfg := true }
     let s : State := { conf with part := { conf.part with tdi := [(3, { state := .run, lockMsix := true })] } }
     m.stream.isNone && m.cpl.isNone && m.reg.isNone && m.toMem && !active base 31 && (tdi base 31).state == .unlocked &&
     (tdi s 3).state == .run && !m.cfg && c.cpl.isNone && c.reg.isNone && c.assoc.isNone && !c.toMem && c.cfg &&
     (tdi s 3).lockMsix && (1 : BitVec 11) != curGen base 3 && (tdi base 3).state == .unlocked) = true ∧
    (curGen base 3 == 0 && !active base 31 && (tdi base 31).state == .unlocked && (tdi base 0).state == .unlocked &&
     tileOwner base 287 == 0) = true ∧
    (tileOwner { base with part := { base.part with parts := [(3, { state := .active, ctag := 6144, tiles := 3 })] } } 1 == 3) =
      true := by decide +kernel
/-- TLPs on stream 2: the TDI of PID 3 is in RUN there, and another function's TLP may come the same way. -/
theorem witness_tlps_on_a_stream :
    (let x : IdeKey := ⟨0, false⟩
     let m : Tlp := { fn := 3, stream := some 2, toMem := true, tbit := true }
     let c : Tlp := { fn := 3, stream := some 2, tbit := true, cpl := some 0, toMem := true }
     let p : Tlp := { fn := 3, stream := some 2, toMem := false, tbit := false }
     let o : Tlp := { fn := 0, stream := some 2, toMem := true }
     ideSlot conf 2 x == none && ideSlot sealed 2 x == some 20 && ideInUse sealed 2 x == some 4 &&
     (tdi sealed 3).state == .run && (tdi sealed 3).stream == some 2 && active sealed 3 && m.cpl.isNone && m.reg.isNone &&
     m.req.isNone && !m.cfg && c.cpl == some (curGen sealed 3) && ({ m with req := some rd10 } : Tlp).req.isSome &&
     p.cpl.isNone && p.reg.isNone && !p.toMem && (tdi sealed 0).state == .unlocked && tenantStream sealed (some 2) &&
     o.cpl.isNone && o.reg.isNone) = true ∧
    slotDead sealed 20 = false ∧
    (∀ t : Tlp, let b := Config.ideSeal 4 0 (ideUsed sealed 2 ⟨0, false⟩) (Config.tlpIn t)
      ∃ i : IdeTlp, i.sub = 0 ∧ i.mac = Config.ideMac 4 0 (ideUsed sealed 2 ⟨0, false⟩) i.bytes ∧ i.bytes = b) ∧
    (∀ b : Bytes, ∃ i : IdeTlp, i.sub = 0 ∧ i.bytes = b ∧
      i.mac ≠ Config.ideMac 4 0 (ideUsed sealed 2 ⟨0, false⟩) i.bytes) :=
  ⟨by decide +kernel, slotDead_good sealed 20 (.inl ⟨4, policy .ide .hostIde 3 0 0, rfl⟩) rfl,
    fun t => ⟨{ sub := 0, mac := Config.ideMac 4 0 (ideUsed sealed 2 ⟨0, false⟩) (Config.ideSeal 4 0 (ideUsed sealed 2 ⟨0, false⟩)
      (Config.tlpIn t)), bytes := Config.ideSeal 4 0 (ideUsed sealed 2 ⟨0, false⟩) (Config.tlpIn t) }, rfl, rfl, rfl⟩,
    fun b => ⟨{ sub := 0, mac := Config.ideMac 4 0 (ideUsed sealed 2 ⟨0, false⟩) b + 1, bytes := b }, rfl, rfl, by
      simp only
      generalize Config.ideMac 4 0 (ideUsed sealed 2 ⟨0, false⟩) b = m
      bv_omega⟩⟩
/-- TLPs of no stream that read where BAR0 has the pages, in a gap of it, and on the pages of functions. -/
theorem witness_register_reads :
    (barPlace 0 0x4000004 == some (.operator, 4) && barPlace 0 0x4010000 == some (.tarn, 0) &&
     barPlace 0 0x41FFFFC == some (.rest, 0x1EEFFC) && barPlace 0 0x4200000 == none && barPlace 3 0x1000 == none &&
     active base 3 && !(part base 3).conf && !active base 31 && (tdi base 3).state == .unlocked &&
     (tdi base 31).state == .unlocked) = true := by decide +kernel
/-- A page whose entry the engine's re-tag holds, or that a failed walk has made bad, is told from one it has not. -/
theorem witness_pot_sectors_that_wait :
    ({ page := 10, version := 0, tag := 0, client := 0, held := true } : Walk).held = true ∧ potBusy (change {}) 10 = false ∧
    potBadPage base 10 = false ∧ (pot base 20).state = .live ∧ potBadPage { base with mem := { base.mem with potBad := [0] } } 10 = true := by
  decide +kernel
/-- An overflow of the leaf line of a Fresh POT sector makes its pages' table busy; the state with such an entry is any. -/
theorem witness_pot_busy (s : State) (page l : Nat) (x : Pot) (hx : pot s (sectorPage (potSector s page)) = x)
    (hf : x.mode = .fresh) (hs : x.fslot < 131072) (h : l = leafOf s (potSector s page) x.fslot) :
    potBusy (withEng s { ovfs := [{ line := l, old := 0, entry := 0, client := 0, todo := [] }] }) page = true := by
  have hl := leafOf_level s (potSector s page) x.fslot hs
  rw [← h] at hl
  have h1 : ∀ m, pot (withEng s m) (sectorPage (potSector (withEng s m) page)) = x := fun _ => hx
  have h2 : ∀ m, leafOf (withEng s m) (potSector (withEng s m) page) x.fslot = l := fun _ => h.symm
  have h3 : ∀ m k, mx (withEng s m) (engineOf (withEng s m) k) = m := fun m k => tget_eng8 m (engineOf_lt _ _)
  unfold potBusy lineBusy
  simp [h1, h2, h3, hf, isUnder, hl.1]
theorem witness_PageCommandsChangeEveryPageOrNone :
    (let s := { base with mem := { base.mem with pot := base.mem.pot ++ [(30, { clean := true }), (31, { clean := true })] } }
     passes opMapPages s (oper3 [(16, 30), (20, 2), (22, 1), (24, 768)]) (fun k _ => present0 k 3 && spanAll 30 2 fun q =>
       (pot k q).state == .free && !changing k q && (pot k q).clean) &&
     passes opMapPages s (oper3 [(16, 31), (20, 2), (22, 1), (24, 768)]) (fun k _ => !(pot k 32).clean) &&
     passes opUnmap s (oper3 [(16, 20), (20, 1)]) (fun k _ => present0 k 3 && allLive k 3 20 1) &&
     passes opUnmap s (oper3 [(16, 21), (20, 1)]) (fun k _ => !allLive k 3 21 1) &&
     passes opMemMode s (oper3 [(16, 20), (20, 1), (22, 3)]) (fun k _ => allLive k 3 20 1 && decide (0 ≤ freshUnused k 3))) = true ∧
    passes opMemMode { base with part := { base.part with parts := [(3, { part base 3 with freshRes := 1 })] } }
      (oper3 [(16, 20), (20, 1), (22, 2)]) (fun k _ => decide (1 ≤ freshUnused k 3)) = true := by decide +kernel
theorem witness_ChangedEntriesAreWrittenThenFilled :
    (let c : Change := { new := livePage 0 .seal }
     let f : Change := { c with filling := true }
     let v : Change := { new := { pid := 3, mode := .fresh, state := .live } }
     let atStart := fun (c : Change) =>
       ((change c).mem.changes.find? fun x => x.1 == 10) == some (10, c) && !c.filling && !c.torn && !pageBusy (change c) 10 &&
       ((change c).mem.changes.all fun x => x.2.todo.isEmpty) &&
       potAtHand (retireDarn (change c) 10) 10 (if c.new.state == .live then { c.new with state := .fill } else c.new) &&
       (change c).mem.mx.isEmpty && (change c).cmd.waits.isEmpty
     atStart c && atStart { new := { pid := 3 } } && atStart v && c.new.mode != .fresh && v.new.mode == .fresh &&
     !({ change v with mem := { (change v).mem with potLive := false } }).mem.potLive &&
     pageBusy (withEng (change c) { reqs := [{ rid := 0, req := rd10, gen := 0, left := 1 }] }) 10 &&
     ({ c with torn := true } : Change).torn && f.filling && f.todo.isEmpty && !({ f with todo := [9] } : Change).todo.isEmpty)
      = true := by decide +kernel
/-- While the POT is not in memory its entries can always be written, and a fill leaves it so. -/
theorem witness_entries_at_hand (s : State) (page : Nat) (c : Change) (x : Pot) (h : s.mem.potLive = false) :
    potAtHand (fillPage s page c) page x = true ∧ potAtHand (retireDarn s page) page x = true := by
  have h1 := (onlyMx_fillPage s page c).table.2.1
  have h2 := (onlyMx_retireDarn s page).table.2.1
  simp [potAtHand, h1, h2, h]
/-- The first leaf lines of a page whose Fresh slot is not the POT's are not at hand in empty caches. -/
theorem witness_leaves_not_at_hand (p : Nat) (h : p ∈ leavesOf (change {}) 10 700) :
    cairnHas (retireDarn (change {}) 10) p = false := by
  simp only [leavesOf, List.mem_map, List.mem_range] at h
  obtain ⟨g, _, rfl⟩ := h
  have hl := leafOf_level (change {}) (10 * pageSectors + 64 * g) 700 (by omega)
  have hp : pinLine (leafOf (change {}) (10 * pageSectors + 64 * g) 700) = false := by
    simp only [pinLine, hl.1, hl.2.1, hl.2.2, beq_self_eq_true, if_true, Bool.true_and]
    exact decide_eq_false (by omega)
  simp only [cairnHas, cairnGet, hp]
  rfl
theorem witness_RequestsAreDecidedInOrder :
    (shapeOk base rd10 && decideNow base rd10 == .grant && !shapeOk base { rd10 with op := 4 } &&
     shapeOk base { rd10 with addr := 0x2800000, pid := 3, gen := 1, mport := 5 } &&
     decideNow base { rd10 with addr := 0x2800000, pid := 3, gen := 1, mport := 5 } == .stale &&
     decideNow base { rd10 with addr := 0x2800000, pid := 3, mport := 5 } == .grant &&
     decideNow base { rd10 with addr := 0x2800000 } == .deny && isDebug 0xC8 && !dbgHolds base 0 && reqShaped rd10 &&
     commitHeld (killing3 .run) (ctxHandle (killing3 .run) 4) && ctxMatch busy (ctxHandle busy 4) && (portRights 5).isSome && (portRights 0xFF).isNone &&
     shapeOk base { rd10 with size := 255 } && !shapeOk base { rd10 with addr := 0x1400001, size := 255 }) = true ∧
    (let s := { base with mem := { base.mem with pot := [(10, { livePage 3 .seal with rights := 0x100 })] } }
     let r := { rd10 with pid := 3, mport := 5 }
     decideNow s r == .deny && decideNow s { r with op := 1 } == .grant && decideNow s { r with op := 3, size := 7 } == .deny)
      = true := by decide +kernel
theorem witness_RequestsAreAnsweredOrParked (e : Nat) (h : e < 8) :
    (let s := withEng base { cache := [(10, livePage 0 .seal), (20, livePage 3 .seal)] }
     let full := withEng base { missq := List.replicate 32 { req := rd10 } }
     reqShaped rd10 && rd10.ctx == 0 && !ctxMatch s 0 && decideFirst s e rd10 == .grant && decide ((mx s e).missq.length < 32) &&
     decideFirst s e { rd10 with mport := 0xFF } == .deny && decideFirst s e { rd10 with pid := 3, gen := 1 } == .stale &&
     decideFirst base e rd10 == .stall && cached base e 10 == none && (mx full e).missq.length == 32 &&
     changing (change {}) 10 && !changing base 10) = true := by
  interval_cases e <;> decide +kernel
theorem witness_WalksResolveMisses (e : Nat) (h : e < 8) :
    (let w : Walk := { page := 10, version := 0, tag := 0, client := 0 }
     ((mx (withEng base { walks := [w] }) e).walks.find? fun x => x.page == 10) == some w && !w.again &&
     ((mx (withEng base { walks := [{ w with again := true }] }) e).walks.find? fun x => x.page == 10).isSome &&
     ((mx base e).walks.find? fun x => x.page == 10) == none && !changing base 10 && changing (change {}) 10) = true := by
  interval_cases e <;> decide +kernel

theorem witness_ReadSectorsAreOpenedOrPoisoned (e : Nat) (h : e < 8) :
    (let s := reading .seal []
     let m := mx s e
     (m.cairn.all fun c => !c.leaving) && (s.mem.changes.all fun c => c.2.todo.isEmpty) && m.wants.isEmpty && m.ovfs.isEmpty &&
     (m.ops.map fun o => (o.rid, o.sector, o.issued, o.ct, o.full)) == [(0, 0x28000, true, none, false)] &&
     (m.reqs.map fun q => (q.rid, q.left, q.got, q.bad, q.who, q.req.op, q.gen)) == [(0, 1, [], [], .master, 0, curGen s 0)] &&
     m.darn.isEmpty && s.mem.muted.contains 0 && rd10.ctx == 0 && !ctxMatch s 0 &&
     !granBad s 0x28000 && granBad (reading .seal [10 * 256]) 0x28000 && (pot s (sectorPage 0x28000)).mode == .seal &&
     (pot (reading .mangle []) (sectorPage 0x28000)).mode == .mangle &&
     (let w : Want := { pl := tagBase, client := 3 }
      let t := withEng base { wants := [w] }
      awaited t tagBase == some (3, false) && awaited t 5 == none && !isLine tagBase && (mx t e).wants == [w] &&
      (mx t e).cairn.isEmpty && (mx t e).pinned.isEmpty && (mx t e).ops.isEmpty && !(mx t e).again.contains tagBase)) = true := by
  interval_cases e <;> decide +kernel
/-- Its place is that of a sector that a controller returns, and a tag may be at hand. -/
theorem witness_read_place :
    ∃ (pkg : Fin 32) (sec : BitVec 29), dataPlace (reading .seal []) 0x28000 = placeAt pkg.val sec.toNat := by
  obtain ⟨a, b, h⟩ := dataPlace_is (reading .seal []) 0x28000
  exact ⟨a, b, h.symm⟩
theorem witness_tag_at_hand (p : Nat) (d : Sector) (hp : p < 2 ^ 34) :
    ∃ tag, tagGet (withEng base { pinned := [(tagPlace p, d)] }) p = some tag := by
  have h : placeEng (tagPlace p) < 8 := by
    unfold tagPlace placeAt placeEng tagBase placePkg placeSec
    omega
  have hm : mx (withEng base { pinned := [(tagPlace p, d)] }) (placeEng (tagPlace p)) = { pinned := [(tagPlace p, d)] } :=
    tget_eng8 _ h
  have hb : ∀ i : Nat, i < 16 → (0xFFFF#16).getLsbD i = true := by decide
  unfold tagGet cairnGet
  simp only [hm]
  simp [hb (placeSec p % 16) (by omega)]
theorem witness_EngineTimersAndBudgets :
    (let s := withEng base { window := 5 }
     let w := withEng base { window := 1, late := [⟨9, false, 0⟩] }
     (mx s 2).ovfs.isEmpty && (mx s 2).window != s.tarn.now + 1 && (mx w 2).window == w.tarn.now + 1 &&
     (mx w 0).late.all (fun o => o.pl == 9 && decide (w.tarn.now < o.since + 8)) && decide (0 + 8 ≤ (atTime 8 w).tarn.now) &&
     (mx retagging1 0).ovfs.all (fun v => lineLevel v.line != 0 && v.got.isEmpty && !v.todo.any (ovfLacks v)) &&
     (mx retagging1 0).wants.isEmpty && (mx retagging1 0).ops.isEmpty && (mx retagging1 0).cairn.isEmpty &&
     retagging1.mem.changes.isEmpty && (cairnGet retagging1 level1Base).isSome &&
     (cairnGet retagging1 (childOf level1Base 1)).isSome) = true ∧
    (passes opFreshReserve base (oper3 [(16, 131064)]) (fun k _ => present0 k 3 && freshReserved k == 0) &&
     passes opFreshReserve base (oper3 [(16, 131065)]) (fun k _ => present0 k 3 && freshReserved k == 0) &&
     passes opFreshReturn { base with part := { base.part with parts := [(3, { part base 3 with freshRes := 4 })] } }
       (oper3 [(16, 4)]) (fun k _ => present0 k 3) &&
     passes opRegBudget base (oper3 [(16, 0x81), (17, 0), (18, 1764)])
       (fun k _ => [0, 7].all fun e => budgetFits k e (budgetClient (oper3 []).body) 1764) &&
     passes opRegBudget base (oper3 [(16, 0x81), (17, 0), (18, 1765)])
       (fun k _ => !budgetFits k 0 (budgetClient (oper3 []).body) 1765)) = true := by decide +kernel
/-- A re-tag that has read what it asked for lacks nothing; one that has read nothing lacks its first place. -/
theorem retag_lacks (p : Nat → Nat) (n : Nat) (v : Ovf) (h : v.todo = (List.range n).map p) :
    (v.got = (List.range n).map (fun k => (p k, 0)) → v.todo.any (ovfLacks v) = false ∧
      ∀ k, k < n → v.got.any (fun g => g.1 == p k) = true) ∧
    (v.got = [] → 0 < n → v.todo.any (ovfLacks v) = true) := by
  refine ⟨fun hg => ?_, fun hg hn => ?_⟩
  · have hk : ∀ k, k < n → v.got.any (fun g => g.1 == p k) = true := fun k hk =>
      List.any_eq_true.mpr ⟨(p k, 0), by rw [hg]; exact List.mem_map.mpr ⟨k, List.mem_range.mpr hk, rfl⟩, beq_self_eq_true _⟩
    refine ⟨List.any_eq_false.mpr fun x hx => ?_, hk⟩
    rw [h] at hx
    obtain ⟨k, hm, rfl⟩ := List.mem_map.mp hx
    simp [ovfLacks, hk k (List.mem_range.mp hm)]
  · refine List.any_eq_true.mpr ⟨p 0, by rw [h]; exact List.mem_map.mpr ⟨0, List.mem_range.mpr hn, rfl⟩, ?_⟩
    simp only [ovfLacks, hg, h, Bool.and_eq_true]
    exact ⟨List.contains_iff_mem.mpr (List.mem_map.mpr ⟨0, List.mem_range.mpr hn, rfl⟩), rfl⟩
/-- What the re-tag of a leaf line reads and rewrites, at hand or not. -/
theorem witness_retag :
    (let s := retagging true
     (mx s 0).wants = [] ∧ (mx s 0).ops = [] ∧ (mx s 0).cairn = [] ∧ s.mem.changes = [] ∧ (mx s 0).darn = [] ∧
     (pot s (sectorPage 0x28000)).fslot < 131072 ∧ lineLevel leafBase = 0 ∧ 0x28000 % 64 = 0 ∧
     s.mem.muted.contains (pot s (sectorPage 0x28000)).pid = true) ∧
    (∀ i, i < 4 → isLine (tagPlace (dataPlace base (0x28000 + 16 * i))) = false) ∧
    (∀ b, (mx (retagging b) 0).ovfs = [ovf10 b]) ∧
    ((ovf10 true).todo.any (ovfLacks (ovf10 true)) = false ∧
      ∀ k, k < 64 → (ovf10 true).got.any (fun g => g.1 == dataPlace base (0x28000 + k)) = true) ∧
    (ovf10 false).todo.any (ovfLacks (ovf10 false)) = true :=
  ⟨by decide +kernel, fun i hi => tagPlace_data _ _ (by simp only [sectorPage, pageSectors]; omega), fun _ => rfl,
    (retag_lacks (fun k => dataPlace base (0x28000 + k)) 64 _ rfl).1 rfl,
    (retag_lacks (fun k => dataPlace base (0x28000 + k)) 64 _ rfl).2 rfl (Nat.succ_pos _)⟩
theorem witness_RinseTicketsRunInOrder :
    (let s := { base with mem := { base.mem with tickets := [{ id := 7, first := 30, count := 2 }] } }
     let r := { base with mem := { base.mem with tickets := [{ id := 7, first := 30, count := 2, state := .running }] } }
     let b := { base with mem := { base.mem with tickets := [{ id := 7, first := 20, count := 2, state := .running }] } }
     passes opRinse base (oper [(16, 30), (20, 2)]) (fun k _ => k.range.memb != .quarantined && allFree k 30 2 &&
       decide ((liveTickets k).length < 16)) &&
     passes opRinse { base with mem := { base.mem with tickets := (List.range 16).map fun i => { id := i, first := 0, count := 1 } } }
       (oper [(16, 30), (20, 2)]) (fun k _ => decide (16 ≤ (liveTickets k).length)) &&
     passes opRinseStatus s (oper [(16, 7)]) (fun k _ => (k.mem.tickets.find? fun y => y.id == 7).isSome) &&
     (s.mem.tickets.find? fun y => y.state == .queued).isSome && !s.keys.entFailed &&
     !(s.mem.tickets.any fun y => y.state == .running) && decide (0 + 1 < 2) && decide (2 ≤ 1 + 1) &&
     (r.mem.tickets.find? fun y => y.state == .running).isSome && r.mem.mx.isEmpty && (pot r 30).state == .free &&
     !changing r 30 && (pot b 20).state != .free && (pot b (20 + 1)).state == .free) = true := by decide +kernel
/-- The rinse leaves the POT in memory or not. -/
theorem witness_rinse_entry (s : State) (l : List (Nat × Sector)) (page : Nat) (x : Pot) (h : s.mem.potLive = false) :
    potAtHand (retireDarn (mcWriteAll s 32 l) page) page x = true := by
  have h1 := ((onlyMx_mcWriteAll s 32 l).trans (onlyMx_retireDarn _ page)).table.2.1
  simp [potAtHand, h1, h]

/-! ## Witnesses: ports, frames, remote requests -/

theorem witness_PortCommandsFollowThePortState :
    (passes opLinkOpen (linked {}) (oper [(16, 0), (18, 70), (20, 35), (21, 15), (22, 32)])
       (fun k _ => (link k 0).state == .off && inRange k && rkBad k k.range.epoch.toNat == none) &&
     passes opLinkOpen (linked { kept := some (7, 9) }) (oper [(16, 0), (18, 70)]) (fun k _ => (link k 0).kept == some (7, 9)) &&
     passes opLinkOpen { linked {} with keys := { base.keys with slots := [(2, { bad := true })] } } (oper [(16, 0), (18, 70)])
       (fun k _ => (link k 0).state == .off && inRange k && (rkBad k k.range.epoch.toNat).isSome) &&
     passes opLinkOpen (linked up) (oper [(16, 0), (18, 70)]) (fun k _ => (link k 0).state != .off) &&
     passes opLinkClose (linked up) (oper [(16, 0)]) && passes opLinkClose (linked { state := .down }) (oper [(16, 0)]) &&
     passes opLinkClose (linked {}) (oper [(16, 35)]) (fun k _ => (link k 35).state == .off) &&
     passes opLinkShare (linked up) (oper3 [(16, 0), (18, 32)])
       (fun k _ => shareSum { link k 0 with shares := [(3, 32)] } == 32) &&
     passes opLinkShare (linked { up with transit := 1 }) (oper3 [(16, 0), (18, 32)])
       (fun k _ => decide (32 < shareSum { link k 0 with shares := [(3, 32)] })) &&
     passes opLinkAdmit base (oper [(16, 0)]) 
       (fun k _ => !inRange k && polClass (slot k 6).policy == 0 && !k.keys.entFailed && (link k 0).state == .off &&
         readBad k [0, 1] == none && (freeDerived k).head? == some 8) &&
     passes opLinkAdmit { base with keys := { base.keys with slots := [(6, { policy := policy .agreed .derivation 0 0 0 })] } }
       (oper [(16, 0)]) (fun k _ => !inRange k && polClass (slot k 6).policy != 0) &&
     passes opLinkAdmit { base with keys := { base.keys with entFailed := true } } (oper [(16, 0)]) (fun k _ => k.keys.entFailed) &&
     passes opLinkAdmit (linked {}) (oper [(16, 0)])
       (fun k _ => inRange k && (freeDerived k).head? == some 8 && k.range.relays.isEmpty) &&
     passes opLinkAdmit { linked {} with range := { summit.range with relays := List.replicate 4 { port := 35, slot := 8 } } } (oper [(16, 0)])
       (fun k _ => inRange k && decide (4 ≤ k.range.relays.length)) &&
     passes opLinkAdmit (linked up) (oper [(16, 0)]) &&
     passes opLinkRekey (linked { up with txNext := some ⟨7, 1, 3⟩ }) (oper [(16, 0)]) &&
     passes opLinkRekey (linked {}) (oper [(16, 0)]) && passes opLinkRekey (linked up) (oper [(16, 0)]) &&
     passes opLinkRekey (linked { up with txNext := some ⟨7, 1, 3⟩, lastFlip := some 0 }) (oper [(16, 0)])
       (fun k _ => decide (now k < 10000)) &&
     passes opLinkScree (linked up) (oper [(16, 0), (17, 1), (18, 1)])) = true := by decide +kernel
theorem cell_opens : openWire ⟨7, 0, 2⟩ cellWire = some cell := by
  rw [cellWire, Sys2Proof.Laws.openWire_sealWire _ _ _ _ _ (by decide) (by decide)]
  exact congrArg some (by decide +kernel)
theorem witness_FramesAreVerifiedInOrder :
    ((link (linked {}) 0).state == .off && (link (linked up) 0).state == .opened &&
     selectKey up cellWire.clear == some (⟨7, 0, 2⟩, false) && selectKey { up with rxCur := none } cellWire.clear == none &&
     selectKey up { cellWire.clear with epoch := 8 } == none &&
     !winRejects (winOf up 7) 9 && clearOk (linked up) 0 cellWire.clear && cell.cls == clsScree && cell.len == 0 &&
     !clearOk (linked up) 0 { cellWire.clear with hver := 2 } && !(winOf up 7).valid && (linked up).alarm.hist.isEmpty &&
     winRejects { epoch := 7, valid := true, top := 1033 } 9 && !winRejects { epoch := 7, valid := true, top := 1032 } 9) = true ∧
    openWire ⟨7, 0, 2⟩ cellWire = some cell ∧ cell.srcNode.toNat ≠ summit.range.nodeId ∧
    some (cellWire.clear.epoch, cellWire.clear.seq) ≠ some (7, 10) ∧
    (let s := linked { up with retrying := some (cellWire.clear.epoch, cellWire.clear.seq) }
     s.boot.rdy = true ∧ clearOk s 0 { cellWire.clear with hver := 2 } = false ∧
     (link s 0).retrying = some (cellWire.clear.epoch, cellWire.clear.seq)) ∧
    ((link (linked up) 0).rxPrev = false ∧ cell.age.toNat + up.cableDly < 160 ∧ 160 ≤ cell.age.toNat + 160) := ⟨by decide +kernel, cell_opens, by decide, by decide, by decide +kernel, by decide⟩
theorem witness_VerifiedFramesReachTheirConsumers :
    (let s := peer70
     let i : Inner := { cls := clsStore, srcNode := 70, dstNode := 5, srcPtag := 6144, dstPtag := 6144 }
     let g := storeIn
     let d := g.desc
     let ok := fun (s : State) (g : Ingress) => tagCurrent s g.dptag && pidPresent s (tagPid g.dptag) &&
       peerAdmits s (tagPid g.dptag) g.src g.sptag && opOk g && !outsideQuad s g && !notOwner s g && !lostStream s g
     let atom : Ingress := { g with cls := clsAtomic, desc := { d with op := 1, id40 := 9 } }
     let str := fun (op : BitVec 8) => ({ g with cls := clsStream, desc := { d with op := op, stream := 7 } } : Ingress)
     let seam : Ingress := { g with cls := clsSeam, desc := { d with op := 1, id40 := 2, stream := 7 } }
     let note := fun (n k : Nat) => ({ g with cls := clsOwn, desc := { d with op := 1, size := 15 },
                                               data := bytesOf 16 [(0, n), (2, k)] } : Ingress)
     let sig : Ingress := { g with cls := clsOwn, desc := { off := 0, op := 3, size := 15 },
                                   data := bytesOf 16 [(0, (fenceHandle s 0).toNat), (4, 6)] }
     let open7 : State := { s with ridge := { s.ridge with streams := [(7, { used := true, src := 70, sptag := 6144, dptag := 6144 })] } }
     let load : LoadEnt := { req := far clsLoad 1 7, node := 70, tag := 9 }
     let resp : Inner := { i with cls := clsResp, payload := descBytes { op := kLoad, id40 := 9 } ++ zeros 8 }
     i.dstNode.toNat == s.range.nodeId && s.range.nodeId != 70 && s.cmd.rangeQ.length == 0 && !tagCurrent s 6145 &&
     ok s g && ok s { g with cls := clsLoad } && ok s { g with cls := clsBulkRd } && ok s { g with cls := clsBulkWr } &&
     ok s atom && amoOk atom && retryHit s atom == none && ok s (str 1) && ok open7 (str 2) && ownsStream open7 (str 2) &&
     ok open7 seam && ownsStream open7 seam && segGet (stream open7 7).hold false == none &&
     lostStream s seam && !peerAdmits s 3 71 6144 && stageFlits s 0 + 1 ≤ 32 && g.cls != clsFold &&
     decide (lowest (fun n => (stream s n).used) 4095 0 < 4095) && ok s (note 5 1) && ok s (note 0 0) &&
     le (note 5 1).data 0 2 == 5 && le (note 5 1).data 2 1 == 1 && le (note 5 1).data 3 13 == 0 && le (note 0 0).data 2 1 == 0 &&
     (note 5 1).desc.off.toNat % 2097152 == 0 &&
     ok s sig && le sig.data 13 3 == 0 && le sig.data 12 1 ≤ 14 && fenceMatch s (fenceHandle s 0) && (fence s 0).pid == 3 &&
     BitVec.ofNat 32 (le sig.data 0 4) == fenceHandle s 0 && resp.cls == clsResp && (descOf resp.payload).op == kLoad &&
     (descOf resp.payload).status == 0 && s.rmt.held.isEmpty &&
     loadEnt { s with rmt := { s.rmt with loads := [load] } } (descOf resp.payload).id40 resp.srcNode.toNat clsLoad == some load)
      = true ∧
    (let s : State := { peer70 with cmd := { peer70.cmd with rangeQ := List.replicate 64 ⟨9, 36, ⟨0x81, 0, {}⟩⟩ } }
     64 ≤ s.cmd.rangeQ.length) ∧
    (let a : Ingress := { storeIn with cls := clsAtomic, retry := true, desc := { storeIn.desc with op := 1, id40 := 9 } }
     let l : Link := { up with replay := [{ src := 70, sptag := 6144, id := 9, result := some 5, at_ := 0 }] }
     retryHit { peer70 with ridge := { links := [(0, l)] } } a = some 5) := by decide +kernel
/-- With every stream in use the next number is past the last. -/
theorem witness_streams_full (used : Nat → Bool) (h : ∀ n, used n = true) (f i : Nat) : lowest used f i = i + f := by
  induction f generalizing i with
  | zero => rfl
  | succ f ih => simp [lowest, h, ih]; omega
theorem witness_FrameStartsSealInOrder :
    (let l := { up with ctlq := [ctrlFrame (linked up) 0 0 false], ctlBucket := 128, shares := [(3, 32)], credits := ⟨4, 4, 4, 4⟩ }
     let f : OutFrame := { client := 3, inner := { cls := clsLoad, srcNode := 5, dstNode := 70, payload := zeros 16, len := 16 } }
     let t : Transit := { via := 2, flits := 1, inner := { cls := clsLoad, srcNode := 9, dstNode := 70, age := 100 } }
     up.screeCad == 0 && up.txCur.isSome && up.ctlq.isEmpty && decide (128 ≤ l.ctlBucket + 0) && l.ctlq.length == 1 &&
     l.txCur.isSome && l.txNext.isNone && hasCredits l f.inner.cls f.flits && decide (flitsFor f.inner.payload.length ≤ f.flits) &&
     decide (f.flits * 64 ≤ tget 0 (fillBuckets l 2).buckets 3) && f.inner.cls != clsSeam &&
     flipIsDue (linked l) { up with flipDue := true } && !flipIsDue (linked l) up &&
     decide (160 ≤ t.inner.age.toNat + quarters 100000) && decide (t.inner.age.toNat + quarters 0 < 160) &&
     hasCredits l t.inner.cls (flitsFor t.inner.payload.length) && t.inner.cls != clsRange &&
     decide (handedAge (fillBuckets l 7) ⟨t, 3, 0⟩ < 160) && l.transitq.isEmpty && base.boot.rdy && f.track == 0 &&
     ({ up with screeCad := 1 } : Link).screeCad != 0 && !({ up with transitq := [⟨t, 3, 0⟩] } : Link).transitq.isEmpty &&
     ({ l with state := .admitting, closing := true } : Link).closing && poolOf t.inner.cls == 1) = true := by
  decide +kernel
theorem witness_PortTimersActAtTheirTime :
    (let s := linked up
     let due := atTime 60000000 (linked { up with txFirst := some 0 })
     let prev := atTime 1000 (linked { up with rxPrev := true, rxOther := some ⟨7, 1, 3⟩ })
     now due == 60000000 && (link due 0).txFirst == some 0 && now (atTime 59999999 due) == 59999999 &&
     up.txNext.isNone && up.rxOther.isNone && nextEpoch s == 7 && (link prev 0).rxPrev && !prev.range.retiring &&
     decide (now (atTime 999 prev) < 1000) && decide (now (atTime 9 s) < 10) && decide (now (atTime 39 s) < 40) &&
     !inRange { s with range := { s.range with memb := .unbound } } &&
     (link (linked { up with state := .probing }) 0).state == .probing && decide (now (atTime 999 s) < 1000) &&
     (link (linked { up with state := .admitting }) 0).state == .admitting && decide (now (atTime 19999999 s) < 20000000) &&
     (link (linked { up with closing := true }) 0).closing && up.ctlq.isEmpty &&
     decide (now (atTime 49 s) < 50) && up.transitq.isEmpty && rkBad s 7 == none && !({ up with ctlq := [ctrlFrame s 0 0 false] } : Link).ctlq.isEmpty &&
     (link (linked { up with retrying := some (7, 9) }) 0).retrying.isSome) = true := by decide +kernel
theorem witness_IngressSeamsAndStreamsInTime :
    (decide (160 ≤ storeIn.age + 4 * (now (atTime 40 base) - 0)) && decide (storeIn.age + 4 * (now (atTime 39 base) - 0) < 160) &&
     storeIn.pos == 0 && ({ storeIn with pos := 8 } : Ingress).pos != 0) = true ∧
    ((segGet (stream (seamed 2 false 0) 7).hold false).any (fun h => h.req.desc.id40.toNat == 2 && kindOf h.req.desc.op == 1) &&
     segGet (stream (seamed 2 true 0) 7).fault false && segGet (stream (seamed 1 false 0) 7).landed false == 1 &&
     now (atTime 1000 (seamed 1 false 0)) == 1000 && decide (now (atTime 999 (seamed 1 false 0)) < 0 + 1000)) = true ∧
    (let s := atTime 10000 { base with ridge := { streams := [(7, { used := true })] } }
     (stream s 7).used && (stream s 7).landed == (0, 0) && (stream s 7).hold == (none, none) && now s == 10000 &&
     decide (now (atTime 9999 s) < (stream s 7).idleAt + 10000)) = true := by decide +kernel
theorem witness_ingress_requests (e : Nat) (h : e < 8) :
    (let r := ingressReq storeIn
     let part_ : SecOp := { rid := 0, sector := 0x50000, full := false }
     let atom : Ingress := { storeIn with cls := clsAtomic, retry := true, desc := { storeIn.desc with id40 := 9 } }
     let s := arrived storeIn []
     let hit := arrived atom []
     let l : Link := { up with replay := [{ src := 70, sptag := 6144, id := 9, result := some 5, at_ := 0 }] }
     let two : State := { s with ridge := { s.ridge with ingress := [storeIn, storeIn] } }
     agedNow { storeIn with age := 160 } 0 && !agedNow storeIn 0 && hotSector (arrived storeIn [part_]) e r && !storeIn.hot &&
     !hotSector s e r && ingressReady s e 0 storeIn && myTurn s e storeIn && !ingressReady two e 1 storeIn &&
     storeIn.cls != clsAtomic && decide (reqLen storeIn ≤ storeIn.pos + pieceLen storeIn 0) &&
     retryHit hit atom == none && retryHit { hit with ridge := { hit.ridge with links := [(0, l)] } } atom == some 5) = true := by
  interval_cases e <;> decide +kernel
/-- The engine of that request takes it, or has no room. -/
theorem witness_ingress_present (q : Parked) :
    (present (arrived storeIn []) q).isSome = true ∧
    present (withEng base { missq := List.replicate 32 { req := rd10 } }) q = none := by
  have h1 : mx (arrived storeIn []) (engineOf (arrived storeIn []) q.req.addr.toNat) = { cache := [(20, livePage 3 .seal)] } :=
    tget_eng8 _ (engineOf_lt ..)
  have h2 := tget_eng8 { missq := List.replicate 32 { req := rd10 } }
    (engineOf_lt (withEng base { missq := List.replicate 32 { req := rd10 } }) q.req.addr.toNat)
  refine ⟨(present_isSome ..).mpr (by rw [h1]; decide), ?_⟩
  have h3 : ¬ (present (withEng base { missq := List.replicate 32 { req := rd10 } }) q).isSome = true := fun hc => by
    have := (present_isSome ..).mp hc
    rw [show mx (withEng base { missq := List.replicate 32 { req := rd10 } }) _ = _ from h2] at this
    simp at this
  simpa using h3

/-! ## Witnesses: remote requests -/

theorem witness_RemoteRequestsAreFormedOrDenied :
    (let s0 := peered
     let st : State := peered { streams := [granted] }
     let counted : SrcStream := { granted with segs := ({ count := 2 }, {}) }
     goesOut s0 (far clsLoad 0 15) && goesOut s0 (far clsLoad 0x11 15) && goesOut s0 (far clsBulkRd 0 255) &&
     goesOut s0 (far clsBulkWr 0 255 (zeros 256)) && goesOut s0 (far clsBulkWr 0 255 (zeros 4033)) &&
     goesOut s0 (far clsStore 0 15 (zeros 16) (List.replicate 16 true)) && goesOut s0 (far clsStore 8 15 (zeros 16)) &&
     goesOut st (far clsStore 0 15 (zeros 16) (List.replicate 16 true)) && goesOut st (far clsSeam 0 15 (zeros 16)) &&
     goesOut s0 (far clsSeam 1 15) && (srcStream s0 3 6).isNone && decide (heldStreams s0 < 4096) &&
     (srcStream st 3 6).any (fun t => t.granted && t.waiting.isEmpty && t.dptag == (peer st 3 6).ptag &&
       (segOf t.segs t.seg).seam.isNone && t.asked && !t.closed) &&
     goesOut (peered { bulk := [{ req := far clsBulkWr 0 255 (zeros 256), node := 6, tag := 0, xfer := 0 }] })
       (far clsSeam 0x32 15 (zeros 16) (List.replicate 16 true)) &&
     (let r := far clsSeam 0x32 15 (zeros 16)
      let e := peered { streams := [counted] }
      goesOut e r && kindOf r.op == 2 && inScope e (scopeOf r.op) 6 && (peer e 3 6).valid && !(peer e 3 6).silent &&
      (peer e 3 6).ptag == counted.dptag && (segOf counted.segs counted.seg).count == 2) &&
     curGen s0 3 != (1 : BitVec 11) && sourceRefuses base (far clsLoad 0 15) 6 &&
     !classAllowed { far clsLoad 0 15 with mport := 0x90 } && !classAllowed (far clsResp 0 15) &&
     ownAddress s0 { far clsLoad 0 15 with flat := 5 * 2 ^ 41 } && base.cmd.waits.isEmpty &&
     (let r := far clsSeam 1 15
      let held := { killing3 .run with range := s0.range, rmt := s0.rmt }
      commits r && commitHeld held (ctxHandle held 4)) && kindOf 1 == 1 && inScope s0 3 6) = true := by decide +kernel
theorem witness_remote_fences_atomics_and_held_requests :
    (goesOut peered { far clsOwn 3 15 with value := 6 } && goesOut peered (far clsAtomic 0 7 (zeros 8)) &&
     !inScope peered (scopeOf 0) 6 && kindOf 8 == 8 && !isTile 0x90 &&
     acquireHolds (peered { acquires := [{ mport := 5, scope := 3, tag := 0, atomic := false, ctx := 0 }] }) (far clsLoad 0 15) 6)
      = true := by decide +kernel
/-- Requests of the chip's own rack-flat addresses, and what holds one back. -/
theorem witness_local_requests :
    (let own := fun (r : RReq) => ({ r with flat := 5 * 2 ^ 41 + 0x1000, node := 5 } : RReq)
     let home := fun (s : State) (r : RReq) => isTile r.mport.toNat && r.cls != clsOwn && inRange s &&
       targetNode s r == s.range.nodeId && classAllowed r && r.gen == curGen s 3
     let b := peered { bulk := [{ req := far clsBulkWr 0 255 (zeros 256), node := 6, tag := 0, xfer := 0 }] }
     let h := peered { held := [far clsLoad 0x31 15] }
     let w := peered { held := [far clsStore 0 15 (zeros 16)] }
     let load := own (far clsLoad 0 15)
     let acq := own (far clsLoad 0x31 15)
     let rel := own (far clsSeam 0x32 15 (zeros 16))
     let amo := own (far clsAtomic 0x31 3 (zeros 4))
     home b load && home b acq && home b rel && home b amo && !keptBack b load && !keptBack b acq && !keptBack b rel &&
     !keptBack b amo && kindOf acq.op == 1 && kindOf rel.op == 2 && scopeOf amo.op != 0 && !keptBack h load &&
     inScope b (scopeOf rel.op) 6 && inScope b (scopeOf amo.op) 6 && isAcquire h (far clsLoad 0x31 15) &&
     inScope h 3 6 && writes (far clsStore 0 15 (zeros 16)) && inScope w 3 6 && keptBack w rel && mustWait h (far clsLoad 0 15) 6)
      = true := by decide +kernel
theorem witness_RemoteTrackersAndOwnership :
    (let s := peered { loads := [{ req := far clsLoad 0 15, node := 6, tag := 4, sealed := some 0 }]
                       bulk := [{ req := far clsBulkWr 0 255, node := 6, tag := 5, xfer := 5, sealed := some 0 }]
                       atomics := [{ req := far clsAtomic 0 7, node := 6, id := 6, sealed := some 0 }]
                       streams := [{ granted with segs := ({ seam := some (far clsSeam 0 15), seamAt := some 0 }, {}) }]
                       releases := [{ num := 1, req := far clsSeam 2 15 }] }
     (s.rmt.loads.find? fun x => x.tag == 4).isSome && past (atTime 1000 s) (some 0) 1000 && !past (atTime 999 s) (some 0) 1000 &&
     (s.rmt.bulk.find? fun x => x.tag == 5).isSome && past (atTime 2000 s) (some 0) 2000 && !past (atTime 1999 s) (some 0) 2000 && s.rmt.held.isEmpty &&
     (s.rmt.atomics.all fun a => !a.retried) && s.rmt.streams.length == 1 &&
     (s.rmt.atomics.find? fun x => x.id == 6).isSome && past (atTime 45 s) (some 0) 45 && !past (atTime 44 s) (some 0) 45 &&
     past (atTime 130 s) (some 0) 130 && !past (atTime 129 s) (some 0) 130 &&
     (srcStream s 3 6).any (fun t => t.granted && t.waiting.isEmpty && (segOf t.segs false).seam.isSome) &&
     past s (some 0) 0 && !past s none 0 && (peer s 3 6).valid &&
     (s.rmt.releases.find? fun x => x.num == 1).any (fun k => releaseReady s k) &&
     (let g : SrcStream := { granted with retryAt := some 0 }
      let e := atTime 5000 (peered { streams := [g] })
      (srcStream e 3 6).any (fun t => t.granted && t.waiting.isEmpty && decide (t.lastUse + 5000 ≤ now e) && t.asked) &&
      past e g.retryAt 0 && stamps e g && !stamps { e with part := { e.part with peers := [] } } g && decide (now (atTime 4999 e) < 0 + 5000)) &&
     (let seam := { far clsSeam 0 15 with value := 9 }
      let w : Release := { num := 1, req := far clsSeam 2 15, waits := [9, 2], bulks := [5] }
      let e := peered { bulk := s.rmt.bulk, releases := [w, { w with num := 2 }]
                        streams := [{ granted with segs := ({ seam := some seam, seamAt := some 0 }, {}) }] }
      (e.rmt.bulk.map (·.xfer)) == [5] && w.bulks.contains 5 && w.waits.contains 2 && (e.rmt.streams.flatMap openSeams) == [seam] &&
      w.waits.contains (seamNum seam) && !releaseReady e w)) = true ∧
    (let s := { base with mem := { base.mem with pot := [(20, { livePage 3 .seal with t4c := true })] },
                          part := { base.part with peers := [(3 * 16384 + 9, { valid := true })] } }
     passes opOwnTransfer s (oper3 [(16, 20), (20, 9)]) (fun k _ => (pot k 20).t4c && (peer k 3 9).valid) &&
     passes opOwnTransfer s (oper3 [(16, 20), (20, 0)]) (fun k _ => k.range.nodeId == 0) &&
     opOwnTransfer.pre s 0 (oper3 [(16, 20), (20, 10)]).body == some .errParam && !(peer s 3 10).valid &&
     opOwnTransfer.pre { s with mem := { s.mem with pot := [(20, { livePage 0 .seal with t4c := true })] } } 0
       (oper3 [(16, 20), (20, 9)]).body == some .errPerm && decide (allPages ≤ 2 ^ 31) &&
     passes opOwnTransfer base (oper3 [(16, 20), (20, 0)]) (fun k _ => !(pot k 20).t4c)) = true := by decide +kernel

/-! ## Witnesses: fold units, keys, boot -/

theorem witness_FoldPlansAreGrantedArmedAndReleased :
    (passes opPlanGrant base (oper3 [(16, 35), (17, 63), (18, 1)]) (fun k _ => active k 3 && tget 0 k.fold.blocks (35 * 64 + 63) == 0 &&
       !unitHolds k 35 3 (fun p => (part k p).conf || (part k 3).conf)) &&
     passes opPlanGrant (folding armed) (oper3 [(16, 0), (17, 1), (18, 2)]) (fun k _ => tget 0 k.fold.blocks 1 != 0) &&
     descClean (desc4 []) && planOk (planOf 3 (desc4 [])) && !planOk (planOf 3 (desc4 [(7, 9)])) &&
     planOk (planOf 3 (desc4 [(7, 33), (30, 0x2A00000)])) && !descClean (desc4 [(46, 1)]) &&
     passes opPlanArm (folding {}) (ten [(16, 0x2800000)] [.data (desc4 [])]) (fun k _ => active k 3 && (plan k 4).state == .free &&
       (planBlocks (planOf 3 (desc4 []))).all (fun x => tget 0 k.fold.blocks x == 4) &&
       decide (0 + 2 * fmtBlocks 0 ≤ 64) && !recorded k 3 0x2A00000 (2 * strideOf 0 32)) &&
     opPlanArm.preMem (folding {}) (ten [(16, 0x2800000)]).body [.data (desc4 [(7, 33), (30, 0x2A00000)])] == some .errPerm &&
     opPlanArm.preMem (folding {}) (ten [(16, 0x2800000)]).body [.data (desc4 [(46, 1)])] == some .errParam &&
     passes opPlanArm (folding armed) (ten [(16, 0x2800000)] [.data (desc4 [])]) (fun k _ => (plan k 4).state != .free) &&
     passes opPlanArm conf (ten [(16, 0x2800000)] [.data (desc4 [])]) (fun k _ => (part k 3).conf && !inRange k) &&
     passes opDisarm (folding armed) (ten [(17, 4)]) (fun k _ => !holding (plan k 4)) &&
     passes opDisarm (folding {}) (ten [(17, 4)]) &&
     passes opDisarm (folding { armed with chunks := [(0, { have_ := 1 })] }) (ten [(17, 4)]) (fun k _ => holding (plan k 4)) &&
     passes opDisarmForce (folding armed) (ten [(17, 4)]) && passes opDisarmForce (folding { armed with state := .done }) (ten [(17, 4)]) &&
     passes opDisarmForce base (ten [(17, 1023)]) && passes opReclaim (folding armed) (oper [(16, 0), (19, 0), (20, 64)]) &&
     passes opDisarm (folding { armed with chunks := [(0, { preloaded := true })] }) (ten [(17, 4)]) (fun k _ => holding (plan k 4)) &&
     passes opDisarm (folding { armed with state := .faulted }) (ten [(17, 4)]) (fun k _ => (plan k 4).state != .free) &&
     passes opPlanArm (folding {}) (ten [(16, 0x2800000)] [.poison 0 []]) &&
     passes opPlanArm (folding {}) (ten [(16, 0x2800000)] [.data (desc4 [(7, 48), (24, 0x2800000), (30, 0x2801000)])])
       (fun k _ => let d := planOf 3 (desc4 [(7, 48), (24, 0x2800000), (30, 0x2801000)])
         d.preload && d.outMem && planOk d && recorded k 3 d.preBase (2 * strideOf 0 32) && recorded k 3 d.outBase (2 * strideOf 0 32) &&
         decide (tcount k.fold.plans (fun e => e.state != .free && e.unit == d.unit) < 16)) &&
     passes opPlanGrant { base with fold := { zeroing := [35 * 64 + 63] } } (oper3 [(16, 35), (17, 63), (18, 1)])
       (fun k _ => k.fold.zeroing.contains (35 * 64 + 63)) &&
     (folding armed [] [⟨{}, 3, .disarm 0 4⟩]).cmd.waits.length == 1 && (plan (folding armed) 4).fence == 0xFFFFFFFF &&
     (folding armed).cmd.waits.isEmpty) = true := by
  decide +kernel
theorem witness_FoldFramesCommitWholeOrNotAtAll :
    (let f := foldFrame 4 1
     let two := folding { armed with ncontrib := 2, srcs := [70, 5] }
     takes (folding armed) f && !takes (folding { armed with state := .done }) f && !takes (folding { armed with unit := 1 }) f &&
     !takes (folding armed) (foldFrame 4 2) && inputOf (folding armed [f]) 0 == [f] && inputOf base 0 == [] &&
     tagCurrent (folding armed) f.dptag && !tagCurrent (folding armed) 6145 && takes (folding { armed with preload := true }) f &&
     takes (folding { armed with outMem := true }) f && complete armed { have_ := 1 } && !complete { armed with ncontrib := 2 } { have_ := 1 } &&
     inputOf (folding armed) 0 == [] && takes two f && !parityError two { armed with ncontrib := 2, srcs := [70, 5] } 1 32 &&
     takes flipped (foldFrame 4 1) && parityError flipped armed 1 32 &&
     (let x : Upset := { pair := 64, copy := false, bit := 0 }
      let q := pairAt (folding armed) 64
      q.sel == x.copy && (committed q).1.length == 32 && !parityBad q)) = true ∧
    (∀ j, (committed (pairAt (folding armed) j)).1.length = 32) ∧
    (let p : FoldPlan := { armed with preload := true, preBase := 0x2800000 }
     let s := folding p
     let ok := fun (s : State) (p : FoldPlan) => (preReqs s p 1).all fun r => !changing s (pageOf r.addr.toNat)
     slotIsOpen p 1 && !(tget ({} : Chunk) p.chunks 1).preloaded && ok s p && (preReqs s p 1).all (fun r => decideNow s r == .grant) &&
     (let a : List Nat := [0]
      (0 :: a).all fun x => { s with mem := { s.mem with muted := [3] } }.mem.muted.contains
        (pot s (pageOf (p.preBase + 1 * strideOf p.inFmt p.ce + x))).pid) &&
     !parityError s p 1 32 && parityError { s with fold := { s.fold with sram := flipped.fold.sram } } p 1 32 &&
     !slotIsOpen p 2 &&
     (let q := { p with preBase := 0x2A00000 }
      ok (folding q) q && (preReqs (folding q) q 1).any (fun r => decideNow (folding q) r != .grant) && !ctxMatch (folding q) 0)) = true ∧
    (let s := writingAt 0x2800000
     let t := writingAt 0x2A00000
     let d := writingAt 0x2800000 2
     let q := { armed with lastAt := some 0, chunks := [(0, { firstAt := some 0 })] }
     s.fold.writing == [outAt 0x2800000] && (outAt 0).bytes != [] &&
     (outReqs (outAt 0x2800000)).all (fun r => decideNow s r == .grant && !changing s (pageOf r.addr.toNat)) &&
     (outReqs (outAt 0x2A00000)).any (fun r => decideNow t r == .deny) &&
     (outReqs (outAt 0x2A00000)).all (fun r => !changing t (pageOf r.addr.toNat)) && (plan t 4).state == .armed && (plan t 4).num == 0 &&
     (outReqs (outAt 0x1400000)).all (fun r => changing { t with mem := (change {}).mem } (pageOf r.addr.toNat)) &&
     s.mem.mx.isEmpty && s.mem.badGran.isEmpty && !ctxMatch s 0 && (pot s 20).mode != .fresh && (pot s 21).mode != .fresh &&
     decide ((plan s 4).base < (plan s 4).nchunk) && decide ((plan d 4).nchunk ≤ (plan d 4).base) && !(plan d 4).unwritten &&
     decide (q.tmo * 10 ≤ now (atTime 10 (folding q))) && armed.lastAt.isNone && armed.chunks.isEmpty) = true :=
  ⟨by decide +kernel, fun _ => rfl, by decide +kernel, by decide +kernel⟩

theorem witness_KeyCommandsWriteSlots :
    (passes opDeriveJob keyed (ten [(16, 1)]) (fun k _ => !(part k 3).jobSet) &&
     passes opDeriveJob { keyed with part := { keyed.part with parts := [(3, { part keyed 3 with jobSet := true })] } } (ten [(16, 1)])
       (fun k _ => (part k 3).jobSet) &&
     passes opDeriveIron keyed (ten [(16, 1)])
       (fun k _ => (ironSlots k 3).head? == some 11 && keyFits k 8 .partroot .derivation 3 && (slot k 8).key == 1) &&
     passes opDeriveIron (keyedBad 8) (ten [(16, 1)])
       (fun k _ => ironSlots k 3 != [] && keyFits k 8 .partroot .derivation 3 && (slot k 8).bad) &&
     passes opDeriveIron (setSlot keyed 8 { slot keyed 8 with policy := policy .partroot .derivation 3 0 0 }) (ten [(16, 1)])
       (fun k _ => ironSlots k 3 != [] && !keyFits k 8 .partroot .derivation 3) &&
     passes opKeyDestroy keyed (ten [(16, (keyHandle keyed 3 9).toNat)]) (fun k _ => !(slot k 9).bad) &&
     passes opKeyDestroy (keyedBad 9) (ten [(16, (keyHandle keyed 3 9).toNat)]) (fun k _ => (slot k 9).bad) &&
     (let w := ten [(16, (keyHandle keyed 3 9).toNat), (20, (keyHandle keyed 3 10).toNat)]
      passes (opKeyWrap false) keyed w (fun k _ => !noLane k && !(tget {} k.cmd.windows 3).full) &&
      passes (opKeyWrap false) (keyedBad 10) w (fun k _ => !noLane k && !(tget {} k.cmd.windows 3).full && (slot k 10).bad) &&
      passes (opKeyWrap false) { keyed with iron := { lanes := (List.range 4).map fun i => (i, { oos := true }) } } w (fun k _ => noLane k) &&
      passes (opKeyWrap false) { keyed with cmd := { keyed.cmd with windows := [(3, { full := true })] } } w
        (fun k _ => (tget {} k.cmd.windows 3).full))) = true ∧
    readBad keyed [8] = none ∧ readBad keyed [9, 10] = none ∧ (readBad (keyedBad 10) [9, 10]).isSome = true := by
  refine ⟨by decide +kernel, readBad_good _ _ ?_ rfl, readBad_good _ _ ?_ rfl, readBad_bad _ 10 _ (by decide) (by decide +kernel)⟩
  · intro i hi
    obtain rfl := List.mem_singleton.mp hi
    exact .inl ⟨1, _, rfl⟩
  · intro i hi
    rcases List.mem_cons.mp hi with rfl | hi
    · exact .inl ⟨2, _, rfl⟩
    · obtain rfl := List.mem_singleton.mp hi
      exact .inl ⟨3, _, rfl⟩

/-! ## Witnesses: life cycle, debug, boot, power, firmware -/

theorem witness_LifeCycleAndDebugFollowTheirGates :
    (let root := 2 ^ 128 - 1
     passes (opLcAdvance .whole) made (oper [(16, 1)]) (fun k _ => !k.fuse.pending && !isSet k.fuse.rootOk && k.boot.vppOk &&
       k.fuse.fwKh != 0 && k.fuse.dbgKh != 0 && k.fuse.devId != 0 && k.keys.entHealthy && !k.keys.entFailed) &&
     passes (opLcAdvance .failed) { made with boot := { made.boot with vppOk := false } } (oper [(16, 1)]) (fun k _ => !k.boot.vppOk) &&
     passes (opLcAdvance .failed) made (oper [(16, 1)]) (fun k _ => !isSet k.fuse.rootOk && k.boot.vppOk && !k.fuse.pending) &&
     passes (opLcAdvance .powerDown) (alone .integrator) (oper [(16, 2)]) (fun k _ => decide (ones k.fuse.fsalt < 64)) &&
     passes (opLcAdvance .zeroised) { alone .integrator with keys := { base.keys with entFailed := true } } (oper [(16, 2)])
       (fun k _ => k.keys.entFailed) &&
     passes (opLcAdvance .whole) { made with fuse := { made.fuse with rootA := root, rootB := root, rootC := root, rootOk := 0xFFFF } }
       (oper [(16, 1)]) (fun k _ => isSet k.fuse.rootOk) &&
     passes (opLcAdvance .whole) { made with fuse := { made.fuse with pending := true } } (oper [(16, 1)]) (fun k _ => k.fuse.pending) &&
     passes (opLcAdvance .whole) (alone .integrator) (oper [(16, 2)]) (fun k _ => decide (ones k.fuse.fsalt < 64) &&
       k.range.memb == .unbound && !anyPart k) &&
     passes (opLcAdvance .whole) { alone .integrator with fuse := { (alone .integrator).fuse with fsalt := 2 ^ 64 - 1 } } (oper [(16, 2)])
       (fun k _ => decide (64 ≤ ones k.fuse.fsalt)) &&
     passes (opLcAdvance .whole) (alone .fielded) (oper [(16, 3)]) && passes (opLcAdvance .whole) (alone .fielded) (oper [(16, 4)]) &&
     passes (opLcAdvance .whole) base (oper [(16, 3)]) (fun k _ => anyPart k)) = true ∧
    (passes opLcStatus base (ten []) && passes opDbgChallenge base (oper [(16, 3), (17, 0)]) &&
     passes opDbgChallenge base (oper [(16, 3), (17, 1)]) (fun k _ => active k 3) &&
     passes opDbgChallenge base (oper [(16, 31), (17, 1)]) (fun k _ => !active k 31) &&
     passes opDbgUnlock base (oper [(16, 0x1400000), (22, 7460)]) (fun k _ => (liveChal k).isNone) &&
     passes opDbgUnlock (asked 2 0 60) (oper [(16, 0x1400000), (22, 7460)] [.data (zeros 7460)])
       (fun k _ => (liveChal k).any fun h => h.gen == curGen k h.pid && !unlockBarred k h.scope) &&
     passes opDbgUnlock (asked 2 1 60) (oper [(16, 0x1400000), (22, 7460)]) (fun k _ => (liveChal k).any fun h => h.gen != curGen k h.pid) &&
     passes opDbgUnlock { asked 1 0 60 with range := summit.range } (oper [(16, 0x1400000), (22, 7460)]) (fun k _ => unlockBarred k 1) &&
     !tokenGood (asked 2 0 60) ⟨5, 3, 2, 0, 60⟩ (zeros 7460) && made.boot.rdy && fuseSession made && !fuseSession base &&
     (asked 2 0 60).keys.chal.isSome && decide (60 ≤ now (atTime 60 base)) && decide (now (atTime 59 base) < 60)) = true := by
  decide +kernel
theorem witness_trim_good_in_made (f : FuseState) : trimGood { f with trimCrc := crc16 (leBytes 510 f.trim.toNat) } = true := by
  simp [trimGood]
theorem witness_trim_not_good (f : FuseState) : trimGood { f with trimCrc := crc16 (leBytes 510 f.trim.toNat) + 1 } = false := by
  simp only [trimGood]
  generalize crc16 (leBytes 510 f.trim.toNat) = x
  simp
theorem witness_unlock_reads_and_tap :
    (passes opDbgUnlock (asked 2 0 60) (oper [(16, 0x1400000), (22, 7460)] [.poison 0 []]) &&
     firstRead [.poison 0 []] 7460 == none && (firstRead [.data (zeros 7460)] 7460).isSome &&
     (let up_ : State := { base with boot := { base.boot with tapUp := true } }
      up_.boot.tapUp && !held up_ && !jtagOpen up_ && !scuOpen up_ && dbgScope up_ == 0 && up_.fuse.lcs == .fielded &&
      !base.boot.tapUp && held State.reset) &&
     (let m : State := { made with boot := { made.boot with tapUp := true } }
      scuOpen m && m.boot.scuUp && !held m && m.boot.rdy && fuseSession m && m.boot.vppOk) &&
     (alone .integrator).fuse.idbgKh == 0 && { base.fuse with idbgKh := 3 }.idbgKh != 0) = true := by decide +kernel
/-- A slot of the identity class, or of another, that does not hold what its check value says. -/
def wrongSlot (i : Nat) (p : BitVec 32) : State :=
  { base with keys := { base.keys with slots := [(i, { good i 1 p with check := slotCheck base i 1 p + 1 })] } }
/-- Windows of the entropy source that fail neither test, fail both, and fail the repetition test alone. -/
def window (n : Nat) : BitVec 1024 := BitVec.ofNat 1024 (match n with
  | 0 => 2 ^ 1024 / 3
  | 1 => 0
  | _ => 2 ^ 50 * (2 ^ 974 / 3))
theorem witness_SlotAndEntropyChecks :
    ({ base with keys := { base.keys with checkAt := 1 } }.keys.checkAt == now base / 1000 + 1 && !base.keys.zeroised &&
     base.keys.failing.isEmpty && base.keys.checkAt != now base / 1000 + 1 && base.keys.slots.isEmpty && base.alarm.hist.isEmpty &&
     !base.keys.entFailed && base.keys.drbgSeeded && decide (base.keys.drbgSeedAt + 100000 ≤ now (atTime 100000 base)) &&
     decide (now (atTime 99999 base) < base.keys.drbgSeedAt + 100000) &&
     (let runs := fun n => ((samplesOf (window n)).foldl RunTest.sample { base.keys.entRun with failed := 0 }).failed
      runs 0 == 0 && !propFails (samplesOf (window 0)) && runs 1 == 1 && propFails (samplesOf (window 1)) &&
      runs 2 == 1 && !propFails (samplesOf (window 2))) &&
     [(0, KClass.identity), (2, .range), (4, .chip), (9, .iron)].all (fun x =>
       let k := slot (wrongSlot x.1 (policy x.2 .derivation 0 0 0)) x.1
       !k.bad && polClass k.policy != 0 && polClass k.policy != classCode .ide) &&
     polClass (slot (wrongSlot 0 (policy .identity .derivation 0 0 0)) 0).policy == classCode .identity) = true ∧
    ∀ i p, (slot (wrongSlot i p) i).check ≠ slotCheck (wrongSlot i p) i ((slot (wrongSlot i p) i).key ^^^ 0) p := by
  refine ⟨by decide +kernel, fun i p => ?_⟩
  have h : slot (wrongSlot i p) i = { good i 1 p with check := slotCheck base i 1 p + 1 } := by simp [slot, wrongSlot, tget]
  have hc : ∀ k, slotCheck (wrongSlot i p) i k p = slotCheck base i k p := fun _ => rfl
  rw [h, hc]
  simp [good]
/-- 4096 samples in which one and zero alternate. -/
def noise4096 : BitVec 4096 := BitVec.ofNat 4096 ((List.range 256).foldl (fun a _ => a * 65536 + 0x5555) 0)
set_option maxRecDepth 100000 in
theorem witness_startup_test : startupFails 0 = true ∧ startupFails noise4096 = false := by decide +kernel
theorem witness_BootStepsInOrder :
    ((span 1 7).all (fun n => booting (bootAt n) && (bootAt n).boot.step == n) && !booting State.reset && !booting base &&
     (fuseSense State.reset.fuse).rootKind != .failed &&
     (fuseSense { State.reset.fuse with rootA := 2 ^ 100 - 1, rootB := 2 ^ 100 - 1 }).rootKind == .failed &&
     (selectImage (readFlash (bootAt 6) none)).isNone && inStep7 (bootAt 7) && !(bootAt 7).boot.mcRdy &&
     decide ((bootAt 7).boot.mcWaitFrom + 200000 ≤ now (atTime 200000 (bootAt 7))) &&
     drawOk (bootAt 5) && !drawOk { bootAt 5 with keys := { (bootAt 5).keys with entConsec := 1 } } &&
     (let t : State := { step7 { potLive := true } with boot := { (step7 {}).boot with tested := true } }
      t.boot.tested && t.mem.potLive && t.boot.mcRdy && t.boot.scuUp && inStep7 t && !(step7 {}).boot.tested) &&
     drawOk (step7 {}) && inStep7 (step7 {}) && systemPagesOk 8 5 && !systemPagesOk 8 8 && !systemPagesOk 8 983038 && systemPagesOk 8 983037 &&
     (step7 { potSet := true, potBase := 8, descSet := true, descBase := 5, initRun := true }).mem.initRun &&
     (step7 { potLive := true }).mem.potLive) = true := by decide +kernel
theorem trim_sensed (x : BitVec 16) :
    (fuseSense { State.reset.fuse with trimCrc := x }).trimOk = (crc16 (leBytes 510 State.reset.fuse.trim.toNat) == x) := by
  have h : pendSense (unsense { State.reset.fuse with trimCrc := x }) = none :=
    (show _ = pendSense (unsense State.reset.fuse) from rfl).trans (by decide +kernel)
  simp only [fuseSense, settleAll, h]
  rfl
theorem witness_trim_good_and_bad : ∃ x y, (fuseSense { State.reset.fuse with trimCrc := x }).trimOk = true ∧
    (fuseSense { State.reset.fuse with trimCrc := y }).trimOk = false :=
  ⟨crc16 (leBytes 510 State.reset.fuse.trim.toNat), crc16 (leBytes 510 State.reset.fuse.trim.toNat) + 1, by rw [trim_sensed]; exact beq_self_eq_true _,
    by rw [trim_sensed]; generalize crc16 (leBytes 510 State.reset.fuse.trim.toNat) = x; simp⟩
theorem witness_PowerResetAndTamper :
    (let r := State.reset
     let q : State := { r with boot := { r.boot with vddqGood := true, vddaGood := true, rstHigh := true } }
     r.boot.tarnGood && r.boot.inReset && !r.tarn.orderWait && q.boot.vddqGood && !held base && !base.boot.pdAck && held r &&
     { base with boot := { base.boot with pdAck := true } }.boot.pdAck && base.boot.vddqGood && !r.boot.vddqGood &&
     vppForbidden base && !vppForbidden made && !base.boot.vppHigh && { base with boot := { base.boot with vppHigh := true } }.boot.vppHigh &&
     (let d : State := { r with boot := { r.boot with tarnGood := false } }
      let e : State := { d with boot := { d.boot with vddqGood := true, vddaGood := true } }
      let a : State := { r with boot := { r.boot with vddaGood := true, rstHigh := true } }
      !d.boot.tarnGood && !d.boot.rstHigh && !d.boot.tamperLow && !d.boot.vddqGood && e.boot.vddqGood && e.boot.vddaGood &&
      !e.boot.tarnGood && a.boot.tarnGood && a.boot.vddaGood && a.boot.inReset && a.boot.rstHigh && !a.boot.tamperLow &&
      !suppliesGood (supplyUp d .vddQ) && suppliesGood (supplyUp { r with boot := { r.boot with vddaGood := true } } .vddQ)) &&
     (let x : State := { q with boot := { q.boot with rstHigh := false, tamperLow := true } }
      x.boot.tarnGood && x.boot.vddqGood && x.boot.vddaGood && x.boot.inReset && x.boot.tamperLow && !x.boot.rdy &&
      !x.boot.everReady && x.boot.failStep == 0) && !base.boot.tamperLow && base.boot.tarnGood &&
     (bootAt 4).boot.step == 4 && !(bootAt 4).boot.rdy && !(bootAt 4).boot.everReady && (bootAt 4).boot.failStep == 0 &&
     !held (bootAt 4) && (bootAt 4).tarn.armed.getLsbD 5 && base.range.memb != .quarantined && base.tarn.armed.getLsbD 5 && base.tarn.armed.getLsbD 7 && !base.tarn.armed.getLsbD 6 &&
     !base.tarn.tripped.getLsbD 7 && decide (5 ≤ base.boot.step) && decide ((bootAt 4).boot.step < 5)) = true ∧
    (19 < 20 ∧ 40 ≤ 40) := by decide +kernel
theorem witness_FirmwareRunsStagesAndReports :
    (let im : Image := ⟨false, 1, false, true, 1, 0, 0, 0, 0, 0, 0, [], []⟩
     let staged : State := { base with boot := { base.boot with staged := true, flash := { base.boot.flash with slotB := some im } } }
     scuPowered base && base.boot.everReady && base.alarm.hist.isEmpty &&
     decide (base.boot.wdogFrom + 250000 ≤ now (atTime 250000 base)) && decide (now (atTime 249999 base) < base.boot.wdogFrom + 250000) &&
     { base with boot := { base.boot with scuUp := false } }.cmd.waits.isEmpty && waitsOnChip .rangeJoin && !waitsOnChip (.save 4) &&
     passes (opFwStage .whole) base (oper [(16, 0x1400000), (22, 8196)]) (fun k _ => !trialWritten k) &&
     imageCheck base im == some .errParam &&
     passes (opFwStage .whole) base (oper [(16, 0x1400000), (22, 8196)] [.poison 0 []]) && firstRead [.poison 0 []] 8196 == none &&
     passes (opFwStage .powerDown) base (oper [(16, 0x1400000), (22, 8196)] [.data (zeros 8196)]) &&
     (let r : ActRec := { state := 1 }
      passes (opFwStage .whole) { base with boot := { base.boot with flash := { base.boot.flash with rec0 := recBytes r } } }
        (oper [(16, 0x1400000), (22, 8196)]) (fun k _ => trialWritten k)) &&
     scuEccAt 0x10000000 && !scuEccAt 0x40000000 && scuDies base (.double 0x20000000) && scuDies base (.access .write 0) &&
     !scuPowered State.reset && !scuFaults base .read 0 && !base.boot.scu.halted &&
     passes opFwActivate base (oper []) (fun k _ => !k.boot.staged) &&
     passes opFwActivate staged (oper []) (fun k _ => k.boot.staged && !trialWritten k && !updateLocked k && (otherImage k).isSome) &&
     passes opDiagEcho base (ten [(16, 7)]) && passes (opDiagKat 31) base (oper [(16, 31)]) (fun k _ => anyActive k) &&
     passes (opDiagKat 31) (alone .fielded) (oper [(16, 31)]) (fun k _ => !anyActive k) &&
     passes opAttEvidence base (oper [(16, 1), (48, 0x1400000), (54, 65536)]) (fun k _ => k.fuse.rootKind == .valid) &&
     passes opAttEvidence { base with fuse := { base.fuse with rootKind := .absent } } (oper [(16, 1), (48, 0x1400000), (54, 65536)])
       (fun k _ => k.fuse.rootKind == .absent)) = true := by decide +kernel
set_option maxRecDepth 100000 in
theorem witness_stage_refuses : imageCheck base (parseImage (zeros 8)) = some .errParam := by decide +kernel

/-! ## Witnesses: SPDM, weights, telemetry, Iron -/

theorem witness_SpdmRequestsAreAnswered :
    (responderUp (talking 3) && !doeClosed (talking 3) 0 && (conn (talking 3) 0).stage == 3 && (conn (talking 0) 0).stage == 0 &&
     base.fuse.rootKind != .absent && (measRecord (talking 3) 0 0).isSome && (measRecord (talking 3) 0 0xFD).isNone &&
     (sessOf (talking 3) 0 9).any (·.ready) && (sessOf (talking 3 [] false) 0 9).any (fun x => !x.ready) && (sessOf (talking 3) 0 8).isNone &&
     (sessOf (talking 3) 1 9).isNone && decide ((talking 3).spdm.sessions.length < 8) && (conn (talking 3) 0).bigOut.isEmpty &&
     decide ((chunkAt 0).1 < (conn (talking 3 [1]) 0).bigOut.length) && !responderUp State.reset &&
     doeClosed { base with cmd := { base.cmd with vfDoeEn := false } } 31 && !doeClosed { base with cmd := { base.cmd with vfDoeEn := false } } 35 &&
     passes (opAttSpdm 0x84) base (ten [(16, 0x2800000), (22, 4), (24, 0x2801000), (30, 4096)] [.data [0x13, 0x84, 0, 0]])) = true := by
  decide +kernel
/-- A request with the bytes that it came in, others beside it, and segments of a stream that the engines grant or do not. -/
theorem witness_requests_as_sent :
    (mbSent (.doe 3) == [] && sentAs .version [0x10, 0x84, 0, 0] == some [0x10, 0x84, 0, 0] && sentAs .version [0x13, 0x81, 0, 0] == none &&
     mbSent (.doe 3 [0x10, 0x84, 0, 0]) == [0x10, 0x84, 0, 0] && (1 : BitVec 8).toNat ≤ 1 && decide (1 < (2 : BitVec 8).toNat) &&
     segGranted (weights 13) stream3 0 && !segGranted (weights 13) { stream3 with dst := 0x5A00000 } 0 &&
     !segGranted { weights 13 with mem := { (weights 13).mem with potBad := [1] } } stream3 0 &&
     State.reset.boot.rdy == false && { base with boot := { base.boot with scuUp := false } }.boot.rdy) = true := by decide +kernel
theorem witness_SpdmKeys : readBad (talking 3) [0, 1] = none ∧ readBad { talking 3 with keys := { base.keys with entFailed := true } } [0, 1] = none ∧
    (readBad (setSlot (talking 3) 0 { bad := true }) [0, 1]).isSome = true :=
  ⟨readBad_good _ _ (fun i hi => .inr (by rcases List.mem_pair.mp hi with rfl | rfl <;> rfl)) rfl,
   readBad_good _ _ (fun i hi => .inr (by rcases List.mem_pair.mp hi with rfl | rfl <;> rfl)) rfl,
   readBad_bad _ 0 _ (by decide) rfl⟩
theorem witness_key_exchange (x : Bytes) (h : Config.ecValid x = true) : Config.ecValid x = true ∧ 3 ≤ (conn (talking 3) 0).stage ∧
    ∃ k v, Config.finishOk k v = true ∨ Config.finishOk k v = false :=
  ⟨h, by decide +kernel, 0, [], by cases Config.finishOk 0 [] <;> simp⟩
theorem witness_WeightsAndTelemetry :
    (passes opWbImport conf (ten [(16, 0x2800000), (22, 64)] [.poison 0 []]) &&
     importCheck conf 3 (zeros 64) [] == some .errParam &&
     passes opWbGrant (weights 0) (ten [(16, wb0), (20, 0x2800000), (26, 1769)] [.data (zeros 1769)])
       (fun k _ => !hasKey k (bundle k 3 0) && (setOf k 3 0).any (setKeyFits k 3) && (freeSlots k).head? == some 8) &&
     passes opWbGrant (weights 13) (ten [(16, wb0), (20, 0x2800000), (26, 1769)]) (fun k _ => hasKey k (bundle k 3 0)) &&
     passes opWbUnseal (weights 0) (ten [(16, wb0), (20, 0x2800000), (26, 0x2A00000), (32, 1), (40, 0xFFFFFFFF)])
       (fun k _ => (bundle k 3 0).slot == 0) &&
     passes opWbUnseal (weights 13) (ten [(16, wb0), (20, 0x2800000), (26, 0x2A00000), (32, 1), (40, 0xFFFFFFFF)])
       (fun k _ => (bundle k 3 0).slot == 13 && keyFits k 13 .bundle .memUnseal 3) &&
     passes opWbUnseal (weights 12) (ten [(16, wb0), (20, 0x2800000), (26, 0x2A00000), (32, 1), (40, 0xFFFFFFFF)])
       (fun k _ => (bundle k 3 0).slot == 12 && !keyFits k 12 .bundle .memUnseal 3) &&
     streamsOf base 3 == [] && streamsOf (weights 13 [stream3]) 3 == [stream3] && streamPages (weights 13) 3 0x2800000 0x2A00000 1 &&
     !streamPages (weights 13) 3 0x2800000 0x5A00000 1 &&
     passes opWbRevoke (weights 0) (ten [(16, wb0)]) (fun k _ => (keyBad k (bundle k 3 0)).isNone && !bundleBusy k 3 0) &&
     passes opWbRevoke (weights 0 [stream3]) (ten [(16, wb0)]) (fun k _ => bundleBusy k 3 0) &&
     passes opWbRevoke (setSlot (weights 13) 13 { slot (weights 13) 13 with bad := true }) (ten [(16, wb0)])
       (fun k _ => (bundle k 3 0).slot == 13 && (slot k 13).bad) &&
     base.boot.rdy && base.tel.latchAt != now base / 1000 + 1 && confPids conf == [3] && !State.reset.boot.rdy &&
     { base with tel := { base.tel with latchAt := 1 } }.tel.latchAt == now base / 1000 + 1) = true ∧
    readBad (weights 0) [12] = none ∧ readBad (weights 13) [13] = none := by
  refine ⟨by decide +kernel, readBad_good _ _ ?_ rfl, readBad_good _ _ ?_ rfl⟩ <;> intro i hi <;>
    obtain rfl := List.mem_singleton.mp hi <;> exact .inl ⟨_, _, rfl⟩
/-- The import command, and the SETID that it names. -/
def wbCmd : Cmd := ten [(16, 0x2800000), (22, 64)] [.data wbHead, .data wbList]
def wbId : BitVec 384 := setIdOf 0 wbHead wbList
theorem set_found (n : Nat) : Machine.setOf (importing .member [⟨3, wbId, n⟩]) 3 wbId = some ⟨3, wbId, n⟩ := by
  simp [Machine.setOf, importing]
theorem import_passes (n : Nat) (hn : n = 12 ∨ n = 13) : importCheck (importing .member [⟨3, wbId, n⟩]) 3 wbHead wbList = none := by
  have h : setIdOf (part (importing .member [⟨3, wbId, n⟩]) 3).job wbHead wbList = wbId := rfl
  simp only [importCheck, h, set_found]
  rcases hn with rfl | rfl <;> decide +kernel
theorem witness_imports :
    (wbHead.length == 64 && wbList.length == 8 && firstRead wbCmd.mem 64 == some wbHead &&
     firstRead (wbCmd.mem.drop 1) 8 == some wbList && passes opWbImport (importing .member [⟨3, wbId, 12⟩]) wbCmd &&
     passes opWbImport (importing .member [⟨3, wbId, 13⟩]) wbCmd && setKeyFits (importing .member []) 3 ⟨3, wbId, 12⟩ &&
     !setKeyFits (importing .member []) 3 ⟨3, wbId, 13⟩ &&
     passes opWbImport (importing .summit) wbCmd (fun k _ => importCheck k 3 wbHead wbList == none && (setOf k 3 wbId).isNone &&
       k.range.role == .summit && (setKeyFor k k.range.nodeId (le wbHead 20 4) [] []).1 == .ok && rkSlot k (le wbHead 20 4) == some 2) &&
     passes opWbImport (importing .member) wbCmd (fun k _ => importCheck k 3 wbHead wbList == none && (setOf k 3 wbId).isNone &&
       k.range.role == .member)) = true ∧
    rkBad (importing .summit) 7 = none ∧ readBad (importing .member) [12] = none := by
  refine ⟨by decide +kernel, readBad_good _ _ ?_ rfl, readBad_good _ _ ?_ rfl⟩ <;> intro i hi <;>
    obtain rfl := List.mem_singleton.mp hi <;> exact .inl ⟨_, _, rfl⟩
theorem witness_IronCommandsFollowTheContextStates :
    (let h := (keyHandle keyed 3 9).toNat
     let gcmOut : IronCtx := { state := .opened, mode := 0x01, key := BitVec.ofNat 32 h }
     passes (opIronOpen false) keyed (ten [(16, 2), (17, 0x05), (20, 0xFFFFFFFF)]) (fun k _ => !noLane k && boundOf k 3 == 0) &&
     passes (opIronOpen false) (ironed gcmOut) (ten [(16, 2), (17, 0x05), (20, 0xFFFFFFFF)]) (fun k _ => ironBound (ironCtx k 3 2)) &&
     passes (opIronUpdate false false) (ironed gcmOut) (ten [(16, 2), (20, 0x2800000), (26, 0x2800000), (32, 16)] [.data (zeros 16)])
       (fun k _ => orderOk false (ironCtx k 3 2) && !noLane k) &&
     passes (opIronUpdate true false) (ironed gcmOut) (ten [(16, 2), (20, 0x2800000), (32, 16)] [.data (zeros 16)])
       (fun k _ => orderOk true (ironCtx k 3 2)) &&
     passes (opIronUpdate true false) (ironed {}) (ten [(16, 2), (20, 0x2800000), (32, 16)])
       (fun k _ => !orderOk true (ironCtx k 3 2)) &&
     passes (opIronFinal false) (ironed gcmOut) (ten [(16, 2)]) (fun k _ => ironBound (ironCtx k 3 2) && !idec (ironCtx k 3 2).mode) &&
     passes (opIronFinal false) (ironed { gcmOut with mode := 0x11 }) (ten [(16, 2)]) (fun k _ => ialg (ironCtx k 3 2).mode == 1 && idec (ironCtx k 3 2).mode) &&
     passes (opIronFinal false) keyed (ten [(16, 2)]) (fun k _ => !ironBound (ironCtx k 3 2)) &&
     passes (opIronSave false) (ironed gcmOut) (ten [(16, 2), (20, 0x2800000)]) (fun k _ => (ironCtx k 3 2).state == .opened) &&
     passes (opIronSave true) (ironed gcmOut) (ten [(16, 2), (20, 0x2800000)]) &&
     passes (opIronRestore false) keyed (ten [(16, 2), (20, 0x2800000)] [.data (zeros 296)]) (fun k _ => !imageShape (zeros 296) 2) &&
     imageShape (asc "QIRC" ++ [1, 0, 2, 0, 0, 0x18] ++ zeros 286) 2 && (bindable keyed 3).isNone && !(lane base 0).oos &&
     (lane { base with iron := { lanes := [(0, { oos := true })] } } 0).oos && (ironCtx (ironed { state := .held }) 3 2).state == .held &&
     decide (now (atTime 9999 base) < 0 + 10000)) = true := by decide +kernel
theorem witness_IronKeys : ctxBad (ironed {}) 0x01 (keyHandle keyed 3 9) = none ∧ wrapBad (ironed {}) 3 = none ∧
    (ctxBad (keyedBad 9) 0x01 (keyHandle keyed 3 9)).isSome = true ∧ (wrapBad (keyedBad 8) 3).isSome = true := by
  have h : keyIdx (keyHandle keyed 3 9) = 9 := by decide +kernel
  refine ⟨?_, readBad_good _ _ ?_ rfl, ?_, ?_⟩
  · show readBad _ [keyIdx (keyHandle keyed 3 9)] = none
    rw [h]
    refine readBad_good _ _ (fun i hi => ?_) rfl
    obtain rfl := List.mem_singleton.mp hi
    exact .inl ⟨_, _, rfl⟩
  · intro i hi
    obtain rfl := List.mem_singleton.mp hi
    exact .inl ⟨_, _, rfl⟩
  · have e : ctxBad (keyedBad 9) 0x01 (keyHandle keyed 3 9) = readBad (keyedBad 9) [keyIdx (keyHandle keyed 3 9)] := rfl
    rw [e, h]
    exact readBad_bad _ 9 _ (by decide) (by decide +kernel)
  · have e : wrapBad (keyedBad 8) 3 = readBad (keyedBad 8) [8] := rfl
    rw [e]
    exact readBad_bad _ 8 _ (by decide) (by decide +kernel)

/-! ## Witnesses: the range -/

theorem witness_RangeCommandsFormJoinLeaveAndPair :
    (let head := asc "QAFS" ++ [1, 1, 0, 0]
     let alone1 : State := { summit with part := {}, range := { summit.range with members := [{ node := 5 }] } }
     let offered : State := { paging with range := { summit.range with pair := { offer := some ⟨0, 0, 0, [], 0⟩ } } }
     passes opJoinForm base (oper [(16, 9), (24, 0x1400000)] [.data head, .data (zeros 48)])
       (fun k _ => k.range.memb == .unbound && !jtagScuActive k && !k.keys.entFailed && scuReadable k 0x1400000 8 &&
         scuReadable k 0x1400008 48) && afsHeadOk head && !afsHeadOk (asc "QAFS" ++ [1, 65, 0, 0]) &&
     (let pre := fun o l => Op.pre o paging 0 (oper l).body
      pre opJoinForm [(16, 9), (24, 0x1600000)] == some .errPerm && pre opJoinForm [(16, 0x4000), (24, 0x1400000)] == some .errParam &&
      pre opPairOffer [(16, 0x1600000)] == some .errPerm && pre opPairAccept [(16, 0x1400000), (22, 32769)] == some .errParam &&
      pre opPairAccept [(16, 0x1600000), (22, 32768)] == some .errPerm) &&
     opJoinForm.preMem paging (oper [(16, 9), (24, 0x1400000)]).body [.data (asc "QAFS" ++ [1, 65, 0, 0])] == some .errParam &&
     opJoinForm.preMem paging (oper [(16, 9), (24, 0x15FFFE0)]).body [.data head] == some .errPerm &&
     passes opJoinForm base (oper [(16, 9), (24, 0x1400000)] [.poison 0 []]) && passes opJoinForm base (oper [(16, 9), (24, 0x1400000)] [.data head, .poison 0 []]) &&
     passes opJoinForm paging (oper [(16, 9), (24, 0x1400000)] [.data head]) (fun k _ => k.range.memb != .unbound) &&
     passes opJoinJoin { base with ridge := joiner.ridge } (oper [(16, 9), (18, 2)]) (fun k _ => (link k 2).state == .admitting) &&
     passes opJoinJoin base (oper [(16, 9), (18, 35)]) (fun k _ => (link k 35).state != .admitting) &&
     passes opRangeLeave base (oper []) (fun k _ => !inRange k) && passes opRangeLeave member_ (oper []) (fun k _ => tenantExists k) &&
     passes opRangeLeave { member_ with part := {} } (oper []) (fun k _ => inRange k && !tenantExists k) &&
     passes opRangeLeave { summit with part := {} } (oper []) (fun k _ => others k (nodes k) == [70]) &&
     passes opRangeLeave alone1 (oper []) (fun k _ => others k (nodes k) == [] && k.range.role == .summit) &&
     passes opEpochAdvance summit (oper []) (fun k _ => isSummit k && k.range.memb == .member) &&
     passes opEpochAdvance member_ (oper []) (fun k _ => !isSummit k) &&
     passes opEpochAdvance { summit with range := { summit.range with epoch := 0x3FFFFFFF } } (oper []) &&
     passes opPairOffer paging (oper [(16, 0x1400000)]) (fun k _ => pairState k && !k.range.paired && pairArea k 0x1400000) &&
     passes opPairOffer { paging with range := paired.range } (oper [(16, 0x1400000)]) (fun k _ => k.range.paired) &&
     passes opPairAccept paging (oper [(16, 0x1400000), (22, 16)] [.data (zeros 16)])
       (fun k _ => pairState k && k.range.pair.offer.isNone && !pairLayout k true (zeros 16)) &&
     passes opPairAccept offered (oper [(16, 0x1400000), (22, 16)]) (fun k _ => k.range.pair.offer.isSome) &&
     passes opUnpair paired (oper []) (fun k _ => pairState k) && passes opUnpair base (oper []) (fun k _ => !pairState k) &&
     passes opEpochAdvance (adv2 []) (oper []) (fun k _ => isSummit k && k.range.adv.isSome)) = true := by
  decide +kernel
/-- The messages of the range that a reader of `m` may get, but for FRAG and DELTA, whose values are checked. -/
def plainMsgs (m : RMsg) : List Instr := [.joinReq m, .joinNonce m, .joinAdmit m, .joinRefuse m, .leave m, .leaveAck m, .refresh m,
  .refreshEvid m, .prepare m, .prepAck m, .switch m, .abort m, .heartbeat m, .loss m, .probe m, .probeAck m, .shadow m,
  .shadowAck m, .setkeyRsp m, .pairkey m, .setkeyReq m, .joinEvid m]
theorem witness_MessagesAreChecked :
    ((plainMsgs (msg 9 [])).all (fun i => msgStatus summit i == none && msgStatus joiner i == none && msgStatus member_ i == none) &&
     (plainMsgs { msg 9 [] with ptag := 1 }).all (fun i => msgStatus summit i == some .errParam) &&
     msgStatus member_ (.delta (msg 70 [(16, 8), (20, 1), (22, 9)])) == none && msgStatus member_ (.delta (msg 70 [(16, 8)])) == some .errParam &&
     msgStatus member_ (.frag (msg 70 [(16, 4), (18, 1), (20, 2), (22, 3), (24, 7)])) == none &&
     msgStatus member_ (.frag (msg 70 [])) == some .errParam && summit.boot.rdy && summit.boot.scuUp &&
     ({ summit with range := { summit.range with seen := [⟨9, 36, 0, []⟩] } }.range.seen.find? fun (x : Seen) =>
       x.src == 9 && x.via == 36 && x.seq == (msg 9 []).seq).isSome) = true := by decide +kernel
theorem witness_KeysOfTheRange :
    rkBad member_ 7 = none ∧ readBad summit [2] = none ∧ readBad (adv2 []) [2, 3] = none ∧ slotDead paired 7 = false ∧
    (member_.range.epoch.toNat == 7 && !(slot member_ 2).bad && !(slot member_ 3).bad && drawnSlot summit == some 3 &&
     (adv2 []).range.adv.all (fun a => a.slot == 3) &&
     bindTag { summit with cmd := { summit.cmd with waits := [⟨{}, 3, .peerBind 3 70 6144⟩] } } 3 70 == some 6144 &&
     drawnSlot { summit with keys := { summit.keys with
       slots := (3, { bad := true }) :: (span 8 248).map fun i => (i, { bad := true }) } } == none) = true ∧
    (rkBad (setSlot member_ 2 { bad := true }) 7).isSome = true ∧ (readBad (setSlot paired 7 { bad := true }) [7]).isSome = true := by
  refine ⟨readBad_good _ _ ?_ rfl, readBad_good _ _ ?_ rfl, readBad_good _ _ ?_ rfl, rfl, by decide +kernel,
    readBad_bad _ 2 _ (by decide) rfl, readBad_bad _ 7 _ (by decide) rfl⟩ <;> intro i hi <;>
    first
      | (obtain rfl := List.mem_singleton.mp hi; exact .inr rfl)
      | (rcases List.mem_pair.mp hi with rfl | rfl <;> exact .inr rfl)
theorem witness_JoiningLeavingAndEvidence :
    (let j : Joiner := { src := 9, via := 36, nodeId := 200, shoulder := false, nonce := 0 }
     let hasJ : State := { summit with range := { summit.range with joiners := [j], refreshing := [(70, 0, 0)] } }
     let relay : State := { member_ with range := { member_.range with
       relays := [{ port := 2, slot := 8 }]
       relayQ := [⟨2, 0x11, 9, 0⟩] } }
     freshMsg summit (msg 9 []) && isSummit summit && !advancing summit && advancing (adv2 []) && rackOf 5 == rackOf summit.range.nodeId &&
     !freshMsg { summit with range := { summit.range with seen := [⟨9, 36, 0, []⟩] } } (msg 9 []) && !State.reset.boot.scuUp &&
     fromRelay relay { msg 0 [] with via := 2 } && inRange relay && !isSummit relay && (relayOf relay 2).isSome && relay.range.join.isNone &&
     forJoin joiner { msg 0 [] with via := 2 } && freshMsg joiner { msg 0 [] with via := 2 } && joiner.range.join.isSome &&
     (hasJ.range.joiners.find? fun j => j.src == 9 && j.via == 36 && keyBytes j.nonce == slice (zeros 64) 16 32 && j.adm.isNone).isSome &&
     (recentAdmits hasJ).isEmpty && hasJ.range.shoulder.isNone && (joinCheck hasJ j (zeros 64)).isSome &&
     (recentAdmits { summit with range := { summit.range with admits := List.replicate 100 0 } }).length == 100 &&
     (openAdmit joiner []).isNone && failureOf 1 == some .busy && (failureOf 0).isNone && (nodes summit).contains 70 && !(nodes summit).contains 9 &&
     { member_ with range := { member_.range with memb := .leaving } }.range.memb == .leaving &&
     (hasJ.range.refreshing.find? fun e => e.1 == 70).isSome && (memberOf hasJ 70).isSome &&
     !refreshGood hasJ { node := 70 } 0 []) = true := by decide +kernel
theorem witness_EpochLivenessAndServiceMessages :
    (let shMember : State := { member_ with range := { member_.range with shadowIn := [⟨1, 3, []⟩] } }
     freshMsg member_ (msg 70 [(16, 8)]) && inRange member_ && mp (msg 70 [(16, 8)]) 16 4 == member_.range.epoch.toNat + 1 && !isSummit member_ &&
     !inRange base && freshMsg (adv2 []) (msg 70 [(16, 8)]) && others (adv2 []) [5, 70] == [70] &&
     decide ((adv2 []).range.members.length < 2 * ([70].length + 1)) && decide (2 * (0 + 1) ≤ (adv2 []).range.members.length) &&
     prepared.range.prep.any (fun q => q.epoch == 8) && prepared.range.deltaEpoch == 8 && inRange prepared &&
     member_.range.prep.isNone && mp (msg 70 [(20, 70)]) 20 2 == 70 && isSummit summit && summit.range.probes.isEmpty &&
     (nodes summit).contains (mp (msg 9 [(16, 70)]) 16 2) && shMember.range.shadowIn.any (fun x => x.num == 1 && !shadowReady shMember x) &&
     le (leBytes 4 1 ++ leBytes 2 2 ++ leBytes 2 3) 0 4 == 1 && member_.range.shadowIn.isEmpty &&
     { summit with range := { summit.range with shoulder := some 70 } }.range.shoulder == some 70 && summit.range.adv.isNone &&
     !summit.range.takeover && (adv2 []).range.adv.isSome &&
     (oldestImport { member_ with
       range := { member_.range with sent := [⟨{ dst := 70, form := 0x1B }, .setkey 4, 1, 0⟩] }
       wb := { imports := [⟨4, 3, 0, {}, 0, 0⟩] } } 70).isSome &&
     ({ member_ with range := { member_.range with sent := [⟨{ dst := 70, form := 0 }, .bind 3 70, 1, 0⟩] } }.range.sent.find?
       fun (r : Sent) => r.msg.seq == 0 && r.msg.dst == 70).isSome && member_.range.sent.isEmpty && member_.range.reasm.isEmpty &&
     (let f := msg 70 [(16, 4), (18, 1), (20, 2), (22, 3), (24, 7)]
      mp f 20 2 == 2 && mp f 18 2 == 1 && (mpBytes f 24 40).take (mp f 22 1) != [])) = true := by decide +kernel
theorem witness_wrapped_keys (k : Key) (x : Bytes) (h : unwrapped (nodeWrap (rkOf member_ 7) "epoch-wrap" 5 8) x = some k) :
    freshMsg member_ (msg 70 [(16, 8)]) = true ∧ member_.range.role ≠ .summit ∧
    unwrapped (nodeWrap (rkOf member_ 7) "epoch-wrap" 5 8) x = some k := ⟨by decide +kernel, by decide, h⟩
theorem witness_RangeTimersActAtTheirTime :
    (let sentTo := fun (n : Nat) (p : Purpose) => ({ summit with range := { summit.range with
       sent := [⟨{ dst := 70, form := 0x11 }, p, n, 0⟩], join := some ⟨2, 9, false, 0⟩, leaveAt := some 0, memb := .leaving } } : State)
     let found := fun (s : State) => (s.range.sent.find? fun x => x.msg.dst == 70 && x.msg.seq == 0).isSome
     let probing : State := { summit with range := { summit.range with probes := [⟨70, 0, 0, 0⟩] } }
     let due : State := { summit with range := { summit.range with advNow := true } }
     let sh : State := { member_ with range := { member_.range with role := .shoulder, summitLost := true, probes := [⟨70, 0, 0, 0⟩] } }
     found (sentTo 4 .join) && !heldBack (sentTo 4 .join) .join && (summit.range.sent.find? fun x => x.msg.dst == 70).isNone &&
     decide (now (atTime 1999 summit) < 0 + 2000) && now (atTime 2000 summit) == 2000 && (sentTo 5 .leave).range.leaveAt.isSome &&
     isSummit summit && decide (summit.range.beatAt + 1000000 ≤ now (atTime 1000000 summit)) && inRange member_ &&
     decide (member_.range.heardAt + 5000000 ≤ now (atTime 5000000 member_)) && others member_ (nodes member_) == [70] &&
     allPorts.all (fun p => (link member_ p).state != .opened) &&
     (probing.range.probes.find? fun x => x.node == 70).isSome && (nodes probing).contains 70 &&
     isSummit due && due.range.adv.isNone && !lastEpoch due && !due.keys.entFailed && advanceDue due &&
     due.range.members.all (fun x => decide (evidAge due x ≤ 1800000000)) && due.range.toRemove.isEmpty && !advanceDue summit &&
     { due with range := { due.range with members := [{ node := 5 }] } }.range.members.length == 1 &&
     (adv2 []).range.adv.any (fun a => a.round == 0) && (adv2 [] 2).range.adv.any (fun a => a.round == 2 && a.acked.isEmpty) &&
     prepared.range.prep.isSome && decide (0 + 1000000 ≤ now (atTime 1000000 prepared)) && summit.range.refreshing.isEmpty &&
     (let r : State := { summit with range := { summit.range with refreshing := [(70, 0, 0)] } }
      (r.range.refreshing.find? fun x => x.1 == 70).isSome && decide (0 + 10000000 ≤ now (atTime 10000000 r))) &&
     inRange sh && sh.range.role == .shoulder && sh.range.summitLost && decide (sh.range.heardAt + 3000000 ≤ now (atTime 3000000 sh)) &&
     streaming paired && !streaming summit && decide (paired.range.pair.sentAt + 1000000 ≤ now (atTime 1000000 paired)) &&
     { summit with range := { summit.range with pair := { offer := some ⟨0, 0, 0, [], 0⟩ } } }.range.pair.offer.isSome) = true := by
  decide +kernel
/-- A relay with one joiner's request on its way, and a member with one message kept for SWITCH. -/
def relaying (form : BitVec 8) : State := { member_ with range := { member_.range with
  relays := [{ port := 2, slot := 8 }]
  relayQ := [⟨2, form, 9, 0⟩] } }
theorem witness_WaitsOfTheRange :
    (let late := fun (s : State) => ({ s with keys := { s.keys with entConsec := 1 } } : State)
     let p70 : State := { summit with range := { summit.range with probes := [⟨70, 3, 0, 1⟩] } }
     let old := fun (s : State) => ({ s with ridge := { links := [(0, { up with rxPrev := true })] } } : State)
     let moving := fun (s : State) => ({ s with range := { s.range with takeover := true } } : State)
     let adm := { msg 0 [] with data := leBytes 8 0 ++ leBytes 2 9 ++ zeros 20 }
     drawLate (late summit) && !drawLate summit && !drawOk (late summit) && drawOk summit && !drawOk { summit with keys := { summit.keys with entFailed := true } } &&
     advanceDue { late summit with range := { summit.range with advNow := true } } &&
     rxBusy (old member_) && !rxBusy member_ && !isSummit (old member_) && member_.range.epoch.toNat + 1 == 8 &&
     (liveAsks (relaying 0x11)).length == 1 && (liveAsks (atTime 10000 (relaying 0x11))).isEmpty &&
     ((liveAsks (relaying 0x11)).find? (answers (msg 0 []) 0x12)).isSome && ((liveAsks (relaying 0x13)).find? (answers (msg 0 []) 0x12)).isNone &&
     ((liveAsks (relaying 0x13)).find? (answers adm 0x14)).isSome && ((liveAsks (relaying 0x13)).find? (answers (msg 0 []) 0x14)).isNone &&
     ((liveAsks (relaying 0x11)).find? (answers (msg 0 []) 0x15)).isSome && (relaying 0x11).range.join.isNone &&
     ((adv2 [70]).range.adv.any fun (a : Advance) => !waitOver summit { a with acked := [] } && waitOver summit { a with acked := [70] } &&
       waitOver summit { a with round := 1, acked := [] } && !waitOver summit { a with round := 1, answered := [] }) &&
     p70.range.probes.any (fun x => x.node == 70 && x.token.toNat == 3) && isSummit p70 &&
     (adv2 []).range.adv.isSome && !(adv2 []).range.takeover && (moving summit).range.takeover && isSummit (moving summit) &&
     isSummit (moving summit) && ((let f : State := { member_ with range := { member_.range with
       shadowIn := [⟨3, 2, [(0, [], 0)]⟩] } }
      !f.range.shadowIn.any (shadowReady f) && f.range.shadowIn.any (fun y => y.num == 3))) &&
     (let d : List (Nat × Bytes × Nat) := [(0, zeros 16 ++ [4], 0)]
      !shadowReady member_ ⟨9, 1, d⟩ && shadowReady member_ ⟨1, 1, d⟩ && shadowReady member_ ⟨9, 1, [(0, zeros 17, 0)]⟩) &&
     heldBack { member_ with range := { member_.range with memb := .reforming } } (.setkey 4)) = true ∧
    (rkBad (setSlot { member_ with range := { member_.range with role := .shoulder, summitLost := true } } 2 { bad := true }) 7).isSome = true ∧
    slotDead (setSlot paired 7 { bad := true }) 7 = true ∧ (readBad (setSlot summit 2 { bad := true }) [2]).isSome = true := by
  refine ⟨by decide +kernel, ?_, rfl, ?_⟩ <;> exact readBad_bad _ 2 _ (by decide) rfl
/-- 1229 fragments of 40 bytes are more than the 49,152 bytes that a message may have (R356). -/
theorem witness_LongestMessage :
    (let q : Reasm := ⟨70, 36, 4, 1229, 0, (List.range 1228).map fun n => (n, zeros 40)⟩
     q.count == 1229 && q.frags.length + 1 == q.count && decide (49152 < (q.frags.map fun f => f.2.length).sum + 40) &&
     !decide (49152 < (q.frags.map fun f => f.2.length).sum + 32)) = true := by decide +kernel
theorem witness_FuseBitsStayProgrammed : ({ base with pending := [.mcReady] }.fuse.rootA &&& base.fuse.rootA) = base.fuse.rootA ∧
    (∃ t, step { base with pending := [.mcReady] } = .next t) := ⟨by decide, _, rfl⟩
theorem witness_QueueAndTarnLogKeepTheirOrder : base.tarn.log.length ≤ 64 ∧ base.tarn.logTotal < 65536 ∧
    (∀ i (e : LogEntry), base.tarn.log[i]? = some e → e.seq = (base.tarn.logTotal + 65535 - i) % 65536) :=
  ⟨by decide, by decide, fun i e h => by simp [base] at h⟩

/-! ## The spec's worked examples -/

/-- 08, the example: the reply of FENCE_SIGNAL carries VALUE 0x121, STATE LIVE, ERR 0, OOO 0 and echoes SEQ 63 and the tag. -/
theorem test_fence_signal_example :
    after (.fenceSignalSignal (cmd 9 0x4812 [(16, 0x48010007), (20, 0x121)])) pid9
      (fun t => (fence t 7).value == 0x121 && (fence t 7).state == .live && t.part.ctr.fenceOoo == 0) = true := by decide +kernel
/-- R216: a value that is not above VALUE changes nothing and is counted. -/
theorem test_fence_signal_out_of_order :
    after (.fenceSignalSignal (cmd 9 0x4812 [(16, 0x48010007), (20, 0x120)])) pid9
      (fun t => (fence t 7).value == 0x120 && t.part.ctr.fenceOoo == 1) = true := by decide +kernel
/-- R233 check 5: a tag of a former generation changes nothing. -/
theorem test_stale_tag_changes_nothing :
    after (.fenceSignalSignal (cmd 9 0x4811 [(16, 0x48010007), (20, 0x121)])) pid9 (fun t => (fence t 7).value == 0x120) = true := by
  decide +kernel
/-- 07, the example: generation 0x011 advances to 0x012 of tag 0x4812. -/
theorem test_generation_example :
    after (.genAdvance 9) { pid9 with part := { pid9.part with gens := [(9, 0x11)], genWait := [(9, .kill)] } }
      (fun t => curTag t 9 == 0x4812) = true := by decide +kernel
/-- 02, the example: node ID 0x2A47 is in rack 169, quad 1, seat 3. -/
theorem test_node_id_example : rackOf 0x2A47 = 169 ∧ 0x2A47 / 8 % 8 = 0 ∧ 0x2A47 % 64 = 7 ∧
    sameQuad { base with range := { base.range with nodeId := 0x2A47 } } 0x2A44 = true ∧
    sameQuad { base with range := { base.range with nodeId := 0x2A47 } } 0x2A48 = false := by decide
/-- 03, the example: the clear header of a 16-flit frame at epoch 37, PHASE 0, DIR 0, SEQ 1,000,000,007; and DIR of both ends. -/
theorem test_clear_header_example :
    clearBytes { epoch := 37, phase := false, dir := false, seq := 1000000007, flitsM1 := 15 } =
      [0x94, 0, 0, 0, 0x07, 0xCA, 0x9A, 0x3B, 0, 0, 0, 0, 0x1F, 0, 0, 0] := by decide
theorem test_direction_example :
    txDir { base with range := { base.range with nodeId := 0x2A47 }
                      ridge := { links := [(5, { up with peerNode := 0x2A4B, peerPort := 9 })] } } 5 = false ∧
    txDir { base with range := { base.range with nodeId := 0x2A4B }
                      ridge := { links := [(9, { up with peerNode := 0x2A47, peerPort := 5 })] } } 9 = true := by decide +kernel
/-- 05, the example: sector number and tweak bytes of offset 0x0_8C21_3D00 under CTAG 0x480F. -/
theorem test_tweak_example : sectorTweak (0x8C213D00 / 128) 0x480F =
    [0x7A, 0x42, 0x18, 0x01, 0, 0x0F, 0x48, 0, 0, 0, 0, 0, 0, 0, 0, 0] := by decide
/-- 05, the example: granule 0x15 of a page in Fresh slot 0x0C40 has leaf line 25,088 of its package. -/
theorem test_leaf_line_example (s : State) (sector : Nat) (h : sector % pageSectors = 0x15 * 64 + 17) :
    lineNum (leafOf s sector 0x0C40) = 25088 := by
  rw [(leafOf_level s sector 0x0C40 (by decide)).2.2, h]
/-- 05, the example: leaf line 25,088 of package 13 lies at 0xF_F031_0000; above it are level-1 line 392, level-2 line 6 and root
counter 6 of the package; MAJOR 3 with MINOR 0x3FFF is VERSION 0xFFFF. -/
theorem test_counter_tree_example :
    (let leaf := placeAt 13 (leafBase + 25088)
     placeSec leaf * 128 = 0xFF0310000 ∧ lineNum leaf = 25088 ∧ (parentOf leaf).map (fun p => (lineLevel p, lineNum p)) = some (1, 392) ∧
     ((parentOf leaf).bind parentOf).map (fun p => (lineLevel p, lineNum p, rootOf p)) = some (2, 6, 13 * 256 + 6) ∧
     versionIn (putMinor (lineImage 3) 17 0x3FFF) 17 = 0xFFFF ∧ versionIn (putMinor (lineImage 4) 17 1) 17 = 0x10001 ∧
     versionIn (putMinor (lineImage 4) 17 1) 16 = 0x10000) := by decide +kernel
/-- FIPS 197, appendix C.1: AES-128. -/
theorem test_aes128 : aes128 0x000102030405060708090a0b0c0d0e0f 0x00112233445566778899aabbccddeeff = 0x69c4e0d86a7b0430d8cdb78070b4c55a := by
  decide +kernel
/-- R126: the fields of an entry lie where the rule places them. -/
theorem test_pot_entry : potBits { (livePage 9 .fresh) with fslot := 0x0C40 } >>> 55 = 0b010011110#64 ∧
    potOf (potBits { (livePage 9 .fresh) with fslot := 0x0C40 }) = { (livePage 9 .fresh) with fslot := 0x0C40 } := by decide +kernel
/-- 15, the example: QB_STATUS in boot steps 6 and 7, after QB_RDY, and while the SCU restarts after a watchdog expiry. -/
theorem test_status_register_example :
    regStatus (bootAt 6) = 0x00060000 ∧ regStatus (step7 { potLive := true }) = 0x44070000 ∧ regStatus base = 0xC4080000 ∧
    after .scuWatchdogExpiry (atTime 250000 base) (fun t => regStatus t == 0x84880000) = true := by decide +kernel
/-- 15, the example: QB_MX_BUDGET_9 of MX5 at 0x6AA4 and QB_LINK_STATUS of port 17 at 0x4440. -/
theorem test_register_address_example :
    opWord { base with mem := { base.mem with mx := [(5, { nextBudget := [(9, 1176)], nextLatency := 0x200 })] } } 0x6AA4 = 0x1498 ∧
    opWord { base with ridge := { links := [(17, { up with txCur := some ⟨7, 1, 0⟩, txNext := some ⟨7, 2, 0⟩ })] } } 0x4440 = 0x502 := by
  decide +kernel
/-- 12, the example: MODE 0x11 is GCM with DEC 1. -/
theorem test_iron_mode_example : ialg 0x11 = 1 ∧ idec 0x11 = true ∧ modeOk 0x11 = true := by decide
/-- 04, the example: the fold descriptor names chunk 41 of plan 0x05A with 2016 elements of BF16, 16 + 4032 bytes in all. -/
theorem test_fold_descriptor_example :
    (let b : Bytes := [0x5A, 0, 0x29, 0, 0, 0, 0, 0x01, 0xE0, 0x07, 0x03, 0x01, 0, 0, 0, 0]
     le b 0 2 % 1024 = 0x5A ∧ le b 2 4 = 41 ∧ le b 6 1 = 0 ∧ le b 7 1 % 16 = 1 ∧ le b 8 2 % 8192 = 2016 ∧ le b 10 2 = 0x103 ∧
     16 + fmtBytes 1 2016 = 4048) := by decide

/-! ## Single steps -/

/-- R41: an idle tick moves Tarn's counter and nothing else. -/
theorem test_idle_tick : (match step base with
    | .next t => t.tarn.now == 1 && t.pending.isEmpty && t.out.isEmpty
    | _ => false) = true := by decide +kernel
/-- R247: EN set starts a ring at HEAD 0 on pass 0, and a doorbell beyond the ring size is refused with DB_ERR. -/
theorem test_ring_enable :
    after (.qbRingCtlEnSet op 0 (1 + 4 * 2 ^ 9)) { base with cmd := {} } (fun t => (ring t 0).en && (ring t 0).head == 0) = true ∧
    after (.qbRingTailWrite op 0 16) base (fun t => (ring t 0).dbErr && (ring t 0).tail == 8) = true := by decide +kernel
/-- R384: VPP above 1.0 V where it may not be there is logged with kind 0x12. -/
theorem test_vpp_violation :
    after (.vppHigh .inWindow) base (fun t => t.tarn.vppViol == 1 && (t.tarn.log.map (·.kind)) == [0x12]) = true := by decide +kernel
/-- R154: QB_MX tokens are the budget at a window start. -/
theorem test_window_start :
    after (.regWindowStart 0) { base with mem := { base.mem with mx := [(0, { nextBudget := [(3, 100)] })] } }
      (fun t => (mx t 0).tokens == [(3, 100)] && (mx t 0).budget == [(3, 100)]) = true := by decide +kernel
/-- R326: a scrub pulse of a free tile marks it. -/
theorem test_tile_scrub : after (.tileScrubDone 287) base (fun t => t.part.scrubbed.getLsbD 287) = true := by decide +kernel

end Sys2Proof.Tests
end

/-! PROOFS. The checks of a fetched command and the writes of ring registers (08 R225 to R233, R237, R247). -/

namespace Sys2Proof.Machine

/-! ## Checks 3 to 5 of a fetched command (R231, R233) -/

/-- Check 3 fails, and so does any command with it. -/
theorem check35_of_check3_false {op : Op} {n : Nat} {p : Pkt} (s : State) (pre : Nat) (h : check3 op n p = false) :
    check35 op s n p pre = some .errParam := by
  simp [check35, h]

/-- Check 4 decides once check 3 has passed. -/
theorem check35_of_check4_false {op : Op} {n : Nat} {p : Pkt} (s : State) (pre : Nat) (h3 : check3 op n p = true)
    (h4 : check4 op n p = false) : check35 op s n p pre = some .errPerm := by
  simp [check35, h3, h4]

/-- Check 5 decides once checks 3 and 4 have passed. -/
theorem check35_of_check4 {op : Op} {n : Nat} {p : Pkt} (s : State) (pre : Nat) (h3 : check3 op n p = true)
    (h4 : check4 op n p = true) : check35 op s n p pre = check5 op s p pre := by
  simp [check35, h3, h4]

theorem check5_of_stale (op : Op) {s : State} {p : Pkt} {pre : Nat} (h : tagCurrent s p.ptag = false ∨ pre ≠ 0) :
    check5 op s p pre = some .errStale := by
  rcases h with h | h <;> simp [check5, h]

theorem check5_of_current {op : Op} {s : State} {p : Pkt} (h : tagCurrent s p.ptag = true) :
    check5 op s p 0 = if op.handle s p = true then none else some .errParam := by
  cases hh : op.handle s p <;> simp [check5, h, hh]

/-- A command that passes check 3 holds zeros wherever its form names nothing, and PTAG 0 where it must (R11, R228, R231). -/
theorem check3_fields {op : Op} {n : Nat} {p : Pkt} (h : check3 op n p = true) :
    (p.flags &&& 0xFC#8 = 0 ∧ p.rsvd3 = 0 ∧ p.rsvd12 = 0 ∧ p.params &&& ~~~ (namedMask op) = 0) ∧
    (tagZero op n p = true → p.ptag = 0) := by
  simp only [check3, Bool.and_eq_true, beq_iff_eq, Bool.or_eq_true, Bool.not_eq_true'] at h
  obtain ⟨⟨⟨⟨⟨hflags, hr3⟩, hr12⟩, hparams⟩, -⟩, htag⟩ := h
  refine ⟨⟨hflags, hr3, hr12, hparams⟩, fun hz => ?_⟩
  rcases htag with ht | ht
  · simp [hz] at ht
  · exact ht

theorem check3_false_of_reserved {op : Op} (n : Nat) {p : Pkt}
    (h : p.flags &&& 0xFC#8 ≠ 0 ∨ p.rsvd3 ≠ 0 ∨ p.rsvd12 ≠ 0 ∨ p.params &&& ~~~ (namedMask op) ≠ 0) :
    check3 op n p = false := by
  rw [Bool.eq_false_iff]
  intro hc
  obtain ⟨⟨hflags, hr3, hr12, hparams⟩, -⟩ := check3_fields hc
  simp [hflags, hr3, hr12, hparams] at h

theorem check3_false_of_tag {op : Op} {n : Nat} {p : Pkt} (hz : tagZero op n p = true) (hp : p.ptag ≠ 0) :
    check3 op n p = false := by
  rw [Bool.eq_false_iff]
  exact fun hc => hp ((check3_fields hc).2 hz)

/-- A command that acts on the chip as a whole names PTAG 0 on the operator's, the range and the internal ring (R231). -/
theorem tagZero_of_whole {op : Op} {n : Nat} {p : Pkt} (hw : op.whole p = true) (hn : n = 0 ∨ n = 32 ∨ n = 33) :
    tagZero op n p = true := by
  rcases hn with rfl | rfl | rfl <;> simp [tagZero, tenantOnly, hw]

/-- On the range ring every command but the BIND query names PTAG 0 (R231). -/
theorem tagZero_rangeRing {op : Op} (p : Pkt) (h : ¬(op.opcode = 0x15 ∧ op.form = 2)) : tagZero op 32 p = true := by
  have hb : (op.opcode == 0x15 && op.form == 2) = false := by simpa using h
  simp only [tagZero, hb]
  simp

/-- A tenant ring takes its own PID alone. -/
theorem check4_false_of_otherPid (op : Op) {n : Nat} {p : Pkt} (h1 : 1 ≤ n) (h31 : n ≤ 31) (hp : tagPid p.ptag ≠ n) :
    check4 op n p = false := by
  simp [check4, tenantOnly, h1, h31, hp]

/-- Settles O5: each check is reached once those before it have passed, and the first that fails gives the status. -/
theorem firstFailingCheckDecides : Obligations.FirstFailingCheckDecides := by
  intro op s n p pre
  refine ⟨check35_of_check3_false s pre, check35_of_check4_false s pre, fun h3 h4 hstale => ?_,
    fun h3 h4 hcur hpre hhandle => ?_, fun h3 h4 hcur hpre hhandle => ?_, check3_false_of_reserved n,
    fun hw hn => check3_false_of_tag (tagZero_of_whole hw hn), fun hop => check3_false_of_tag (tagZero_rangeRing p hop),
    check4_false_of_otherPid op⟩
  · rw [check35_of_check4 s pre h3 h4, check5_of_stale op hstale]
  · rw [check35_of_check4 s pre h3 h4, hpre, check5_of_current hcur, hhandle]
    rfl
  · rw [check35_of_check4 s pre h3 h4, hpre, check5_of_current hcur, hhandle]
    rfl

/-! ## Register writes that the port admits -/

/-- A write of a page that the port admits has its effect. -/
theorem onWrite_of_regOpen {s : State} {a : Acc} {pg : Page} (h : regOpen s a pg = true) (f : State → State) :
    onWrite s a pg f = .next (f s) := by
  simp only [regOpen, Bool.and_eq_true, Bool.not_eq_true', beq_iff_eq] at h
  obtain ⟨⟨hreset, hadmit⟩, hopen⟩ := h
  simp [onWrite, hreset, hadmit, hopen]

/-- A field of a register is a part of its word. -/
theorem bits_eq_extractLsb' (v : BitVec 32) (lo n : Nat) : bits v.toNat lo n = (v.extractLsb' lo n).toNat := by
  simp [bits, Nat.shiftRight_eq_div_pow]

/-- EN set leaves every field above bit 0 as written. -/
theorem bits_or_one (v : BitVec 32) {lo : Nat} (n : Nat) (h : 1 ≤ lo) : bits (v ||| 1).toNat lo n = bits v.toNat lo n := by
  rw [bits_eq_extractLsb', bits_eq_extractLsb']
  congr 1
  ext i hi
  simp only [BitVec.getElem_extractLsb', BitVec.getLsbD_or, BitVec.ofNat_eq_ofNat, BitVec.getLsbD_one]
  simp [show lo ≠ 0 by omega]

/-- EN clear leaves every field above bit 0 as written. -/
theorem bits_and_not_one (v : BitVec 32) {lo n : Nat} (h : 1 ≤ lo) (h32 : lo + n ≤ 32) :
    bits (v &&& ~~~ 1#32).toNat lo n = bits v.toNat lo n := by
  rw [bits_eq_extractLsb', bits_eq_extractLsb']
  congr 1
  ext i hi
  simp only [BitVec.getElem_extractLsb', BitVec.getLsbD_and, BitVec.getLsbD_not, BitVec.getLsbD_one]
  simp [show lo ≠ 0 by omega, show lo + i < 32 by omega]

theorem getLsbD_or_one (v : BitVec 32) (i : Nat) (h : 1 ≤ i) : (v ||| 1).getLsbD i = v.getLsbD i := by
  simp only [BitVec.getLsbD_or, BitVec.ofNat_eq_ofNat, BitVec.getLsbD_one]
  simp [show i ≠ 0 by omega]

theorem getLsbD_and_not_one (v : BitVec 32) (i : Nat) (h : 1 ≤ i) (h32 : i < 32) :
    (v &&& ~~~ 1#32).getLsbD i = v.getLsbD i := by
  simp only [BitVec.getLsbD_and, BitVec.getLsbD_not, BitVec.getLsbD_one]
  simp [show i ≠ 0 by omega, h32]

/-! ### The ring block (R225, R227, R247) -/

/-- While EN is 1 a write of QB_RING_CTL reaches EN alone. -/
theorem writeRingCtl_enabled {s : State} {n : Nat} (h : (ring s n).en = true) (v : BitVec 32) :
    writeRingCtl s n v = setRing s n { ring s n with en := v.getLsbD 0 } := by
  simp [writeRingCtl, h]

/-- CLOG2 and the bases are such that EN set starts the ring (R247). -/
def ringStarts (r : Ring) (clog2 : Nat) (loc : Bool) : Bool :=
  4 ≤ clog2 && clog2 ≤ 12 && baseOk loc r.cbase && baseOk loc r.rbase

/-- While EN is 0 a write of QB_RING_CTL takes CLOG2 and LOC, and with EN 1 it starts a ring whose registers are in range. -/
theorem writeRingCtl_disabled {s : State} {n : Nat} (h : (ring s n).en = false) (v : BitVec 32) :
    writeRingCtl s n v = setRing s n
      (if v.getLsbD 0 && ringStarts (ring s n) (bits v.toNat 9 4) (v.getLsbD 1) then { ring s n with
        clog2 := bits v.toNat 9 4, loc := v.getLsbD 1, en := true, head := 0, tail := 0, seqExp := 0, oddPass := false
        pre := [] }
      else { ring s n with clog2 := bits v.toNat 9 4, loc := v.getLsbD 1 }) := by
  simp only [writeRingCtl, h, Bool.false_eq_true, if_false, apply_ite (setRing s n)]
  rfl

theorem ringStarts_of_inRange {r : Ring} {clog2 : Nat} {loc : Bool} (hmin : 4 ≤ clog2) (hmax : clog2 ≤ 12)
    (hcbase : baseOk loc r.cbase = true) (hrbase : baseOk loc r.rbase = true) : ringStarts r clog2 loc = true := by
  simp [ringStarts, hmin, hmax, hcbase, hrbase]

theorem ringStarts_false {r : Ring} {clog2 : Nat} {loc : Bool}
    (h : clog2 < 4 ∨ 12 < clog2 ∨ baseOk loc r.cbase = false ∨ baseOk loc r.rbase = false) :
    ringStarts r clog2 loc = false := by
  rcases h with h | h | h | h
  · simp [ringStarts, Nat.not_le.mpr h]
  · simp [ringStarts, Nat.not_le.mpr h]
  · simp [ringStarts, h]
  · simp [ringStarts, h]

/-- A TAIL below the ring's size posts entries. -/
theorem writeTail_posts {s : State} {n : Nat} {v : BitVec 32} (h : (ring s n).en = true)
    (hv : v.toNat % 4096 < 2 ^ (ring s n).clog2) :
    writeTail s n v = setRing s n { ring s n with tail := v.toNat % 4096 } := by
  simp [writeTail, h, bits, ringSize, hv]

/-- A TAIL beyond the ring's size is a doorbell error. -/
theorem writeTail_errs {s : State} {n : Nat} {v : BitVec 32} (h : (ring s n).en = true)
    (hv : 2 ^ (ring s n).clog2 ≤ v.toNat % 4096) :
    writeTail s n v = setRing s n { ring s n with dbErr := true } := by
  simp [writeTail, h, bits, ringSize, hv]

theorem writeTail_disabled {s : State} {n : Nat} (h : (ring s n).en = false) (v : BitVec 32) : writeTail s n v = s := by
  simp [writeTail, h]

/-! ### The event ring block (R237, R247) -/

/-- While EN is 1 a write of QB_EVT_CTL reaches MOD, VECTOR and EN. -/
theorem writeEvtCtl_enabled {s : State} {n : Nat} (h : (evt s n).en = true) (v : BitVec 32) :
    writeEvtCtl s n v = setEvt s n { evt s n with
      mod := bits v.toNat 24 8, vector := bits v.toNat 13 11, en := v.getLsbD 0 } := by
  simp [writeEvtCtl, h]

/-- EN set while 0 starts an event ring whose registers are in range. -/
theorem writeEvtCtl_starts {s : State} {n : Nat} {v : BitVec 32} (h : (evt s n).en = false) (hv : v.getLsbD 0 = true)
    (hmin : 6 ≤ bits v.toNat 1 5) (hmax : bits v.toNat 1 5 ≤ 16) (hbase : baseOk (v.getLsbD 6) (evt s n).base = true) :
    writeEvtCtl s n v = setEvt s n { evt s n with
      mod := bits v.toNat 24 8, vector := bits v.toNat 13 11, elog2 := bits v.toNat 1 5, loc := v.getLsbD 6, en := true
      prod := 0, cons := 0 } := by
  simp only [writeEvtCtl, h, hv, hmin, hmax, hbase, Bool.false_eq_true, if_false, decide_true, Bool.and_self, if_true]

/-- The value of a control register as it is written with EN 1. -/
theorem enSet_fields (v : BitVec 32) :
    (v ||| 1).getLsbD 0 = true ∧ (v ||| 1).getLsbD 1 = v.getLsbD 1 ∧ (v ||| 1).getLsbD 6 = v.getLsbD 6 ∧
    bits (v ||| 1).toNat 9 4 = bits v.toNat 9 4 ∧ bits (v ||| 1).toNat 24 8 = bits v.toNat 24 8 ∧
    bits (v ||| 1).toNat 13 11 = bits v.toNat 13 11 ∧ bits (v ||| 1).toNat 1 5 = bits v.toNat 1 5 :=
  ⟨by simp, getLsbD_or_one v 1 (by decide), getLsbD_or_one v 6 (by decide), bits_or_one v 4 (by decide),
    bits_or_one v 8 (by decide), bits_or_one v 11 (by decide), bits_or_one v 5 (by decide)⟩

/-- The value of a control register as it is written with EN 0. -/
theorem enClear_fields (v : BitVec 32) :
    (v &&& ~~~ 1#32).getLsbD 0 = false ∧ (v &&& ~~~ 1#32).getLsbD 1 = v.getLsbD 1 ∧
    bits (v &&& ~~~ 1#32).toNat 9 4 = bits v.toNat 9 4 ∧ bits (v &&& ~~~ 1#32).toNat 24 8 = bits v.toNat 24 8 ∧
    bits (v &&& ~~~ 1#32).toNat 13 11 = bits v.toNat 13 11 :=
  ⟨by simp, getLsbD_and_not_one v 1 (by decide) (by decide), bits_and_not_one v (by decide) (by decide),
    bits_and_not_one v (by decide) (by decide), bits_and_not_one v (by decide) (by decide)⟩

/-! ### The commands -/

section
variable {s : State} {a : Acc} {fn : Pid} (h : regOpen s a (fnPage fn) = true) (v : BitVec 32)
include h

theorem exec_qbRingTailWrite : exec (.qbRingTailWrite a fn v) s = .next (writeTail s fn.val v) :=
  onWrite_of_regOpen h fun s => writeTail s fn.val v

theorem exec_qbRingCtlEnSet : exec (.qbRingCtlEnSet a fn v) s = .next (writeRingCtl s fn.val (v ||| 1)) :=
  onWrite_of_regOpen h fun s => writeRingCtl s fn.val (v ||| 1)

theorem exec_qbRingCtlEnClear : exec (.qbRingCtlEnClear a fn v) s = .next (writeRingCtl s fn.val (v &&& ~~~ 1#32)) :=
  onWrite_of_regOpen h fun s => writeRingCtl s fn.val (v &&& ~~~ 1#32)

theorem exec_qbRingStatusClear : exec (.qbRingStatusClear a fn v) s = .next (writeRingStatus s fn.val v) :=
  onWrite_of_regOpen h fun s => writeRingStatus s fn.val v

theorem exec_qbEvtCtlEnSet : exec (.qbEvtCtlEnSet a fn v) s = .next (writeEvtCtl s fn.val (v ||| 1)) :=
  onWrite_of_regOpen h fun s => writeEvtCtl s fn.val (v ||| 1)

theorem exec_qbEvtCtlEnClear : exec (.qbEvtCtlEnClear a fn v) s = .next (writeEvtCtl s fn.val (v &&& ~~~ 1#32)) :=
  onWrite_of_regOpen h fun s => writeEvtCtl s fn.val (v &&& ~~~ 1#32)

theorem exec_qbEvtConsWrite : exec (.qbEvtConsWrite a fn v) s = .next (writeCons s fn.val v) :=
  onWrite_of_regOpen h fun s => writeCons s fn.val v

theorem exec_qbEvtStatusClear : exec (.qbEvtStatusClear a fn v) s = .next (writeEvtStatus s fn.val v) :=
  onWrite_of_regOpen h fun s => writeEvtStatus s fn.val v

end

/-- Settles O6: a write that the port admits is the register's own update, and each update is taken by the value of EN. -/
theorem ringAndEventRingRegisterWrites : Obligations.RingAndEventRingRegisterWrites := by
  refine ⟨fun s a fn v h => ?_, fun s a fn v h => ?_⟩
  · obtain ⟨hset0, hset1, -, hset9, -⟩ := enSet_fields v
    obtain ⟨hclr0, hclr1, hclr9, -⟩ := enClear_fields v
    dsimp only
    rw [exec_qbRingTailWrite h, exec_qbRingCtlEnSet h, exec_qbRingCtlEnClear h, exec_qbRingStatusClear h]
    refine ⟨fun hen hv => ?_, fun hen hv => ?_, fun hen => ?_, fun hen hmin hmax hc hr => ?_, fun hen hbad => ?_,
      fun hen => ?_, fun hen => ?_, fun hen => ?_, rfl⟩
    · rw [writeTail_posts hen hv]
    · rw [writeTail_errs hen hv]
    · rw [writeTail_disabled hen]
    · rw [writeRingCtl_disabled hen, hset0, hset1, hset9, ringStarts_of_inRange hmin hmax hc hr]
      rfl
    · rw [writeRingCtl_disabled hen, hset1, hset9, ringStarts_false hbad, Bool.and_false]
      rfl
    · rw [writeRingCtl_enabled hen, hset0]
    · rw [writeRingCtl_enabled hen, hclr0]
    · rw [writeRingCtl_disabled hen, hclr0, hclr1, hclr9, Bool.false_and]
      rfl
  · obtain ⟨hset0, -, hset6, -, hset24, hset13, hset1⟩ := enSet_fields v
    obtain ⟨hclr0, -, -, hclr24, hclr13⟩ := enClear_fields v
    dsimp only
    rw [exec_qbEvtCtlEnSet h, exec_qbEvtCtlEnClear h, exec_qbEvtConsWrite h, exec_qbEvtStatusClear h]
    refine ⟨fun hen hmin hmax hbase => ?_, fun hen => ?_, fun hen => ?_, rfl, fun hv => ?_, fun hv => ?_⟩
    · rw [writeEvtCtl_starts hen hset0 (hset1 ▸ hmin) (hset1 ▸ hmax) (hset6 ▸ hbase), hset24, hset13, hset1, hset6]
    · rw [writeEvtCtl_enabled hen, hset0, hset24, hset13]
    · rw [writeEvtCtl_enabled hen, hclr0, hclr24, hclr13]
    · rw [writeEvtStatus, if_pos hv]
    · rw [writeEvtStatus, hv, if_neg Bool.false_ne_true]

end Sys2Proof.Machine

/-! PROOFS. Failed key slots, the entropy source and the DRBG, and quarantine (02 R31, 09 R255 to R260, 11 R323). -/

namespace Sys2Proof.Machine

/-! ## What quarantine reaches (R12, R31, R62, R195, R323)

Quarantine runs a sequence of shared operations. `Footing` is the part of the state on which its statement rests; each
operation is described once by what it does to that part. -/

/-- A port as quarantine leaves it: its state and its keys in use. -/
structure PortView where
  state : PortState
  txCur : Option SKey
  rxCur : Option SKey

/-- The part of the state that quarantine changes or must leave. -/
structure Footing where
  fuse     : FuseState
  tarn     : TarnState
  gens     : Tbl (BitVec 11)
  peers    : Tbl Peer
  pot      : Tbl Pot
  memKeys  : Tbl MemKeys
  /-- The slots that quarantine clears. -/
  clears   : List Nat
  slots    : Tbl Slot
  ctxs     : Tbl Ctx
  tickets  : List RinseTkt
  rinseKey : Option (Key × Key)
  ports    : Nat → PortView

def portView (l : Link) : PortView := ⟨l.state, l.txCur, l.rxCur⟩

def footing (s : State) : Footing where
  fuse := s.fuse
  tarn := s.tarn
  gens := s.part.gens
  peers := s.part.peers
  pot := s.mem.pot
  memKeys := s.mem.keys
  clears := rangeSlots s
  slots := s.keys.slots
  ctxs := s.part.ctxs
  tickets := s.mem.tickets
  rinseKey := s.mem.rinseKey
  ports := fun p => portView (link s p)

theorem footing_foldl {α : Type} (f : State → α → State) (h : ∀ s a, footing (f s a) = footing s) (l : List α)
    (s : State) :
    footing (l.foldl f s) = footing s := by
  induction l generalizing s with
  | nil => rfl
  | cons a l ih => exact (ih (f s a)).trans (h s a)

/-! ### Operations that leave it -/

theorem ports_congr {s t : State} (h : t.ridge = s.ridge) : (footing t).ports = (footing s).ports := by
  simp only [footing, link, h]

theorem clears_congr {s t : State} (h : t.range = s.range) : (footing t).clears = (footing s).clears := by
  simp only [footing, rangeSlots, advSlot, h]

/-- Events, vectors and charges leave it. -/
theorem footing_of_sameButCmd {s t : State} (h : sameButCmd s t) : footing t = footing s := by
  obtain ⟨-, htarn, hfuse, hkeys, -, hpart, ⟨hmem, -, -⟩, hridge, -, -, hrange, -, -, -, -⟩ := h
  have hports := ports_congr hridge
  have hclears := clears_congr hrange
  simp only [footing] at hports hclears ⊢
  rw [hports, hclears, htarn, hfuse, hkeys, hpart, hmem]

/-- A port written changes its own view. -/
theorem footing_setLink (s : State) (p : Nat) (x : Link) :
    footing (setLink s p x) = { footing s with ports := Function.update (footing s).ports p (portView x) } := by
  have hports : (fun j => portView (link (setLink s p x) j)) = Function.update (footing s).ports p (portView x) := by
    funext j
    rw [link_setLink, apply_ite portView, Function.update_apply]
    rfl
  rw [← hports]
  rfl

/-- A port written back with its state and its keys in use leaves the footing. -/
theorem footing_setLink_same {s : State} {p : Nat} {x : Link} (h : portView x = portView (link s p)) :
    footing (setLink s p x) = footing s := by
  rw [footing_setLink, h]
  exact congrArg (fun v => { footing s with ports := v }) (Function.update_eq_self p _)

theorem footing_linkCtr (s : State) (p : Nat) (f : LinkCtr → LinkCtr) : footing (linkCtr s p f) = footing s :=
  footing_setLink_same rfl

theorem footing_push (s : State) (f : OutFrame) : footing (push s f) = footing s := by
  unfold push
  split
  · exact footing_setLink_same rfl
  · rfl

theorem footing_owe (s : State) (p : Nat) (cls : BitVec 4) (flits : Nat) : footing (owe s p cls flits) = footing s := by
  unfold owe
  dsimp only
  split
  · exact footing_setLink_same rfl
  · rfl

/-- A reply goes to its ring, or to the range by the ridge's queues. -/
theorem footing_finish (s : State) (t : Ticket) (st : Status) (r : BitVec 192) : footing (finish s t st r) = footing s := by
  obtain ⟨-, htarn, hfuse, -, hpart, ⟨hmem, -, -⟩, -, -, hrange, -, -, -, -, hridge, hslots, -⟩ :=
    finishWith_frame s t st false r
  have hclears := clears_congr hrange
  have hports : (footing (finish s t st r)).ports = (footing s).ports := by
    by_cases h32 : t.ring = 32
    · simp only [finish, finishWith, h32, beq_self_eq_true, if_true, pushRange]
      rw [footing_push]
      split <;> rfl
    · exact ports_congr (hridge h32)
  simp only [footing, finish] at hports hclears ⊢
  rw [hports, hclears, htarn, hfuse, hslots, hpart, hmem]

theorem footing_finishWaits (s : State) (p : Wait → Bool) (st : Status) (r : BitVec 192) :
    footing (finishWaits s p st r) = footing s :=
  footing_foldl (fun s (w : Wait) => finish s w.tkt st r) (fun s w => footing_finish s w.tkt st r) _ _

theorem footing_dropInput (s : State) (p : FoldFrame → Bool) : footing (dropInput s p) = footing s := by
  refine footing_foldl _ (fun s u => ?_) _ s
  dsimp only
  split
  · rfl
  · exact footing_foldl (fun s (f : FoldFrame) => oweFold s u f.flits) (fun s f => footing_owe s u clsFold f.flits) _ _

/-- A plan that is freed ends the commands that waited for it. -/
theorem footing_freePlan (s : State) (n : Nat) (st : Status) : footing (endDisarms (setPlan s n {}) n st) = footing s :=
  footing_finishWaits (setPlan s n {}) _ st 0

theorem footing_zeroBlocks (s : State) (l : List Nat) : footing (zeroBlocks s l) = footing s := rfl

/-- The fold units have no part in it. -/
theorem footing_foldQuarantine (s : State) : footing (foldQuarantine s) = footing s := by
  unfold foldQuarantine
  dsimp only
  rw [footing_zeroBlocks, footing_dropInput]
  exact footing_foldl _ (fun s n => footing_freePlan s n .errState) _ s

/-! ### Contexts that are lost (R208) -/

theorem footing_countStopped (s : State) (i : Nat) : footing (countStopped s i) = footing s := by
  unfold countStopped
  dsimp only
  split
  · split <;> rfl
  · rfl

/-- The trackers, signals and DMA bindings of a context have no part in it. -/
theorem footing_dropHeld (s : State) (i : Nat) (h : BitVec 32) (p : HeldSignal → Bool) :
    footing (dropSignals (dropTracked (unbindDma s i) h) p) = footing s := rfl

/-- Nor has the descriptor of a partition. -/
theorem footing_setPart (s : State) (n : Nat) (x : Part) : footing (setPart s n x) = footing s := rfl

theorem footing_partCtr (s : State) (f : PartCtr → PartCtr) : footing (partCtr s f) = footing s := rfl

theorem footing_setCtx (s : State) (i : Nat) (x : Ctx) :
    footing (setCtx s i x) = { footing s with ctxs := tset {} (footing s).ctxs i x } := rfl

/-- A context that an alarm may take: resident or evicted. -/
def liveCtx (c : Ctx) : Prop := c.state = .resident ∨ c.state = .evicted

/-- Losing a context writes its descriptor alone, as LOST. -/
theorem footing_loseCtx {s : State} {i : Nat} (h : liveCtx (ctx s i)) (f : CtxFault) :
    ∃ x : Ctx, x.state = .lost ∧ footing (loseCtx s i f) = { footing s with ctxs := tset {} (footing s).ctxs i x } := by
  have hlive : ((ctx s i).state != .resident && (ctx s i).state != .evicted) = false := by
    rcases h with h | h <;> simp [h]
  unfold loseCtx
  simp only [hlive, Bool.false_eq_true, if_false]
  rw [footing_of_sameButCmd (postBoth_same ..), footing_finishWaits, footing_partCtr, footing_setPart, footing_setCtx,
    footing_dropHeld]
  have hstop : footing (if ((ctx s i).phase == .none) = true then countStopped s i
      else emit (countStopped s i) (.schedStop i)) = footing s := by
    split
    · exact footing_countStopped s i
    · exact footing_countStopped s i
  rw [hstop]
  exact ⟨_, rfl, rfl⟩

theorem loseCtx_of_not_live {s : State} {i : Nat} (h : ¬ liveCtx (ctx s i)) (f : CtxFault) : loseCtx s i f = s := by
  have hdead : ((ctx s i).state != .resident && (ctx s i).state != .evicted) = true := by
    simpa [liveCtx] using h
  simp [loseCtx, hdead]

/-- From `s` to `t` each context is kept as it was, or LOST, and nothing else of the footing changes. -/
def OnlyLost (s t : State) : Prop :=
  footing t = { footing s with ctxs := (footing t).ctxs } ∧ ∀ j, ctx t j = ctx s j ∨ (ctx t j).state = .lost

theorem OnlyLost.refl (s : State) : OnlyLost s s := ⟨rfl, fun _ => .inl rfl⟩

theorem OnlyLost.trans {s t u : State} (h : OnlyLost s t) (k : OnlyLost t u) : OnlyLost s u := by
  obtain ⟨hf, hc⟩ := h
  obtain ⟨kf, kc⟩ := k
  refine ⟨by rw [kf, hf], fun j => ?_⟩
  rcases kc j with hj | hj
  · rw [hj]; exact hc j
  · exact .inr hj

theorem OnlyLost.foldl {α : Type} {f : State → α → State} (h : ∀ s a, OnlyLost s (f s a)) (l : List α) (s : State) :
    OnlyLost s (l.foldl f s) := by
  induction l generalizing s with
  | nil => exact .refl s
  | cons a l ih => exact (h s a).trans (ih (f s a))

/-- What is LOST stays LOST. -/
theorem OnlyLost.lost {s t : State} (h : OnlyLost s t) {j : Nat} (hj : (ctx s j).state = .lost) :
    (ctx t j).state = .lost := by
  rcases h.2 j with hk | hk
  · rw [hk, hj]
  · exact hk

/-- A context that one of the steps loses is LOST at the end. -/
theorem lost_of_foldl {α : Type} {f : State → α → State} (h : ∀ s a, OnlyLost s (f s a)) {l : List α} {a : α}
    (ha : a ∈ l) {s : State} {j : Nat} (hlose : ∀ t, ctx t j = ctx s j → (ctx (f t a) j).state = .lost) :
    (ctx (l.foldl f s) j).state = .lost := by
  induction l generalizing s with
  | nil => cases ha
  | cons b l ih =>
    rcases List.mem_cons.mp ha with rfl | hl
    · exact (OnlyLost.foldl h l _).lost (hlose s rfl)
    · rcases (h s b).2 j with hk | hk
      · exact ih hl fun t ht => hlose t (ht.trans hk)
      · exact (OnlyLost.foldl h l _).lost hk

theorem onlyLost_loseCtx (s : State) (i : Nat) (f : CtxFault) : OnlyLost s (loseCtx s i f) := by
  by_cases h : liveCtx (ctx s i)
  · obtain ⟨x, hx, hfoot⟩ := footing_loseCtx h f
    have hctxs : (loseCtx s i f).part.ctxs = tset {} s.part.ctxs i x := congrArg Footing.ctxs hfoot
    refine ⟨by rw [hfoot], fun j => ?_⟩
    by_cases hj : j = i
    · subst hj
      exact .inr (by rw [ctx, hctxs, tget_tset_same, hx])
    · exact .inl (by rw [ctx, hctxs, tget_tset_other _ _ hj, ctx])
  · rw [loseCtx_of_not_live h]
    exact .refl s

theorem lost_loseCtx {s : State} {i : Nat} (h : liveCtx (ctx s i)) (f : CtxFault) :
    (ctx (loseCtx s i f) i).state = .lost := by
  obtain ⟨x, hx, hfoot⟩ := footing_loseCtx h f
  have hctxs : (loseCtx s i f).part.ctxs = tset {} s.part.ctxs i x := congrArg Footing.ctxs hfoot
  rw [ctx, hctxs, tget_tset_same, hx]

theorem onlyLost_losePid (s : State) (pid : Nat) (f : CtxFault) : OnlyLost s (losePid s pid f) :=
  .foldl (fun s i => onlyLost_loseCtx s i f) _ s

/-- An entry that is not the default stands in the table. -/
theorem mem_of_tget_ne {α : Type} {d : α} {t : Tbl α} {i : Nat} (h : tget d t i ≠ d) : (i, tget d t i) ∈ t := by
  induction t with
  | nil => exact absurd rfl h
  | cons e t ih =>
    obtain ⟨k, v⟩ := e
    by_cases hk : i = k
    · subst hk
      simp [tget]
    · simp only [tget, hk, if_false] at h ⊢
      exact List.mem_cons_of_mem _ (ih h)

theorem mem_ctxsOf {s : State} {i : Nat} (h : liveCtx (ctx s i)) : i ∈ ctxsOf s (ctx s i).pid := by
  have hfree : (ctx s i).state ≠ .free := by rcases h with h | h <;> simp [h]
  have hmem := mem_of_tget_ne (d := ({} : Ctx)) (t := s.part.ctxs) (i := i) fun h0 => hfree (congrArg Ctx.state h0)
  exact List.mem_map.mpr ⟨_, List.mem_filter.mpr ⟨hmem, by simpa [ctx] using hfree⟩, rfl⟩

theorem lost_losePid {s : State} {i : Nat} (h : liveCtx (ctx s i)) (f : CtxFault) :
    (ctx (losePid s (ctx s i).pid f) i).state = .lost :=
  lost_of_foldl (fun s i => onlyLost_loseCtx s i f) (mem_ctxsOf h) fun _ ht => lost_loseCtx (ht ▸ h) f

/-- The contexts of every partition are lost. -/
def loseParts (s : State) : State :=
  ((s.part.parts.filter fun e => e.2.state != .free).map (·.1)).foldl (fun s n => losePid s n .alarm) s

theorem onlyLost_loseParts (s : State) : OnlyLost s (loseParts s) := .foldl (fun s n => onlyLost_losePid s n .alarm) _ s

theorem mem_parts {s : State} {pid : Nat} (h : (part s pid).state ≠ .free) :
    pid ∈ (s.part.parts.filter fun e => e.2.state != .free).map (·.1) := by
  have hmem := mem_of_tget_ne (d := ({} : Part)) (t := s.part.parts) (i := pid) fun h0 => h (congrArg Part.state h0)
  exact List.mem_map.mpr ⟨_, List.mem_filter.mpr ⟨hmem, by simpa [part] using h⟩, rfl⟩

theorem lost_loseParts {s : State} {i : Nat} (h : liveCtx (ctx s i)) (hp : (part s (ctx s i).pid).state ≠ .free) :
    (ctx (loseParts s) i).state = .lost :=
  lost_of_foldl (fun s n => onlyLost_losePid s n .alarm) (mem_parts hp) fun t ht => by
    rw [← ht]
    exact lost_losePid (ht ▸ h) .alarm

/-! ### Ports that close (R62) -/

/-- A port whose session has ended. -/
def offView : PortView := ⟨.off, none, none⟩

theorem footing_noRoute (p : Nat) (s : State) (h : Handed) : footing (noRoute p s h) = footing s := by
  unfold noRoute
  rw [footing_linkCtr, footing_owe]

/-- A port to OFF writes that port alone. -/
theorem footing_portTo_off (s : State) (p : Nat) :
    footing (portTo s p .off) = { footing s with ports := Function.update (footing s).ports p offView } := by
  have hopen : footing (if ((link s p).state == .opened) = true then { s with range := { s.range with openAt := now s } }
      else s) = footing s := by
    split <;> rfl
  unfold portTo
  dsimp only
  rw [footing_foldl _ (footing_noRoute p), footing_setLink, hopen]
  rfl

/-- The ports of a list to OFF, one after the other. -/
theorem footing_portsOff (l : List Nat) (s : State) :
    footing (l.foldl (fun s p => portTo s p .off) s) =
      { footing s with ports := fun p => if p ∈ l then offView else (footing s).ports p } := by
  induction l generalizing s with
  | nil => simp
  | cons a l ih =>
    rw [List.foldl_cons, ih, footing_portTo_off]
    refine congrArg (fun v => { footing s with ports := v }) (funext fun p => ?_)
    by_cases hl : p ∈ l
    · simp [hl]
    · simp [hl, Function.update_apply]

/-- Every port to OFF, and the commands that waited for one end. -/
def closePorts (s : State) : State := endLinkWaits (allPorts.foldl (fun s p => portTo s p .off) s) .errState

theorem footing_closePorts (s : State) :
    footing (closePorts s) = { footing s with ports := fun p => if p ∈ allPorts then offView else (footing s).ports p } :=
  (footing_finishWaits _ _ _ _).trans (footing_portsOff allPorts s)

/-! ### The rinse and the slots (R257, R323) -/

theorem footing_postRinseDone (s : State) (k : RinseTkt) (st : Status) : footing (postRinseDone s k st) = footing s := by
  unfold postRinseDone
  split
  · exact footing_of_sameButCmd (postEvent_same ..)
  · rfl

/-- A ticket that has not ended stops. -/
def stopTicket (k : RinseTkt) : RinseTkt :=
  if k.state == .queued || k.state == .running then { k with state := .stopped } else k

theorem stopTicket_ended (k : RinseTkt) : (stopTicket k).state ≠ .queued ∧ (stopTicket k).state ≠ .running := by
  unfold stopTicket
  split
  · simp
  · simp_all

theorem footing_stopRinse (s : State) :
    footing (stopRinse s) = { footing s with rinseKey := none, tickets := (footing s).tickets.map stopTicket } := by
  unfold stopRinse
  dsimp only
  rw [footing_foldl _ fun s k => footing_postRinseDone s k .errState]
  rfl

/-- Clearing the slots of a list. -/
def clearAll (t : Tbl Slot) (l : List Nat) : Tbl Slot :=
  l.foldl (fun t i => tset {} t i { inc := (tget {} t i).inc + 1, bad := (tget {} t i).bad }) t

theorem footing_clearSlots (l : List Nat) (s : State) :
    footing (l.foldl clearSlot s) = { footing s with slots := clearAll s.keys.slots l } := by
  induction l generalizing s with
  | nil => rfl
  | cons a l ih => rw [List.foldl_cons, ih]; rfl

theorem clearAll_other {l : List Nat} {i : Nat} (h : i ∉ l) (t : Tbl Slot) :
    tget {} (clearAll t l) i = tget {} t i := by
  induction l generalizing t with
  | nil => rfl
  | cons a l ih =>
    obtain ⟨ha, hl⟩ := not_or.mp (mt List.mem_cons.mpr h)
    exact (ih hl _).trans (tget_tset_other _ _ ha)

/-- A slot that is clear stays clear. -/
theorem clearAll_keeps_clear {i : Nat} (l : List Nat) {t : Tbl Slot}
    (h : (tget {} t i).key = 0 ∧ (tget {} t i).policy = 0) :
    (tget {} (clearAll t l) i).key = 0 ∧ (tget {} (clearAll t l) i).policy = 0 := by
  induction l generalizing t with
  | nil => exact h
  | cons a l ih =>
    refine ih ?_
    by_cases ha : i = a
    · subst ha; simp
    · rw [tget_tset_other _ _ ha]; exact h

theorem clearAll_mem {l : List Nat} {i : Nat} (h : i ∈ l) (t : Tbl Slot) :
    (tget {} (clearAll t l) i).key = 0 ∧ (tget {} (clearAll t l) i).policy = 0 := by
  induction l generalizing t with
  | nil => cases h
  | cons a l ih =>
    by_cases ha : i = a
    · subst ha
      exact clearAll_keeps_clear l (by simp)
    · exact ih ((List.mem_cons.mp h).resolve_left ha) _

/-! ### Quarantine -/

/-- The key slots of the range are cleared. -/
def clearRangeSlots (s : State) : State := (rangeSlots s).foldl clearSlot s

/-- The commands of the range that have started end. -/
def endRangeWaits (s : State) : State :=
  finishWaits s (fun w => match w.kind with
    | .rangeJoin => true | .rangeLeave => true | .epochAdvance _ => true | _ => false) .errState

/-- The alarm pin, the debug authorisation and what is kept of the range. -/
def markQuarantined (s : State) : State :=
  { s with
    alarm := { s.alarm with quar := true }
    boot := { s.boot with alarmN := true }
    keys := { s.keys with dbg := none }
    range := quarantineRange s.range }

/-- The steps of quarantine, in their order. -/
theorem quarantine_steps {s : State} (h : s.range.memb ≠ .quarantined) :
    quarantine s = setMemb (markQuarantined (endRangeWaits (clearRangeSlots (foldQuarantine (stopRinse
      (closePorts (loseParts s))))))) .quarantined := by
  have hq : ((s.range.memb == Memb.quarantined) = true) = False := by simpa using h
  unfold quarantine
  simp only [hq, if_false]
  generalize hends : finishWaits _ _ _ _ = s5
  have hsteps : endRangeWaits (clearRangeSlots (foldQuarantine (stopRinse (closePorts (loseParts s))))) = s5 := by
    rw [← hends]
    rfl
  rw [hsteps]
  rfl

theorem sameButCmd_foldl {α : Type} (f : State → α → State) (h : ∀ s a, sameButCmd s (f s a)) (l : List α) (s : State) :
    sameButCmd s (l.foldl f s) := by
  induction l generalizing s with
  | nil => exact .refl s
  | cons a l ih => exact (h s a).trans (ih (f s a))

/-- The report of a membership state changes nothing else. -/
theorem postRangeState_same (s : State) : sameButCmd s (postRangeState s) :=
  (postEvent_same ..).trans (sameButCmd_foldl _ (fun _ _ => postEvent_same ..) _ _)

theorem setMemb_same (s : State) (m : Memb) : sameButCmd { s with range := { s.range with memb := m } } (setMemb s m) := by
  unfold setMemb
  split
  · rename_i h
    rw [beq_iff_eq] at h
    subst h
    exact .refl s
  · exact postRangeState_same _

/-- The mark changes what is kept of the range. -/
theorem footing_setMemb_marked (s : State) (m : Memb) : ∃ l,
    footing (setMemb (markQuarantined s) m) = { footing s with clears := l } := by
  rw [footing_of_sameButCmd (setMemb_same ..)]
  exact ⟨_, rfl⟩

theorem footing_loseParts (s : State) : footing (loseParts s) = { footing s with ctxs := (loseParts s).part.ctxs } :=
  (onlyLost_loseParts s).1

theorem footing_endRangeWaits (s : State) : footing (endRangeWaits s) = footing s := footing_finishWaits ..

theorem footing_clearRangeSlots (s : State) :
    footing (clearRangeSlots s) = { footing s with slots := clearAll (footing s).slots (footing s).clears } :=
  footing_clearSlots (rangeSlots s) s

/-- What quarantine does to its footing. -/
theorem footing_quarantine {s : State} (h : s.range.memb ≠ .quarantined) : ∃ l,
    footing (quarantine s) = { footing s with
      clears := l, slots := clearAll (footing s).slots (footing s).clears, ctxs := (loseParts s).part.ctxs
      tickets := (footing s).tickets.map stopTicket, rinseKey := none
      ports := fun p => if p ∈ allPorts then offView else (footing s).ports p } := by
  have hparts := footing_loseParts s
  have hports := footing_closePorts (loseParts s)
  have hrinse := footing_stopRinse (closePorts (loseParts s))
  rw [quarantine_steps h]
  obtain ⟨l, hmark⟩ := footing_setMemb_marked
    (endRangeWaits (clearRangeSlots (foldQuarantine (stopRinse (closePorts (loseParts s)))))) .quarantined
  refine ⟨l, ?_⟩
  rw [hmark, footing_endRangeWaits, footing_clearRangeSlots, footing_foldQuarantine, hrinse, hports, hparts]

/-- The mark raises the alarm pin and its flag, and the debug authorisation goes. -/
theorem setMemb_marked (s : State) (m : Memb) :
    (setMemb (markQuarantined s) m).alarm.quar = true ∧ (setMemb (markQuarantined s) m).boot.alarmN = true ∧
    (setMemb (markQuarantined s) m).keys.dbg = none := by
  obtain ⟨hboot, -, -, hkeys, halarm, -⟩ := setMemb_same (markQuarantined s) m
  exact ⟨congrArg AlarmState.quar halarm, congrArg BootState.alarmN hboot, congrArg KeyState.dbg hkeys⟩

theorem setMemb_memb (s : State) (m : Memb) : (setMemb s m).range.memb = m := by
  obtain ⟨-, -, -, -, -, -, -, -, -, -, hrange, -⟩ := setMemb_same s m
  rw [hrange]

theorem quarantine_memb (s : State) : (quarantine s).range.memb = .quarantined := by
  by_cases h : s.range.memb = .quarantined
  · simp [quarantine, h]
  · rw [quarantine_steps h, setMemb_memb]

section
variable {s : State} (h : s.range.memb ≠ .quarantined)
include h

theorem quarantine_marks :
    (quarantine s).alarm.quar = true ∧ (quarantine s).boot.alarmN = true ∧ (quarantine s).keys.dbg = none := by
  rw [quarantine_steps h]
  exact setMemb_marked ..

theorem quarantine_ports (p : Port) :
    (link (quarantine s) p.val).state = .off ∧ (link (quarantine s) p.val).txCur = none ∧
    (link (quarantine s) p.val).rxCur = none := by
  obtain ⟨l, hfoot⟩ := footing_quarantine h
  have hview : portView (link (quarantine s) p.val) = offView :=
    (congrFun (congrArg Footing.ports hfoot) p.val).trans (if_pos (List.mem_range.mpr p.isLt))
  exact ⟨congrArg PortView.state hview, congrArg PortView.txCur hview, congrArg PortView.rxCur hview⟩

theorem quarantine_ctx {i : Nat} (hlive : liveCtx (ctx s i)) (hpart : (part s (ctx s i).pid).state ≠ .free) :
    (ctx (quarantine s) i).state = .lost := by
  obtain ⟨l, hfoot⟩ := footing_quarantine h
  have hctxs : (quarantine s).part.ctxs = (loseParts s).part.ctxs := congrArg Footing.ctxs hfoot
  rw [ctx, hctxs]
  exact lost_loseParts hlive hpart

theorem quarantine_rinse :
    (quarantine s).mem.rinseKey = none ∧
    ∀ k ∈ (quarantine s).mem.tickets, k.state ≠ .queued ∧ k.state ≠ .running := by
  obtain ⟨l, hfoot⟩ := footing_quarantine h
  have htickets : (quarantine s).mem.tickets = s.mem.tickets.map stopTicket := congrArg Footing.tickets hfoot
  refine ⟨congrArg Footing.rinseKey hfoot, fun k hk => ?_⟩
  rw [htickets] at hk
  obtain ⟨k', -, rfl⟩ := List.mem_map.mp hk
  exact stopTicket_ended k'

theorem slot_quarantine (i : Nat) : slot (quarantine s) i = tget {} (clearAll s.keys.slots (rangeSlots s)) i := by
  obtain ⟨l, hfoot⟩ := footing_quarantine h
  change tget {} (footing (quarantine s)).slots i = tget {} (clearAll (footing s).slots (footing s).clears) i
  rw [hfoot]

/-- What a quarantined chip keeps. -/
theorem quarantine_keeps :
    (quarantine s).mem.pot = s.mem.pot ∧ (quarantine s).mem.keys = s.mem.keys ∧
    (quarantine s).part.peers = s.part.peers ∧ (∀ pid, curGen (quarantine s) pid = curGen s pid) ∧
    (quarantine s).fuse = s.fuse ∧ (quarantine s).tarn = s.tarn := by
  obtain ⟨l, hfoot⟩ := footing_quarantine h
  exact ⟨congrArg Footing.pot hfoot, congrArg Footing.memKeys hfoot, congrArg Footing.peers hfoot,
    fun pid => congrArg (fun f : Footing => tget 0 f.gens pid) hfoot, congrArg Footing.fuse hfoot, congrArg Footing.tarn hfoot⟩

end

/-! ## A slot that fails its check (R259, R260) -/

theorem maxLevel_quarantine (l : Level) : maxLevel .quarantine l = .quarantine ∨ maxLevel .quarantine l = .zeroise := by
  cases l <;> simp [maxLevel, levelCode]

/-- An alarm at quarantine level, or escalated to zeroise, leaves the chip QUARANTINED. -/
theorem raiseAlarm_quarantines (s : State) (cls : AlarmClass) (pid port src detail : Nat) (tarn : Bool) :
    (raiseAlarm s cls pid .quarantine port src detail tarn).range.memb = .quarantined := by
  unfold raiseAlarm
  dsimp only
  generalize escalate _ _ _ = l
  rcases maxLevel_quarantine l with hl | hl <;> rw [hl] <;> exact quarantine_memb _

/-- A slot is marked as failed: BAD, counted, and its class's effects due (R259). -/
def failSlot (s : State) (i : Nat) : State :=
  setSlot { s with keys := { s.keys with badCnt := inc32 s.keys.badCnt, failing := s.keys.failing ++ [i] } } i
    { slot s i with bad := true }

/-- The Iron contexts that use the key of a failed IRON slot are FREE first (R346). -/
def dropIron (s : State) (i : Nat) : State :=
  if polClass (slot s i).policy == classCode .iron then ironDropKey s (keyHandle s (polPid (slot s i).policy) i) else s

/-- A failed slot of any class but IDE is marked, and SA_KEY_SLOT is raised against its PID. -/
theorem slotMark_fails {s : State} {i : Nat} (hz : s.keys.zeroised = false) (hbad : (slot s i).bad = false)
    (hclass : polClass (slot s i).policy ≠ 0) (hide : polClass (slot s i).policy ≠ classCode .ide) :
    slotMark s i = raiseAlarm (failSlot (dropIron s i) i) .keySlot (polPid (slot s i).policy) (slotLevel s i) 36 0x30 i := by
  have hfails : (s.keys.zeroised || (slot s i).bad || polClass (slot s i).policy == 0) = false := by
    simp [hz, hbad, hclass]
  have hnide : (polClass (slot s i).policy == classCode .ide) = false := by simpa using hide
  unfold slotMark
  simp only [hfails, hnide, Bool.false_eq_true, if_false]
  unfold dropIron
  split <;> rfl

theorem slotLevel_quarantine {s : State} {i : Nat} (h : i = 2 ∨ polClass (slot s i).policy = classCode .chip) :
    slotLevel s i = .quarantine := by
  have hc : (i == 2 || polClass (slot s i).policy == classCode .chip) = true := by simpa using h
  simp only [slotLevel, hc, if_true]

/-- An identity slot raises its alarm at notice level. -/
theorem slotLevel_identity {s : State} (h : polClass (slot s 0).policy = classCode .identity) : slotLevel s 0 = .notice := by
  have hbase : (0 == 2 || classCode .identity == classCode .chip) = false := by decide
  simp only [slotLevel, h, hbase]
  rfl

/-- An alarm's log entry waits in the FIFO, or is counted as dropped (R388, R394). -/
theorem queueEntry_frame (s : State) (kind level source pid detail : Nat) :
    (queueEntry s kind level source pid detail).keys = s.keys ∧ (queueEntry s kind level source pid detail).part = s.part ∧
    (queueEntry s kind level source pid detail).fuse = s.fuse := by
  unfold queueEntry
  split <;> exact ⟨rfl, rfl, rfl⟩

/-- Fewer than five alarms in all do not escalate SA_KEY_SLOT (R260). -/
theorem escalate_keySlot {s : State} (h : s.alarm.hist.length < 5) (pid : Nat) : escalate s .keySlot pid = .notice := by
  have hrecent : (recent s .keySlot 1000000).length ≤ s.alarm.hist.length := List.length_filter_le ..
  exact if_neg (by omega)

/-- The first SA_KEY_SLOT at notice level stays there: it is counted and reported, and no key or partition changes. -/
theorem raiseAlarm_first_keySlot {s : State} (h : s.alarm.hist = []) (pid port src detail : Nat) :
    let t := raiseAlarm s .keySlot pid .notice port src detail
    t.keys = s.keys ∧ t.part = s.part ∧ t.fuse = s.fuse := by
  have hstays : maxLevel .notice .notice = .notice := rfl
  unfold raiseAlarm
  dsimp only
  rw [escalate_keySlot (by simp [h]), hstays]
  simp only [Bool.false_eq_true, if_false]
  obtain ⟨-, -, hfuse, hkeys, -, hpart, -⟩ := postBoth_same (queueEntry _ _ _ _ _ _) pid 5 0 _ 0
  rw [hfuse, hkeys, hpart]
  exact queueEntry_frame ..

theorem settleFailing_nil {s : State} (h : s.keys.failing = []) : settleFailing s = s := by
  have heta : ∀ l, s.keys.failing = l → { s with keys := { s.keys with failing := l } } = s := by
    rintro _ rfl
    rfl
  rw [settleFailing, h]
  exact heta [] h

theorem settleFailing_one {s : State} {i : Nat} (h : s.keys.failing = [i]) :
    settleFailing s = slotEffect { s with keys := { s.keys with failing := [] } } i := by
  simp only [settleFailing, h, List.foldl_cons, List.foldl_nil]

/-- What the failure of the identity slot brings: DS is derived again from the fuses. -/
theorem slotEffect_identity {s : State} (h : (slot s 0).bad = true) : slotEffect s 0 = writeDs s := by
  simp [slotEffect, h]

theorem slot_writeDs (s : State) : (slot (writeDs s) 0).bad = false ∧ (slot (writeDs s) 0).key = deriveDs s := by
  simp [writeDs, writeSlot]

theorem writeDs_frame (s : State) :
    (writeDs s).keys.badCnt = s.keys.badCnt ∧ (writeDs s).keys.failing = s.keys.failing ∧ (writeDs s).part = s.part := by
  simp [writeDs, writeSlot]

/-- DS depends on the fuses alone. -/
theorem deriveDs_congr {s t : State} (h : t.fuse = s.fuse) : deriveDs t = deriveDs s := by
  simp only [deriveDs, h]

/-- A failed slot of the current range key or of a chip key quarantines the chip. -/
theorem slotMark_quarantines {s : State} {i : Nat} (hz : s.keys.zeroised = false) (hbad : (slot s i).bad = false)
    (hclass : polClass (slot s i).policy ≠ 0) (hide : polClass (slot s i).policy ≠ classCode .ide)
    (h : i = 2 ∨ polClass (slot s i).policy = classCode .chip) : (slotMark s i).range.memb = .quarantined := by
  rw [slotMark_fails hz hbad hclass hide, slotLevel_quarantine h]
  exact raiseAlarm_quarantines ..

/-- A failed identity slot is derived again, and counted (R260). -/
theorem identity_rederived {s : State} (hz : s.keys.zeroised = false) (hfailing : s.keys.failing = [])
    (hhist : s.alarm.hist = []) (hbad : (slot s 0).bad = false) (hclass : polClass (slot s 0).policy = classCode .identity) :
    let e := settleFailing (slotMark s 0)
    (slot e 0).bad = false ∧ (slot e 0).key = deriveDs s ∧ e.keys.badCnt = inc32 s.keys.badCnt ∧ e.keys.failing = [] ∧
      e.part = s.part := by
  intro e
  have hdrop : dropIron s 0 = s := by
    simp only [dropIron, hclass]
    rfl
  have hmark : slotMark s 0 = raiseAlarm (failSlot s 0) .keySlot (polPid (slot s 0).policy) .notice 36 0x30 0 := by
    rw [slotMark_fails hz hbad (by rw [hclass]; decide) (by rw [hclass]; decide), hdrop, slotLevel_identity hclass]
  obtain ⟨hkeys, hpart, hfuse⟩ := raiseAlarm_first_keySlot (s := failSlot s 0) hhist (polPid (slot s 0).policy) 36 0x30 0
  rw [← hmark] at hkeys hpart hfuse
  have hdue : (slotMark s 0).keys.failing = [0] := by
    rw [hkeys]
    simp [failSlot, hfailing]
  have hslot : (slot (slotMark s 0) 0).bad = true := by
    rw [slot, hkeys]
    exact congrArg Slot.bad (slot_setSlot_same _ 0 _)
  have he : e = writeDs { slotMark s 0 with keys := { (slotMark s 0).keys with failing := [] } } :=
    (settleFailing_one hdue).trans (slotEffect_identity hslot)
  obtain ⟨hcnt, hfail, hparts⟩ := writeDs_frame { slotMark s 0 with keys := { (slotMark s 0).keys with failing := [] } }
  obtain ⟨hgood, hkey⟩ := slot_writeDs { slotMark s 0 with keys := { (slotMark s 0).keys with failing := [] } }
  rw [he]
  refine ⟨hgood, hkey.trans (deriveDs_congr ?_), hcnt.trans ?_, hfail, hparts.trans ?_⟩
  · exact hfuse
  · exact congrArg KeyState.badCnt hkeys
  · exact hpart

/-! ### The background check (R259) -/

theorem checkSlot_of_alive {s : State} {i : Nat} (h : slotDead s i = false) : checkSlot s i = s := by
  simp [checkSlot, readBad, h]

theorem checkSlot_of_dead {s : State} {i : Nat} (h : slotDead s i = true) : checkSlot s i = settleFailing (slotMark s i) := by
  simp [checkSlot, readBad, h]

/-- A BAD slot is not marked again. -/
theorem slotMark_of_bad {s : State} {i : Nat} (h : (slot s i).bad = true) : slotMark s i = s := by
  simp [slotMark, h]

/-- The background check runs once a millisecond, and not on a zeroised chip. -/
theorem execKsaBackgroundCheck_idle {s : State} (h : s.keys.zeroised = true ∨ s.keys.checkAt = now s / 1000 + 1)
    (fl : List (Nat × Key)) : execKsaBackgroundCheck fl s = .next s := by
  have hidle : (s.keys.zeroised || s.keys.checkAt == now s / 1000 + 1) = true := by simpa using h
  rw [execKsaBackgroundCheck, if_pos hidle]

/-- A slot that verifies, or is BAD already, is passed over while no effect is due. -/
theorem checkSlot_passes {s : State} {i : Nat} (hfailing : s.keys.failing = [])
    (h : (slot s i).bad = true ∨ slotDead s i = false) : checkSlot s i = s := by
  cases hd : slotDead s i with
  | false => exact checkSlot_of_alive hd
  | true =>
    have hbad : (slot s i).bad = true := h.resolve_right (by simp [hd])
    rw [checkSlot_of_dead hd, slotMark_of_bad hbad, settleFailing_nil hfailing]

/-- The state as a background check begins: its time is kept. -/
def checkBegun (s : State) : State := { s with keys := { s.keys with checkAt := now s / 1000 + 1 } }

/-- An upset changes the key that a slot holds, and not its check value. -/
def flipKey (s : State) (f : Nat × Key) : State :=
  setSlot s f.1 { slot s f.1 with key := (slot s f.1).key ^^^ f.2 }

theorem execKsaBackgroundCheck_due {s : State} (hz : s.keys.zeroised = false) (hat : s.keys.checkAt ≠ now s / 1000 + 1)
    (fl : List (Nat × Key)) :
    let t := (fl.filter fun f => f.1 < 256 && polClass (slot s f.1).policy != 0).foldl flipKey (checkBegun s)
    execKsaBackgroundCheck fl s = .next ((t.keys.slots.map (·.1)).foldl checkSlot (settleFailing t)) :=
  if_neg (by simp [hz, hat])

theorem foldl_checkSlot_passes {s : State} {l : List Nat} (h : ∀ i ∈ l, checkSlot s i = s) : l.foldl checkSlot s = s := by
  induction l with
  | nil => rfl
  | cons i l ih =>
    rw [List.foldl_cons, h i (by simp)]
    exact ih fun j hj => h j (List.mem_cons_of_mem _ hj)

/-- A background check that is due and finds no upset passes over the slots. -/
theorem execKsaBackgroundCheck_clean {s : State} (hz : s.keys.zeroised = false)
    (hat : s.keys.checkAt ≠ now s / 1000 + 1) (hfailing : s.keys.failing = [])
    (hslots : ∀ x ∈ s.keys.slots, (slot s x.1).bad = true ∨ slotDead s x.1 = false) :
    execKsaBackgroundCheck [] s = .next (checkBegun s) := by
  have hsettle : settleFailing (checkBegun s) = checkBegun s := settleFailing_nil hfailing
  have hpass : ∀ i ∈ (checkBegun s).keys.slots.map (·.1), checkSlot (checkBegun s) i = checkBegun s := by
    intro i hi
    obtain ⟨x, hx, rfl⟩ := List.mem_map.mp hi
    exact checkSlot_passes hfailing (hslots x hx)
  refine (execKsaBackgroundCheck_due hz hat []).trans ?_
  simp only [List.filter_nil, List.foldl_nil]
  rw [hsettle, foldl_checkSlot_passes hpass]

/-- The one slot in use takes an upset that its check value shows: it is marked, and what its class brings follows. -/
theorem execKsaBackgroundCheck_upset {s : State} {i : Nat} {x : Slot} {m : Key} (hz : s.keys.zeroised = false)
    (hat : s.keys.checkAt ≠ now s / 1000 + 1) (hfailing : s.keys.failing = []) (hslots : s.keys.slots = [(i, x)])
    (hi : i < 256) (hclass : polClass x.policy ≠ 0) (hcheck : x.check ≠ slotCheck s i (x.key ^^^ m) x.policy) :
    execKsaBackgroundCheck [(i, m)] s =
      .next (settleFailing (slotMark (setSlot (checkBegun s) i { x with key := x.key ^^^ m }) i)) := by
  have hx : slot s i = x := by simp [slot, hslots, tget]
  have hhit : ([(i, m)].filter fun f => f.1 < 256 && polClass (slot s f.1).policy != 0) = [(i, m)] := by
    simp [hi, hx, hclass]
  have hflip : flipKey (checkBegun s) (i, m) = setSlot (checkBegun s) i { x with key := x.key ^^^ m } := by
    rw [← hx]
    rfl
  have hdef : ({ x with key := x.key ^^^ m } : Slot) ≠ {} := fun h => hclass (by
    rw [show x.policy = 0 from congrArg Slot.policy h]
    rfl)
  refine (execKsaBackgroundCheck_due hz hat _).trans ?_
  simp only [hhit, List.foldl_cons, List.foldl_nil, hflip]
  generalize ht : setSlot (checkBegun s) i { x with key := x.key ^^^ m } = t
  have hone : t.keys.slots = [(i, { x with key := x.key ^^^ m })] := by
    rw [← ht]
    simp only [setSlot, checkBegun, hslots, tset, if_neg hdef, tput, if_true]
  have hdead : slotDead t i = true := by
    have hslot : slot t i = { x with key := x.key ^^^ m } := by rw [← ht, slot_setSlot_same]
    have hsame : ∀ k p, slotCheck t i k p = slotCheck s i k p := fun _ _ => by rw [← ht]; rfl
    simp [slotDead, hslot, hsame, hclass, hcheck]
  have hnone : t.keys.failing = [] := by rw [← ht]; exact hfailing
  rw [hone, settleFailing_nil hnone, ← checkSlot_of_dead hdead]
  rfl

/-! ### The entropy source and the DRBG (R255, R256) -/

theorem b2n_propFails (l : List Bool) :
    b2n (propFails l) = if 794 ≤ (l.filter fun x => x == l.headD false).length then 1 else 0 := by
  simp [b2n, propFails]

theorem execEntropyWindow_unseeded {s : State} (h : s.keys.drbgSeeded = false) (w : BitVec 1024) :
    execEntropyWindow w s = .next s := by
  simp [execEntropyWindow, h]

theorem execDrbgReseedTimer_due {s : State} (hseeded : s.keys.drbgSeeded = true) (hok : s.keys.entFailed = false)
    (hdue : s.keys.drbgSeedAt + 100000 ≤ now s) : execDrbgReseedTimer s = .next (reseed s) := by
  simp [execDrbgReseedTimer, hseeded, hok, hdue]

theorem execDrbgReseedTimer_early {s : State} (h : now s < s.keys.drbgSeedAt + 100000) :
    execDrbgReseedTimer s = .next s := by
  simp [execDrbgReseedTimer, Nat.not_le.mpr h]

/-- A generate request counts a reseed where one is due. -/
theorem drawBytes_reseeds (s : State) (n : Nat) : (drawBytes s n).1.keys.drbgReseeds =
    if 65536 ≤ s.keys.drbgGen ∨ s.keys.drbgSeedAt + 100000 ≤ now s then inc32 s.keys.drbgReseeds
    else s.keys.drbgReseeds := by
  by_cases h : 65536 ≤ s.keys.drbgGen ∨ s.keys.drbgSeedAt + 100000 ≤ now s
  · have hdue : reseedDue s = true := by simpa [reseedDue] using h
    simp [drawBytes, hdue, h, reseed]
  · have hdue : reseedDue s = false := by simpa [reseedDue] using h
    simp [drawBytes, hdue, h]

/-- What the tests find in a window: the runs that fail in it, and the test of proportion. -/
def windowFailures (s : State) (w : BitVec 1024) : Nat :=
  ((samplesOf w).foldl RunTest.sample { s.keys.entRun with failed := 0 }).failed + b2n (propFails (samplesOf w))

/-- What the repetition count test carries over to the next window. -/
def runAfter (s : State) (w : BitVec 1024) : RunTest :=
  { (samplesOf w).foldl RunTest.sample { s.keys.entRun with failed := 0 } with failed := 0 }

theorem execEntropyWindow_passes {s : State} {w : BitVec 1024} (h : s.keys.drbgSeeded = true)
    (hn : windowFailures s w = 0) :
    execEntropyWindow w s = .next { s with keys := { s.keys with entRun := runAfter s w, entConsec := 0 } } := by
  have hseeded : ¬ (!s.keys.drbgSeeded) = true := by simp [h]
  exact (if_neg hseeded).trans (if_pos (by simpa [windowFailures] using hn))

theorem execEntropyWindow_fails {s : State} {w : BitVec 1024} {n : Nat} (h : s.keys.drbgSeeded = true)
    (hn : windowFailures s w = n) (h0 : n ≠ 0) :
    execEntropyWindow w s = .next { s with keys := { s.keys with
      entRun := runAfter s w, entConsec := min 3 (s.keys.entConsec + 1), entFailCnt := add32 s.keys.entFailCnt n
      entHealthy := false, entFailed := s.keys.entFailed || decide (3 ≤ s.keys.entConsec + 1) } } := by
  subst hn
  have hseeded : ¬ (!s.keys.drbgSeeded) = true := by simp [h]
  exact (if_neg hseeded).trans (if_neg (by simpa [windowFailures] using h0))

/-- Settles O47: the background check slot by slot, the alarm of a failed slot by its level, and quarantine by its footing. -/
theorem slotAndEntropyChecks : Obligations.SlotAndEntropyChecks := by
  intro s q due
  refine ⟨fun fl h => execKsaBackgroundCheck_idle h fl, fun ⟨hz, hat, hf⟩ hslots => ?_,
    fun i x m ⟨hz, hat, hf⟩ hslots hi _ hclass hcheck => ?_,
    fun i hz hbad hclass hide h => slotMark_quarantines hz hbad hclass hide h,
    fun ⟨hz, _, hf⟩ hhist hbad hclass => identity_rederived hz hf hhist hbad hclass,
    fun w h => execEntropyWindow_unseeded h w, fun w hseeded => ?_,
    fun hseeded hok hdue => execDrbgReseedTimer_due hseeded hok hdue, fun h => execDrbgReseedTimer_early h,
    drawBytes_reseeds s, fun h => ?_⟩
  · exact execKsaBackgroundCheck_clean hz hat hf hslots
  · exact execKsaBackgroundCheck_upset hz hat hf hslots hi hclass hcheck
  · intro l t same n k
    have hcount : windowFailures s w = n := congrArg (t.failed + ·) (b2n_propFails l)
    exact ⟨fun h0 => execEntropyWindow_passes hseeded (hcount.trans h0), execEntropyWindow_fails hseeded hcount⟩
  · obtain ⟨hquar, halarm, hdbg⟩ := quarantine_marks h
    obtain ⟨hkey, htickets⟩ := quarantine_rinse h
    obtain ⟨hpot, hkeys, hpeers, hgens, hfuse, htarn⟩ := quarantine_keeps h
    refine ⟨quarantine_memb s, hquar, halarm, hdbg, quarantine_ports h, fun i hlive hpart => quarantine_ctx h hlive hpart,
      htickets, hkey, fun i hi => ?_, fun i hi => ?_, hpot, hkeys, hpeers, hgens, hfuse, htarn⟩
    · rw [slot_quarantine h]
      exact clearAll_mem hi _
    · rw [slot_quarantine h]
      exact clearAll_other hi _

end Sys2Proof.Machine

/-! PROOFS. Replies of commands and deferred vectors (01 R14, 08 R226 to R240). -/

namespace Sys2Proof.Machine

/-! ## Deferred vectors (R14, R203, R237) -/

/-- A vector's moderation state as the vector is raised now. -/
def vecRaised (s : State) (k : Nat) : State :=
  { s with cmd := { s.cmd with msix := tset {} s.cmd.msix k { last := now s, raised := true, deferred := false } } }

/-- A deferred vector whose interval is over is raised. -/
theorem execMsixModerationExpiry_due {s : State} {fn : Pid} {v : BitVec 11}
    (hdef : (tget ({} : Moder) s.cmd.msix (fn.val * 2048 + v.toNat)).deferred = true)
    (hover : (tget ({} : Moder) s.cmd.msix (fn.val * 2048 + v.toNat)).last + (evt s fn.val).mod ≤ now s) :
    execMsixModerationExpiry fn v s = .next (sendVec (vecRaised s (fn.val * 2048 + v.toNat)) fn.val v.toNat) := by
  simp only [execMsixModerationExpiry, hdef, hover, decide_true, Bool.and_self, if_true, vecRaised]

/-- One that is not deferred, or whose interval runs, is not. -/
theorem execMsixModerationExpiry_idle {s : State} {fn : Pid} {v : BitVec 11}
    (h : (tget ({} : Moder) s.cmd.msix (fn.val * 2048 + v.toNat)).deferred = false ∨
      now s < (tget ({} : Moder) s.cmd.msix (fn.val * 2048 + v.toNat)).last + (evt s fn.val).mod) :
    execMsixModerationExpiry fn v s = .next s := by
  have hidle : ((tget ({} : Moder) s.cmd.msix (fn.val * 2048 + v.toNat)).deferred &&
      decide ((tget ({} : Moder) s.cmd.msix (fn.val * 2048 + v.toNat)).last + (evt s fn.val).mod ≤ now s)) = false := by
    rcases h with h | h
    · rw [h, Bool.false_and]
    · rw [decide_eq_false (Nat.not_le.mpr h), Bool.and_false]
  simp only [execMsixModerationExpiry, hidle, Bool.false_eq_true, if_false]

/-- A TLP of a function whose TDI is on no stream in RUN leaves plain: the IDE engine has no part in it. -/
theorem sendTlp_plain {s : State} {fn : Nat} (h : outStream s fn = none) (sub : Fin 3) (addr : Nat) (b : Bytes) :
    sendTlp s fn sub addr b = s := by
  simp only [sendTlp, h]

/-- One on a stream leaves sealed under the key in use of its sub-stream, and counts under it. -/
theorem sendTlp_sealed {s : State} {fn k : Nat} {sub : Fin 3} {key : Key} (h : outStream s fn = some k)
    (hkey : ideInUse s k ⟨sub, true⟩ = some key) (addr : Nat) (b : Bytes) :
    sendTlp s fn sub addr b =
      let c := Config.ideSeal key sub.val (ideUsed s k ⟨sub, true⟩) (Config.tlpForm fn sub.val addr b)
      emit (ideCount s k ⟨sub, true⟩) (.ide k sub c (Config.ideMac key sub.val (ideUsed s k ⟨sub, true⟩) c)) := by
  simp only [sendTlp, h, hkey]

theorem sendVec_plain {s : State} {fn : Nat} (h : outStream s fn = none) (vec : Nat) :
    sendVec s fn vec = emit s (.msix fn vec none) := by
  simp only [sendVec, sendTlp_plain h, h]

theorem sendVec_sealed {s : State} {fn k : Nat} {key : Key} (h : outStream s fn = some k)
    (hkey : ideInUse s k ⟨0, true⟩ = some key) (vec : Nat) : ∃ c mac,
    sendVec s fn vec = emit (emit (ideCount s k ⟨0, true⟩) (.ide k 0 c mac)) (.msix fn vec (some k)) ∧
    mac = Config.ideMac key 0 (ideUsed s k ⟨0, true⟩) c :=
  ⟨_, _, by rw [sendVec, sendTlp_sealed h hkey, h]; rfl, rfl⟩

/-! ## Replies (R226, R229, R240) -/

/-- The reply of a ring in host memory off any stream is no access of the block's. -/
theorem replyWrite_host {s : State} {t : Ticket} (hloc : (ring s t.ring).loc = true) (h : outStream s t.ring = none)
    (b : Bytes) : replyWrite s t b = s := by
  simp only [replyWrite, ringWrite, hloc, if_true, sendTlp_plain h, ite_self]

/-- The reply of a ring in device memory makes charges alone. -/
theorem replyWrite_device {s : State} {t : Ticket} (hloc : (ring s t.ring).loc = false) (b : Bytes) :
    OnlyCharges s (replyWrite s t b) := by
  simp only [replyWrite, ringWrite, hloc, Bool.false_eq_true, if_false]
  split
  · exact ⟨.refl s, _, _, rfl⟩
  · exact passOwn_only ..

/-- Charges reach the engines' and the telemetry's part of the state. -/
theorem OnlyCharges.eq {s t : State} (h : OnlyCharges s t) : t = { s with mem := t.mem, tel := t.tel } := by
  obtain ⟨-, m, x, rfl⟩ := h
  rfl

/-- The debug denial counter counts a denied DEBUG_AUTH alone. -/
theorem debugDenied_false {t : Ticket} {st : Status} (h : t.opcode = 0x73 → st = .ok) :
    (t.opcode == 0x73 && st != .ok) = false := by
  by_cases ho : t.opcode = 0x73
  · simp [h ho]
  · rw [beq_false_of_ne ho, Bool.false_and]

/-- What completing a command without IRQ writes on a ring that is neither the range ring nor the internal one. -/
theorem finish_reply {s : State} {t : Ticket} {st : Status} (hring : t.ring ≤ 31) (hmute : t.mute = false)
    (hirq : t.irq = false) (hdbg : t.opcode = 0x73 → st = .ok)
    (harea : ringAreaOk s t.ring (ring s t.ring).rbase (t.idx * 32) 32 rDWR = true) (r : BitVec 192) :
    let tag := if st = .ok ∧ tagPid t.ptag ≠ 0 then curTag s (tagPid t.ptag) else t.ptag
    finish s t st r = emit (replyWrite (lessInflight s t.ring) t
        (replyBytes st (if t.phase = true then 128 else 0) t.opcode t.form t.seq tag r))
      (.reply t.ring t.idx (ringPath s t.ring)
        { status := st, phase := t.phase, opcode := t.opcode, form := t.form, seq := t.seq, ptag := tag, result := r }) := by
  have h32 : (t.ring == 32) = false := beq_false_of_ne (by omega)
  have h33 : (t.ring == 33) = false := beq_false_of_ne (by omega)
  have hphase : b2n t.phase * 128 + b2n false * 64 = if t.phase = true then 128 else 0 := by
    cases t.phase <;> rfl
  simp only [finish, finishWith, debugDenied_false hdbg, h32, h33, hmute, hirq, harea, hphase, Bool.false_eq_true, if_false,
    Bool.or_true, if_true, Bool.false_and, Bool.and_eq_true, beq_iff_eq, bne_iff_ne, ne_eq]

/-- IRQ adds the COMPLETION event to what completing a command writes. -/
theorem finish_irq {s : State} {t : Ticket} (hring : t.ring ≤ 31) (hmute : t.mute = false) (hirq : t.irq = true)
    (st : Status) (r : BitVec 192) :
    finish s t st r = postEvent (finish s { t with irq := false } st r) t.ring
      (evWord t.cookie (evHandle t.ring 1) (t.seq.toNat + t.opcode.toNat * 65536) (statusCode st)) := by
  have h32 : (t.ring == 32) = false := beq_false_of_ne (by omega)
  have h33 : (t.ring != 33) = true := bne_iff_ne.mpr (by omega)
  simp only [finish, finishWith, h32, h33, hmute, hirq, Bool.false_eq_true, if_false, Bool.and_self, if_true, Bool.false_and]
  rfl

/-- Settles O10: the vector's message by its stream, and the reply by its ring's place. -/
theorem repliesAndDeferredVectors : Obligations.RepliesAndDeferredVectors := by
  refine ⟨fun s fn v => ?_, fun s t st r hring hmute hirq hdbg harea => finish_reply hring hmute hirq hdbg harea r,
    fun s t b _ => ⟨fun hloc h => replyWrite_host hloc h b, fun hloc => ?_⟩,
    fun s t st r hring hmute hirq => finish_irq hring hmute hirq st r⟩
  · refine ⟨fun hdef hover h => ?_, fun x key hdef hover h hkey => ?_, execMsixModerationExpiry_idle⟩
    · exact (execMsixModerationExpiry_due hdef hover).trans (congrArg _ (sendVec_plain (s := vecRaised s _) h _))
    · obtain ⟨c, mac, hsend, hmac⟩ := sendVec_sealed (s := vecRaised s (fn.val * 2048 + v.toNat)) h hkey v.toNat
      exact ⟨c, mac, (execMsixModerationExpiry_due hdef hover).trans (congrArg _ hsend), hmac⟩
  · have h := replyWrite_device hloc b
    exact ⟨h.1, h.eq⟩

end Sys2Proof.Machine

/-! PROOFS. Received frames: replay windows, verification, and the one retry (03 R52, R68 to R76, R81). -/

namespace Sys2Proof.Machine

/-! ## A port written twice -/

theorem tput_tput_same {α : Type} (t : Tbl α) (i : Nat) (x y : α) : tput (tput t i x) i y = tput t i y := by
  induction t with
  | nil => simp [tput]
  | cons e t ih =>
    obtain ⟨k, v⟩ := e
    by_cases hk : i = k
    · simp [tput, hk]
    · by_cases hlt : i < k
      · simp [tput, hk, hlt]
      · simp [tput, hk, hlt, ih]

theorem terase_tput_same {α : Type} (t : Tbl α) (i : Nat) (x : α) : terase (tput t i x) i = terase t i := by
  induction t with
  | nil => simp [tput, terase]
  | cons e t ih =>
    obtain ⟨k, v⟩ := e
    by_cases hk : i = k
    · simp [tput, terase, hk]
    · by_cases hlt : i < k
      · simp [tput, terase, hk, hlt]
      · simp only [terase] at ih
        simp only [tput, terase, hk, hlt, if_false, List.filter_cons, ih]

/-- The last of two writes stands. A write of the default would first remove what an ill-formed table holds twice. -/
theorem tset_tset_same {α : Type} [DecidableEq α] {d x : α} (h : x ≠ d) (t : Tbl α) (i : Nat) (y : α) :
    tset d (tset d t i x) i y = tset d t i y := by
  simp only [tset, if_neg h, tput_tput_same, terase_tput_same]

theorem setLink_setLink {x : Link} (h : x ≠ {}) (s : State) (n : Nat) (y : Link) :
    setLink (setLink s n x) n y = setLink s n y := by
  simp only [setLink, tset_tset_same h]

/-- A port that is not OFF is not in its reset state. -/
theorem link_ne_default {l : Link} (h : l.state ≠ .off) : l ≠ {} := fun he => h (he ▸ rfl)

/-! ## Replay windows (R72) -/

/-- SEEN holds a number's bit. -/
def hasSeen (m : BitVec 1024) (r : Nat) : Bool := m.getLsbD (r % 1024)

theorem hasSeen_or_bit (m : BitVec 1024) (q r : Nat) :
    hasSeen (m ||| (1#1024 <<< (q % 1024))) r = (hasSeen m r || decide (r % 1024 = q % 1024)) := by
  have hr : r % 1024 < 1024 := Nat.mod_lt _ (by decide)
  simp only [hasSeen, BitVec.getLsbD_or, BitVec.getLsbD_shiftLeft, BitVec.getLsbD_one, hr, decide_true, Bool.true_and]
  congr 1
  rw [Bool.eq_iff_iff]
  simp only [Bool.and_eq_true, Bool.not_eq_true', decide_eq_false_iff_not, decide_eq_true_eq]
  omega

/-- Clearing one number's bit leaves the other bits. -/
theorem hasSeen_and_not_bit {m : BitVec 1024} {a r : Nat} (h : r % 1024 ≠ a % 1024) (hs : hasSeen m r = true) :
    hasSeen (m &&& ~~~ (1#1024 <<< (a % 1024))) r = true := by
  have hr : r % 1024 < 1024 := Nat.mod_lt _ (by decide)
  have hbit : (1#1024 <<< (a % 1024)).getLsbD (r % 1024) = false := by
    simp only [BitVec.getLsbD_shiftLeft, BitVec.getLsbD_one, hr, decide_true, Bool.true_and, Bool.and_eq_false_iff,
      Bool.not_eq_false', decide_eq_true_eq, decide_eq_false_iff_not]
    omega
  simp only [hasSeen] at hs
  simp only [hasSeen, BitVec.getLsbD_and, BitVec.getLsbD_not, hs, hbit, hr, decide_true, Bool.not_false, Bool.and_self]

/-- Clearing the numbers of an interval leaves the bit of one that the window still tells from them. -/
theorem hasSeen_clearSeen {m : BitVec 1024} {a n r : Nat} (hr : r < a) (hn : a + n ≤ r + 1024)
    (hs : hasSeen m r = true) : hasSeen (clearSeen m a n) r = true := by
  induction n generalizing m a with
  | zero => exact hs
  | succ n ih => exact ih (by omega) (by omega) (hasSeen_and_not_bit (by omega) hs)

/-- SEEN as a new highest number moves the window on. -/
def movedSeen (w : Win) (q : Nat) : BitVec 1024 :=
  if q - w.top ≥ 1024 then 0 else clearSeen w.seen (w.top + 1) (q - w.top - 1)

theorem winTake_first {w : Win} (h : w.valid = false) (q : Nat) :
    winTake w q = { epoch := w.epoch, valid := true, top := q, seen := 0 ||| (1#1024 <<< (q % 1024)) } := by
  simp only [winTake, h, Bool.not_false, if_true]

theorem winTake_higher {w : Win} {q : Nat} (h : w.valid = true) (hq : w.top < q) :
    winTake w q = { w with seen := movedSeen w q ||| (1#1024 <<< (q % 1024)), top := q } := by
  simp only [winTake, h, hq, Bool.not_true, Bool.false_eq_true, if_false, if_true, movedSeen]

theorem winTake_within {w : Win} {q : Nat} (h : w.valid = true) (hq : q ≤ w.top) :
    winTake w q = { w with seen := w.seen ||| (1#1024 <<< (q % 1024)) } := by
  simp only [winTake, h, Nat.not_lt.mpr hq, Bool.not_true, Bool.false_eq_true, if_false]

theorem winRejects_iff (w : Win) (r : Nat) :
    winRejects w r = true ↔ w.valid = true ∧ (r + 1024 ≤ w.top ∨ (r ≤ w.top ∧ hasSeen w.seen r = true)) := by
  simp [winRejects, hasSeen]

theorem winRejects_above {w : Win} {r : Nat} (h : w.top < r) : winRejects w r = false := by
  rw [Bool.eq_false_iff]
  intro hr
  obtain ⟨-, hr⟩ := (winRejects_iff w r).mp hr
  omega

/-- A number that has been taken is rejected. -/
theorem winRejects_winTake (w : Win) (q : Nat) : winRejects (winTake w q) q = true := by
  rw [winRejects_iff]
  cases hv : w.valid with
  | false =>
    rw [winTake_first hv, hasSeen_or_bit]
    simp
  | true =>
    by_cases hq : w.top < q
    · simp [winTake_higher hv hq, hasSeen_or_bit, hv]
    · simp [winTake_within hv (Nat.not_lt.mp hq), hasSeen_or_bit, hv, Nat.not_lt.mp hq]

/-- What a window rejects it goes on rejecting. -/
theorem winRejects_winTake_of_winRejects {w : Win} {r : Nat} (q : Nat) (h : winRejects w r = true) :
    winRejects (winTake w q) r = true := by
  obtain ⟨hv, hr⟩ := (winRejects_iff w r).mp h
  rw [winRejects_iff]
  by_cases hq : w.top < q
  · rw [winTake_higher hv hq]
    refine ⟨hv, ?_⟩
    by_cases hold : r + 1024 ≤ q
    · exact .inl hold
    · obtain ⟨hle, hseen⟩ : r ≤ w.top ∧ hasSeen w.seen r = true := hr.resolve_left (by omega)
      have hkept : hasSeen (movedSeen w q) r = true := by
        rw [movedSeen, if_neg (by omega)]
        exact hasSeen_clearSeen (by omega) (by omega) hseen
      exact .inr ⟨hle.trans hq.le, by simp [hasSeen_or_bit, hkept]⟩
  · rw [winTake_within hv (Nat.not_lt.mp hq)]
    exact ⟨hv, hr.imp_right fun ⟨hle, hseen⟩ => ⟨hle, by simp [hasSeen_or_bit, hseen]⟩⟩

/-- The highest number of a window that has taken one. -/
theorem top_winTake (w : Win) (q : Nat) : (winTake w q).top = if w.valid = true then max w.top q else q := by
  cases hv : w.valid with
  | false => simp [winTake_first hv]
  | true =>
    by_cases hq : w.top < q
    · simp [winTake_higher hv hq, hq.le]
    · simp [winTake_within hv (Nat.not_lt.mp hq), Nat.not_lt.mp hq]

/-! ## The release buffer (R71) -/

/-- A frame's slots of the release buffer in a state. -/
def putSlots (l : Link) (flits : Nat) (x : RelSlot) : Link :=
  { l with slots := List.replicate flits x ++ l.slots.drop flits }

theorem putSlots_putSlots (l : Link) (k : Nat) (x y : RelSlot) : putSlots (putSlots l k x) k y = putSlots l k y := by
  simp [putSlots]

/-- A frame's slots pass from one state into the next on the port alone. -/
theorem relSlots_setLink {y : Link} (h : y ≠ {}) (s : State) (n k : Nat) (x : RelSlot) :
    relSlots (setLink s n y) n k x = setLink s n (putSlots y k x) := by
  simp only [relSlots, link_setLink_same, setLink_setLink h, putSlots]

/-! ## What a port looks at (R62, R68, R72, R74) -/

/-- A port that has a session takes frames, from QB_RDY on. -/
def takesFrames (s : State) (n : Nat) : Prop :=
  s.boot.rdy = true ∧ (link s n).state ≠ .off ∧ (link s n).state ≠ .down

theorem takesFrames_open {s : State} {n : Nat} (h : takesFrames s n) :
    (!s.boot.rdy || (link s n).state == .off || (link s n).state == .down) = false := by
  obtain ⟨hrdy, hoff, hdown⟩ := h
  simp [hrdy, hoff, hdown]

/-- No retry runs, or a frame is the copy that it asked for. -/
def looksAt (l : Link) (c : Clear) : Prop := l.retrying = none ∨ l.retrying = some (c.epoch, c.seq)

theorem execFrameReceive_closed {s : State} {p : Port}
    (h : s.boot.rdy = false ∨ (link s p.val).state = .off ∨ (link s p.val).state = .down) (f : Wire) :
    execFrameReceive p f s = .next s :=
  if_pos (by simpa [or_assoc] using h)

theorem execFrameReceive_otherFrame {s : State} {p : Port} {f : Wire} {r : BitVec 30 × BitVec 64}
    (hr : (link s p.val).retrying = some r) (hne : r ≠ (f.clear.epoch, f.clear.seq)) :
    execFrameReceive p f s = .next s := by
  have hother : ((link s p.val).retrying.isSome &&
      (link s p.val).retrying != some (f.clear.epoch, f.clear.seq)) = true := by
    simp [hr, hne]
  simp only [execFrameReceive, hother, if_true, ite_self]

section
variable {s : State} {p : Port} {f : Wire} (hlive : takesFrames s p.val)
include hlive

/-- A port that looks at a frame goes by the key that its header names. -/
theorem execFrameReceive_keyed (hlook : looksAt (link s p.val) f.clear) {x : SKey} {o : Bool}
    (hkey : selectKey (link s p.val) f.clear = some (x, o)) :
    execFrameReceive p f s = if winRejects (winOf (link s p.val) f.clear.epoch) f.clear.seq.toNat = true then
        .next (linkCtr s p.val fun c => { c with replay := inc32 c.replay })
      else if clearOk s p.val f.clear = false then .next (frameFailed s p.val f)
      else .next (openFrame s p.val f x o) := by
  have hopen := takesFrames_open hlive
  have hmine : ((link s p.val).retrying.isSome &&
      (link s p.val).retrying != some (f.clear.epoch, f.clear.seq)) = false := by
    rcases hlook with h | h <;> simp [h]
  simp only [execFrameReceive, hopen, hmine, hkey, Bool.false_eq_true, if_false, Bool.not_eq_true']

/-- A frame of no held key, or of a number that its window rejects, counts as a replay. -/
theorem execFrameReceive_replay (hr : (link s p.val).retrying = none)
    (h : selectKey (link s p.val) f.clear = none ∨
      winRejects (winOf (link s p.val) f.clear.epoch) f.clear.seq.toNat = true) :
    execFrameReceive p f s = .next (linkCtr s p.val fun c => { c with replay := inc32 c.replay }) := by
  cases hk : selectKey (link s p.val) f.clear with
  | none =>
    simp only [execFrameReceive, takesFrames_open hlive, hk, hr, Option.isSome_none, Bool.false_and, Bool.false_eq_true,
      if_false]
  | some x =>
    rw [execFrameReceive_keyed hlive (.inl hr) hk]
    exact if_pos (h.resolve_left (by simp [hk]))

variable (hlook : looksAt (link s p.val) f.clear) {x : SKey} {o : Bool}
  (hkey : selectKey (link s p.val) f.clear = some (x, o))
  (hwin : winRejects (winOf (link s p.val) f.clear.epoch) f.clear.seq.toNat = false)
include hlook hkey hwin

theorem execFrameReceive_badHeader (h : clearOk s p.val f.clear = false) :
    execFrameReceive p f s = .next (frameFailed s p.val f) := by
  rw [execFrameReceive_keyed hlive hlook hkey]
  simp only [hwin, h, Bool.false_eq_true, if_false, if_true]

theorem execFrameReceive_opens (h : clearOk s p.val f.clear = true) :
    execFrameReceive p f s = .next (openFrame s p.val f x o) := by
  rw [execFrameReceive_keyed hlive hlook hkey]
  simp only [hwin, h, Bool.false_eq_true, Bool.true_eq_false, if_false]

end

/-! ## A frame that fails (R52, R56, R74) -/

/-- Its tag, or what a verified frame must be. -/
def failsToOpen (x : SKey) (f : Wire) : Prop := openWire x f = none ∨ ∃ i, openWire x f = some i ∧ classOk i = false

/-- The port as a failed frame leaves its release buffer: a clear header that fails takes no slot. -/
def freedPort (s : State) (n : Nat) (f : Wire) : State :=
  if clearOk s n f.clear = true then setLink s n (putSlots (link s n) (wireFlits f) .free) else s

theorem openFrame_fails {s : State} {n : Nat} (hoff : (link s n).state ≠ .off) {x : SKey} {f : Wire}
    (h : failsToOpen x f) (o : Bool) :
    openFrame s n f x o = frameFailed (setLink s n (putSlots (link s n) (wireFlits f) .free)) n f := by
  have hfilling : putSlots (link s n) (wireFlits f) .filling ≠ {} := link_ne_default hoff
  have hfree : relSlots (relSlots s n (wireFlits f) .filling) n (wireFlits f) .free =
      setLink s n (putSlots (link s n) (wireFlits f) .free) :=
    (relSlots_setLink hfilling s n _ .free).trans (by rw [putSlots_putSlots])
  rcases h with h | ⟨i, h, hcls⟩
  · simp only [openFrame, h, hfree]
  · simp only [openFrame, h, hcls, hfree, Bool.false_eq_true, if_false]

theorem link_freedPort (s : State) (n : Nat) (f : Wire) : link (freedPort s n f) n =
    if clearOk s n f.clear = true then putSlots (link s n) (wireFlits f) .free else link s n := by
  unfold freedPort
  split
  · rw [link_setLink_same]
  · rfl

/-- A frame whose clear header, tag or class fails is a failed frame. -/
theorem execFrameReceive_fails {s : State} {p : Port} {f : Wire} (hlive : takesFrames s p.val)
    (hlook : looksAt (link s p.val) f.clear) {x : SKey} {o : Bool} (hkey : selectKey (link s p.val) f.clear = some (x, o))
    (hwin : winRejects (winOf (link s p.val) f.clear.epoch) f.clear.seq.toNat = false)
    (h : clearOk s p.val f.clear = false ∨ failsToOpen x f) :
    execFrameReceive p f s = .next (frameFailed (freedPort s p.val f) p.val f) := by
  cases hc : clearOk s p.val f.clear with
  | false =>
    rw [execFrameReceive_badHeader hlive hlook hkey hwin hc, freedPort, hc]
    rfl
  | true =>
    rw [execFrameReceive_opens hlive hlook hkey hwin hc, openFrame_fails hlive.2.1 (h.resolve_left (by simp [hc])),
      freedPort, if_pos hc]

/-- The port that a failed frame leaves keeps everything but its release buffer. -/
theorem freedPort_keeps (s : State) (n : Nat) (f : Wire) :
    (link (freedPort s n f) n).state = (link s n).state ∧ (link (freedPort s n f) n).retrying = (link s n).retrying ∧
    (link (freedPort s n f) n).ctr = (link s n).ctr := by
  rw [link_freedPort]
  split <;> exact ⟨rfl, rfl, rfl⟩

theorem setLink_freedPort {s : State} {n : Nat} (hoff : (link s n).state ≠ .off) (f : Wire) (y : Link) :
    setLink (freedPort s n f) n y = setLink s n y := by
  unfold freedPort
  split
  · exact setLink_setLink (x := putSlots (link s n) _ _) (link_ne_default hoff) s n y
  · rfl

/-- A failed frame of an OPEN port is counted and asked for once more. -/
theorem frameFailed_first {s : State} {n : Nat} (ho : (link s n).state = .opened) (hr : (link s n).retrying = none)
    (f : Wire) : frameFailed s n f = emit (setLink s n { link s n with
      retrying := some (f.clear.epoch, f.clear.seq), ctr := { (link s n).ctr with
        tagfail := inc32 (link s n).ctr.tagfail } }) (.retry n f.clear.seq) := by
  simp [frameFailed, ho, hr]

/-- The copy's failure is the link tag alarm. -/
theorem frameFailed_again {s : State} {n : Nat} (ho : (link s n).state = .opened) (hr : (link s n).retrying.isSome = true)
    (f : Wire) : frameFailed s n f = linkAlarm s n := by
  simp [frameFailed, ho, hr]

/-- Outside OPEN a failed frame is counted. -/
theorem frameFailed_notOpen {s : State} {n : Nat} (ho : (link s n).state ≠ .opened) (f : Wire) :
    frameFailed s n f = setLink s n { link s n with ctr := { (link s n).ctr with
      tagfail := inc32 (link s n).ctr.tagfail } } := by
  simp [frameFailed, ho, linkCtr]

/-! ## The link tag alarm (R62, R74, R75) -/

theorem portTo_down {s : State} {n : Nat} (hq : (link s n).transitq = []) : ∃ r,
    portTo s n .down = setLink { s with range := { s.range with openAt := r } } n (dropSession (link s n) .down) := by
  simp only [portTo, hq, List.foldl_nil]
  split
  · exact ⟨_, rfl⟩
  · exact ⟨s.range.openAt, rfl⟩

/-- A port that is neither draining for a close nor queueing transit frames goes DOWN alone. -/
theorem portDown_quiet {s : State} {n : Nat} (hclosing : (link s n).closing = false) (hq : (link s n).transitq = [])
    (hretiring : s.range.retiring = false) : ∃ r,
    portDown s n = setLink { s with range := { s.range with openAt := r } } n (dropSession (link s n) .down) := by
  obtain ⟨r, hdown⟩ := portTo_down hq
  refine ⟨r, ?_⟩
  simp only [portDown, portLost, hclosing, Bool.false_eq_true, if_false, hdown, endReform]
  exact if_neg (by simp [setLink, hretiring])

/-- One port is too few to escalate SA_LINK_TAG (R369). -/
theorem escalate_linkTag_first {s : State} {h : AlarmHist} (hh : s.alarm.hist = [h]) (pid : Nat) :
    escalate s .linkTag pid = .notice := by
  have hports : portsIn (recent s .linkTag 10000000) ≤ 1 := by
    rw [recent, hh, List.filter_cons]
    split
    · exact le_refl 1
    · exact Nat.zero_le 1
  exact if_neg (by omega)

theorem queueEntry_seen (s : State) (kind level source pid detail : Nat) :
    (queueEntry s kind level source pid detail).alarm.seen = s.alarm.seen ∧
    (queueEntry s kind level source pid detail).ridge = s.ridge := by
  unfold queueEntry
  split <;> exact ⟨rfl, rfl⟩

/-- The first SA_LINK_TAG is seen and reported; no port or partition changes. -/
theorem raiseAlarm_first_linkTag {s : State} (h : s.alarm.hist = []) (pid port src detail : Nat) :
    let t := raiseAlarm s .linkTag pid .notice port src detail
    t.ridge = s.ridge ∧ t.part = s.part ∧ t.alarm.seen.getLsbD 1 = true := by
  have hstays : maxLevel .notice .notice = .notice := rfl
  unfold raiseAlarm
  dsimp only
  rw [escalate_linkTag_first (h := ⟨.linkTag, pid, port, now s⟩) (by simp [h]), hstays]
  simp only [Bool.false_eq_true, if_false]
  obtain ⟨-, -, -, -, halarm, hpart, -, hridge, -⟩ := postBoth_same (queueEntry _ _ _ _ _ _) pid 5 0 _ 0
  obtain ⟨-, hqpart, -⟩ := queueEntry_frame _ _ _ _ _ _
  obtain ⟨hqseen, hqridge⟩ := queueEntry_seen _ _ _ _ _ _
  rw [hridge, hpart, halarm, hqridge, hqpart, hqseen]
  exact ⟨rfl, rfl, by simp [alarmCode, raiseAlarm.oneHot]⟩

/-- The first link tag alarm takes its port DOWN, and no other. -/
theorem linkAlarm_first {s : State} {n : Nat} (hclosing : (link s n).closing = false) (hhist : s.alarm.hist = [])
    (hretiring : s.range.retiring = false) (hq : (link s n).transitq = []) :
    link (linkAlarm s n) n = dropSession { link s n with tagAlarm := true } .down ∧
    (∀ q, q ≠ n → link (linkAlarm s n) q = link s q) ∧ (linkAlarm s n).part = s.part ∧
    (linkAlarm s n).alarm.seen.getLsbD 1 = true := by
  obtain ⟨r, hdown⟩ := portDown_quiet (s := setLink s n { link s n with tagAlarm := true }) (n := n)
    (by simpa using hclosing) (by simpa using hq) hretiring
  generalize hd : portDown (setLink s n { link s n with tagAlarm := true }) n = d at hdown
  have halarm : linkAlarm s n = raiseAlarm d .linkTag 0 .notice n 0x20 n := by rw [linkAlarm, hd]
  obtain ⟨hridge, hpart, hseen⟩ := raiseAlarm_first_linkTag (s := d) (by rw [hdown]; exact hhist) 0 n 0x20 n
  rw [← halarm] at hridge hpart hseen
  have hlink : ∀ q, link (linkAlarm s n) q = if q = n then dropSession { link s n with tagAlarm := true } .down
      else link s q := fun q => calc
    link (linkAlarm s n) q = link d q := by rw [link, hridge, link]
    _ = if q = n then dropSession { link s n with tagAlarm := true } .down
        else link (setLink s n { link s n with tagAlarm := true }) q := by
      rw [hdown, link_setLink, link_setLink_same]
      rfl
    _ = _ := by
      rw [link_setLink]
      split <;> rfl
  refine ⟨(hlink n).trans (if_pos rfl), fun q hne => (hlink q).trans (if_neg hne), ?_, hseen⟩
  rw [hpart, hdown]
  rfl

/-! ## A frame that verifies (R68, R71, R72, R76, R81) -/

/-- Credits that go back to a peer are written on their port alone. -/
theorem owe_frame (s : State) (p : Nat) (cls : BitVec 4) (flits : Nat) :
    ∃ t, owe s p cls flits = { s with ridge := { s.ridge with links := t } } := by
  unfold owe
  dsimp only
  split
  · exact ⟨_, rfl⟩
  · exact ⟨s.ridge.links, rfl⟩

theorem link_owe (s : State) (p : Nat) (cls : BitVec 4) (flits q : Nat) :
    ∃ o, link (owe s p cls flits) q = { link s q with owed := o } := by
  unfold owe
  dsimp only
  split
  · rw [link_setLink]
    split
    · subst_vars
      exact ⟨_, rfl⟩
    · exact ⟨_, rfl⟩
  · exact ⟨_, rfl⟩

/-- The credits that a frame returns (R81). -/
def withCredits (l : Link) (i : Inner) : Link :=
  { l with credits := ⟨l.credits.req + i.crReq.toNat, l.credits.rsp + i.crRsp.toNat, l.credits.bulk + i.crBulk.toNat,
      l.credits.fold + i.crFold.toNat⟩ }

theorem takeCredits_setLink {y : Link} (h : y ≠ {}) (s : State) (n : Nat) (i : Inner) :
    takeCredits (setLink s n y) n i = setLink s n (withCredits y i) := by
  simp only [takeCredits, link_setLink_same, setLink_setLink h, withCredits]

/-- A port as a verified frame enters its window. -/
def tookNumber (l : Link) (f : Wire) (t : Nat) : Link :=
  { putWin l (winTake (winOf l f.clear.epoch) f.clear.seq.toNat) with retrying := none, lastRx := t }

/-- A frame under the current key leaves the keys. -/
theorem switchRx_current {s : State} {n : Nat} (h : (link s n).rxPrev = false) : switchRx s n false = s := by
  simp only [switchRx, h, Bool.false_and, Bool.false_eq_true, if_false]

/-- A frame that is the next number at most enters its number and drains with its slots (R71, R72). -/
theorem verified_inOrder {y : Link} (ho : y.state = .opened) (hprev : y.rxPrev = false) {f : Wire}
    (horder : (winOf y f.clear.epoch).valid = true → f.clear.seq.toNat ≤ (winOf y f.clear.epoch).top + 1)
    (s : State) (n : Nat) (i : Inner) :
    verified (setLink s n y) n f false i = relSlots (takeVerified
      (setLink s n (putSlots (tookNumber y f (now s)) (wireFlits f) .draining)) n i (wireFlits f)) n (wireFlits f) .free := by
  have hnogap : ¬((winOf y f.clear.epoch).valid && decide ((winOf y f.clear.epoch).top + 1 < f.clear.seq.toNat) &&
      y.state == .opened) = true := by
    simp only [Bool.and_eq_true, decide_eq_true_eq]
    exact fun ⟨⟨hv, hgap⟩, _⟩ => absurd (horder hv) (by omega)
  have hne : y ≠ {} := link_ne_default (by rw [ho]; decide)
  have htook : tookNumber y f (now s) ≠ {} := link_ne_default (show y.state ≠ .off by rw [ho]; decide)
  have hslots : putSlots (tookNumber y f (now s)) (wireFlits f) .verified ≠ {} :=
    link_ne_default (show y.state ≠ .off by rw [ho]; decide)
  have hdrains : relSlots (relSlots (switchRx (setLink s n (tookNumber y f (now s))) n false) n (wireFlits f) .verified) n
      (wireFlits f) .draining = setLink s n (putSlots (tookNumber y f (now s)) (wireFlits f) .draining) := by
    rw [switchRx_current (by rw [link_setLink_same]; exact hprev), relSlots_setLink htook, relSlots_setLink hslots,
      putSlots_putSlots]
  rw [← hdrains, ← setLink_setLink hne s n (tookNumber y f (now s))]
  simp only [verified, link_setLink_same]
  exact if_neg hnogap

/-- A frame of any class that verifies in order under the current key. -/
theorem openFrame_verifies {s : State} {n : Nat} {f : Wire} {x : SKey} {i : Inner} (ho : (link s n).state = .opened)
    (hprev : (link s n).rxPrev = false) (hopens : openWire x f = some i) (hcls : classOk i = true)
    (horder : (winOf (link s n) f.clear.epoch).valid = true →
      f.clear.seq.toNat ≤ (winOf (link s n) f.clear.epoch).top + 1) :
    openFrame s n f x false = relSlots (takeVerified
      (setLink s n (putSlots (tookNumber (link s n) f (now s)) (wireFlits f) .draining)) n i (wireFlits f)) n (wireFlits f)
      .free := by
  have hfilling : openFrame s n f x false =
      verified (setLink s n (putSlots (link s n) (wireFlits f) .filling)) n f false i := by
    simp only [openFrame, hopens, hcls, if_true]
    rfl
  have hslots : putSlots (tookNumber (putSlots (link s n) (wireFlits f) .filling) f (now s)) (wireFlits f) .draining =
      putSlots (tookNumber (link s n) f (now s)) (wireFlits f) .draining :=
    putSlots_putSlots (tookNumber (link s n) f (now s)) (wireFlits f) .filling .draining
  rw [hfilling, verified_inOrder (y := putSlots (link s n) (wireFlits f) .filling) ho hprev horder, hslots]

/-- A frame of an OPEN port that has come from another node returns its credits, and goes on by its AGE. -/
theorem takeVerified_opened {y : Link} {s : State} {i : Inner} (ho : y.state = .opened)
    (hsrc : i.srcNode.toNat ≠ s.range.nodeId) (n k : Nat) :
    takeVerified (setLink s n y) n i k =
      if 160 ≤ i.age.toNat + y.cableDly then
        owe (linkCtr (setLink s n (withCredits y i)) n fun c => { c with aged := inc32 c.aged }) n i.cls k
      else takeOpen (setLink s n (withCredits y i)) n i (i.age.toNat + y.cableDly) k := by
  have hne : y ≠ {} := link_ne_default (by rw [ho]; decide)
  have hother : ownSource (setLink s n y) n i = false := by
    simp only [ownSource, link_setLink_same, ho]
    exact beq_false_of_ne hsrc
  simp only [takeVerified, hother, link_setLink_same, ho, takeCredits_setLink hne]
  rfl

/-- An OPEN port as a verified frame drains from it. -/
def drainingPort (l : Link) (f : Wire) (i : Inner) (t : Nat) : Link :=
  withCredits (putSlots (tookNumber l f t) (wireFlits f) .draining) i

theorem drainingPort_ne_default {l : Link} (h : l.state ≠ .off) (f : Wire) (i : Inner) (t : Nat) :
    drainingPort l f i t ≠ {} := by
  refine link_ne_default ?_
  simpa only [drainingPort, withCredits, putSlots, tookNumber, putWin] using h

theorem drainingPort_eq (l : Link) (f : Wire) (i : Inner) (t : Nat) : drainingPort l f i t =
    { putWin l (winTake (winOf l f.clear.epoch) f.clear.seq.toNat) with
      retrying := none, lastRx := t
      slots := List.replicate (wireFlits f) .draining ++ l.slots.drop (wireFlits f)
      credits := ⟨l.credits.req + i.crReq.toNat, l.credits.rsp + i.crRsp.toNat, l.credits.bulk + i.crBulk.toNat,
        l.credits.fold + i.crFold.toNat⟩ } := rfl

/-- The port when the frame has drained. -/
theorem putSlots_drainingPort (l : Link) (f : Wire) (i : Inner) (t : Nat) :
    putSlots (drainingPort l f i t) (wireFlits f) .free =
    { putWin (putSlots l (wireFlits f) .free) (winTake (winOf l f.clear.epoch) f.clear.seq.toNat) with
      retrying := none, lastRx := t
      credits := ⟨l.credits.req + i.crReq.toNat, l.credits.rsp + i.crRsp.toNat, l.credits.bulk + i.crBulk.toNat,
        l.credits.fold + i.crFold.toNat⟩ } :=
  putSlots_putSlots (withCredits (tookNumber l f t) i) (wireFlits f) .draining .free

section
variable {s : State} {p : Port} {f : Wire} {x : SKey} {i : Inner} (hlive : takesFrames s p.val)
  (ho : (link s p.val).state = .opened) (hr : (link s p.val).retrying = none) (hprev : (link s p.val).rxPrev = false)
  (hkey : selectKey (link s p.val) f.clear = some (x, false))
  (hwin : winRejects (winOf (link s p.val) f.clear.epoch) f.clear.seq.toNat = false)
  (hclear : clearOk s p.val f.clear = true) (hopens : openWire x f = some i) (hcls : classOk i = true)
  (hsrc : i.srcNode.toNat ≠ s.range.nodeId)
  (horder : (winOf (link s p.val) f.clear.epoch).valid = true →
    f.clear.seq.toNat ≤ (winOf (link s p.val) f.clear.epoch).top + 1)
include hlive ho hr hprev hkey hwin hclear hopens hcls hsrc horder

/-- A verified frame goes to its consumer with the cable's delay in its AGE (R76). -/
theorem execFrameReceive_takes (hage : i.age.toNat + (link s p.val).cableDly < 160) :
    execFrameReceive p f s = .next (relSlots (takeOpen (setLink s p.val (drainingPort (link s p.val) f i (now s))) p.val i
      (i.age.toNat + (link s p.val).cableDly) (wireFlits f)) p.val (wireFlits f) .free) := by
  rw [execFrameReceive_opens hlive (.inl hr) hkey hwin hclear, openFrame_verifies ho hprev hopens hcls horder,
    takeVerified_opened (y := putSlots (tookNumber (link s p.val) f (now s)) _ _) ho hsrc]
  exact congrArg (fun t => Host.Outcome.next (relSlots t _ _ _)) (if_neg (Nat.not_le.mpr hage))

/-- One that has aged is counted and goes nowhere. -/
theorem execFrameReceive_aged (hage : 160 ≤ i.age.toNat + (link s p.val).cableDly) :
    execFrameReceive p f s = .next (relSlots (owe (linkCtr (setLink s p.val (drainingPort (link s p.val) f i (now s))) p.val
      fun c => { c with aged := inc32 c.aged }) p.val i.cls (wireFlits f)) p.val (wireFlits f) .free) := by
  rw [execFrameReceive_opens hlive (.inl hr) hkey hwin hclear, openFrame_verifies ho hprev hopens hcls horder,
    takeVerified_opened (y := putSlots (tookNumber (link s p.val) f (now s)) _ _) ho hsrc]
  exact congrArg (fun t => Host.Outcome.next (relSlots t _ _ _)) (if_pos hage)

end

/-- What the discard of an aged frame leaves: its port's other counters and credits, and all but the ports. -/
theorem agedFrame_keeps (s : State) (n : Nat) (y : Link) (cls : BitVec 4) (k : Nat) :
    let t := relSlots (owe (linkCtr (setLink s n y) n fun c => { c with aged := inc32 c.aged }) n cls k) n k .free
    (link t n).ctr = { y.ctr with aged := inc32 y.ctr.aged } ∧ (link t n).credits = y.credits ∧ t.out = s.out ∧
    t.part = s.part ∧ t.mem = s.mem := by
  obtain ⟨r, howe⟩ := owe_frame (linkCtr (setLink s n y) n fun c => { c with aged := inc32 c.aged }) n cls k
  obtain ⟨o, hlink⟩ := link_owe (linkCtr (setLink s n y) n fun c => { c with aged := inc32 c.aged }) n cls k n
  have hcounted : link (linkCtr (setLink s n y) n fun c => { c with aged := inc32 c.aged }) n =
      { y with ctr := { y.ctr with aged := inc32 y.ctr.aged } } := by
    simp only [linkCtr, link_setLink_same]
  rw [hcounted] at hlink
  have hfreed : link (relSlots (owe (linkCtr (setLink s n y) n fun c => { c with aged := inc32 c.aged }) n cls k) n k .free) n =
      putSlots { y with ctr := { y.ctr with aged := inc32 y.ctr.aged }, owed := o } k .free := by
    rw [relSlots, link_setLink_same, hlink]
    rfl
  refine ⟨by rw [hfreed]; rfl, by rw [hfreed]; rfl, ?_⟩
  rw [howe]
  simp [relSlots, linkCtr]

theorem takeOpen_scree {i : Inner} (h : i.cls = clsScree) (s : State) (n age k : Nat) : takeOpen s n i age k = s := by
  simp [takeOpen, h]

/-- Settles O36: what a port takes, looks at and asks for, and a verified frame by its AGE; the windows by their top. -/
theorem framesAreVerifiedInOrder : Obligations.FramesAreVerifiedInOrder := by
  intro s p f n l live bad freed tried
  have htried : tried = link (freedPort s n f) n := (link_freedPort s n f).symm
  have hfails : ∀ x, bad x → clearOk s n f.clear = false ∨ failsToOpen x f := fun x h => h
  refine ⟨fun h => execFrameReceive_closed h f, fun r hr hne => execFrameReceive_otherFrame hr hne,
    fun hlive hr h => execFrameReceive_replay hlive hr h, fun x o hlive hr hkey hwin hbad => ?_,
    fun x o hlive ho hr hkey hwin hbad => ?_, fun hclosing hhist hretiring hq => ?_,
    fun x i hlive ho hr hprev hkey hwin hclear hopens hcls hlen hsrc horder => ?_,
    fun x i hlive ho hr hprev hkey hwin hclear hopens hcls hsrc hage horder => ?_,
    fun w q => ⟨winRejects_winTake w q, fun r => winRejects_winTake_of_winRejects q, fun r hq hv => ?_,
      fun r hv htop hq => ?_⟩⟩
  · obtain ⟨hstate, hretry, hctr⟩ := freedPort_keeps s n f
    have hexec := execFrameReceive_fails hlive (.inl hr) hkey hwin (hfails x hbad)
    refine ⟨fun ho => hexec.trans ?_, fun ho => hexec.trans ?_⟩
    · rw [frameFailed_first (hstate.trans ho) (hretry.trans hr), setLink_freedPort hlive.2.1, htried, hctr]
    · rw [frameFailed_notOpen (hstate ▸ ho), setLink_freedPort hlive.2.1, htried, hctr]
  · obtain ⟨hstate, hretry, -⟩ := freedPort_keeps s n f
    refine (execFrameReceive_fails hlive (.inr hr) hkey hwin (hfails x hbad)).trans ?_
    rw [frameFailed_again (hstate.trans ho) (by rw [hretry]; exact congrArg Option.isSome hr)]
    rfl
  · obtain ⟨hport, hothers, hpart, hseen⟩ := linkAlarm_first hclosing hhist hretiring hq
    exact ⟨by rw [hport]; rfl, by rw [hport]; rfl, by rw [hport]; rfl, hseen, hothers, hpart⟩
  · have hcell : classOk i = true := by simp [classOk, hcls, hlen]
    refine ⟨fun hage => ?_, fun hage => ⟨_,
      execFrameReceive_aged hlive ho hr hprev hkey hwin hclear hopens hcell hsrc horder hage,
      agedFrame_keeps s n (drainingPort l f i (now s)) i.cls (wireFlits f)⟩⟩
    refine (execFrameReceive_takes hlive ho hr hprev hkey hwin hclear hopens hcell hsrc horder hage).trans ?_
    have hne : drainingPort l f i (now s) ≠ {} := drainingPort_ne_default hlive.2.1 f i (now s)
    rw [takeOpen_scree hcls, relSlots_setLink hne]
    exact congrArg (fun y => Host.Outcome.next (setLink s n y)) (putSlots_drainingPort l f i (now s))
  · rw [← drainingPort_eq l f i (now s)]
    exact execFrameReceive_takes hlive ho hr hprev hkey hwin hclear hopens hcls hsrc horder hage
  · exact winRejects_above (by rwa [top_winTake, hv, if_neg Bool.false_ne_true])
  · exact winRejects_above (by rw [top_winTake, if_pos hv]; exact max_lt htop hq)

end Sys2Proof.Machine

/-! PROOFS. Frame starts: flips, the egress arbiter, sealing, and transit (03 R61, R66, R67, R76, R81, R82, R89, R411). -/

namespace Sys2Proof.Machine

/-! ## The arbiter with one frame to choose (R82) -/

/-- A round of `m` numbers reaches every remainder. -/
theorem exists_mem_span_mod {m r : Nat} (h : r < m) (a : Nat) : ∃ n ∈ span a m, n % m = r := by
  have hm : 0 < m := by omega
  have hround : a + (r + m - a % m) = r + m * (a / m + 1) := by
    have hdiv := Nat.div_add_mod a m
    have hlt := Nat.mod_lt a hm
    rw [Nat.mul_add, Nat.mul_one]
    omega
  refine ⟨a + (r + m - a % m) % m, List.mem_map.mpr ⟨_, List.mem_range.mpr (Nat.mod_lt _ hm), rfl⟩, ?_⟩
  rw [Nat.add_mod_mod, hround, Nat.add_mul_mod_self_left, Nat.mod_eq_of_lt h]

/-- A search that can find one thing alone finds it where a place of it passes. -/
theorem findSome?_const {α β : Type} (l : List α) (q : α → Bool) (x : β) :
    (l.findSome? fun n => if q n = true then some x else none) = if l.any q = true then some x else none := by
  induction l with
  | nil => rfl
  | cons a l ih => cases hq : q a <;> simp [hq, ih]

theorem poolOf_lt (c : BitVec 4) : poolOf c < 5 := by
  unfold poolOf
  split_ifs <;> decide

/-- A client that offers one frame is served from that frame's pool. -/
theorem pickPool_single (l : Link) (c : Nat) (o : Offer1) :
    pickPool l c [o] = if o.frame.client = c then some o else none := by
  obtain ⟨n, hn, hmod⟩ := exists_mem_span_mod (poolOf_lt o.frame.inner.cls) (tget 0 l.lastPool c + 1)
  have hround : (span (tget 0 l.lastPool c + 1) 5).any
      (fun n => o.frame.client == c && poolOf o.frame.inner.cls == n % 5) = (o.frame.client == c) := by
    rw [Bool.eq_iff_iff, List.any_eq_true]
    refine ⟨fun ⟨_, _, hc⟩ => (Bool.and_eq_true_iff.mp hc).1, fun hc => ⟨n, hn, ?_⟩⟩
    rw [hc, hmod, beq_self_eq_true, Bool.and_self]
  have hfind : ∀ n, ([o].find? fun o => o.frame.client == c && poolOf o.frame.inner.cls == n % 5) =
      if (o.frame.client == c && poolOf o.frame.inner.cls == n % 5) = true then some o else none := fun n => by
    cases hc : (o.frame.client == c && poolOf o.frame.inner.cls == n % 5) <;> simp [hc]
  simp only [pickPool, hfind, findSome?_const, hround, beq_iff_eq]

/-- The one client that offers is chosen where its frame passes the test. -/
theorem pickClient_single {o : Offer1} (h : o.frame.client < 33) (l : Link) (p : Nat → Offer1 → Bool) :
    pickClient l [o] p = if p o.frame.client o = true then some o else none := by
  obtain ⟨n, hn, hmod⟩ := exists_mem_span_mod h (l.rrClient + 1)
  have hround : (span (l.rrClient + 1) 33).any (fun n => o.frame.client == n % 33 && p o.frame.client o) =
      p o.frame.client o := by
    rw [Bool.eq_iff_iff, List.any_eq_true]
    refine ⟨fun ⟨_, _, hc⟩ => (Bool.and_eq_true_iff.mp hc).2, fun hp => ⟨n, hn, ?_⟩⟩
    rw [hp, hmod, beq_self_eq_true, Bool.and_self]
  have hserve : pickClient l [o] p = (span (l.rrClient + 1) 33).findSome? fun n =>
      if (o.frame.client == n % 33 && p o.frame.client o) = true then some o else none := by
    refine congrArg (List.findSome? · _) (funext fun n => ?_)
    rw [pickPool_single]
    by_cases hc : o.frame.client = n % 33
    · simp [hc]
    · simp [hc]
  rw [hserve, findSome?_const, hround]

theorem pickClient_nil (l : Link) (p : Nat → Offer1 → Bool) : pickClient l [] p = none := by
  rw [pickClient, List.findSome?_eq_none_iff]
  intro n _
  have hpool : pickPool l (n % 33) [] = none := by
    rw [pickPool, List.findSome?_eq_none_iff]
    exact fun _ _ => rfl
  rw [hpool]

/-- A frame whose client's bucket holds it goes, and is debited. -/
theorem choose_debited {s : State} {l : Link} {o : Offer1} (hc : o.frame.client < 33)
    (hb : o.flits * 64 ≤ tget 0 l.buckets o.frame.client) : choose s l [o] = some (o, true) := by
  simp only [choose, pickClient_single hc, hb, decide_true, if_true]

/-- A transit frame goes with a debit or without. -/
theorem choose_transit {s : State} {l : Link} {o : Offer1} (hc : o.frame.client = 32) :
    ∃ b, choose s l [o] = some (o, b) := by
  by_cases hb : o.flits * 64 ≤ tget 0 l.buckets o.frame.client
  · exact ⟨true, choose_debited (by omega) hb⟩
  · have hconf : confClient s o.frame.client = false := by simp [confClient, hc]
    refine ⟨false, ?_⟩
    simp only [choose, pickClient_single (show o.frame.client < 33 by omega), hb, hconf]
    rfl

theorem choose_nil (s : State) (l : Link) : choose s l [] = none := by
  simp only [choose, pickClient_nil, Option.map_none]

theorem eligible_single {l : Link} {o : Offer1} (h : hasCredits l o.frame.inner.cls o.flits = true) :
    eligible l [o] [] = [o] := by
  simp [eligible, h]

/-! ## Flips and seals (R61, R66, R67, R81) -/

theorem flip_none {s : State} {n : Nat} (h : (link s n).txNext = none) : flip s n = s := by
  simp only [flip, h]

/-- A flip that is due takes the next key; SEQ starts at 0 where the epoch is new. -/
theorem link_flip {s : State} {n : Nat} {k : SKey} (hnext : (link s n).txNext = some k)
    (hdue : flipIsDue s (link s n) = true) : ∃ q c, link (flip s n) n = { link s n with
      txCur := some k, txNext := none, epochFlip := false, flipDue := false, txFrames := 0, txFirst := none
      txSeq := q, lastFlip := some (now s), ctr := c } ∧
      ∀ x, (link s n).txCur = some x → q = if x.epoch = k.epoch then (link s n).txSeq else 0 := by
  simp only [flip, hnext, hdue, if_true, link_setLink_same]
  refine ⟨_, _, rfl, fun x hx => ?_⟩
  by_cases he : x.epoch = k.epoch <;> simp [hx, he]

/-- A port after it has sealed a frame of a class. -/
def sealedPort (l : Link) (cls : BitVec 4) (flits t : Nat) : Link :=
  { l with
    owed := { req := l.owed.req - creditsBack l 1, rsp := l.owed.rsp - creditsBack l 2
              bulk := l.owed.bulk - creditsBack l 3, fold := l.owed.fold - creditsBack l 4 }
    credits := poolSet l.credits (poolOf cls) (poolGet l.credits (poolOf cls) - flits), txSeq := l.txSeq + 1
    lastSeq := l.txSeq, txFrames := l.txFrames + 1, txFirst := some (l.txFirst.getD t), lastTx := t }

/-- From `s` to `e` port `n` has sent one frame, under a key and with the port's next number. -/
def SentOne (s e : State) (n : Nat) (k : SKey) (flits : Nat) : Prop :=
  ∃ w, e.out = .frame n w :: s.out ∧ w.clear.epoch = k.epoch ∧ w.clear.phase = phaseOf k ∧
    w.clear.seq = (link s n).txSeq ∧ w.clear.flitsM1 = BitVec.ofNat 4 (flits - 1) ∧
    (link e n).txSeq = (link s n).txSeq + 1 ∧ (link e n).txFrames = (link s n).txFrames + 1

/-- What is done before the seal does not matter to it where the trace and the port's numbers stand. -/
theorem SentOne.before {r s e : State} {n flits : Nat} {k : SKey} (h : SentOne s e n k flits) (hout : s.out = r.out)
    (hseq : (link s n).txSeq = (link r n).txSeq) (hframes : (link s n).txFrames = (link r n).txFrames) :
    SentOne r e n k flits := by
  simpa only [SentOne, hout, hseq, hframes] using h

/-- A frame without a flip goes under the current key with the port's next number. -/
theorem sealOut_current {s : State} {n : Nat} {k : SKey} (hcur : (link s n).txCur = some k)
    (hnext : (link s n).txNext = none) (i : Inner) (flits : Nat) : ∃ j,
    sealOut s n i flits = emit (setLink s n (sealedPort (link s n) i.cls flits (now s)))
      (.frame n (sealWire k (txDir s n) (link s n).txSeq j flits)) := by
  simp only [sealOut, flip_none hnext, hcur, sealedPort]
  exact ⟨_, rfl⟩

section
variable {s : State} {n : Nat} {k : SKey} (hcur : (link s n).txCur = some k) (hnext : (link s n).txNext = none) (i : Inner)
  (flits : Nat)
include hcur hnext

theorem link_sealOut : link (sealOut s n i flits) n = sealedPort (link s n) i.cls flits (now s) := by
  obtain ⟨j, hseal⟩ := sealOut_current hcur hnext i flits
  rw [hseal]
  exact link_setLink_same ..

theorem sealOut_sentOne : SentOne s (sealOut s n i flits) n k flits := by
  have hlink := link_sealOut hcur hnext i flits
  obtain ⟨j, hseal⟩ := sealOut_current hcur hnext i flits
  refine ⟨sealWire k (txDir s n) (link s n).txSeq j flits, ?_, rfl, rfl, rfl, rfl, by rw [hlink]; rfl, by rw [hlink]; rfl⟩
  rw [hseal]
  rfl

/-- A seal leaves the queues of the router and the partitions. -/
theorem sealOut_keeps : (sealOut s n i flits).part = s.part ∧ (sealOut s n i flits).ridge.outq = s.ridge.outq := by
  obtain ⟨j, hseal⟩ := sealOut_current hcur hnext i flits
  rw [hseal]
  exact ⟨rfl, rfl⟩

end

/-! ## Frame starts (R82, R89, R411) -/

/-- The transit frames of a queue are young enough to leave (R76). -/
def allYoung (l : Link) : Prop := ∀ h ∈ l.transitq, handedAge l h < 160

theorem dropHanded_young {y : Link} (hne : y ≠ {}) (h : allYoung y) (s : State) (n : Nat) :
    dropHanded (setLink s n y) n = setLink s n y := by
  have hold : y.transitq.filter (fun h => decide (160 ≤ handedAge y h)) = [] :=
    List.filter_eq_nil_iff.mpr fun x hx => by simpa using h x hx
  have hkept : y.transitq.filter (fun h => !decide (160 ≤ handedAge y h)) = y.transitq :=
    List.filter_eq_self.mpr fun x hx => by simpa using h x hx
  simp only [dropHanded, link_setLink_same, hold, hkept, List.foldl_nil, setLink_setLink hne]

@[simp] theorem fillBuckets_frame (l : Link) (lclk : Nat) :
    (fillBuckets l lclk).state = l.state ∧ (fillBuckets l lclk).closing = l.closing ∧
    (fillBuckets l lclk).txCur = l.txCur ∧ (fillBuckets l lclk).txNext = l.txNext ∧
    (fillBuckets l lclk).txSeq = l.txSeq ∧ (fillBuckets l lclk).txFrames = l.txFrames ∧
    (fillBuckets l lclk).screeCad = l.screeCad ∧ (fillBuckets l lclk).screeFM1 = l.screeFM1 ∧
    (fillBuckets l lclk).transitq = l.transitq ∧ (fillBuckets l lclk).ctlq = l.ctlq ∧
    (fillBuckets l lclk).credits = l.credits ∧ (fillBuckets l lclk).ctlBucket = min 128 (l.ctlBucket + lclk) := by
  and_intros <;> rfl

theorem fillBuckets_ne_default {l : Link} {k : SKey} (h : l.txCur = some k) (lclk : Nat) : fillBuckets l lclk ≠ {} := by
  intro he
  have hcur : (fillBuckets l lclk).txCur = none := by rw [he]
  simp [h] at hcur

theorem allYoung_filled {l : Link} (h : l.transitq = []) (lclk : Nat) : allYoung (fillBuckets l lclk) := by
  simp [allYoung, h]

section
variable {s : State} {p : Port}

theorem execFrameSeal_idle (h : s.boot.rdy = false ∨ (link s p.val).screeCad ≠ 0 ∨ (link s p.val).txCur = none)
    (lclk : Nat) (offer : List Nat) : execFrameSeal p lclk offer s = .next s :=
  if_pos (by simpa [or_assoc] using h)

theorem execScreeSlot_idle (h : s.boot.rdy = false ∨ (link s p.val).screeCad = 0 ∨ (link s p.val).txCur = none)
    (offer : List Nat) : execScreeSlot p offer s = .next s :=
  if_pos (by simpa [or_assoc] using h)

variable (hrdy : s.boot.rdy = true) {k : SKey} (hcur : (link s p.val).txCur = some k)
include hrdy hcur

/-- A frame start outside scree mode, on the port with its buckets filled. -/
theorem execFrameSeal_starts (hcad : (link s p.val).screeCad = 0) (lclk : Nat)
    (hyoung : allYoung (fillBuckets (link s p.val) lclk)) (offer : List Nat) :
    execFrameSeal p lclk offer s = .next ((frameStart (setLink s p.val (fillBuckets (link s p.val) lclk)) p.val offer).getD
      (setLink s p.val (fillBuckets (link s p.val) lclk))) := by
  have hgo : (!s.boot.rdy || (link s p.val).screeCad != 0 || (link s p.val).txCur.isNone) = false := by
    simp [hrdy, hcad, hcur]
  simp only [execFrameSeal, hgo, dropHanded_young (fillBuckets_ne_default hcur lclk) hyoung, Bool.false_eq_true, if_false]

/-- A scree slot to which nothing is offered carries a cell of the scree length. -/
theorem execScreeSlot_cell (hcad : (link s p.val).screeCad ≠ 0) (hstate : (link s p.val).state ≠ .admitting)
    (hyoung : allYoung (fillBuckets (link s p.val) (screeGap (link s p.val)))) {offer : List Nat}
    (hnone : frameStart (setLink s p.val (fillBuckets (link s p.val) (screeGap (link s p.val)))) p.val offer = none) :
    execScreeSlot p offer s = .next (sealOut (setLink s p.val (fillBuckets (link s p.val) (screeGap (link s p.val)))) p.val
      (screeCell s p.val) ((link s p.val).screeFM1 + 1)) := by
  have hgo : (!s.boot.rdy || (link s p.val).screeCad == 0 || (link s p.val).txCur.isNone) = false := by
    simp [hrdy, hcad, hcur]
  have hadmit : ((link s p.val).state == .admitting) = false := beq_false_of_ne hstate
  simp only [execScreeSlot, hgo, dropHanded_young (fillBuckets_ne_default hcur _) hyoung, hnone, hadmit, Bool.false_eq_true,
    if_false]

end

/-- A full control bucket sends the port's first control frame. -/
theorem frameStart_control {s : State} {n : Nat} {f : OutFrame} {rest : List OutFrame} (hb : 128 ≤ (link s n).ctlBucket)
    (hq : (link s n).ctlq = f :: rest) (ix : List Nat) :
    frameStart s n ix = some (endClosed (sealOut (setLink s n { link s n with ctlBucket := 0, ctlq := rest }) n f.inner
      (flitsOn (link s n) f)) n) := by
  have hctl : (if (link s n).ctlBucket ≥ 128 then ctlOf (link s n) (offers s (link s n) ix) else none) = some (f, none) := by
    simp only [ge_iff_le, hb, if_true, ctlOf, hq]
  simp only [frameStart, hctl, hq, List.tail_cons]

/-- Without a control frame a frame start is the arbiter's among the clients. -/
theorem frameStart_clients {s : State} {n : Nat} {ix : List Nat} (hq : (link s n).ctlq = [])
    (hclient : ∀ o ∈ offers s (link s n) ix, o.frame.client < 33) :
    frameStart s n ix = (choose s (link s n) (eligible (link s n)
      ((offers s (link s n) ix).filter fun o => o.frame.client < 33 && fits (link s n) o) [])).map
        fun c => sealClient s n c.1 c.2 := by
  have hnone : (offers s (link s n) ix).find? (fun o => o.frame.client == 33) = none :=
    List.find?_eq_none.mpr fun o ho => by simpa using (hclient o ho).ne
  have hctl : (if (link s n).ctlBucket ≥ 128 then ctlOf (link s n) (offers s (link s n) ix) else none) = none := by
    simp only [ctlOf, hq, hnone, Option.map_none, ite_self]
  simp only [frameStart, hctl]

theorem frameStart_noOffer {s : State} {n : Nat} {ix : List Nat} (hq : (link s n).ctlq = [])
    (hos : offers s (link s n) ix = []) : frameStart s n ix = none := by
  rw [frameStart_clients hq (by simp [hos]), hos, List.filter_nil, eligible, choose_nil, Option.map_none]

/-- The one frame offered that fits and has credits is chosen as the arbiter chooses. -/
theorem frameStart_oneOffer {s : State} {n : Nat} {ix : List Nat} {o : Offer1} {b : Bool} (hq : (link s n).ctlq = [])
    (hos : offers s (link s n) ix = [o]) (hclient : o.frame.client < 33) (hfits : fits (link s n) o = true)
    (hcr : hasCredits (link s n) o.frame.inner.cls o.flits = true) (hchoose : choose s (link s n) [o] = some (o, b)) :
    frameStart s n ix = some (sealClient s n o b) := by
  have hfilter : [o].filter (fun o => o.frame.client < 33 && fits (link s n) o) = [o] := by simp [hclient, hfits]
  rw [frameStart_clients hq (by simpa [hos] using hclient), hos, hfilter, eligible_single hcr, hchoose, Option.map_some]

/-- A port without transit frames to which nothing is offered has nothing to send. -/
theorem offers_nil {l : Link} (h : l.transitq = []) (s : State) : offers s l [] = [] := by
  simp [offers, transitOffers, routerOffers, h]

/-- The router's offer of one frame that no kill holds. -/
theorem offers_router {s : State} {l : Link} {i : Nat} {f : OutFrame} (ho : l.state = .opened) (hq : l.transitq = [])
    (hclosing : l.closing = false) (hf : s.ridge.outq[i]? = some f) (hheld : signalHeld s f = false) :
    offers s l [i] = [⟨i, f, flitsOn l f, false⟩] := by
  simp [offers, transitOffers, routerOffers, ho, hq, hclosing, hf, hheld]

/-- The one transit frame of a port's queue. -/
theorem offers_transit {l : Link} {h : Handed} (ho : l.state = .opened) (hq : l.transitq = [h]) (s : State) :
    offers s l [] = [⟨0, handedFrame l h, flitsOn l (handedFrame l h), true⟩] := by
  simp [offers, transitOffers, routerOffers, ho, hq]

theorem signalHeld_untracked {f : OutFrame} (h : f.track = 0) (s : State) : signalHeld s f = false := by
  simp [signalHeld, h]

/-! ## A client's frame is sealed (R82, R89) -/

/-- A port that has served a frame of a client. -/
def servedPort (l : Link) (o : Offer1) (debit : Bool) : Link :=
  { l with
    rrClient := o.frame.client, lastPool := tset 0 l.lastPool o.frame.client (poolOf o.frame.inner.cls)
    buckets := if debit then tset 0 l.buckets o.frame.client (tget 0 l.buckets o.frame.client - o.flits * 64)
      else l.buckets }

/-- The state in which a client's frame is sealed: served, counted, and taken from its queue. -/
def beforeSeal (s : State) (n : Nat) (o : Offer1) (debit : Bool) : State :=
  takeOut (telAdd (setLink s n (servedPort (link s n) o debit)) o.frame.client 3 o.flits) n o none

/-- Frames of transit, and those that no tracker has, need no stamp (R87, R171 to R173). -/
theorem noteSealed_untracked {f : OutFrame} (h : 32 ≤ f.client ∨ (f.inner.cls ≠ clsSeam ∧ f.track = 0)) (s : State) :
    noteSealed s f = s := by
  rcases h with h | ⟨hcls, ht⟩
  · exact if_pos h
  · have hseam : (f.inner.cls == clsSeam) = false := beq_false_of_ne hcls
    simp only [noteSealed, hseam, ht, Bool.false_eq_true, if_false, beq_self_eq_true, if_true, ite_self]

/-- A frame that fits is sealed whole. -/
theorem sealClient_whole {o : Offer1} (hfits : flitsFor o.frame.inner.payload.length ≤ o.flits)
    (hnote : 32 ≤ o.frame.client ∨ (o.frame.inner.cls ≠ clsSeam ∧ o.frame.track = 0)) (s : State) (n : Nat)
    (debit : Bool) : sealClient s n o debit = sealOut (beforeSeal s n o debit) n o.frame.inner o.flits := by
  have hcut : cutFrame o.frame o.flits = none := if_pos hfits
  simp only [sealClient, hcut, noteSealed_untracked hnote]
  rfl

/-- A frame of the router leaves its queue. -/
theorem beforeSeal_router (s : State) (n i : Nat) (f : OutFrame) (flits : Nat) (debit : Bool) :
    let t := beforeSeal s n ⟨i, f, flits, false⟩ debit
    (∃ q d, link t n = { servedPort (link s n) ⟨i, f, flits, false⟩ debit with transitq := q, owed := d }) ∧
    t.out = s.out ∧ t.part = s.part ∧ t.ridge.outq = s.ridge.outq.eraseIdx i := by
  have hserved : link (beforeSeal s n ⟨i, f, flits, false⟩ debit) n =
      servedPort (link s n) ⟨i, f, flits, false⟩ debit := link_setLink_same ..
  refine ⟨⟨(link s n).transitq, (link s n).owed, hserved⟩, ?_⟩
  simp [beforeSeal, takeOut]

/-- A transit frame leaves its port's queue, and its credits go back. -/
theorem beforeSeal_transit {s : State} {n : Nat} {h : Handed} (hq : (link s n).transitq = [h]) (f : OutFrame)
    (flits : Nat) (debit : Bool) :
    let t := beforeSeal s n ⟨0, f, flits, true⟩ debit
    (∃ o, link t n = { servedPort (link s n) ⟨0, f, flits, true⟩ debit with transitq := [], owed := o }) ∧
    t.out = s.out ∧ t.part = s.part := by
  have hserved : link (telAdd (setLink s n (servedPort (link s n) ⟨0, f, flits, true⟩ debit)) f.client 3 flits) n =
      servedPort (link s n) ⟨0, f, flits, true⟩ debit := link_setLink_same ..
  have hfirst : (servedPort (link s n) ⟨0, f, flits, true⟩ debit).transitq = [h] := hq
  simp only [beforeSeal, takeOut, if_true, takeHanded, hserved, hfirst, List.getElem?_cons_zero, oweTransit]
  generalize hu : setLink _ n _ = u
  have hlink : link u n = { servedPort (link s n) ⟨0, f, flits, true⟩ debit with transitq := [] } := by
    rw [← hu]
    exact link_setLink_same ..
  obtain ⟨o, howed⟩ := link_owe u h.t.via h.t.inner.cls h.t.flits n
  obtain ⟨r, howe⟩ := owe_frame u h.t.via h.t.inner.cls h.t.flits
  refine ⟨⟨o, by rw [howed, hlink]⟩, ?_⟩
  rw [howe, ← hu]
  simp

/-! ## Transit frames that are discarded (R81, R411) -/

theorem poolGet_poolSet {n : Nat} (h1 : 1 ≤ n) (h4 : n ≤ 4) (p : Pools) (v : Nat) : poolGet (poolSet p n v) n = v := by
  interval_cases n <;> rfl

/-- An OPEN port owes its peer the flits of a frame whose space is free again. -/
theorem poolGet_owe {s : State} {p : Nat} {cls : BitVec 4} (ho : (link s p).state = .opened) (h1 : 1 ≤ poolOf cls)
    (h4 : poolOf cls ≤ 4) (flits : Nat) :
    poolGet (link (owe s p cls flits) p).owed (poolOf cls) = poolGet (link s p).owed (poolOf cls) + flits := by
  simp only [owe, ho, beq_self_eq_true, Bool.true_or, if_true, link_setLink_same, poolGet_poolSet h1 h4]

theorem owed_linkCtr (s : State) (n q : Nat) (f : LinkCtr → LinkCtr) :
    (link (linkCtr s n f) q).owed = (link s q).owed := by
  rw [linkCtr, link_setLink]
  split
  · subst_vars
    rfl
  · rfl

/-- A transit frame that is discarded is counted at its port, and the port that it came by owes its credits. -/
theorem discardTransit_keeps (s : State) (n : Nat) (t : Transit) (f : LinkCtr → LinkCtr) :
    let e := linkCtr (oweTransit s t) n f
    e.ridge.router = s.ridge.router ∧ e.out = s.out ∧ e.part = s.part ∧ (link e n).ctr = f (link s n).ctr ∧
    ((link s t.via).state = .opened → 1 ≤ poolOf t.inner.cls → poolOf t.inner.cls ≤ 4 →
      poolGet (link e t.via).owed (poolOf t.inner.cls) = poolGet (link s t.via).owed (poolOf t.inner.cls) + t.flits) := by
  obtain ⟨r, howe⟩ := owe_frame s t.via t.inner.cls t.flits
  obtain ⟨o, howed⟩ := link_owe s t.via t.inner.cls t.flits n
  refine ⟨?_, ?_, ?_, ?_, fun ho h1 h4 => ?_⟩
  · rw [oweTransit, howe]; rfl
  · rw [oweTransit, howe]; rfl
  · rw [oweTransit, howe]; rfl
  · rw [linkCtr, link_setLink_same, oweTransit, howed]
  · rw [owed_linkCtr]
    exact poolGet_owe ho h1 h4 t.flits

/-- AGE of a transit frame as it is handed over (R76). -/
theorem handedAge_now (l : Link) (t : Transit) (lclk : Nat) :
    handedAge l ⟨t, lclk, l.lclk⟩ = t.inner.age.toNat + quarters lclk := by
  simp [handedAge]

section
variable {s : State} {p : Port} {idx lclk : Nat} {t : Transit} (hr : s.ridge.router[idx]? = some t)
include hr

theorem execTransitHandoff_noRoute (h : (link s p.val).state ≠ .opened) :
    execTransitHandoff p idx lclk s = .next (linkCtr (oweTransit (fromRouter s idx) t) p.val
      fun c => { c with noroute := inc32 c.noroute }) := by
  have hclosed : ((link s p.val).state != .opened) = true := bne_iff_ne.mpr h
  simp only [execTransitHandoff, hr, hclosed, if_true]
  rfl

/-- What an OPEN port makes of a transit frame, by its AGE and by whether it is closing. -/
theorem execTransitHandoff_opened (h : (link s p.val).state = .opened) :
    execTransitHandoff p idx lclk s = if 160 ≤ t.inner.age.toNat + quarters lclk then
        .next (linkCtr (oweTransit (fromRouter s idx) t) p.val fun c => { c with aged := inc32 c.aged })
      else if (link s p.val).closing = true then .next s
      else .next (setLink (fromRouter s idx) p.val { link s p.val with
        transitq := (link s p.val).transitq ++ [⟨t, lclk, (link s p.val).lclk⟩] }) := by
  have hopen : ((link s p.val).state != .opened) = false := by rw [h]; rfl
  simp only [execTransitHandoff, hr, hopen, Bool.false_eq_true, if_false, handedAge_now]
  rfl

end

/-! ## An ADMIT port that closes (R62) -/

theorem endClosed_stays {s : State} {n : Nat} (h : (link s n).state ≠ .admitting ∨ (link s n).closing = false) :
    endClosed s n = s := by
  rcases h with h | h <;> simp [endClosed, h]

/-- A joiner's ADMIT port that has sent the last of its queue is OFF, and its admission key goes. -/
theorem endClosed_ends {s : State} {n : Nat} (hstate : (link s n).state = .admitting) (hclosing : (link s n).closing = true)
    (hq : (link s n).ctlq = []) (ht : (link s n).transitq = []) :
    endClosed s n = clearSlot (setLink s n (dropSession (link s n) .off)) 6 := by
  simp [endClosed, hstate, hclosing, hq, portTo, ht]

/-! ## What a frame start sends -/

theorem flitsOn_noScree {l : Link} (h : l.screeCad = 0) (f : OutFrame) : flitsOn l f = f.flits := by
  simp [flitsOn, h]

/-- The port as its first control frame is about to be sealed. -/
def beforeControl (s : State) (n lclk : Nat) (rest : List OutFrame) : State :=
  setLink (setLink s n (fillBuckets (link s n) lclk)) n
    { fillBuckets (link s n) lclk with ctlBucket := 0, ctlq := rest }

section
variable {s : State} {p : Port} (hrdy : s.boot.rdy = true) {k : SKey} (hcur : (link s p.val).txCur = some k)
  (hcad : (link s p.val).screeCad = 0)
include hrdy hcur hcad

/-- A frame start with nothing to send fills the buckets. -/
theorem execFrameSeal_nothing (ht : (link s p.val).transitq = []) (hq : (link s p.val).ctlq = []) (lclk : Nat) :
    execFrameSeal p lclk [] s = .next (setLink s p.val (fillBuckets (link s p.val) lclk)) := by
  rw [execFrameSeal_starts hrdy hcur hcad lclk (allYoung_filled ht lclk),
    frameStart_noOffer (by simpa using hq), Option.getD_none]
  rw [link_setLink_same]
  exact offers_nil (by simpa using ht) _

theorem execFrameSeal_control {f : OutFrame} {rest : List OutFrame} {lclk : Nat} (ht : (link s p.val).transitq = [])
    (hq : (link s p.val).ctlq = f :: rest) (hb : 128 ≤ (link s p.val).ctlBucket + lclk) (offer : List Nat) :
    execFrameSeal p lclk offer s =
      .next (endClosed (sealOut (beforeControl s p.val lclk rest) p.val f.inner f.flits) p.val) := by
  rw [execFrameSeal_starts hrdy hcur hcad lclk (allYoung_filled ht lclk),
    frameStart_control (f := f) (rest := rest) (by simpa using hb) (by simpa using hq), Option.getD_some, link_setLink_same,
    flitsOn_noScree (by simpa using hcad)]
  rfl

/-- A client's frame that its bucket holds is sealed whole, and debited. -/
theorem execFrameSeal_client {lclk i : Nat} {f : OutFrame} (ht : (link s p.val).transitq = [])
    (hq : (link s p.val).ctlq = []) (ho : (link s p.val).state = .opened) (hclosing : (link s p.val).closing = false)
    (hf : s.ridge.outq[i]? = some f) (hclient : f.client ≤ 32) (htrack : f.track = 0) (hcls : f.inner.cls ≠ clsSeam)
    (hcr : hasCredits (link s p.val) f.inner.cls f.flits = true) (hfits : flitsFor f.inner.payload.length ≤ f.flits)
    (hb : f.flits * 64 ≤ tget 0 (fillBuckets (link s p.val) lclk).buckets f.client) :
    execFrameSeal p lclk [i] s = .next (sealOut (beforeSeal (setLink s p.val (fillBuckets (link s p.val) lclk)) p.val
      ⟨i, f, f.flits, false⟩ true) p.val f.inner f.flits) := by
  have hos : offers (setLink s p.val (fillBuckets (link s p.val) lclk)) (fillBuckets (link s p.val) lclk) [i] =
      [⟨i, f, f.flits, false⟩] := by
    rw [offers_router (by simpa using ho) (by simpa using ht) (by simpa using hclosing) (by simpa using hf)
      (signalHeld_untracked htrack _), flitsOn_noScree (by simpa using hcad)]
  have hclient33 : f.client < 33 := by omega
  rw [execFrameSeal_starts hrdy hcur hcad lclk (allYoung_filled ht lclk),
    frameStart_oneOffer (o := ⟨i, f, f.flits, false⟩) (b := true) (by simpa using hq) (by simpa using hos) hclient33
      (by simp [fits, hfits]) (by simpa [hasCredits] using hcr)
      (choose_debited (o := ⟨i, f, f.flits, false⟩) hclient33 (by simpa using hb)),
    Option.getD_some, sealClient_whole (o := ⟨i, f, f.flits, false⟩) hfits (.inr ⟨hcls, htrack⟩)]

/-- The one transit frame of a port that is young enough is sealed, with a debit or without. -/
theorem execFrameSeal_transit {lclk : Nat} {h : Handed} (ht : (link s p.val).transitq = [h])
    (hq : (link s p.val).ctlq = []) (ho : (link s p.val).state = .opened) (hcls : h.t.inner.cls ≠ clsRange)
    (hage : handedAge (fillBuckets (link s p.val) lclk) h < 160)
    (hcr : hasCredits (link s p.val) h.t.inner.cls (flitsFor h.t.inner.payload.length) = true) : ∃ b,
    execFrameSeal p lclk [] s = .next (sealOut (beforeSeal (setLink s p.val (fillBuckets (link s p.val) lclk)) p.val
      ⟨0, handedFrame (fillBuckets (link s p.val) lclk) h, flitsFor h.t.inner.payload.length, true⟩ b) p.val
      (handedFrame (fillBuckets (link s p.val) lclk) h).inner (flitsFor h.t.inner.payload.length)) := by
  have hyoung : allYoung (fillBuckets (link s p.val) lclk) := by
    simpa [allYoung, ht] using hage
  generalize hL : fillBuckets (link s p.val) lclk = L
  have hclient : (handedFrame L h).client = 32 := by simp [handedFrame, hcls]
  have hos : offers (setLink s p.val L) L [] =
      [⟨0, handedFrame L h, flitsFor h.t.inner.payload.length, true⟩] := by
    rw [offers_transit (by simpa [← hL] using ho) (by simpa [← hL] using ht),
      flitsOn_noScree (by simpa [← hL] using hcad)]
    rfl
  obtain ⟨b, hchoose⟩ := choose_transit (s := setLink s p.val L) (l := L)
    (o := ⟨0, handedFrame L h, flitsFor h.t.inner.payload.length, true⟩) hclient
  refine ⟨b, ?_⟩
  rw [execFrameSeal_starts hrdy hcur hcad lclk hyoung, hL,
    frameStart_oneOffer (o := ⟨0, handedFrame L h, flitsFor h.t.inner.payload.length, true⟩) (b := b)
      (by simpa [← hL] using hq) (by simpa using hos) (by rw [hclient]; decide) (by simp [fits, handedFrame])
      (by simpa [hasCredits, handedFrame, ← hL] using hcr) (by simpa using hchoose),
    Option.getD_some, sealClient_whole (o := ⟨0, handedFrame L h, flitsFor h.t.inner.payload.length, true⟩)
      (by simp [handedFrame]) (.inl (by rw [hclient]))]

end

/-- What that leaves of the port. -/
theorem beforeControl_port (s : State) (n lclk : Nat) (rest : List OutFrame) :
    let l := link (beforeControl s n lclk rest) n
    l.txCur = (link s n).txCur ∧ l.txNext = (link s n).txNext ∧ l.txSeq = (link s n).txSeq ∧
    l.txFrames = (link s n).txFrames ∧ l.ctlq = rest ∧ l.ctlBucket = 0 ∧ l.state = (link s n).state ∧
    l.closing = (link s n).closing ∧ l.transitq = (link s n).transitq := by
  simp [beforeControl]

section
variable {s : State} {n : Nat} {k : SKey} (hcur : (link s n).txCur = some k) (hnext : (link s n).txNext = none)
include hcur hnext

/-- Filling the buckets takes nothing from what a port sends next. -/
theorem sealOut_filled (lclk : Nat) (i : Inner) (flits : Nat) :
    let e := sealOut (setLink s n (fillBuckets (link s n) lclk)) n i flits
    SentOne s e n k flits ∧ e.part = s.part ∧ e.ridge.outq = s.ridge.outq := by
  have hucur : (link (setLink s n (fillBuckets (link s n) lclk)) n).txCur = some k := by simpa using hcur
  have hunext : (link (setLink s n (fillBuckets (link s n) lclk)) n).txNext = none := by simpa using hnext
  exact ⟨(sealOut_sentOne hucur hunext i flits).before rfl (by simp) (by simp), sealOut_keeps hucur hunext i flits⟩

/-- The control frame is sealed under the port's current key and with its next number. -/
theorem sentOne_control (lclk : Nat) (rest : List OutFrame) (i : Inner) (flits : Nat) :
    SentOne s (sealOut (beforeControl s n lclk rest) n i flits) n k flits := by
  obtain ⟨hbcur, hbnext, hbseq, hbframes, -⟩ := beforeControl_port s n lclk rest
  exact (sealOut_sentOne (hbcur.trans hcur) (hbnext.trans hnext) i flits).before rfl hbseq hbframes

/-- What the seal of a control frame leaves. -/
theorem sealOut_control_keeps (lclk : Nat) (rest : List OutFrame) (i : Inner) (flits : Nat) :
    let e := sealOut (beforeControl s n lclk rest) n i flits
    (link e n).ctlq = rest ∧ (link e n).ctlBucket = 0 ∧ (link e n).state = (link s n).state ∧
    (link e n).closing = (link s n).closing ∧ (link e n).transitq = (link s n).transitq ∧ e.part = s.part ∧
    e.ridge.outq = s.ridge.outq := by
  obtain ⟨hbcur, hbnext, -, -, hctlq, hbucket, hstate, hclosing, htransit⟩ := beforeControl_port s n lclk rest
  obtain ⟨hpart, houtq⟩ := sealOut_keeps (hbcur.trans hcur) (hbnext.trans hnext) i flits
  have hlink := link_sealOut (hbcur.trans hcur) (hbnext.trans hnext) i flits
  dsimp only
  rw [hlink, hpart, houtq]
  exact ⟨hctlq, hbucket, hstate, hclosing, htransit, rfl, rfl⟩

section
variable {lclk : Nat} {u : State} {o : Offer1} {t : List Handed} {d : Pools} {b : Bool}
  (hlink : link u n = { servedPort (fillBuckets (link s n) lclk) o b with transitq := t, owed := d })
include hlink

/-- A client's frame is sealed under the port's current key and with its next number. -/
theorem sentOne_client (hout : u.out = s.out) (i : Inner) (flits : Nat) : SentOne s (sealOut u n i flits) n k flits :=
  (sealOut_sentOne (by simpa [hlink, servedPort] using hcur) (by simpa [hlink, servedPort] using hnext) i flits).before hout
    (by simp [hlink, servedPort]) (by simp [hlink, servedPort])

/-- What the seal of a client's frame leaves. -/
theorem sealOut_client_keeps (i : Inner) (flits : Nat) :
    let e := sealOut u n i flits
    (link e n).transitq = t ∧ (link e n).buckets = (servedPort (fillBuckets (link s n) lclk) o b).buckets ∧
    e.part = u.part ∧ e.ridge.outq = u.ridge.outq := by
  have hucur : (link u n).txCur = some k := by simpa [hlink, servedPort] using hcur
  have hunext : (link u n).txNext = none := by simpa [hlink, servedPort] using hnext
  have hport := link_sealOut hucur hunext i flits
  obtain ⟨hpart, houtq⟩ := sealOut_keeps hucur hunext i flits
  dsimp only
  rw [hport, hpart, houtq, hlink]
  exact ⟨rfl, rfl, rfl, rfl⟩

end

end

section
variable {s : State} {p : Port} (hrdy : s.boot.rdy = true) {k : SKey} (hcur : (link s p.val).txCur = some k)
  (hnext : (link s p.val).txNext = none)
include hrdy hcur hnext

/-- A scree slot to which nothing is offered. -/
theorem execScreeSlot_sends (hcad : (link s p.val).screeCad ≠ 0) (ht : (link s p.val).transitq = [])
    (hq : (link s p.val).ctlq = []) (hstate : (link s p.val).state ≠ .admitting) : ∃ e,
    execScreeSlot p [] s = .next e ∧ SentOne s e p.val k ((link s p.val).screeFM1 + 1) ∧ e.ridge.outq = s.ridge.outq ∧
    e.part = s.part := by
  have hnone : frameStart (setLink s p.val (fillBuckets (link s p.val) (screeGap (link s p.val)))) p.val [] = none :=
    frameStart_noOffer (by simpa using hq) (by rw [link_setLink_same]; exact offers_nil (by simpa using ht) _)
  obtain ⟨hsent, hpart, houtq⟩ :=
    sealOut_filled hcur hnext (screeGap (link s p.val)) (screeCell s p.val) ((link s p.val).screeFM1 + 1)
  exact ⟨_, execScreeSlot_cell hrdy hcur hcad hstate (allYoung_filled ht _) hnone, hsent, houtq, hpart⟩

variable (hcad : (link s p.val).screeCad = 0)
include hcad

section
variable {lclk : Nat} {f : OutFrame} {rest : List OutFrame} (ht : (link s p.val).transitq = [])
  (hq : (link s p.val).ctlq = f :: rest) (hb : 128 ≤ (link s p.val).ctlBucket + lclk) (offer : List Nat)
include ht hq hb

/-- The control frame at a frame start of a port that stays. -/
theorem execFrameSeal_sendsControl (hstays : (link s p.val).state ≠ .admitting ∨ (link s p.val).closing = false) : ∃ e,
    execFrameSeal p lclk offer s = .next e ∧ SentOne s e p.val k f.flits ∧ (link e p.val).ctlq = rest ∧
    (link e p.val).ctlBucket = 0 ∧ e.ridge.outq = s.ridge.outq ∧ e.part = s.part := by
  have hexec := execFrameSeal_control hrdy hcur hcad ht hq hb offer
  obtain ⟨hctlq, hbucket, hstate, hclosing, -, hpart, houtq⟩ := sealOut_control_keeps hcur hnext lclk rest f.inner f.flits
  rw [endClosed_stays (by rwa [hstate, hclosing])] at hexec
  exact ⟨_, hexec, sentOne_control hcur hnext .., hctlq, hbucket, houtq, hpart⟩

/-- The CTRL close of a joiner's ADMIT port. -/
theorem execFrameSeal_sendsClose (hadmit : (link s p.val).state = .admitting) (hclose : (link s p.val).closing = true)
    (hlast : rest = []) : ∃ e w, execFrameSeal p lclk offer s = .next e ∧ e.out = .frame p.val w :: s.out ∧
    (link e p.val).state = .off ∧ (link e p.val).txCur = none ∧ polClass (slot e 6).policy = 0 ∧ e.part = s.part := by
  have hexec := execFrameSeal_control hrdy hcur hcad ht hq hb offer
  obtain ⟨hctlq, -, hstate, hclosing, htransit, hpart, -⟩ := sealOut_control_keeps hcur hnext lclk rest f.inner f.flits
  obtain ⟨w, hout, -⟩ := sentOne_control hcur hnext lclk rest f.inner f.flits
  rw [endClosed_ends (hstate.trans hadmit) (hclosing.trans hclose) (hctlq.trans hlast) (htransit.trans ht)] at hexec
  refine ⟨_, w, hexec, ?_⟩
  simp [clearSlot, hout, hpart, dropSession, polClass, bits]

end

/-- The one frame that the router offers. -/
theorem execFrameSeal_sendsClient {lclk i : Nat} {f : OutFrame} (ht : (link s p.val).transitq = [])
    (hq : (link s p.val).ctlq = []) (ho : (link s p.val).state = .opened) (hclosing : (link s p.val).closing = false)
    (hf : s.ridge.outq[i]? = some f) (hclient : f.client ≤ 32) (htrack : f.track = 0) (hcls : f.inner.cls ≠ clsSeam)
    (hcr : hasCredits (link s p.val) f.inner.cls f.flits = true) (hfits : flitsFor f.inner.payload.length ≤ f.flits)
    (hb : f.flits * 64 ≤ tget 0 (fillBuckets (link s p.val) lclk).buckets f.client) : ∃ e,
    execFrameSeal p lclk [i] s = .next e ∧ SentOne s e p.val k f.flits ∧ e.ridge.outq = s.ridge.outq.eraseIdx i ∧
    tget 0 (link e p.val).buckets f.client =
      tget 0 (fillBuckets (link s p.val) lclk).buckets f.client - f.flits * 64 ∧ e.part = s.part := by
  have hexec := execFrameSeal_client hrdy hcur hcad ht hq ho hclosing hf hclient htrack hcls hcr hfits hb
  obtain ⟨⟨q, d, hlink⟩, hout, hpart, houtq⟩ :=
    beforeSeal_router (setLink s p.val (fillBuckets (link s p.val) lclk)) p.val i f f.flits true
  rw [link_setLink_same] at hlink
  simp only [setLink_frame] at hout hpart houtq
  obtain ⟨-, hbuckets, hepart, heoutq⟩ := sealOut_client_keeps hcur hnext hlink f.inner f.flits
  refine ⟨_, hexec, sentOne_client hcur hnext hlink hout .., heoutq.trans houtq, ?_, hepart.trans hpart⟩
  rw [hbuckets]
  exact tget_tset_same ..

/-- The one transit frame of the port's queue. -/
theorem execFrameSeal_sendsTransit {lclk : Nat} {h : Handed} (ht : (link s p.val).transitq = [h])
    (hq : (link s p.val).ctlq = []) (ho : (link s p.val).state = .opened) (hcls : h.t.inner.cls ≠ clsRange)
    (hage : handedAge (fillBuckets (link s p.val) lclk) h < 160)
    (hcr : hasCredits (link s p.val) h.t.inner.cls (flitsFor h.t.inner.payload.length) = true) : ∃ e,
    execFrameSeal p lclk [] s = .next e ∧ SentOne s e p.val k (flitsFor h.t.inner.payload.length) ∧
    (link e p.val).transitq = [] ∧ e.part = s.part := by
  obtain ⟨b, hexec⟩ := execFrameSeal_transit hrdy hcur hcad ht hq ho hcls hage hcr
  obtain ⟨⟨d, hlink⟩, hout, hpart⟩ := beforeSeal_transit (s := setLink s p.val (fillBuckets (link s p.val) lclk))
    (n := p.val) (by simpa using ht) (handedFrame (fillBuckets (link s p.val) lclk) h)
    (flitsFor h.t.inner.payload.length) b
  rw [link_setLink_same] at hlink
  simp only [setLink_frame] at hout hpart
  obtain ⟨htransit, -, hepart, -⟩ := sealOut_client_keeps hcur hnext hlink
    (handedFrame (fillBuckets (link s p.val) lclk) h).inner (flitsFor h.t.inner.payload.length)
  exact ⟨_, hexec, sentOne_client hcur hnext hlink hout .., htransit, hepart.trans hpart⟩

end

/-- Settles O38: each frame start by what the arbiter has to choose from, and transit by its age and its port. -/
theorem frameStartsSealInOrder : Obligations.FrameStartsSealInOrder := by
  intro s p n l sealed
  refine ⟨fun lclk offer h => execFrameSeal_idle h lclk offer, fun offer h => execScreeSlot_idle h offer,
    fun hrdy ht => ⟨fun lclk hcad hcur hq => ?_, fun lclk offer k f rest hcad hcur hnext hq hb =>
        ⟨execFrameSeal_sendsControl hrdy hcur hnext hcad ht hq hb offer,
          execFrameSeal_sendsClose hrdy hcur hnext hcad ht hq hb offer⟩,
      fun lclk i k f hcad hcur hnext hq ho hclosing hf hclient htrack hcls hcr hfits hbucket =>
        execFrameSeal_sendsClient hrdy hcur hnext hcad ht hq ho hclosing hf hclient htrack hcls hcr hfits hbucket,
      fun k hcad hcur hnext hq hstate => execScreeSlot_sends hrdy hcur hnext hcad ht hq hstate⟩,
    fun k hnext hdue => ?_, fun idx lclk t hr => ?_,
    fun lclk k h hrdy hcad hcur hnext hq ho ht hcls hage hcr =>
      execFrameSeal_sendsTransit hrdy hcur hnext hcad ht hq ho hcls hage hcr⟩
  · obtain ⟨k, hk⟩ := Option.isSome_iff_exists.mp hcur
    exact execFrameSeal_nothing hrdy hk hcad ht hq lclk
  · obtain ⟨q, c, hlink, hq⟩ := link_flip hnext hdue
    rw [hlink]
    exact ⟨rfl, rfl, rfl, rfl, hq⟩
  · have hopened : l.state = .opened → exec (.transitHandoff p idx lclk) s = _ := fun ho => execTransitHandoff_opened hr ho
    intro h owes
    refine ⟨fun hstate => ?_, fun ho hage => ?_, fun ho hage hclosing => ?_, fun ho hage hclosing => ?_⟩
    · obtain ⟨hrouter, hout, hpart, hctr, howed⟩ := discardTransit_keeps (fromRouter s idx) n t fun c =>
        { c with noroute := inc32 c.noroute }
      exact ⟨_, execTransitHandoff_noRoute hr hstate, ⟨hrouter, hout, hpart, howed⟩, hctr⟩
    · obtain ⟨hrouter, hout, hpart, hctr, howed⟩ := discardTransit_keeps (fromRouter s idx) n t fun c =>
        { c with aged := inc32 c.aged }
      exact ⟨_, (hopened ho).trans (if_pos hage), ⟨hrouter, hout, hpart, howed⟩, hctr⟩
    · exact ((hopened ho).trans (if_neg (Nat.not_le.mpr hage))).trans (if_pos hclosing)
    · exact ((hopened ho).trans (if_neg (Nat.not_le.mpr hage))).trans (if_neg (by rw [hclosing]; decide))

end Sys2Proof.Machine

/-! PROOFS. Function resets, host TLPs and scrub pulses (01 R14, 05 R124, 07 R203, R204, R212, R213, 11 R326, 15 R398 to
R402). -/

namespace Sys2Proof.Machine

/-! ## What a function reset reaches (R212, R227)

`FnView` is the part of the state on which the statements about a reset rest; each operation of the reset is described once
by what it does to that part. -/

/-- The part of the state that a function reset changes or must leave. -/
structure FnView where
  gens    : Tbl (BitVec 11)
  genWait : List (Nat × GenWhy)
  peers   : Tbl Peer
  fences  : Tbl Fence
  tdi     : Tbl TdiSt
  pot     : Tbl Pot
  windows : Tbl Window
  /-- HEAD, TAIL and the pre-advance counts of each ring. -/
  heads   : Nat → Nat × Nat × Tbl Nat

def ringHead (r : Ring) : Nat × Nat × Tbl Nat := (r.head, r.tail, r.pre)

def fnView (s : State) : FnView where
  gens := s.part.gens
  genWait := s.part.genWait
  peers := s.part.peers
  fences := s.part.fences
  tdi := s.part.tdi
  pot := s.mem.pot
  windows := s.cmd.windows
  heads := fun n => ringHead (ring s n)

theorem fnView_foldl {α : Type} (f : State → α → State) (h : ∀ s a, fnView (f s a) = fnView s) (l : List α)
    (s : State) : fnView (l.foldl f s) = fnView s := by
  induction l generalizing s with
  | nil => rfl
  | cons a l ih => exact (ih (f s a)).trans (h s a)

/-! ### Operations that leave it -/

/-- A ring written back with its HEAD, TAIL and counts leaves the view. -/
theorem fnView_setRing {s : State} {n : Nat} {x : Ring} (h : ringHead x = ringHead (ring s n)) :
    fnView (setRing s n x) = fnView s := by
  have hheads : (fun j => ringHead (ring (setRing s n x) j)) = fun j => ringHead (ring s j) := by
    funext j
    rw [ring_setRing]
    split
    · subst_vars
      exact h
    · rfl
  simp only [fnView, hheads, setRing_frame]

theorem fnView_sendTlp (s : State) (fn : Nat) (sub : Fin 3) (addr : Nat) (b : Bytes) :
    fnView (sendTlp s fn sub addr b) = fnView s := by
  obtain ⟨u, o, h⟩ := sendTlp_frame s fn sub addr b
  rw [h]
  rfl

theorem fnView_passOwn (s : State) (pid off len : Nat) (write rt : Bool) :
    fnView (passOwn s pid off len write rt) = fnView s := by
  obtain ⟨-, m, x, h⟩ := passOwn_only s pid off len write rt
  rw [h]
  rfl

theorem fnView_ringWrite (s : State) (n : Nat) (host : Bool) (addr : Nat) (b : Bytes) :
    fnView (ringWrite s n host addr b) = fnView s := by
  unfold ringWrite
  split
  · exact fnView_sendTlp ..
  · exact fnView_passOwn ..

theorem fnView_raiseVec (s : State) (fn vec : Nat) : fnView (raiseVec s fn vec) = fnView s := by
  unfold raiseVec
  dsimp only
  split
  · exact fnView_sendTlp ..
  · rfl

theorem fnView_putEvent (s : State) (fn : Nat) (w : BitVec 128) : fnView (putEvent s fn w) = fnView s := by
  unfold putEvent
  dsimp only
  split
  · exact fnView_ringWrite ..
  · rfl

theorem fnView_postEvent (s : State) (fn : Nat) (w : BitVec 128) : fnView (postEvent s fn w) = fnView s := by
  unfold postEvent
  dsimp only
  split
  · exact (fnView_raiseVec ..).trans (fnView_putEvent ..)
  · exact fnView_putEvent ..

theorem fnView_postBoth (s : State) (pid type : Nat) (b0 : BitVec 32) (b8 b15 : Nat) :
    fnView (postBoth s pid type b0 b8 b15) = fnView s := by
  have hoper : ∀ t : State, fnView (postOperator t pid type b0 b8 b15) = fnView t := fun t => by
    unfold postOperator
    split <;> exact fnView_postEvent ..
  unfold postBoth
  dsimp only
  rw [hoper]
  split
  · rfl
  · exact fnView_postEvent ..

theorem fnView_lessInflight (s : State) (n : Nat) : fnView (lessInflight s n) = fnView s := fnView_setRing rfl

theorem fnView_ringFault (s : State) (n : Nat) : fnView (ringFault s n) = fnView s :=
  (fnView_postEvent ..).trans (fnView_setRing rfl)

theorem fnView_replyWrite (s : State) (t : Ticket) (b : Bytes) : fnView (replyWrite s t b) = fnView s := by
  unfold replyWrite
  split
  · rfl
  · exact fnView_ringWrite ..

theorem fnView_pushRange (s : State) (dst via : Nat) (b : Bytes) : fnView (pushRange s dst via b) = fnView s := by
  unfold pushRange push
  dsimp only
  split <;> rfl

/-- A reply writes what its ring and its event ring are for, and counts. -/
theorem fnView_finish (s : State) (t : Ticket) (st : Status) (r : BitVec 192) : fnView (finish s t st r) = fnView s := by
  unfold finish finishWith
  dsimp only
  generalize hu : (if (t.opcode == 0x73 && st != .ok) = true then
    { s with keys := { s.keys with dbgDeny := inc32 s.keys.dbgDeny } } else s) = u
  have hcounted : fnView u = fnView s := by
    rw [← hu]
    split <;> rfl
  have hless : fnView (lessInflight u t.ring) = fnView s := (fnView_lessInflight ..).trans hcounted
  split
  · exact (fnView_pushRange ..).trans hless
  · split
    · exact hless
    · have hreply : ∀ (c : Bool) (b : Bytes) (o : Out), fnView (if c = true then
          emit (replyWrite (lessInflight u t.ring) t b) o else ringFault (lessInflight u t.ring) t.ring) = fnView s := by
        intro c b o
        split
        · exact (fnView_replyWrite ..).trans hless
        · exact (fnView_ringFault ..).trans hless
      split
      · exact (fnView_postEvent ..).trans (hreply ..)
      · exact hreply ..

theorem fnView_setWaits (s : State) (l : List Wait) :
    fnView { s with cmd := { s.cmd with waits := l } } = fnView s := rfl

theorem fnView_finishWaits (s : State) (p : Wait → Bool) (st : Status) (r : BitVec 192) :
    fnView (finishWaits s p st r) = fnView s := by
  unfold finishWaits
  dsimp only
  rw [fnView_foldl (fun s (w : Wait) => finish s w.tkt st r) (fun s w => fnView_finish s w.tkt st r), fnView_setWaits]

theorem fnView_countStopped (s : State) (i : Nat) : fnView (countStopped s i) = fnView s := by
  unfold countStopped
  dsimp only
  split
  · split <;> rfl
  · rfl

theorem fnView_setCtx (s : State) (i : Nat) (c : Ctx) : fnView (setCtx s i c) = fnView s := rfl

theorem fnView_setPart (s : State) (pid : Nat) (p : Part) : fnView (setPart s pid p) = fnView s := rfl

theorem fnView_partCtr (s : State) (f : PartCtr → PartCtr) : fnView (partCtr s f) = fnView s := rfl

theorem fnView_dropHeld (s : State) (i : Nat) (h : BitVec 32) (p : HeldSignal → Bool) :
    fnView (dropSignals (dropTracked (unbindDma s i) h) p) = fnView s := rfl

/-- Losing a context reaches neither the fences nor the generations. -/
theorem fnView_loseCtx (s : State) (i : Nat) (f : CtxFault) : fnView (loseCtx s i f) = fnView s := by
  unfold loseCtx
  dsimp only
  split
  · rfl
  · rw [fnView_postBoth, fnView_finishWaits, fnView_partCtr, fnView_setPart, fnView_setCtx, fnView_dropHeld]
    have hstop : fnView (if ((ctx s i).phase == .none) = true then countStopped s i
        else emit (countStopped s i) (.schedStop i)) = fnView s := by
      split
      · exact fnView_countStopped s i
      · exact fnView_countStopped s i
    exact hstop

theorem fnView_losePid (s : State) (pid : Nat) (f : CtxFault) : fnView (losePid s pid f) = fnView s :=
  fnView_foldl _ (fun s i => fnView_loseCtx s i f) _ s

theorem fnView_clearSlot (s : State) (i : Nat) : fnView (clearSlot s i) = fnView s := rfl

theorem fnView_muteRing (s : State) (n : Nat) : fnView (muteRing s n) = fnView s := rfl

/-- The Iron contexts of a PID have no part in it. -/
theorem fnView_ironReset (s : State) (pid : Nat) : fnView (ironReset s pid) = fnView s := rfl

/-- Nor have the weight bundles and their streams. -/
theorem fnView_setWb (s : State) (w : WbState) : fnView { s with wb := w } = fnView s := rfl

theorem fnView_endStreams (s : State) (f : WbStream → Bool) (st : Status) : fnView (endStreams s f st) = fnView s := by
  unfold endStreams
  dsimp only
  rw [fnView_foldl (fun s (x : WbStream) => finishWaits s (waitNum x.num) st)
    (fun s x => fnView_finishWaits s (waitNum x.num) st 0), fnView_setWb]

theorem fnView_setBundle (s : State) (pid i : Nat) (b : Bundle) : fnView (setBundle s pid i b) = fnView s := rfl

theorem fnView_revokeBundle (s : State) (pid i : Nat) : fnView (revokeBundle s pid i) = fnView s := by
  have hslot : fnView (if ((bundle s pid i).slot == 0) = true then s else clearSlot s (bundle s pid i).slot) = fnView s := by
    split <;> rfl
  unfold revokeBundle
  dsimp only
  generalize hu : endStreams _ _ _ = u
  have hended : fnView u = fnView s := by
    rw [← hu, fnView_endStreams, fnView_setBundle, hslot]
  clear hu
  split
  · exact hended
  · split
    · exact hended
    · rw [fnView_setWb, fnView_clearSlot, hended]

theorem fnView_wbReset (s : State) (pid : Nat) : fnView (wbReset s pid) = fnView s := by
  unfold wbReset
  generalize hu : endStreams s _ _ = u
  rw [pendingRevokes, fnView_foldl, ← hu, fnView_endStreams]
  intro t w
  split
  · rw [fnView_finishWaits, fnView_revokeBundle]
  · rfl

/-! ### Operations of the reset itself -/

theorem fnView_emptyRing (s : State) (n : Nat) :
    fnView (emptyRing s n) = { fnView s with heads := Function.update (fnView s).heads n (0, 0, []) } := by
  have hheads : (fun j => ringHead (ring (emptyRing s n) j)) = Function.update (fnView s).heads n (0, 0, []) := by
    funext j
    rw [emptyRing, ring_setRing, apply_ite ringHead, Function.update_apply]
    rfl
  rw [← hheads]
  rfl

theorem fnView_clearWindow (s : State) (n : Nat) :
    fnView (clearWindow s n) = { fnView s with windows := tset {} (fnView s).windows n {} } := rfl

theorem fnView_askAdvance (s : State) (n : Nat) (w : GenWhy) :
    fnView (askAdvance s n w) = { fnView s with genWait := (fnView s).genWait ++ [(n, w)] } := rfl

theorem fnView_withdrawKill (s : State) (n : Nat) : ∃ l, fnView (withdrawKill s n) = { fnView s with genWait := l } :=
  ⟨_, rfl⟩

theorem fnView_clearIde (s : State) (k : Nat) : fnView (clearIde s k) = fnView s :=
  fnView_foldl clearSlot fnView_clearSlot _ s

/-- A TDI that leaves its stream is written alone. -/
theorem fnView_releaseTdi (s : State) (n : Nat) (st : Tdi) :
    fnView (releaseTdi s n st) = { fnView s with tdi := tset {} (fnView s).tdi n { state := st } } := by
  unfold releaseTdi
  dsimp only
  split
  · split
    · exact fnView_clearIde ..
    · rfl
  · rfl

/-- What a function reset does to its view: the advance asked for, ring and window emptied, the TDI released. -/
theorem fnView_resetFn (s : State) (n : Nat) (st : Tdi) : ∃ l, fnView (resetFn s n st) = { fnView s with
    genWait := l ++ [(n, .reset)], heads := Function.update (fnView s).heads n (0, 0, [])
    windows := tset {} (fnView s).windows n {}, tdi := tset {} (fnView s).tdi n { state := st } } := by
  obtain ⟨l, hkill⟩ := fnView_withdrawKill s n
  refine ⟨l, ?_⟩
  rw [resetFn, fnView_wbReset, fnView_ironReset, fnView_releaseTdi, fnView_clearWindow, fnView_emptyRing, fnView_muteRing,
    fnView_losePid, fnView_askAdvance, fnView_finishWaits, hkill]

section
variable (s : State) (n : Nat) (st : Tdi)

theorem resetFn_asks : (n, GenWhy.reset) ∈ (resetFn s n st).part.genWait := by
  obtain ⟨l, h⟩ := fnView_resetFn s n st
  generalize resetFn s n st = u at h ⊢
  have hwait : u.part.genWait = l ++ [(n, .reset)] := congrArg FnView.genWait h
  rw [hwait]
  exact List.mem_append_right l (List.mem_singleton.2 rfl)

theorem tdi_resetFn : (tdi (resetFn s n st) n).state = st := by
  obtain ⟨l, h⟩ := fnView_resetFn s n st
  generalize resetFn s n st = u at h ⊢
  have htdi : u.part.tdi = tset {} s.part.tdi n { state := st } := congrArg FnView.tdi h
  rw [tdi, htdi, tget_tset_same]

/-- The ring and the window of the function are empty. -/
theorem resetFn_empties : (ring (resetFn s n st) n).head = 0 ∧ (ring (resetFn s n st) n).tail = 0 ∧
    (ring (resetFn s n st) n).pre = [] ∧ window (resetFn s n st) n = {} := by
  obtain ⟨l, h⟩ := fnView_resetFn s n st
  generalize resetFn s n st = u at h ⊢
  have hhead : ringHead (ring u n) = (0, 0, []) :=
    (congrFun (congrArg FnView.heads h) n).trans (Function.update_self n _ _)
  have hwindow : u.cmd.windows = tset {} s.cmd.windows n {} := congrArg FnView.windows h
  simp only [ringHead, Prod.mk.injEq] at hhead
  obtain ⟨hhead, htail, hpre⟩ := hhead
  exact ⟨hhead, htail, hpre, by rw [window, hwindow, tget_tset_same]⟩

/-- Its pages, peers, fences and generation stay until the advance. -/
theorem resetFn_keeps : (resetFn s n st).part.gens = s.part.gens ∧ (resetFn s n st).mem.pot = s.mem.pot ∧
    (resetFn s n st).part.peers = s.part.peers ∧ (resetFn s n st).part.fences = s.part.fences := by
  obtain ⟨l, h⟩ := fnView_resetFn s n st
  generalize resetFn s n st = u at h ⊢
  have hgens : u.part.gens = s.part.gens := congrArg FnView.gens h
  have hpot : u.mem.pot = s.mem.pot := congrArg FnView.pot h
  have hpeers : u.part.peers = s.part.peers := congrArg FnView.peers h
  have hfences : u.part.fences = s.part.fences := congrArg FnView.fences h
  exact ⟨hgens, hpot, hpeers, hfences⟩

end

/-! ## Host TLPs (R14, R124, R203, R204, R213) -/

section
variable {s : State} {t : Tlp} {i : IdeTlp}

/-- The host IDE engine takes the TLP: the slot of its key holds, and the key opens it. -/
def Opened (s : State) (t : Tlp) (i : IdeTlp) : Prop := ideBad s t i = none ∧ ideOpens s t i = true

/-- A TLP of no stream is not sealed. -/
theorem opened_plain (h : t.stream = none) : Opened s t i := by
  constructor
  · simp only [ideBad, h]
  · simp only [ideOpens, h]

theorem ideTaken_plain (h : t.stream = none) : ideTaken s t i = s := by
  simp only [ideTaken, h]

theorem ideTaken_stream {k : Fin 17} (h : t.stream = some k) : ideTaken s t i = ideCount s k.val ⟨i.sub, false⟩ := by
  simp only [ideTaken, h]

theorem ideBad_stream {k : Fin 17} {j : Nat} (h : t.stream = some k) (hslot : ideSlot s k.val ⟨i.sub, false⟩ = some j)
    (hgood : slotDead s j = false) : ideBad s t i = none := by
  simp [ideBad, h, hslot, readBad, hgood]

theorem opened_stream {k : Fin 17} {j : Nat} {key : Key} (h : t.stream = some k)
    (hslot : ideSlot s k.val ⟨i.sub, false⟩ = some j) (hgood : slotDead s j = false)
    (hkey : ideInUse s k.val ⟨i.sub, false⟩ = some key)
    (hmac : i.mac = Config.ideMac key i.sub.val (ideUsed s k.val ⟨i.sub, false⟩) i.bytes)
    (hseal : i.bytes = Config.ideSeal key i.sub.val (ideUsed s k.val ⟨i.sub, false⟩) (Config.tlpIn t)) : Opened s t i := by
  refine ⟨ideBad_stream h hslot hgood, ?_⟩
  simp only [ideOpens, h, hkey, Bool.and_eq_true, beq_iff_eq]
  exact ⟨hmac, hseal⟩

/-- Without a key in use, or where the key in use does not open it, the TLP goes. -/
theorem execHostTlp_unopened (hslot : ideBad s t i = none) (h : ideOpens s t i = false) :
    execHostTlp t i s = .next (emit s (.tlpDrop t.fn.val)) := by
  simp only [execHostTlp, hslot, h, Bool.not_false, if_true]

/-! ### An opened TLP, by its kind -/

theorem execHostTlp_completion {g : BitVec 11} (h : Opened s t i) (hsound : tlpFaults (ideTaken s t i) t = false)
    (hg : t.cpl = some g) : execHostTlp t i s = .next (tlpCompletion (ideTaken s t i) t g) := by
  obtain ⟨hslot, hopen⟩ := h
  simp only [execHostTlp, hslot, hopen, hsound, hg, Bool.not_true, Bool.false_eq_true, if_false]

theorem execHostTlp_read {a len : Nat} (h : Opened s t i) (hsound : tlpFaults (ideTaken s t i) t = false)
    (hg : t.cpl = none) (hr : t.reg = some (a, len)) : execHostTlp t i s = .next (tlpRead (ideTaken s t i) t a len) := by
  obtain ⟨hslot, hopen⟩ := h
  simp only [execHostTlp, hslot, hopen, hsound, hg, hr, Bool.not_true, Bool.false_eq_true, if_false]

theorem execHostTlp_request (h : Opened s t i) (hsound : tlpFaults (ideTaken s t i) t = false) (hg : t.cpl = none)
    (hr : t.reg = none) : execHostTlp t i s = .next (tlpRequested (ideTaken s t i) t) := by
  obtain ⟨hslot, hopen⟩ := h
  simp only [execHostTlp, hslot, hopen, hsound, hg, hr, Bool.not_true, Bool.false_eq_true, if_false]

theorem execHostTlp_fault (h : Opened s t i) (hfault : tlpFaults (ideTaken s t i) t = true) (hg : t.cpl = none)
    (hr : t.reg = none) :
    execHostTlp t i s = .next (tlpRequested (tdiFault (ideTaken s t i) t.fn.val) t) := by
  obtain ⟨hslot, hopen⟩ := h
  simp only [execHostTlp, hslot, hopen, hfault, hg, hr, Bool.not_true, Bool.false_eq_true, if_false, if_true]

/-! ### What a TLP is to its TDI -/

theorem tlpFaults_unlocked (h : (tdi s t.fn.val).state = .unlocked) : tlpFaults s t = false := by
  simp [tlpFaults, h]

/-- Off the streams, only a configuration write faults a TDI. -/
theorem tlpFaults_plain (h : t.stream = none) (hcfg : t.cfg = false) : tlpFaults s t = false := by
  simp [tlpFaults, h, hcfg]

theorem tlpFaults_tbit (ht : t.tbit = true) (hcfg : t.cfg = false) : tlpFaults s t = false := by
  simp [tlpFaults, ht, hcfg]

theorem tdiFault_run {n : Nat} (h : (tdi s n).state = .run) : tdiFault s n = resetFn s n .error := by
  simp [tdiFault, h]

/-- A TLP of no stream belongs to a function whose TDI is not in RUN. -/
theorem streamFits_plain (h : t.stream = none) (hstate : (tdi s t.fn.val).state = .unlocked) : streamFits s t = true := by
  simp [streamFits, h, hstate, tenantStream]

theorem streamFits_run_plain (h : t.stream = none) (hfn : t.fn ≠ 0) (hrun : (tdi s t.fn.val).state = .run) :
    streamFits s t = false := by
  simp [streamFits, h, hrun, hfn]

theorem streamFits_bound {k : Fin 17} (h : t.stream = some k) (hfn : t.fn ≠ 0) (hrun : (tdi s t.fn.val).state = .run)
    (hbound : (tdi s t.fn.val).stream = some k.val) (ht : t.tbit = true) : streamFits s t = true := by
  simp [streamFits, h, hrun, hfn, hbound, ht]

theorem streamFits_foreign {k : Fin 17} (h : t.stream = some k) (hstate : (tdi s t.fn.val).state = .unlocked)
    (htenant : tenantStream s (some k.val) = true) : streamFits s t = false := by
  simp [streamFits, h, hstate, htenant]

theorem stampOf_unfit (h : streamFits s t = false) : stampOf s t = none := by
  simp [stampOf, h]

theorem stampOf_inactive (hfn : t.fn.val ≠ 0) (h : active s t.fn.val = false) : stampOf s t = none := by
  simp [stampOf, h, hfn]

theorem stampOf_run (hfn : t.fn.val ≠ 0) (hfits : streamFits s t = true) (hact : active s t.fn.val = true)
    (hrun : (tdi s t.fn.val).state = .run) : stampOf s t = some t.fn.val := by
  simp [stampOf, hfits, hact, hrun, hfn]

theorem stampOf_zero (hfn : t.fn.val = 0) (hfits : streamFits s t = true) : stampOf s t = some 0 := by
  simp [stampOf, hfits, hfn]

/-! ### Requests and completions that have been opened -/

theorem tlpCompletion_stale {g : BitVec 11} (hfn : t.fn.val ≠ 0) (hold : g ≠ curGen s t.fn.val) :
    tlpCompletion s t g = emit s (.tlpDrop t.fn.val) := by
  simp [tlpCompletion, hfn, hold]

theorem tlpCompletion_current {g : BitVec 11} (hcur : g = curGen s t.fn.val) (hfits : streamFits s t = true) :
    tlpCompletion s t g = emit s (.tlp t.fn.val t.fn.val) := by
  simp [tlpCompletion, hcur, hfits]

theorem tlpRequested_unstamped (h : stampOf s t = none) :
    tlpRequested s t = emit s (if t.toMem = true then .tlpUr t.fn.val else .tlpDrop t.fn.val) := by
  simp only [tlpRequested, h]

theorem tlpRequested_memory {pid : Nat} (h : stampOf s t = some pid) (hmem : t.toMem = true) :
    tlpRequested s t = tlpRequest (emit s (.tlp t.fn.val pid)) t pid := by
  simp only [tlpRequested, h, hmem, if_true]

theorem tlpAssoc_none (h : t.assoc = none ∨ t.fn ≠ 0) : tlpAssoc s t = s := by
  unfold tlpAssoc
  split
  · rename_i heq
    have hfn : t.fn ≠ 0 := h.resolve_left (by simp [heq])
    simp [hfn]
  · rfl

theorem tlpRequested_plain {pid : Nat} (h : stampOf s t = some pid) (hmem : t.toMem = false)
    (hassoc : t.assoc = none ∨ t.fn ≠ 0) : tlpRequested s t = emit s (.tlp t.fn.val pid) := by
  simp only [tlpRequested, h, hmem, Bool.false_eq_true, if_false]
  exact tlpAssoc_none hassoc

/-- A TLP that reaches neither device memory nor an association register is only reported. -/
theorem tlpRequested_reported (hmem : t.toMem = false) (hfn : t.fn ≠ 0) : ∃ o, tlpRequested s t = emit s o := by
  rcases hstamp : stampOf s t with _ | pid
  · exact ⟨_, tlpRequested_unstamped hstamp⟩
  · exact ⟨_, tlpRequested_plain hstamp hmem (.inr hfn)⟩

/-- A TLP that faults its TDI in RUN leaves it in ERROR, with the advance of its PID asked for. -/
theorem execHostTlp_takes_tdi_to_error (h : Opened s t i) (hfault : tlpFaults (ideTaken s t i) t = true)
    (hg : t.cpl = none) (hr : t.reg = none) (hmem : t.toMem = false) (hfn : t.fn ≠ 0)
    (hrun : (tdi (ideTaken s t i) t.fn.val).state = .run) :
    ∃ x, execHostTlp t i s = .next x ∧ (tdi x t.fn.val).state = .error ∧ (t.fn.val, .reset) ∈ x.part.genWait := by
  rw [execHostTlp_fault h hfault hg hr, tdiFault_run hrun]
  generalize ideTaken s t i = u
  have herror := tdi_resetFn u t.fn.val .error
  have hasked := resetFn_asks u t.fn.val .error
  generalize resetFn u t.fn.val .error = v at herror hasked ⊢
  obtain ⟨o, hreported⟩ := tlpRequested_reported (s := v) hmem hfn
  exact ⟨emit v o, by rw [hreported], herror, hasked⟩

end

/-! ## Register reads of the host (R398 to R402) -/

/-- Bytes cut from zeros are zeros. -/
theorem slice_of_zero {b : Bytes} (h : ∀ x ∈ b, x = 0) (off n : Nat) : slice b off n = zeros n := by
  have htake : (b.drop off).take n = zeros ((b.drop off).take n).length :=
    List.eq_replicate_iff.2 ⟨rfl, fun x hx => h x (List.mem_of_mem_drop (List.mem_of_mem_take hx))⟩
  have hlen : ((b.drop off).take n).length ≤ n := List.length_take_le ..
  unfold slice
  dsimp only
  generalize (b.drop off).take n = l at htake hlen ⊢
  rw [htake, zeros, zeros, zeros, List.replicate_append_replicate, List.length_replicate, Nat.add_sub_cancel' hlen]

theorem mem_leBytes_zero (n : Nat) : ∀ x ∈ leBytes n 0, x = 0 := by
  induction n with
  | zero => simp [leBytes]
  | succ n ih => simpa [leBytes] using ih

/-- The Reserved part of the window shows zeros, and a read of it takes nothing. -/
theorem readPage_rest (s : State) (off len : Nat) : readPage s .rest off len = emit s (.regRead off (zeros len)) := by
  have hload : ∀ ws : List Nat, ws.foldl (loadRead .rest) s = s := fun ws => by
    induction ws with
    | nil => rfl
    | cons w ws ih => exact ih
  have htake : ∀ ws : List Nat, ws.foldl (takeShown .rest) s = s := fun ws => by
    induction ws with
    | nil => rfl
    | cons w ws ih => exact ih
  have hzero : ∀ x ∈ (readWords off len).flatMap fun _ => leBytes 4 0, x = 0 := fun x hx => by
    obtain ⟨w, -, hw⟩ := List.mem_flatMap.1 hx
    exact mem_leBytes_zero 4 x hw
  simp only [readPage, hload, htake, pageWord, slice_of_zero hzero]

/-- A read of a page leaves the partitions and TDIs as they are. -/
theorem readPage_part (s : State) (pg : Page) (off len : Nat) : (readPage s pg off len).part = s.part := by
  have hload : ∀ (ws : List Nat) (u : State), (ws.foldl (loadRead pg) u).part = u.part := fun ws => by
    induction ws with
    | nil => exact fun _ => rfl
    | cons w ws ih =>
      intro u
      have hone : (loadRead pg u w).part = u.part := by
        unfold loadRead sampleSeq
        split
        · split <;> rfl
        · split <;> rfl
      exact (ih _).trans hone
  have htake : ∀ (ws : List Nat) (u : State), (ws.foldl (takeShown pg) u).part = u.part := fun ws => by
    induction ws with
    | nil => exact fun _ => rfl
    | cons w ws ih =>
      intro u
      have hone : (takeShown pg u w).part = u.part := by
        unfold takeShown
        dsimp only
        split <;> rfl
      exact (ih _).trans hone
  exact (htake _ _).trans (hload _ _)

theorem outStream_unlocked {s : State} {n : Nat} (h : (tdi s n).state = .unlocked) : outStream s n = none := by
  simp [outStream, h]

/-- Off the streams the data of a read leaves plain. -/
theorem tlpReads_plain {s : State} {t : Tlp} (h : (tdi s t.fn.val).state = .unlocked) : tlpReads t s = s := by
  unfold tlpReads
  split
  · exact sendTlp_plain (outStream_unlocked h) ..
  · rfl

/-- The physical function's BAR0 holds no tenant page. -/
theorem barPlace_zero {a off : Nat} {pg : Page} (h : barPlace 0 a = some (pg, off)) :
    pg = .operator ∨ pg = .tarn ∨ pg = .rest := by
  simp only [barPlace] at h
  grind

section
variable {s : State} {t : Tlp}

/-- Off the streams the physical function reads each of its pages. -/
theorem admitAcc_zero (hstream : t.stream = none) (hfn : t.fn = 0) {pg : Page}
    (hpg : pg = .operator ∨ pg = .tarn ∨ pg = .rest) :
    admitAcc s { mport := 0xC0, pid := t.fn, tbit := t.tbit, stream := t.stream } pg = .yes := by
  rcases hpg with rfl | rfl | rfl <;> simp [admitAcc, plainAcc, tenantStream, hstream, hfn]

theorem admitAcc_inactive (hfn : t.fn ≠ 0) (h : active s t.fn.val = false) :
    admitAcc s { mport := 0xC0, pid := t.fn, tbit := t.tbit, stream := t.stream } (.tenant t.fn) = .no := by
  simp [admitAcc, hfn, h]

theorem admitAcc_tenant (hstream : t.stream = none) (hfn : t.fn ≠ 0) (h : active s t.fn.val = true)
    (hopen : (part s t.fn.val).conf = false) :
    admitAcc s { mport := 0xC0, pid := t.fn, tbit := t.tbit, stream := t.stream } (.tenant t.fn) = .yes := by
  simp [admitAcc, plainAcc, tenantStream, hfn, h, hopen, hstream]

theorem barPlace_tenant {fn : Pid} (hfn : fn ≠ 0) {a : Nat} (ha : a < 0x1000) : barPlace fn a = some (.tenant fn, a) := by
  simp [barPlace, hfn, ha]

theorem tlpRead_outside {a : Nat} (h : barPlace t.fn a = none) (len : Nat) : tlpRead s t a len = s := by
  simp only [tlpRead, h]

theorem tlpRead_shown {a off : Nat} {pg : Page} (hplace : barPlace t.fn a = some (pg, off))
    (hadmit : admitAcc s { mport := 0xC0, pid := t.fn, tbit := t.tbit, stream := t.stream } pg = .yes)
    (htdi : (tdi s t.fn.val).state = .unlocked) (len : Nat) : tlpRead s t a len = readPage s pg off len := by
  have hkept : (tdi (readPage s pg off len) t.fn.val).state = .unlocked := by
    rw [tdi, readPage_part]
    exact htdi
  simp only [tlpRead, hplace, hadmit]
  exact tlpReads_plain hkept

theorem tlpRead_hidden {a off : Nat} {pg : Page} (hplace : barPlace t.fn a = some (pg, off))
    (hadmit : admitAcc s { mport := 0xC0, pid := t.fn, tbit := t.tbit, stream := t.stream } pg = .no)
    (htdi : (tdi s t.fn.val).state = .unlocked) (len : Nat) :
    tlpRead s t a len = emit s (.regRead off (zeros len)) := by
  simp only [tlpRead, hplace, hadmit]
  exact tlpReads_plain htdi

end

/-! ## Scrub pulses (R326) -/

section
variable {s : State} {tile : Fin 288}

theorem execTileScrubDone_unheld (h : tileOwner s tile.val = 0) : ∃ x, execTileScrubDone tile s = .next x ∧
    x.part.scrubbed = s.part.scrubbed ||| tileBit tile.val ∧
    x.part.scrubAt = tset 0 s.part.scrubAt tile.val s.tarn.now ∧ x.part.parts = s.part.parts := by
  simp only [execTileScrubDone, h, bne_self_eq_false, Bool.false_eq_true, if_false]
  exact ⟨_, rfl, rfl, rfl, rfl⟩

theorem execTileScrubDone_held (h : tileOwner s tile.val ≠ 0) : ∃ x, execTileScrubDone tile s = .next x ∧
    x.part.scrubbed = s.part.scrubbed ∧
    x.part.scrubSeq = tset 0 s.part.scrubSeq tile.val (inc32 (tget 0 s.part.scrubSeq tile.val)) := by
  simp only [execTileScrubDone, bne_iff_ne.2 h, if_true]
  exact ⟨_, rfl, rfl, rfl⟩

end

/-! ## The clauses of the statement -/

section
variable {s : State} {t : Tlp} {i : IdeTlp}

theorem execVfFlr_resets {vf : Pid} (h : vf.val ≠ 0) : execVfFlr vf s = .next (resetFn s vf.val .unlocked) := by
  simp [execVfFlr, h]

/-- A completion that comes by no stream (R213). -/
theorem hostTlp_completion_plain {g : BitVec 11} (hstream : t.stream = none) (hg : t.cpl = some g)
    (hstate : (tdi s t.fn.val).state = .unlocked) : execHostTlp t i s = .next (tlpCompletion s t g) := by
  have htaken : ideTaken s t i = s := ideTaken_plain hstream
  rw [execHostTlp_completion (opened_plain hstream) (by rw [htaken]; exact tlpFaults_unlocked hstate) hg, htaken]

/-- A request that comes by no stream (R124). -/
theorem hostTlp_request_plain (hstream : t.stream = none) (hg : t.cpl = none) (hr : t.reg = none)
    (hsound : tlpFaults s t = false) : execHostTlp t i s = .next (tlpRequested s t) := by
  have htaken : ideTaken s t i = s := ideTaken_plain hstream
  rw [execHostTlp_request (opened_plain hstream) (by rw [htaken]; exact hsound) hg hr, htaken]

/-- A read of a register page that comes by no stream. -/
theorem hostTlp_read_plain {a len : Nat} (hstream : t.stream = none) (hg : t.cpl = none) (hr : t.reg = some (a, len))
    (hstate : (tdi s t.fn.val).state = .unlocked) : execHostTlp t i s = .next (tlpRead s t a len) := by
  have htaken : ideTaken s t i = s := ideTaken_plain hstream
  rw [execHostTlp_read (opened_plain hstream) (by rw [htaken]; exact tlpFaults_unlocked hstate) hg hr, htaken]

/-- A TLP that the key in use does not open is discarded. -/
theorem hostTlp_unopened {k : Fin 17} {j : Nat} {key : Key} (hstream : t.stream = some k)
    (hslot : ideSlot s k.val ⟨i.sub, false⟩ = some j) (hgood : slotDead s j = false)
    (hkey : ideInUse s k.val ⟨i.sub, false⟩ = some key)
    (hbad : i.mac ≠ Config.ideMac key i.sub.val (ideUsed s k.val ⟨i.sub, false⟩) i.bytes ∨
      i.bytes ≠ Config.ideSeal key i.sub.val (ideUsed s k.val ⟨i.sub, false⟩) (Config.tlpIn t)) :
    execHostTlp t i s = .next (emit s (.tlpDrop t.fn.val)) := by
  refine execHostTlp_unopened (ideBad_stream hstream hslot hgood) ?_
  simp only [ideOpens, hstream, hkey, Bool.and_eq_false_iff, beq_eq_false_iff_ne]
  exact hbad

theorem hostTlp_no_key {k : Fin 17} (hstream : t.stream = some k) (hslot : ideSlot s k.val ⟨i.sub, false⟩ = none) :
    execHostTlp t i s = .next (emit s (.tlpDrop t.fn.val)) := by
  refine execHostTlp_unopened ?_ ?_
  · simp [ideBad, hstream, hslot]
  · simp [ideOpens, hstream, ideInUse, hslot]

/-! ### On the stream of its TDI in RUN -/

/-- What a TLP that its stream's key opens is to a TDI in RUN that the stream is bound to. -/
structure OnItsStream (s : State) (t : Tlp) (i : IdeTlp) (k : Fin 17) : Prop where
  stream : t.stream = some k
  opened : Opened s t i
  fn     : t.fn ≠ 0
  run    : (tdi s t.fn.val).state = .run
  bound  : (tdi s t.fn.val).stream = some k.val

variable {k : Fin 17}

theorem OnItsStream.fits (h : OnItsStream s t i k) (ht : t.tbit = true) :
    streamFits (ideCount s k.val ⟨i.sub, false⟩) t = true :=
  streamFits_bound h.stream h.fn h.run h.bound ht

theorem OnItsStream.completion (h : OnItsStream s t i k) (ht : t.tbit = true) (hcfg : t.cfg = false)
    (hg : t.cpl = some (curGen s t.fn.val)) :
    execHostTlp t i s = .next (emit (ideCount s k.val ⟨i.sub, false⟩) (.tlp t.fn.val t.fn.val)) := by
  have hcur : curGen s t.fn.val = curGen (ideCount s k.val ⟨i.sub, false⟩) t.fn.val := rfl
  rw [execHostTlp_completion h.opened (tlpFaults_tbit ht hcfg) hg, ideTaken_stream h.stream,
    tlpCompletion_current hcur (h.fits ht)]

/-- A request to device memory is stamped with the PID. -/
theorem OnItsStream.request (h : OnItsStream s t i k) (ht : t.tbit = true) (hcfg : t.cfg = false) (hg : t.cpl = none)
    (hr : t.reg = none) (hmem : t.toMem = true) (hact : active s t.fn.val = true) :
    execHostTlp t i s =
      .next (tlpRequest (emit (ideCount s k.val ⟨i.sub, false⟩) (.tlp t.fn.val t.fn.val)) t t.fn.val) := by
  have hfn : t.fn.val ≠ 0 := Fin.val_ne_zero_iff.2 h.fn
  rw [execHostTlp_request h.opened (tlpFaults_tbit ht hcfg) hg hr, ideTaken_stream h.stream,
    tlpRequested_memory (stampOf_run hfn (h.fits ht) hact h.run) hmem]

/-- Without its T bit the TLP takes the TDI to ERROR. -/
theorem OnItsStream.faults (h : OnItsStream s t i k) (ht : t.tbit = false) (hg : t.cpl = none) (hr : t.reg = none)
    (hmem : t.toMem = false) : ∃ e, execHostTlp t i s = .next e ∧ (tdi e t.fn.val).state = .error := by
  have hfault : tlpFaults (ideCount s k.val ⟨i.sub, false⟩) t = true := by
    have hrun : (tdi (ideCount s k.val ⟨i.sub, false⟩) t.fn.val).state = .run := h.run
    have hbound : (tdi (ideCount s k.val ⟨i.sub, false⟩) t.fn.val).stream = some k.val := h.bound
    simp [tlpFaults, hrun, hbound, h.stream, ht]
  have htaken : ideTaken s t i = ideCount s k.val ⟨i.sub, false⟩ := ideTaken_stream h.stream
  obtain ⟨e, hexec, herror, -⟩ := execHostTlp_takes_tdi_to_error h.opened (by rw [htaken]; exact hfault) hg hr hmem h.fn
    (by rw [htaken]; exact h.run)
  exact ⟨e, hexec, herror⟩

/-- Another function's TLP on a tenant's stream is not served. -/
theorem hostTlp_foreign (hstream : t.stream = some k) (hopened : Opened s t i)
    (hstate : (tdi s t.fn.val).state = .unlocked) (htenant : tenantStream s (some k.val) = true) (hg : t.cpl = none)
    (hr : t.reg = none) : execHostTlp t i s = .next (emit (ideCount s k.val ⟨i.sub, false⟩)
      (if t.toMem = true then .tlpUr t.fn.val else .tlpDrop t.fn.val)) := by
  have htaken : ideTaken s t i = ideCount s k.val ⟨i.sub, false⟩ := ideTaken_stream hstream
  have hunfit : streamFits (ideCount s k.val ⟨i.sub, false⟩) t = false := streamFits_foreign hstream hstate htenant
  rw [execHostTlp_request hopened (by rw [htaken]; exact tlpFaults_unlocked hstate) hg hr, htaken,
    tlpRequested_unstamped (stampOf_unfit hunfit)]

end

theorem tlpRequest_none {s : State} {t : Tlp} (h : t.req = none) (pid : Nat) : tlpRequest s t pid = s := by
  simp only [tlpRequest, h]

/-- The function's request is one of master port 0xC0, of its PID in the current generation. -/
theorem tlpRequest_stamped {s : State} {t : Tlp} {r : MxReq} (h : t.req = some r) :
    tlpRequest s t t.fn.val = (present s { req :=
      { r with pid := t.fn, gen := curGen s t.fn.val, mport := 0xC0, ctx := 0 } }).getD s := by
  have hpid : Fin.ofNat 32 t.fn.val = t.fn := Fin.ofNat_val_eq_self t.fn
  simp only [tlpRequest, h, hpid]

/-! ## The statement -/

section
variable (s : State) (t : Tlp) (i : IdeTlp)

/-- Reads of the register pages that come by no stream. -/
theorem hostTlp_reads_pages (hstream : t.stream = none) (a len : Nat) (hg : t.cpl = none) (hr : t.reg = some (a, len))
    (hstate : (tdi s t.fn.val).state = .unlocked) :
    (t.fn = 0 → ∀ pg off, barPlace 0 a = some (pg, off) →
      execHostTlp t i s = .next (readPage s pg off len) ∧
      (pg = .rest → execHostTlp t i s = .next (emit s (.regRead off (zeros len))))) ∧
    (barPlace t.fn a = none → execHostTlp t i s = .next s) ∧
    (t.fn ≠ 0 → a < 0x1000 → active s t.fn.val = false →
      execHostTlp t i s = .next (emit s (.regRead a (zeros len)))) ∧
    (t.fn ≠ 0 → a < 0x1000 → active s t.fn.val = true → (part s t.fn.val).conf = false →
      execHostTlp t i s = .next (readPage s (.tenant t.fn) a len)) := by
  rw [hostTlp_read_plain hstream hg hr hstate]
  refine ⟨fun hfn pg off hplace => ?_, fun hplace => ?_, fun hfn ha hact => ?_, fun hfn ha hact hconf => ?_⟩
  · have hshown : tlpRead s t a len = readPage s pg off len :=
      tlpRead_shown (by rw [hfn]; exact hplace) (admitAcc_zero hstream hfn (barPlace_zero hplace)) hstate len
    refine ⟨by rw [hshown], fun hpg => ?_⟩
    rw [hshown, hpg, readPage_rest]
  · rw [tlpRead_outside hplace]
  · rw [tlpRead_hidden (barPlace_tenant hfn ha) (admitAcc_inactive hfn hact) hstate]
  · rw [tlpRead_shown (barPlace_tenant hfn ha) (admitAcc_tenant hstream hfn hact hconf) hstate]

end

/-- Settles O26: the view of what a reset reaches (`fnView_resetFn`), and a host TLP by whether its stream's key opens it and
by its kind. -/
theorem hostAndTileEvents : Obligations.HostAndTileEvents := by
  intro s vf tile t i
  refine ⟨fun hvf => ?_, rfl, fun hstream => ?_, fun k hstream => ?_, execTileScrubDone_unheld, execTileScrubDone_held⟩
  · obtain ⟨hhead, htail, hpre, hwindow⟩ := resetFn_empties s vf.val .unlocked
    obtain ⟨hgens, hpot, hpeers, hfences⟩ := resetFn_keeps s vf.val .unlocked
    exact ⟨_, execVfFlr_resets hvf, resetFn_asks .., hgens, hhead, htail, hpre, hwindow, tdi_resetFn .., hpot, hpeers,
      hfences⟩
  · have hfn : t.fn.val ≠ 0 → t.fn ≠ 0 := Fin.val_ne_zero_iff.1
    refine ⟨fun g hg hfn0 hold hstate => ?_, fun g hg hcur hstate => ?_, fun hg hr hmem hfn0 hact hstate => ?_,
      fun hg hr hmem hfn0 hrun hcfg => ?_, fun hg hr hassoc hmem hfn0 hstate => ?_,
      fun hg hr hmem hfn0 hrun hcfg hlock => ?_,
      fun a len hg hr hstate => hostTlp_reads_pages s t i hstream a len hg hr hstate⟩
    · exact (hostTlp_completion_plain hstream hg hstate).trans (by rw [tlpCompletion_stale hfn0 hold])
    · exact (hostTlp_completion_plain hstream hg hstate).trans
        (by rw [tlpCompletion_current hcur (streamFits_plain hstream hstate)])
    · exact (hostTlp_request_plain hstream hg hr (tlpFaults_unlocked hstate)).trans
        (by rw [tlpRequested_unstamped (stampOf_inactive hfn0 hact), if_pos hmem])
    · exact (hostTlp_request_plain hstream hg hr (tlpFaults_plain hstream hcfg)).trans
        (by rw [tlpRequested_unstamped (stampOf_unfit (streamFits_run_plain hstream (hfn hfn0) hrun)), if_pos hmem])
    · have hstate0 : (tdi s t.fn.val).state = .unlocked := by rw [hfn0]; exact hstate
      have hstamp : stampOf s t = some 0 := stampOf_zero hfn0 (streamFits_plain hstream hstate0)
      exact (hostTlp_request_plain hstream hg hr (tlpFaults_unlocked hstate0)).trans
        (by rw [tlpRequested_plain hstamp hmem (.inl hassoc), hfn0])
    · have htaken : ideTaken s t i = s := ideTaken_plain hstream
      have hfault : tlpFaults s t = true := by simp [tlpFaults, hrun, hcfg, hlock]
      exact execHostTlp_takes_tdi_to_error (opened_plain hstream) (by rw [htaken]; exact hfault) hg hr hmem (hfn hfn0)
        (by rw [htaken]; exact hrun)
  · intro x s1
    refine ⟨hostTlp_no_key hstream, fun j key hslot hgood hkey => ⟨hostTlp_unopened hstream hslot hgood hkey,
      fun hmac hseal => ?_⟩⟩
    have hopened : Opened s t i := opened_stream hstream hslot hgood hkey hmac hseal
    refine ⟨fun hfn hrun hbound ht hcfg => ?_, fun hrun hbound ht hg hr hmem hfn => ?_,
      fun hstate htenant hg hr => hostTlp_foreign hstream hopened hstate htenant hg hr⟩
    · have hits : OnItsStream s t i k := ⟨hstream, hopened, hfn, hrun, hbound⟩
      refine ⟨fun hg hr hmem hreq hact => ?_, fun r hg hr hmem hreq hact => ?_, hits.completion ht hcfg⟩
      · exact (hits.request ht hcfg hg hr hmem hact).trans (by rw [tlpRequest_none hreq])
      · exact (hits.request ht hcfg hg hr hmem hact).trans (by rw [tlpRequest_stamped hreq]; rfl)
    · exact OnItsStream.faults ⟨hstream, hopened, hfn, hrun, hbound⟩ ht hg hr hmem

end Sys2Proof.Machine

/-! PROOFS. What stands after reset (02 R31, R33, 08 R247, R249, 15 R403, R404). -/

namespace Sys2Proof.Machine

/-- Settles O3: each value is read off the reset state. -/
theorem resetLeavesTheSpecifiedValues : Obligations.ResetLeavesTheSpecifiedValues := by
  unfold Obligations.ResetLeavesTheSpecifiedValues
  intro s
  refine ⟨by decide, by decide, by decide, fun n => ⟨rfl, rfl, rfl⟩, rfl, rfl, rfl, fun n => ⟨rfl, rfl, rfl⟩,
    fun i => ⟨rfl, rfl⟩, fun p => rfl, fun e => ?_, rfl, fun p => rfl, fun i => rfl, rfl, rfl, rfl, rfl, rfl, rfl, rfl,
    rfl⟩
  rfl

end Sys2Proof.Machine

/-! PROOFS. What events and replies leave of the command state (08 R226 to R240). -/

namespace Sys2Proof.Machine

/-- Where the block reaches the areas of a ring. -/
def ringPlace (s : State) (n : Nat) : Bool × BitVec 64 × BitVec 64 :=
  ((ring s n).loc, (ring s n).cbase, (ring s n).rbase)

/-- Events, vectors and replies keep the started commands and the places of the rings, and add to the trace. -/
structure CmdKept (s t : State) : Prop where
  waits : t.cmd.waits = s.cmd.waits
  place : ∀ n, ringPlace t n = ringPlace s n
  out   : s.out <:+ t.out

namespace CmdKept

theorem refl (s : State) : CmdKept s s := ⟨rfl, fun _ => rfl, List.suffix_rfl⟩

theorem trans {s t u : State} (h : CmdKept s t) (k : CmdKept t u) : CmdKept s u :=
  ⟨k.waits.trans h.waits, fun n => (k.place n).trans (h.place n), h.out.trans k.out⟩

/-- A state with the same command state and trace. -/
theorem of_eq {s t : State} (hcmd : t.cmd = s.cmd) (hout : t.out = s.out) : CmdKept s t :=
  ⟨by rw [hcmd], fun n => by rw [ringPlace, ringPlace, ring, hcmd]; rfl, by rw [hout]⟩

end CmdKept

theorem cmdKept_emit (s : State) (o : Out) : CmdKept s (emit s o) := ⟨rfl, fun _ => rfl, List.suffix_cons ..⟩

theorem cmdKept_foldl {α : Type} {f : State → α → State} (h : ∀ s a, CmdKept s (f s a)) (l : List α) (s : State) :
    CmdKept s (l.foldl f s) := by
  induction l generalizing s with
  | nil => exact .refl s
  | cons a l ih => exact (h s a).trans (ih (f s a))

theorem cmdKept_setRing {s : State} {n : Nat} {x : Ring}
    (h : (x.loc, x.cbase, x.rbase) = ((ring s n).loc, (ring s n).cbase, (ring s n).rbase)) :
    CmdKept s (setRing s n x) := by
  refine ⟨rfl, fun j => ?_, List.suffix_rfl⟩
  rw [ringPlace, ring_setRing]
  split
  · subst_vars
    exact h
  · rfl

theorem cmdKept_sendTlp (s : State) (fn : Nat) (sub : Fin 3) (addr : Nat) (b : Bytes) :
    CmdKept s (sendTlp s fn sub addr b) := by
  unfold sendTlp
  split
  · exact .refl s
  · split
    · exact .refl s
    · exact ⟨rfl, fun _ => rfl, List.suffix_cons ..⟩

theorem cmdKept_passOwn (s : State) (pid off len : Nat) (write rt : Bool) : CmdKept s (passOwn s pid off len write rt) := by
  obtain ⟨-, m, x, h⟩ := passOwn_only s pid off len write rt
  rw [h]
  exact .of_eq rfl rfl

theorem cmdKept_memPut (s : State) (pid off : Nat) (b : Bytes) (rt : Bool) : CmdKept s (memPut s pid off b rt) := by
  unfold memPut
  split
  · exact .refl s
  · exact (cmdKept_passOwn ..).trans (cmdKept_emit ..)

theorem cmdKept_ringWrite (s : State) (n : Nat) (host : Bool) (addr : Nat) (b : Bytes) :
    CmdKept s (ringWrite s n host addr b) := by
  unfold ringWrite
  split
  · exact cmdKept_sendTlp ..
  · exact cmdKept_passOwn ..

theorem cmdKept_raiseVec (s : State) (fn vec : Nat) : CmdKept s (raiseVec s fn vec) := by
  unfold raiseVec sendVec
  dsimp only
  have hmsix (m : Tbl Moder) : CmdKept s { s with cmd := { s.cmd with msix := m } } := ⟨rfl, fun _ => rfl, List.suffix_rfl⟩
  split
  · exact (hmsix _).trans ((cmdKept_sendTlp ..).trans (cmdKept_emit ..))
  · exact hmsix _

theorem cmdKept_putEvent (s : State) (fn : Nat) (w : BitVec 128) : CmdKept s (putEvent s fn w) := by
  unfold putEvent
  dsimp only
  have hevt (x : Evt) : CmdKept s (setEvt s fn x) := ⟨rfl, fun _ => rfl, List.suffix_rfl⟩
  split
  · exact (hevt _).trans ((cmdKept_ringWrite ..).trans (cmdKept_emit ..))
  · exact hevt _

theorem cmdKept_postEvent (s : State) (fn : Nat) (w : BitVec 128) : CmdKept s (postEvent s fn w) := by
  unfold postEvent
  dsimp only
  split
  · exact (cmdKept_putEvent ..).trans (cmdKept_raiseVec ..)
  · exact cmdKept_putEvent ..

theorem cmdKept_postOperator (s : State) (pid type : Nat) (b0 : BitVec 32) (b8 b15 : Nat) :
    CmdKept s (postOperator s pid type b0 b8 b15) := by
  unfold postOperator
  split <;> exact cmdKept_postEvent ..

theorem cmdKept_postBoth (s : State) (pid type : Nat) (b0 : BitVec 32) (b8 b15 : Nat) :
    CmdKept s (postBoth s pid type b0 b8 b15) := by
  unfold postBoth
  dsimp only
  split
  · exact cmdKept_postOperator ..
  · exact (cmdKept_postEvent ..).trans (cmdKept_postOperator ..)

theorem cmdKept_postRangeState (s : State) : CmdKept s (postRangeState s) :=
  (cmdKept_postEvent ..).trans (cmdKept_foldl (fun _ _ => cmdKept_postEvent ..) _ _)

theorem cmdKept_setMemb (s : State) (m : Memb) : CmdKept s (setMemb s m) := by
  unfold setMemb
  split
  · exact .refl s
  · have hset : CmdKept s { s with range := { s.range with memb := m } } := .of_eq rfl rfl
    exact hset.trans (cmdKept_postRangeState _)

theorem cmdKept_lessInflight (s : State) (n : Nat) : CmdKept s (lessInflight s n) := by
  unfold lessInflight
  exact cmdKept_setRing rfl

theorem cmdKept_ringFault (s : State) (n : Nat) : CmdKept s (ringFault s n) := by
  unfold ringFault
  dsimp only
  refine .trans ?_ (cmdKept_postEvent ..)
  exact cmdKept_setRing rfl

theorem cmdKept_replyWrite (s : State) (t : Ticket) (b : Bytes) : CmdKept s (replyWrite s t b) := by
  unfold replyWrite
  split
  · exact .refl s
  · exact cmdKept_ringWrite ..

theorem cmdKept_pushRange (s : State) (dst via : Nat) (b : Bytes) : CmdKept s (pushRange s dst via b) := by
  unfold pushRange push
  dsimp only
  split <;> exact .of_eq rfl rfl

theorem cmdKept_finish (s : State) (t : Ticket) (st : Status) (r : BitVec 192) : CmdKept s (finish s t st r) := by
  unfold finish finishWith
  dsimp only
  generalize hu : (if (t.opcode == 0x73 && st != .ok) = true then
    { s with keys := { s.keys with dbgDeny := inc32 s.keys.dbgDeny } } else s) = u
  have hcounted : CmdKept s u := by
    rw [← hu]
    split <;> exact .of_eq rfl rfl
  have hless : CmdKept s (lessInflight u t.ring) := hcounted.trans (cmdKept_lessInflight ..)
  split
  · exact hless.trans (cmdKept_pushRange ..)
  · split
    · exact hless
    · have hreply (c : Bool) (b : Bytes) (o : Out) : CmdKept s (if c = true then
          emit (replyWrite (lessInflight u t.ring) t b) o
          else ringFault (lessInflight u t.ring) t.ring) := by
        split
        · exact hless.trans ((cmdKept_replyWrite ..).trans (cmdKept_emit ..))
        · exact hless.trans (cmdKept_ringFault ..)
      split
      · exact (hreply ..).trans (cmdKept_postEvent ..)
      · exact hreply ..

end Sys2Proof.Machine

/-! PROOFS. Draws and key writes (09 R256, R257, R259). -/

namespace Sys2Proof.Machine

/-- A draw or a key write: all but the key system's state stays, and there the check key and `zeroised`. -/
def OnlyKeys (s t : State) : Prop :=
  ∃ k, t = { s with keys := k } ∧ k.zeroised = s.keys.zeroised ∧ k.chkKey = s.keys.chkKey

theorem OnlyKeys.refl (s : State) : OnlyKeys s s := ⟨s.keys, rfl, rfl, rfl⟩

theorem OnlyKeys.trans {s t u : State} (h : OnlyKeys s t) (k : OnlyKeys t u) : OnlyKeys s u := by
  obtain ⟨a, rfl, ha, hac⟩ := h
  obtain ⟨b, rfl, hb, hbc⟩ := k
  exact ⟨b, rfl, hb.trans ha, hbc.trans hac⟩

/-- A draw: the slots stay as well. -/
def OnlyDraws (s t : State) : Prop :=
  OnlyKeys s t ∧ t.keys.slots = s.keys.slots ∧ t.keys.parts = s.keys.parts ∧ t.keys.entFailed = s.keys.entFailed

theorem OnlyDraws.trans {s t u : State} (h : OnlyDraws s t) (k : OnlyDraws t u) : OnlyDraws s u := by
  obtain ⟨ha, hs, hp, he⟩ := h
  obtain ⟨kb, ks, kp, ke⟩ := k
  exact ⟨ha.trans kb, ks.trans hs, kp.trans hp, ke.trans he⟩

theorem onlyDraws_reseed (s : State) : OnlyDraws s (reseed s) := ⟨⟨_, rfl, rfl, rfl⟩, rfl, rfl, rfl⟩

theorem onlyDraws_drawBytes (s : State) (n : Nat) : OnlyDraws s (drawBytes s n).1 := by
  unfold drawBytes
  dsimp only
  split <;> exact ⟨⟨_, rfl, rfl, rfl⟩, rfl, rfl, rfl⟩

theorem onlyDraws_drawSalt (s : State) : OnlyDraws s (drawSalt s).1 :=
  (onlyDraws_reseed s).trans (onlyDraws_drawBytes ..)

theorem onlyDraws_drawRk (s : State) : OnlyDraws s (drawRk s).1 :=
  (onlyDraws_reseed s).trans (onlyDraws_drawBytes ..)

theorem slot_eq_of_slots {s t : State} (h : t.keys.slots = s.keys.slots) (i : Nat) : slot t i = slot s i := by
  rw [slot, h, slot]

/-- Whether a slot delivers its key rests on the slots and the check key. -/
theorem slotDead_congr {s t : State} (hslots : t.keys.slots = s.keys.slots) (hchk : t.keys.chkKey = s.keys.chkKey)
    (i : Nat) : slotDead t i = slotDead s i := by
  simp only [slotDead, slot_eq_of_slots hslots, slotCheck, hchk]

theorem onlyKeys_writeSlot (s : State) (i : Nat) (k : Key) (p : BitVec 32) : OnlyKeys s (writeSlot s i k p) :=
  ⟨_, rfl, rfl, rfl⟩

theorem onlyKeys_writeRaw (s : State) (i : Nat) (k : Key) (p : BitVec 32) : OnlyKeys s (writeRaw s i k p) := by
  unfold writeRaw
  split
  · exact .refl s
  · exact onlyKeys_writeSlot ..

theorem slot_writeSlot_ne (s : State) {i j : Nat} (h : j ≠ i) (k : Key) (p : BitVec 32) :
    slot (writeSlot s i k p) j = slot s j := by
  rw [writeSlot, slot_setSlot, if_neg h]

/-- A key that the derivation logic writes verifies, and the write leaves every other slot. -/
theorem slotDead_writeSlot (s : State) (i : Nat) (k : Key) (p : BitVec 32) (j : Nat) :
    slotDead (writeSlot s i k p) j = (j != i && slotDead s j) := by
  by_cases h : j = i
  · subst h
    simp only [slotDead, writeSlot, slot_setSlot_same, slotCheck, bne_self_eq_false, Bool.false_and, Bool.false_or,
      Bool.and_eq_false_iff]
    exact .inr (bne_self_eq_false _)
  · rw [slotDead, slot_writeSlot_ne s h, bne_iff_ne.mpr h, Bool.true_and]
    rfl

end Sys2Proof.Machine

/-! PROOFS. RANGE_JOIN FORM and its report (08 R237, R238, 14 R357). -/

namespace Sys2Proof.Machine

/-- A reply without IRQ on the operator's ring in host memory is no access to device memory. -/
theorem finish_mem_host {s : State} {t : Ticket} {st : Status} {r : BitVec 192} (hring : t.ring = 0)
    (hmute : t.mute = false) (hirq : t.irq = false) (hdbg : t.opcode = 0x73 → st = .ok)
    (hloc : (ring s 0).loc = true) : (finish s t st r).mem = s.mem := by
  have harea : ringAreaOk s t.ring (ring s t.ring).rbase (t.idx * 32) 32 rDWR = true := by
    rw [hring, ringAreaOk, hloc, if_pos rfl]
    rfl
  have hless : (ring (lessInflight s t.ring) t.ring).loc = true := by
    rw [hring, lessInflight, ring_setRing_same]
    exact hloc
  have hplain : outStream (lessInflight s t.ring) t.ring = none := by rw [hring]; rfl
  rw [finish_reply (by omega) hmute hirq hdbg harea, replyWrite_host hless hplain]
  rfl

/-- One reply of two states leaves both with the same memory, where one of them has the ring in host memory. -/
theorem mem_of_finish_eq {s e : State} {t : Ticket} {v w : BitVec 192} (hring : t.ring = 0) (hmute : t.mute = false)
    (hirq : t.irq = false) (hloc : (ring s 0).loc = true) (h : finish s t .ok v = finish e t .ok w) :
    e.mem = s.mem := by
  have hplace : ringPlace e 0 = ringPlace s 0 := by
    rw [← (cmdKept_finish e t .ok w).place, ← h, (cmdKept_finish s t .ok v).place]
  have hloc' : (ring e 0).loc = true := (congrArg Prod.fst hplace).trans hloc
  rw [← finish_mem_host hring hmute hirq (fun _ => rfl) hloc' (r := w), ← h,
    finish_mem_host hring hmute hirq (fun _ => rfl) hloc]

/-! ## An event entry in device memory -/

theorem ctr_charge (s : State) (e client n : Nat) (rt : Bool) (i : Nat) :
    (mx (charge s e client n rt) i).ctr = (mx s i).ctr := by
  have hset (l : Tbl Nat) : (mx (setMx s e { mx s e with tokens := l }) i).ctr = (mx s i).ctr := by
    rw [mx_setMx]
    split
    · subst_vars
      rfl
    · rfl
  unfold charge
  dsimp only
  split
  · exact hset _
  · exact (congrArg Mx.ctr (telAdd_reads _ _ _ _ i).2.2.2.2.2.2.2.1).trans (hset _)

/-- Sectors that are only read, or written whole, leave the engines' counters. -/
theorem ctr_passSectors (s : State) (e pid n : Nat) (rt : Bool) (i : Nat) :
    (mx (passSectors s e pid n 0 rt) i).ctr = (mx s i).ctr := ctr_charge ..

/-- A sector that the block writes in part is read first, and counts as a read-modify-write of its engine. -/
theorem rmw_passSectors (s : State) (e pid n : Nat) (rt : Bool) :
    (mx (passSectors s e pid n 1 rt) e).ctr.rmw = add32 (mx s e).ctr.rmw 1 := by
  simp only [passSectors, Nat.reduceBEq, Bool.false_eq_true, if_false, telAdd_reads, mxCtr, mx_setMx_same, ctr_charge]

/-- A range that the block reads leaves the engines' counters. -/
theorem ctr_passOwn_read (s : State) (pid off len : Nat) (rt : Bool) (i : Nat) :
    (mx (passOwn s pid off len false rt) i).ctr = (mx s i).ctr := by
  unfold passOwn
  split
  · rfl
  · generalize span _ _ = l
    induction l generalizing s with
    | nil => rfl
    | cons g l ih => exact (ih _).trans (ctr_passSectors ..)

/-- So do reads that deliver their data. -/
theorem ctr_readAll (l : List OwnRead) (m : List ReadIn) (hdata : ∀ x ∈ m, ∃ b, x = .data b) (s : State) (i : Nat) :
    (mx (readAll s l m) i).ctr = (mx s i).ctr := by
  induction l generalizing s m with
  | nil => cases m <;> rfl
  | cons r l ih =>
    cases m with
    | nil => exact (ih [] hdata _).trans (ctr_passOwn_read ..)
    | cons x m =>
      obtain ⟨b, rfl⟩ := hdata x List.mem_cons_self
      exact (ih m (fun y hy => hdata y (List.mem_cons_of_mem _ hy)) _).trans (ctr_passOwn_read ..)

/-- The operator's event ring of the counterexample: in device memory, at the start of page 10. -/
def deviceEvt : Evt := { en := true, elog2 := 4, base := 0x1400000 }

/-- The block may write the ring's next entry, and RANGE_STATE goes to no other ring. -/
def postsToDevice (s : State) : Bool := evt s 0 == deviceEvt && evtAreaOk s 0 && s.part.parts.isEmpty

/-- The entry is part of one sector. -/
theorem passOwn_deviceEntry (s : State) :
    passOwn s 0 0x1400000 16 true true = passSectors s (engineOf s 0x1400000) 0 1 1 true := rfl

/-- RANGE_STATE counts a read-modify-write in the engine that the entry's sector belongs to. -/
theorem rmw_postRangeState {s : State} (h : postsToDevice s = true) :
    ∃ e, (mx (postRangeState s) e).ctr.rmw = add32 (mx s e).ctr.rmw 1 := by
  simp only [postsToDevice, Bool.and_eq_true, beq_iff_eq, List.isEmpty_iff] at h
  obtain ⟨⟨hevt, harea⟩, hparts⟩ := h
  have hput (w : BitVec 128) : (putEvent s 0 w).mem =
      (passOwn (setEvt s 0 { deviceEvt with prod := 1 }) 0 0x1400000 16 true true).mem := by
    have hlen : (leBytes 16 w.toNat).length = 16 := by simp [leBytes]
    simp only [putEvent, hevt, harea, deviceEvt, evtFull, ringWrite, hlen]
    rfl
  have hraise (u : State) (v : Nat) : (raiseVec u 0 v).mem = u.mem := by
    unfold raiseVec
    dsimp only
    split <;> rfl
  refine ⟨engineOf s 0x1400000, ?_⟩
  simp only [postRangeState, hparts, List.filter_nil, List.map_nil, List.foldl_nil, postEvent, hevt, mx]
  rw [if_pos (by rfl), hraise, hput, passOwn_deviceEntry]
  exact rmw_passSectors (setEvt s 0 { deviceEvt with prod := 1 }) ..

/-- An unbound chip whose operator has its event ring in device memory, on a page of its own, and its command ring in host
memory. -/
def evtOnDevice : State :=
  { boot := { rdy := true, inReset := false, rstHigh := true, step := 8, mcRdy := true, vddqGood := true, vddaGood := true
              scuUp := true, everReady := true }
    fuse := { lcs := .fielded, trimOk := true, sensed := true, rootKind := .valid }
    keys := { entHealthy := true, drbgSeeded := true }
    cmd := { rings := [(0, { en := true, loc := true, clog2 := 4, tail := 8 })], evts := [(0, deviceEvt)] }
    mem := { pot := [(10, { pid := 0, mode := .seal, state := .live, rights := 0x3FF })], potLive := true } }

/-- RANGE_JOIN FORM of node 9, whose reads deliver an accepted firmware set of one image. -/
def formCmd : Cmd :=
  { ring := 0, body := { seq := 0, ptag := 0, params := paramsOf [(16, 9), (24, 0x1400000)] }
    mem := [.data (asc "QAFS" ++ [1, 1, 0, 0]), .data (zeros 48)] }

/-- What the refutation needs of the state that RANGE_JOIN FORM acts on, and of its ticket. -/
def formStart (k : State) (t : Ticket) : Bool :=
  let r := readAll k (opJoinForm.reads k t formCmd.body formCmd.mem) formCmd.mem
  k.mem.mx.isEmpty && r.range.memb == .unbound && !jtagScuActive r && !r.keys.entFailed && postsToDevice r &&
  (ring r 0).loc && t.ring == 0 && !t.mute && !t.irq

/-- The command passes its checks. -/
theorem formCmd_accepted : ∃ k t, accepted opJoinForm evtOnDevice formCmd = some (k, t) ∧ formStart k t = true := by
  have h : ((accepted opJoinForm evtOnDevice formCmd).any fun x => formStart x.1 x.2) = true := by decide +kernel
  obtain ⟨⟨k, t⟩, hacc, hstart⟩ := (Option.any_eq_true ..).mp h
  exact ⟨k, t, hacc, hstart⟩

/-- A range that an unbound chip forms is reported. -/
theorem formRange_posts {s : State} (h : s.range.memb = .unbound) (node : Nat) (minSvn : BitVec 32) (test : Bool)
    (afs : Bytes) : ∃ k x y, formRange s node minSvn test afs =
      postRangeState { s with keys := k, ridge := x, range := y } ∧ k.zeroised = s.keys.zeroised := by
  obtain ⟨k, hkeys, hz, -⟩ := ((onlyDraws_drawBytes s 8).trans (onlyDraws_drawRk _)).1.trans
    (onlyKeys_writeRaw _ 2 (drawRk (drawBytes s 8).1).2 rangePolicy)
  unfold formRange setMemb
  dsimp only
  rw [hkeys, if_neg]
  · exact ⟨_, _, _, rfl, hz⟩
  · rw [clearKept, h]
    decide

/-- The event ring does not depend on what the forming of a range writes. -/
theorem postsToDevice_formed {s : State} {k : KeyState} (hz : k.zeroised = s.keys.zeroised) (x : RidgeState)
    (y : RangeState) : postsToDevice { s with keys := k, ridge := x, range := y } = postsToDevice s := by
  simp only [postsToDevice, evtAreaOk, hostPathOk, rangeOk, pageOk, memServes, hz]
  rfl

/-- Refutes O54: RANGE_JOIN FORM posts RANGE_STATE, and with the operator's event ring in device memory the write of the
entry changes the engines' part of the state, which the statement has unchanged. -/
theorem not_rangeCommandsFormJoinLeaveAndPair : ¬ Obligations.RangeCommandsFormJoinLeaveAndPair := by
  unfold Obligations.RangeCommandsFormJoinLeaveAndPair
  intro h
  obtain ⟨k, t, hacc, hstart⟩ := formCmd_accepted
  obtain ⟨hform, -⟩ := h evtOnDevice formCmd k t
  have hall := hform hacc
  have hissue := issue_of_accepted hacc
  simp only [formStart] at hstart
  generalize hr : readAll k (opJoinForm.reads k t formCmd.body formCmd.mem) formCmd.mem = r at hall hstart hissue
  simp only [Bool.and_eq_true, beq_iff_eq, Bool.not_eq_true', List.isEmpty_iff] at hstart
  obtain ⟨⟨⟨⟨⟨⟨⟨⟨hmx, hunbound⟩, hjtag⟩, hent⟩, hposts⟩, hloc⟩, hring⟩, hmute⟩, hirq⟩ := hstart
  obtain ⟨-, hok⟩ := hall.2.2 _ ⟨by simp [hunbound, hjtag], hent⟩ rfl
  obtain ⟨e, hexec, -, -, -, -, -, -, -, -, -, -, -, -, -, hmem, -⟩ := hok _ rfl
  clear hall hok h hform
  obtain ⟨kk, x, y, hformed, hz⟩ := formRange_posts hunbound (parm formCmd.body 16 16)
    (BitVec.ofNat 32 (parm formCmd.body 20 32)) (parmBit formCmd.body 19 1)
    (slice (asc "QAFS" ++ [1, 1, 0, 0]) 0 8 ++ slice (zeros 48) 0 48)
  generalize hp : ({ r with keys := kk, ridge := x, range := y } : State) = p at hformed
  have hrun : opJoinForm.run r t formCmd.body formCmd.mem = .ok (postRangeState p) (joinResult (postRangeState p)) := by
    rw [← hformed]
    exact if_neg (by simp [hunbound, hjtag, hent])
  rw [hrun, conclude] at hissue
  have hkept : CmdKept r (postRangeState p) := .trans (.of_eq (by rw [← hp]) (by rw [← hp])) (cmdKept_postRangeState p)
  have hsame : r.mem = (postRangeState p).mem := hmem ▸
    mem_of_finish_eq hring hmute hirq ((congrArg Prod.fst (hkept.place 0)).trans hloc)
      (hissue.symm.trans (Host.Outcome.next.inj hexec))
  obtain ⟨n, hcount⟩ := rmw_postRangeState (s := p) (by rw [← hp, postsToDevice_formed hz, hposts])
  have hzero : (mx r n).ctr.rmw = 0 := by
    rw [← hr, ctr_readAll _ _ (by simp [formCmd]), mx, hmx]
    rfl
  have hbefore : (mx p n).ctr.rmw = 0 := by rw [← hp]; exact hzero
  have hafter : (mx (postRangeState p) n).ctr.rmw = 0 := by rw [mx, ← hsame]; exact hzero
  rw [hbefore, hafter] at hcount
  exact absurd hcount (by decide)

end Sys2Proof.Machine

/-! PROOFS. PART_CREATE (02 R43, 07 R195, R198, 09 R258, R261). -/

namespace Sys2Proof.Machine

/-! ## The keys of a new partition (R136, R261, R263) -/

/-- Newly derived keys are written one after the other. -/
def writeSlots (s : State) (l : List (Nat × Key × BitVec 32)) : State :=
  l.foldl (fun s x => writeSlot s x.1 x.2.1 x.2.2) s

theorem onlyKeys_writeSlots (s : State) (l : List (Nat × Key × BitVec 32)) : OnlyKeys s (writeSlots s l) := by
  induction l generalizing s with
  | nil => exact .refl s
  | cons x l ih => exact (onlyKeys_writeSlot ..).trans (ih _)

/-- A slot that verifies still does when others are written. -/
theorem slotDead_writeSlots_of_alive {s : State} {i : Nat} (h : slotDead s i = false)
    (l : List (Nat × Key × BitVec 32)) : slotDead (writeSlots s l) i = false := by
  induction l generalizing s with
  | nil => exact h
  | cons x l ih => exact ih (by rw [slotDead_writeSlot, h, Bool.and_false])

/-- Each slot that is written verifies. -/
theorem slotDead_writeSlots (s : State) {l : List (Nat × Key × BitVec 32)} {i : Nat} (h : i ∈ l.map (·.1)) :
    slotDead (writeSlots s l) i = false := by
  induction l generalizing s with
  | nil => cases h
  | cons x l ih =>
    rw [List.map_cons, List.mem_cons] at h
    obtain rfl | h := h
    · exact slotDead_writeSlots_of_alive (by rw [slotDead_writeSlot, bne_self_eq_false, Bool.false_and]) l
    · exact ih _ h

/-- The slots that PART_CREATE gives a partition. -/
def givenSlots (conf : Bool) (sl : List Nat) : PartSlots :=
  if conf then { root := sl.getD 0 0, xts1 := sl.getD 1 0, xts2 := sl.getD 2 0, mac := sl.getD 3 0, held := sl.getD 4 0 }
  else { root := sl.getD 0 0, mgl := sl.getD 1 0, xts1 := sl.getD 2 0, xts2 := sl.getD 3 0, mac := sl.getD 4 0 }

/-- Slots of a partition's memory keys. -/
def memSlots (ps : PartSlots) : List Nat := [ps.mgl, ps.xts1, ps.xts2, ps.mac].filter (· != 0)

/-- The keys of a partition are a draw, the slots of its memory keys written, and its reservation. -/
theorem writePartKeys_eq (s : State) (pid : Nat) (conf : Bool) (sl : List Nat) (ctag : BitVec 16) (mepoch : BitVec 32) :
    ∃ l, (∀ i ∈ memSlots (givenSlots conf sl), i ∈ l.map (·.1)) ∧
      ∃ u, u = writeSlots (drawSalt s).1 l ∧ writePartKeys s pid conf sl ctag mepoch =
        { u with keys := { u.keys with parts := tset {} u.keys.parts pid (givenSlots conf sl) } } := by
  cases conf with
  | true =>
    refine ⟨[(_, _, _), (_, _, _), (_, _, _), (_, _, _)], fun i hi => ?_, _, rfl, rfl⟩
    have hi := (List.mem_filter.mp hi)
    simp only [givenSlots, if_true, List.mem_cons, List.not_mem_nil, bne_iff_ne, or_false] at hi
    simp only [List.map_cons, List.map_nil, List.mem_cons]
    tauto
  | false =>
    refine ⟨[(_, _, _), (_, _, _), (_, _, _), (_, _, _), (_, _, _)], fun i hi => ?_, _, rfl, rfl⟩
    have hi := (List.mem_of_mem_filter hi)
    exact List.mem_cons_of_mem _ hi

/-- Slots that verify are loaded, and nothing else comes. -/
theorem loadSlots_of_alive {s : State} {pid : Nat} (h : ∀ i ∈ memSlots (tget {} s.keys.parts pid), slotDead s i = false) :
    ∃ m, loadSlots s pid = { s with mem := { s.mem with keys := m } } := by
  have hpass := foldl_checkSlot_passes fun i hi => checkSlot_of_alive (h i hi)
  unfold memSlots at hpass
  unfold loadSlots checkSlots
  dsimp only
  rw [hpass]
  exact ⟨_, rfl⟩

/-- A partition's new keys are loaded: the key system and the engines' keys change, and no more. -/
theorem loadSlots_writePartKeys (s : State) (pid : Nat) (conf : Bool) (sl : List Nat) (ctag : BitVec 16)
    (mepoch : BitVec 32) : ∃ k m, loadSlots (writePartKeys s pid conf sl ctag mepoch) pid =
      { s with keys := k, mem := { s.mem with keys := m } } := by
  obtain ⟨l, hmem, u, hu, hw⟩ := writePartKeys_eq s pid conf sl ctag mepoch
  obtain ⟨k, hkeys, -, -⟩ := (onlyDraws_drawSalt s).1.trans (onlyKeys_writeSlots _ l)
  obtain ⟨m, hload⟩ := loadSlots_of_alive (s := writePartKeys s pid conf sl ctag mepoch) (pid := pid) fun i hi => by
    rw [hw] at hi ⊢
    rw [tget_tset_same] at hi
    rw [slotDead_congr rfl rfl, hu]
    exact slotDead_writeSlots _ (hmem i hi)
  rw [hload, hw, hu, hkeys]
  exact ⟨_, _, rfl⟩

theorem peer_clearPeers (s : State) (pid : Nat) {node : Nat} (h : node < 16384) : peer (clearPeers s pid) pid node = {} := by
  have hkey : ((pid * 16384 + node) / 16384 != pid) = false := by
    rw [bne_eq_false_iff_eq]
    omega
  exact (tget_filter s.part.peers (fun k => k / 16384 != pid) _).trans (by rw [hkey]; rfl)

/-! ## PART_CREATE -/

/-- The chip may make the partition, and has the slots for it. -/
def mayCreate (s : State) (pid : Nat) (conf : Bool) : Prop :=
  s.range.memb ≠ .quarantined ∧ (part s pid).state = .free ∧ s.keys.entFailed = false ∧ 5 ≤ (freeDerived s).length ∧
  (conf = true → s.range.memb = .member ∧ s.range.test = false ∧ jtagScuActive s = false)

/-- The derivation logic may take the keys that PARTROOT comes from. -/
def rootKeysFit (s : State) (conf : Bool) : Bool :=
  keyFits s 1 .fwlayer .derivation 0 && (!conf || keyFits s 2 .range .derivation 0)

section
variable {s : State} {t : Ticket} {p : Pkt} {m : List ReadIn} (h : mayCreate s (tagPid t.ptag) (parmBit p 16 0))
include h

/-- The checks of state and room are passed. -/
theorem runPartCreate_open : (s.range.memb == .quarantined || (part s (tagPid t.ptag)).state != .free ||
    s.keys.entFailed || (parmBit p 16 0 && (s.range.memb != .member || s.range.test || jtagScuActive s))) = false ∧
    ¬ (freeDerived s).length < 5 := by
  obtain ⟨hquar, hfree, hent, hslots, hconf⟩ := h
  refine ⟨?_, Nat.not_lt.mpr hslots⟩
  cases hc : parmBit p 16 0 with
  | false => simp [hquar, hfree, hent]
  | true =>
    obtain ⟨hmember, htest, hjtag⟩ := hconf hc
    simp [hmember, hfree, hent, htest, hjtag]

theorem runPartCreate_refused (hfit : rootKeysFit s (parmBit p 16 0) = false) :
    runPartCreate s t p m = .fail .errPerm := by
  obtain ⟨hopen, hroom⟩ := runPartCreate_open h
  have hrefused : (!keyFits s 1 .fwlayer .derivation 0 ||
      (parmBit p 16 0 && !keyFits s 2 .range .derivation 0)) = true := by
    rw [← Bool.not_eq_true', rootKeysFit] at hfit
    simpa using hfit
  simp only [runPartCreate, hopen, hroom, hrefused, Bool.false_eq_true, if_false, if_true]

/-- With keys that fit, what comes rests on their checks. -/
theorem runPartCreate_fit (hfit : rootKeysFit s (parmBit p 16 0) = true) : runPartCreate s t p m =
    match readBad s (if parmBit p 16 0 then [1, 2] else [1]) with
    | some b => .failWith .errIntegrity 0 b
    | none =>
      let pid := tagPid t.ptag
      let ctag := curTag s pid
      let s1 := { s with part := { s.part with mepochNext := s.part.mepochNext + 1 } }
      .ok (setPart (clearTel (clearPeers (loadSlots (writePartKeys s1 pid (parmBit p 16 0) (freeDerived s) ctag
          s.part.mepochNext) pid) pid) pid) pid
        { state := .active, ctag := ctag, conf := parmBit p 16 0, strict := parmBit p 16 1, mepoch := s.part.mepochNext })
        (resultOf [(8, ctag.toNat), (10, ctag.toNat), (12, s.part.mepochNext.toNat)]) := by
  obtain ⟨hopen, hroom⟩ := runPartCreate_open h
  have htaken : (!keyFits s 1 .fwlayer .derivation 0 ||
      (parmBit p 16 0 && !keyFits s 2 .range .derivation 0)) = false := by
    rw [rootKeysFit, Bool.and_eq_true, Bool.or_eq_true, Bool.not_eq_true'] at hfit
    obtain ⟨hfws, hc | hrk⟩ := hfit
    · simp [hfws, hc]
    · simp [hfws, hrk]
  simp only [runPartCreate, hopen, hroom, htaken, Bool.false_eq_true, if_false] <;> rfl

end

/-- Settles O11: the slots just written verify, so that loading them marks no failure. -/
theorem partCreateMakesAnActivePartition : Obligations.PartCreateMakesAnActivePartition := by
  unfold Obligations.PartCreateMakesAnActivePartition
  intro s c k t hacc pid conf hquar hfree hent hslots hconf
  have hmay : mayCreate k (tagPid t.ptag) (parmBit c.body 16 0) := ⟨hquar, hfree, hent, hslots, hconf⟩
  have hissue : exec (.partCreate c) s = .next (conclude k t (runPartCreate k t c.body c.mem)) :=
    congrArg Host.Outcome.next (issue_of_accepted hacc)
  have hfit (hfws : keyFits k 1 .fwlayer .derivation 0 = true)
      (hrk : conf = true → keyFits k 2 .range .derivation 0 = true) : rootKeysFit k (parmBit c.body 16 0) = true := by
    rw [rootKeysFit, hfws]
    cases hc : parmBit c.body 16 0 with
    | false => rfl
    | true => exact hrk hc
  rw [hissue]
  refine ⟨fun hno => ?_, fun hfws hrk b hbad => ?_, fun hfws hrk hgood => ?_⟩
  · rw [runPartCreate_refused hmay]
    · rfl
    · rw [rootKeysFit]
      obtain hno | ⟨hc, hno⟩ := hno
      · rw [hno, Bool.false_and]
      · rw [show parmBit c.body 16 0 = true from hc, hno, Bool.not_true, Bool.false_or, Bool.and_false]
  · rw [runPartCreate_fit hmay (hfit hfws hrk), hbad]
    rfl
  · rw [runPartCreate_fit hmay (hfit hfws hrk), hgood]
    obtain ⟨y, z, hload⟩ := loadSlots_writePartKeys
      { k with part := { k.part with mepochNext := k.part.mepochNext + 1 } } pid conf (freeDerived k) (curTag k pid)
      k.part.mepochNext
    dsimp only
    rw [hload]
    exact ⟨_, rfl, part_setPart_same .., rfl, fun node hnode => peer_clearPeers _ _ hnode, rfl, rfl, rfl, rfl, rfl, rfl⟩

end Sys2Proof.Machine

/-! PROOFS. What an advance of a generation writes, and what alarms and contexts leave of it (02 R41, 07 R206 to R211, 08 R232). -/

namespace Sys2Proof.Machine

/-! ## What moves with an advance alone (R41, R232)

`GenView` is what an advance of a generation writes, and the fuses: the operations that a kill, a reset or a teardown runs
after its advance leave it, rings that are emptied apart. -/

structure GenView where
  gens : Tbl (BitVec 11)
  fuse : FuseState
  pre  : Nat → Tbl Nat

def genView (s : State) : GenView := ⟨s.part.gens, s.fuse, fun n => (ring s n).pre⟩

/-- A state with the same generations, fuses and rings. -/
theorem genView_eq {s t : State} (hgens : t.part.gens = s.part.gens) (hfuse : t.fuse = s.fuse)
    (hrings : t.cmd.rings = s.cmd.rings) : genView t = genView s := by
  simp only [genView, ring, hgens, hfuse, hrings]

theorem genView_foldl {α : Type} {f : State → α → State} (h : ∀ s a, genView (f s a) = genView s) (l : List α)
    (s : State) : genView (l.foldl f s) = genView s := by
  induction l generalizing s with
  | nil => rfl
  | cons a l ih => exact (ih (f s a)).trans (h s a)

/-! ### Fields that have no part in it -/

section
variable (s : State)

@[simp] theorem genView_setMem (m : MemState) : genView { s with mem := m } = genView s := rfl
@[simp] theorem genView_setKeys (k : KeyState) : genView { s with keys := k } = genView s := rfl
@[simp] theorem genView_setRmt (r : RmtState) : genView { s with rmt := r } = genView s := rfl
@[simp] theorem genView_setRange (r : RangeState) : genView { s with range := r } = genView s := rfl
@[simp] theorem genView_setAlarm (a : AlarmState) : genView { s with alarm := a } = genView s := rfl
@[simp] theorem genView_setTarn (t : TarnState) : genView { s with tarn := t } = genView s := rfl
@[simp] theorem genView_setBoot (b : BootState) : genView { s with boot := b } = genView s := rfl
@[simp] theorem genView_setFold (f : FoldState) : genView { s with fold := f } = genView s := rfl
@[simp] theorem genView_setWb (w : WbState) : genView { s with wb := w } = genView s := rfl
@[simp] theorem genView_setOut (o : List Out) : genView { s with out := o } = genView s := rfl
@[simp] theorem genView_emit (o : Out) : genView (emit s o) = genView s := rfl
@[simp] theorem genView_setMx (e : Nat) (m : Mx) : genView (setMx s e m) = genView s := rfl
@[simp] theorem genView_mxCtr (e : Nat) (f : MxCtr → MxCtr) : genView (mxCtr s e f) = genView s := rfl
@[simp] theorem genView_telAdd (pid i n : Nat) : genView (telAdd s pid i n) = genView s := rfl
@[simp] theorem genView_partCtr (f : PartCtr → PartCtr) : genView (partCtr s f) = genView s := rfl
@[simp] theorem genView_rmtCtr (f : RmtCtr → RmtCtr) : genView (rmtCtr s f) = genView s := rfl
@[simp] theorem genView_setCtx (i : Nat) (c : Ctx) : genView (setCtx s i c) = genView s := rfl
@[simp] theorem genView_setFence (i : Nat) (f : Fence) : genView (setFence s i f) = genView s := rfl
@[simp] theorem genView_setPart' (i : Nat) (p : Part) : genView (setPart s i p) = genView s := rfl
@[simp] theorem genView_setPot (i : Nat) (p : Pot) : genView (setPot s i p) = genView s := rfl
@[simp] theorem genView_setLink (i : Nat) (l : Link) : genView (setLink s i l) = genView s := rfl
@[simp] theorem genView_setSlot (i : Nat) (k : Slot) : genView (setSlot s i k) = genView s := rfl
@[simp] theorem genView_setStream (i : Nat) (t : Stream) : genView (setStream s i t) = genView s := rfl
@[simp] theorem genView_setGather (i : Nat) (x : Gather) : genView (setGather s i x) = genView s := rfl

end

/-! ### Events, frames and replies (R226 to R240) -/

/-- What keeps both earlier views keeps this one. -/
theorem genView_of_views {s t : State} (hfn : fnView t = fnView s) (hfoot : footing t = footing s) :
    genView t = genView s := by
  have hgens : t.part.gens = s.part.gens := congrArg Footing.gens hfoot
  have hfuse : t.fuse = s.fuse := congrArg Footing.fuse hfoot
  have hpre : (fun n => (ring t n).pre) = fun n => (ring s n).pre :=
    funext fun n => congrArg (fun x : Nat × Nat × Tbl Nat => x.2.2) (congrFun (congrArg FnView.heads hfn) n)
  simp only [genView, hgens, hfuse, hpre]

theorem genView_sendTlp (s : State) (fn : Nat) (sub : Fin 3) (addr : Nat) (b : Bytes) :
    genView (sendTlp s fn sub addr b) = genView s :=
  genView_of_views (fnView_sendTlp ..) (footing_of_sameButCmd (sendTlp_same ..))

theorem genView_postEvent (s : State) (fn : Nat) (w : BitVec 128) : genView (postEvent s fn w) = genView s :=
  genView_of_views (fnView_postEvent ..) (footing_of_sameButCmd (postEvent_same ..))

theorem genView_postFence (s : State) (fn vec : Nat) (irq : Bool) (w : BitVec 128) :
    genView (postFence s fn vec irq w) = genView s := by
  refine genView_of_views ?_ (footing_of_sameButCmd (postFence_same ..))
  unfold postFence
  dsimp only
  split
  · exact (fnView_raiseVec ..).trans (fnView_putEvent ..)
  · exact fnView_putEvent ..

theorem genView_postBoth (s : State) (pid type : Nat) (b0 : BitVec 32) (b8 b15 : Nat) :
    genView (postBoth s pid type b0 b8 b15) = genView s :=
  genView_of_views (fnView_postBoth ..) (footing_of_sameButCmd (postBoth_same ..))

theorem genView_finish (s : State) (t : Ticket) (st : Status) (r : BitVec 192) :
    genView (finish s t st r) = genView s :=
  genView_of_views (fnView_finish ..) (footing_finish ..)

@[simp] theorem genView_finishWaits (s : State) (p : Wait → Bool) (st : Status) (r : BitVec 192) :
    genView (finishWaits s p st r) = genView s :=
  genView_of_views (fnView_finishWaits ..) (footing_finishWaits ..)

theorem genView_push (s : State) (f : OutFrame) : genView (push s f) = genView s := by
  unfold push
  split <;> rfl

@[simp] theorem genView_sendFrame (s : State) (cls : BitVec 4) (dst : Nat) (sptag dptag : BitVec 16) (d : Desc)
    (body : Bytes) (track : Nat) (retry poison : Bool) :
    genView (sendFrame s cls dst sptag dptag d body track retry poison) = genView s := genView_push ..

@[simp] theorem genView_sendResp (s : State) (dst : Nat) (sptag dptag : BitVec 16) (kind : BitVec 8) (id : BitVec 40)
    (st : Status) (data : Bytes) (poison : Bool) (d : Desc) :
    genView (sendResp s dst sptag dptag kind id st data poison d) = genView s := genView_push ..

theorem genView_setMemb (s : State) (m : Memb) : genView (setMemb s m) = genView s := by
  unfold setMemb
  split
  · rfl
  · exact (genView_foldl (fun _ _ => genView_postEvent ..) _ _).trans (genView_postEvent ..)

/-! ### Contexts and fences (R206 to R211, R216) -/

theorem genView_setKill (s : State) (pid : Nat) (k : Kill) : genView (setKill s pid k) = genView s := rfl

theorem genView_countStopped (s : State) (i : Nat) : genView (countStopped s i) = genView s := by
  unfold countStopped
  dsimp only
  split
  · split <;> rfl
  · rfl

@[simp] theorem genView_dropSignals (s : State) (p : HeldSignal → Bool) : genView (dropSignals s p) = genView s := rfl
@[simp] theorem genView_dropTracked (s : State) (h : BitVec 32) : genView (dropTracked s h) = genView s := rfl
@[simp] theorem genView_unbindDma (s : State) (i : Nat) : genView (unbindDma s i) = genView s := rfl

@[simp] theorem genView_loseCtx (s : State) (i : Nat) (f : CtxFault) (addr : BitVec 48) (node : BitVec 14) :
    genView (loseCtx s i f addr node) = genView s := by
  unfold loseCtx
  dsimp only
  split
  · rfl
  · rw [genView_postBoth, genView_finishWaits, genView_partCtr, genView_setPart', genView_setCtx, genView_dropSignals,
      genView_dropTracked, genView_unbindDma]
    split
    · exact genView_countStopped ..
    · exact genView_countStopped ..

theorem genView_losePid (s : State) (pid : Nat) (f : CtxFault) : genView (losePid s pid f) = genView s :=
  genView_foldl (fun _ _ => genView_loseCtx ..) _ s

@[simp] theorem genView_loseHandle (s : State) (h : BitVec 32) (f : CtxFault) (addr : BitVec 48) (node : BitVec 14) :
    genView (loseHandle s h f addr node) = genView s := by
  unfold loseHandle
  split
  · exact genView_loseCtx ..
  · rfl

@[simp] theorem genView_startCmd (s : State) (h : BitVec 32) : genView (startCmd s h) = genView s := by
  unfold startCmd
  dsimp only
  split <;> rfl

@[simp] theorem genView_enterCommit (s : State) (h : BitVec 32) : genView (enterCommit s h) = genView s := by
  unfold enterCommit
  dsimp only
  split
  · exact genView_startCmd ..
  · exact genView_startCmd ..

@[simp] theorem genView_evictCtx (s : State) (i : Nat) : genView (evictCtx s i) = genView s := by
  unfold evictCtx
  dsimp only
  split <;> rfl

theorem genView_endSave (s : State) (i : Nat) : genView (endSave s i) = genView s := by
  unfold endSave
  split
  · exact (genView_finishWaits ..).trans (genView_evictCtx ..)
  · rfl

theorem genView_wake (s : State) (i : Nat) (st : BitVec 8) : genView (wake s i st) = genView s := rfl

@[simp] theorem genView_signalFence (s : State) (h : BitVec 32) (v : BitVec 64) (st : BitVec 8) (ptag : BitVec 16) :
    genView (signalFence s h v st ptag).1 = genView s := by
  unfold signalFence
  dsimp only
  split
  · rfl
  · split
    · exact (genView_postFence ..).trans ((genView_foldl (fun _ _ => genView_wake ..) _ _).trans rfl)
    · split
      · rfl
      · exact (genView_postFence ..).trans ((genView_foldl (fun _ _ => genView_wake ..) _ _).trans rfl)

/-- A signal that is applied and may lose its context. -/
theorem genView_signalOr {s : State} (h : BitVec 32) (v : BitVec 64) (st : BitVec 8) (ptag : BitVec 16) (i : Nat) :
    genView (if (signalFence s h v st ptag).2 == .oooStrict then loseCtx (signalFence s h v st ptag).1 i .fence
      else (signalFence s h v st ptag).1) = genView s := by
  split
  · exact (genView_loseCtx ..).trans (genView_signalFence ..)
  · exact genView_signalFence ..

theorem genView_queueSignal (s : State) (x : HeldSignal) : genView (queueSignal s x) = genView s := by
  unfold queueSignal
  dsimp only
  split
  · rfl
  · split
    · exact genView_startCmd s x.ctx
    · split
      · exact (genView_loseCtx ..).trans (genView_enterCommit ..)
      · exact (genView_signalOr ..).trans (genView_enterCommit ..)

theorem genView_commitReq (s : State) (h : BitVec 32) : genView (commitReq s h) = genView s := by
  unfold commitReq
  dsimp only
  split
  · rfl
  · split
    · exact genView_startCmd s h
    · exact genView_enterCommit s h

theorem genView_releaseCommits (s : State) (pid : Nat) : genView (releaseCommits s pid) = genView s := by
  unfold releaseCommits
  dsimp only
  split
  · rfl
  · refine (genView_foldl genView_queueSignal _ _).trans ?_
    exact genView_foldl (fun s i => (genView_commitReq ..).trans (genView_setCtx ..)) _ s

/-! ### Alarms, quarantine and zeroise (R12, R265, R369) -/

theorem genView_owe (s : State) (p : Nat) (cls : BitVec 4) (flits : Nat) : genView (owe s p cls flits) = genView s := by
  unfold owe
  dsimp only
  split <;> rfl

theorem genView_portTo (s : State) (p : Nat) (st : PortState) : genView (portTo s p st) = genView s := by
  unfold portTo
  dsimp only
  refine (genView_foldl (fun s h => (genView_setLink ..).trans (genView_owe ..)) _ _).trans ?_
  rw [genView_setLink]
  split <;> rfl

theorem genView_postRinseDone (s : State) (k : RinseTkt) (st : Status) : genView (postRinseDone s k st) = genView s := by
  unfold postRinseDone
  split
  · exact genView_postEvent ..
  · rfl

theorem genView_stopRinse (s : State) : genView (stopRinse s) = genView s :=
  (genView_foldl (fun _ _ => genView_postRinseDone ..) _ _).trans (genView_setMem s _)

theorem genView_dropInput (s : State) (p : FoldFrame → Bool) : genView (dropInput s p) = genView s := by
  refine genView_foldl (fun s u => ?_) _ s
  dsimp only
  split
  · rfl
  · exact (genView_foldl (fun _ _ => genView_owe ..) _ _).trans rfl

theorem genView_freePlans (l : List Nat) (s : State) (st : Status) :
    genView (l.foldl (fun s n => endDisarms (setPlan s n {}) n st) s) = genView s :=
  genView_foldl (fun s n => genView_finishWaits (setPlan s n {}) _ st 0) l s

theorem genView_zeroBlocks (s : State) (l : List Nat) : genView (zeroBlocks s l) = genView s := rfl

theorem genView_foldQuarantine (s : State) : genView (foldQuarantine s) = genView s := by
  unfold foldQuarantine
  dsimp only
  rw [genView_zeroBlocks, genView_dropInput, genView_freePlans]

theorem genView_foldTeardown (s : State) (pid : Nat) : genView (foldTeardown s pid) = genView s := by
  unfold foldTeardown
  dsimp only
  rw [genView_zeroBlocks, genView_dropInput, genView_freePlans]

theorem genView_clearSlot (s : State) (i : Nat) : genView (clearSlot s i) = genView s := rfl

theorem genView_loseParts (s : State) : genView (loseParts s) = genView s :=
  genView_foldl (fun _ _ => genView_losePid ..) _ s

theorem genView_closePorts (s : State) : genView (closePorts s) = genView s :=
  (genView_finishWaits ..).trans (genView_foldl (fun _ _ => genView_portTo ..) _ s)

theorem genView_markQuarantined (s : State) : genView (markQuarantined s) = genView s := rfl

@[simp] theorem genView_quarantine (s : State) : genView (quarantine s) = genView s := by
  by_cases h : s.range.memb = .quarantined
  · simp [quarantine, h]
  · rw [quarantine_steps h, genView_setMemb, genView_markQuarantined, endRangeWaits, genView_finishWaits, clearRangeSlots,
      genView_foldl fun _ _ => genView_clearSlot .., genView_foldQuarantine, genView_stopRinse, genView_closePorts,
      genView_loseParts]

theorem genView_bootStop (s : State) (cause : Nat) : genView (bootStop s cause) = genView s := by
  unfold bootStop
  split <;> rfl

/-- The key registers of the ports are cleared. -/
def clearPortKeys (s : State) : State :=
  allPorts.foldl (fun s p => setLink s p { link s p with txCur := none, txNext := none, rxCur := none, rxOther := none }) s

theorem genView_clearPortKeys (s : State) : genView (clearPortKeys s) = genView s :=
  genView_foldl (fun s p => genView_setLink s p _) _ s

/-- The slots, the engines' keys, the Iron contexts and the keys of an offer are cleared. -/
def clearStores (s : State) : State :=
  { s with
    keys := { s.keys with slots := tmapAll {} s.keys.slots (fun _ k => { inc := k.inc }), chkKey := 0 }
    mem := { s.mem with keys := [], rinseKey := none, tree := 0, ikey := 0 }
    part := { s.part with ide := tmapAll {} s.part.ide fun _ x => { assoc := x.assoc } }
    iron := { s.iron with bufs := [], fw := [], ctxs := tmapAll {} s.iron.ctxs fun _ c =>
      if c.state == .opened || c.state == .held then { last := c.last, consumed := c.consumed } else c }
    range := { s.range with pair := { s.range.pair with offer := none } } }

theorem flashClear_steps (s : State) : flashClear s = clearPortKeys (clearStores s) := rfl

theorem genView_clearStores (s : State) : genView (clearStores s) = genView s := rfl

theorem genView_flashClear (s : State) : genView (flashClear s) = genView s := by
  rw [flashClear_steps, genView_clearPortKeys, genView_clearStores]

/-- The alarm pin, and the chip marked as zeroised. -/
def markZeroised (s : State) : State :=
  { s with keys := { s.keys with zeroised := true }, boot := { s.boot with alarmN := true } }

theorem zeroise_steps (s : State) :
    zeroise s = quarantine (emit (markZeroised (flashClear (bootStop s 9))) .zeroiseLine) := rfl

theorem genView_markZeroised (s : State) : genView (markZeroised s) = genView s := rfl

theorem genView_zeroise (s : State) : genView (zeroise s) = genView s := by
  rw [zeroise_steps, genView_quarantine, genView_emit, genView_markZeroised, genView_flashClear, genView_bootStop]

theorem genView_queueEntry (s : State) (kind level source pid detail : Nat) :
    genView (queueEntry s kind level source pid detail) = genView s := by
  unfold queueEntry
  split <;> rfl

theorem genView_logEntry (s : State) (kind level source pid detail : Nat) :
    genView (logEntry s kind level source pid detail) = genView s := rfl

@[simp] theorem genView_raiseAlarm (s : State) (cls : AlarmClass) (pid : Nat) (lvl : Level) (port src detail : Nat)
    (tarn : Bool) : genView (raiseAlarm s cls pid lvl port src detail tarn) = genView s := by
  unfold raiseAlarm
  dsimp only
  generalize maxLevel lvl _ = l
  generalize hu : postBoth _ _ _ _ _ _ = u
  have hlogged : genView u = genView s := by
    rw [← hu, genView_postBoth]
    cases tarn with
    | true => exact (genView_logEntry ..).trans (genView_setAlarm s _)
    | false => exact (genView_queueEntry ..).trans (genView_setAlarm s _)
  cases l with
  | notice => exact hlogged
  | partition => exact (genView_losePid ..).trans hlogged
  | quarantine => exact (genView_quarantine u).trans hlogged
  | zeroise => exact (genView_zeroise u).trans hlogged

end Sys2Proof.Machine

/-! PROOFS. The memory engines and the generations (05 R123 to R157). -/

namespace Sys2Proof.Machine

/-! ## The memory engines (R123 to R157) -/

@[simp] theorem genView_charge (s : State) (e client n : Nat) (rt : Bool) :
    genView (charge s e client n rt) = genView s := by
  unfold charge
  dsimp only
  split <;> rfl

theorem genView_noteLate (s : State) (pl : Nat) (write : Bool) (pri : Pri) :
    genView (noteLate s pl write pri) = genView s := by
  unfold noteLate
  split <;> rfl

@[simp] theorem genView_mcRead (s : State) (client : Nat) (rt : Bool) (pl : Nat) :
    genView (mcRead s client rt pl) = genView s := by
  rw [mcRead, genView_emit, genView_noteLate, genView_charge]

@[simp] theorem genView_mcWrite (s : State) (client : Nat) (rt : Bool) (pl : Nat) (d : Sector) :
    genView (mcWrite s client rt pl d) = genView s := by
  rw [mcWrite, genView_emit, genView_noteLate, genView_charge]

@[simp] theorem genView_memAlarm (s : State) (e pid : Nat) (lvl : Level) :
    genView (memAlarm s e pid lvl) = genView s := by
  rw [memAlarm, genView_raiseAlarm, genView_setMx]

theorem genView_darnRecord (s : State) (e key pid : Nat) : genView (darnRecord s e key pid) = genView s := by
  unfold darnRecord
  dsimp only
  split
  · exact (genView_memAlarm ..).trans (genView_mxCtr ..)
  · rfl

theorem genView_darnRead (s : State) (e key : Nat) : genView (darnRead s e key) = genView s := by
  unfold darnRead
  dsimp only
  split <;> rfl

theorem genView_verifySector (s : State) (e key pid : Nat) (mac : Sector → BitVec 64) (ct : Sector) (tag : BitVec 64) :
    genView (verifySector s e key pid mac ct tag).1 = genView s := by
  unfold verifySector
  dsimp only
  split
  · exact genView_darnRead ..
  · split
    · exact (genView_darnRecord ..).trans (genView_darnRead ..)
    · exact genView_darnRead ..

/-! ### The cairn cache (R135, R148, R150) -/

@[simp] theorem genView_cairnSet (s : State) (c : CLine) : genView (cairnSet s c) = genView s := by
  unfold cairnSet
  dsimp only
  split <;> rfl

theorem genView_cairnDrop (s : State) (p : Nat) : genView (cairnDrop s p) = genView s := rfl

@[simp] theorem genView_want (s : State) (client : Nat) (rt : Bool) (p : Nat) :
    genView (want s client rt p) = genView s := by
  unfold want
  dsimp only
  split
  · rfl
  · exact (genView_mcRead ..).trans (genView_setMx ..)

@[simp] theorem genView_wantLine (s : State) (client : Nat) (rt : Bool) (f p : Nat) :
    genView (wantLine s client rt f p) = genView s := by
  induction f generalizing s p with
  | zero => rfl
  | succ f ih =>
    unfold wantLine
    split
    · rfl
    · split
      · exact genView_want ..
      · split
        · rfl
        · exact (ih ..).trans (genView_want ..)

theorem genView_overflow (s : State) (client : Nat) (c : CLine) (i base : Nat) :
    genView (overflow s client c i base) = genView s := by
  unfold overflow
  dsimp only
  rw [genView_foldl fun _ _ => genView_mcRead .., genView_setMx, genView_cairnSet]

theorem genView_bumpLine {s t : State} {client : Nat} {c : CLine} {i base : Nat}
    (h : bumpLine s client c i base = some t) : genView t = genView s := by
  unfold bumpLine at h
  dsimp only at h
  split at h
  · cases h
    exact genView_cairnSet ..
  · split at h
    · cases h
      exact genView_overflow ..
    · cases h

theorem genView_lineOut {s t : State} {c : CLine} (h : lineOut s c = some t) : genView t = genView s := by
  unfold lineOut at h
  dsimp only at h
  obtain ⟨u, hu, rfl⟩ := Option.map_eq_some_iff.mp h
  rw [genView_mcWrite]
  split at hu
  · cases hu
    rfl
  · split at hu
    · cases hu
    · obtain ⟨x, -, hx⟩ := Option.bind_eq_some_iff.mp hu
      exact genView_bumpLine hx

theorem genView_giveUp (s : State) (c : CLine) : genView (giveUp s c) = genView s := by
  unfold giveUp
  dsimp only
  split
  · exact genView_cairnDrop ..
  · split
    · split
      · next h => exact (genView_cairnDrop ..).trans (genView_lineOut h)
      · split
        · exact (genView_wantLine ..).trans (genView_cairnSet ..)
        · exact genView_cairnSet ..
    · split
      · exact (genView_mcWrite ..).trans (genView_cairnDrop ..)
      · exact (genView_want ..).trans (genView_cairnSet ..)

theorem genView_cairnPut (s : State) (c : CLine) : genView (cairnPut s c) = genView s := by
  unfold cairnPut
  dsimp only
  have hgive (t : State) (l : List CLine) : genView (match l[Config.victim c.pl % l.length]? with
      | some v => giveUp t v
      | none => t) = genView t := by
    split
    · exact genView_giveUp ..
    · rfl
  split
  · exact genView_cairnSet ..
  · split
    · exact (hgive _ _).trans (genView_setMx ..)
    · split
      · exact (hgive _ _).trans (genView_setMx ..)
      · exact genView_setMx ..

theorem genView_tagSet (s : State) (client p : Nat) (t : BitVec 64) : genView (tagSet s client p t) = genView s :=
  genView_cairnPut ..

/-! ### Sectors (R137 to R145) -/

theorem genView_writeSector {s t : State} {client : Nat} {rt : Bool} {en : Pot} {sector : Nat} {pt : Sector}
    (h : writeSector s client rt en sector pt = some t) : genView t = genView s := by
  unfold writeSector at h
  dsimp only at h
  split at h
  · cases h
    exact genView_mcWrite ..
  · obtain ⟨u, hu, rfl⟩ := Option.map_eq_some_iff.mp h
    rw [genView_tagSet, genView_mcWrite]
    split at hu
    · obtain ⟨c, -, hc⟩ := Option.bind_eq_some_iff.mp hu
      exact genView_bumpLine hc
    · cases hu
      rfl

theorem genView_poisonSector (s : State) (e pid : Nat) : genView (poisonSector s e pid) = genView s := by
  unfold poisonSector poisonAlarm
  split
  · rfl
  · exact (genView_memAlarm ..).trans rfl

theorem genView_darnBack (s : State) (pid p : Nat) (old new : Sector × BitVec 64) :
    genView (darnBack s pid p old new) = genView s := by
  unfold darnBack
  split
  · exact genView_mcWrite ..
  · split
    · dsimp only
      split
      · split
        · exact (genView_mcWrite ..).trans (genView_tagSet ..)
        · exact genView_tagSet ..
      · exact genView_tagSet ..
    · rfl

theorem genView_openSector (s : State) (e : Nat) (en : Pot) (sector : Nat) (ct : Sector) (tag : BitVec 64) :
    genView (openSector s e en sector ct tag).1 = genView s := by
  unfold openSector
  split
  · rfl
  · split
    · rfl
    · have h := genView_verifySector s e sector en.pid (macOf s en sector (sectorVersion s en sector)) ct tag
      split
      · next hv =>
        rw [hv] at h
        exact (genView_darnBack ..).trans h
      · next hv =>
        rw [hv] at h
        exact h

/-! ### Answers to remote requests (R77, R84 to R86) -/

theorem genView_answer (s : State) (g : Ingress) (kind : BitVec 8) (st : Status) (data : Bytes) (poison : Bool) :
    genView (answer s g kind st data poison) = genView s := genView_sendResp ..

theorem genView_refuse (s : State) (g : Ingress) (st : Status) : genView (refuse s g st) = genView s := by
  unfold refuse
  split
  · exact genView_answer ..
  · split
    · exact genView_answer ..
    · rfl

theorem genView_dropPending (s : State) (g : Ingress) : genView (dropPending s g) = genView s := rfl

theorem genView_keepResult (s : State) (g : Ingress) (v : BitVec 64) : genView (keepResult s g v) = genView s := rfl

theorem genView_endSeam (s : State) (g : Ingress) (ok : Bool) : genView (endSeam s g ok) = genView s := by
  unfold endSeam
  rw [genView_answer]
  split <;> rfl

theorem genView_finishReq (s : State) (g : Ingress) (x : Gather) : genView (finishReq s g x) = genView s := by
  unfold finishReq
  simp only [apply_ite genView, genView_endSeam, genView_refuse, genView_answer, genView_sendFrame, genView_dropPending,
    genView_keepResult, ite_self]

theorem genView_endPiece (s : State) (g : Ingress) (x : Gather) : genView (endPiece s g x) = genView s := by
  unfold endPiece
  dsimp only
  split
  · exact (genView_finishReq ..).trans (genView_setGather ..)
  · rfl

theorem genView_acceptPiece (s : State) (g : Ingress) (bad : Bool) : genView (acceptPiece s g bad) = genView s := by
  unfold acceptPiece
  dsimp only
  split <;> rfl

theorem genView_targetDeny (s : State) (g : Ingress) : genView (targetDeny s g) = genView s :=
  (genView_endPiece ..).trans (genView_acceptPiece ..)

theorem genView_targetStale (s : State) (g : Ingress) : genView (targetStale s g) = genView s := by
  unfold targetStale
  split <;> rfl

/-! ### Requests (R127, R132, R141, R151) -/

@[simp] theorem genView_toMaster (s : State) (e : Nat) (o : OpenReq) (data : Bytes) (read : Bool) :
    genView (toMaster s e o data read) = genView s := by
  unfold toMaster
  dsimp only
  split
  · rfl
  · exact genView_loseHandle ..

@[simp] theorem genView_endNear (s : State) (k : BitVec 40) : genView (endNear s k) = genView s := rfl

theorem genView_respond (s : State) (e : Nat) (o : OpenReq) (data : Bytes) :
    genView (respond s e o data) = genView s := by
  unfold respond
  dsimp only
  split
  · split
    · exact genView_targetStale ..
    · rfl
    · rfl
  · split
    · rfl
    · exact genView_toMaster ..
    · exact genView_endPiece ..
    · rw [genView_toMaster]
      split
      · exact genView_sendTlp ..
      · rfl

@[simp] theorem genView_sectorDone (s : State) (e rid sector : Nat) (got : Option Sector) (old : Bytes) (poison : Bool) :
    genView (sectorDone s e rid sector got old poison) = genView s := by
  unfold sectorDone
  dsimp only
  split
  · rfl
  · split
    · exact (genView_respond ..).trans (genView_setMx ..)
    · rfl

theorem genView_popOp (s : State) (e sector : Nat) : genView (popOp s e sector) = genView s := rfl

theorem genView_failOp (s : State) (e : Nat) (en : Pot) (o : SecOp) : genView (failOp s e en o) = genView s := by
  rw [failOp, genView_sectorDone, genView_poisonSector, genView_popOp]

theorem genView_askFor (s : State) (e : Nat) (q : OpenReq) (en : Pot) (o : SecOp) :
    genView (askFor s e q en o) = genView s := by
  unfold askFor
  simp only [apply_ite genView, genView_wantLine, genView_want, genView_mcRead, genView_setMx, ite_self]

theorem genView_applyRead (s : State) (e : Nat) (q : OpenReq) (o : SecOp) (en : Pot) (pt : Sector) :
    genView (applyRead s e q o en pt) = genView s := by
  unfold applyRead
  dsimp only
  split
  · exact (genView_sectorDone ..).trans (genView_popOp ..)
  · split
    · next h =>
      rw [genView_sectorDone, genView_popOp, genView_writeSector h]
      rfl
    · rw [genView_failOp]
      rfl

theorem genView_applyWrite (s : State) (e : Nat) (q : OpenReq) (o : SecOp) (en : Pot) :
    genView (applyWrite s e q o en) = genView s := by
  unfold applyWrite
  dsimp only
  split
  · next h => rw [genView_sectorDone, genView_popOp, genView_writeSector h]
  · exact genView_failOp ..

theorem genView_tryOp {s t : State} {e : Nat} {q : OpenReq} {o : SecOp} {en : Pot} (h : tryOp s e q o en = some t) :
    genView t = genView s := by
  unfold tryOp at h
  dsimp only at h
  split at h
  · cases h
  · split at h
    · cases h
      exact genView_applyWrite ..
    · split at h
      · next ct tag _ _ =>
        have hopen := genView_openSector s e en o.sector ct tag
        split at h
        · next hv =>
          rw [hv] at hopen
          cases h
          exact (genView_applyRead ..).trans hopen
        · next hv =>
          rw [hv] at hopen
          cases h
          exact (genView_failOp ..).trans hopen
      · cases h

theorem genView_pump (s : State) (e sector f : Nat) : genView (pump s e sector f) = genView s := by
  induction f generalizing s with
  | zero => rfl
  | succ f ih =>
    unfold pump
    dsimp only
    split
    · rfl
    · split
      · exact (ih _).trans (genView_popOp ..)
      · split
        · exact (ih _).trans (genView_failOp ..)
        · split
          · rfl
          · split
            · next h => exact (ih _).trans (genView_tryOp h)
            · exact genView_askFor ..

theorem genView_pumpAll (s : State) (e : Nat) (l : List Nat) : genView (pumpAll s e l) = genView s :=
  genView_foldl (fun _ _ => genView_pump ..) l s

theorem genView_enterReq (s : State) (e : Nat) (r : MxReq) (w : Waiter) : genView (enterReq s e r w) = genView s := by
  rw [enterReq, genView_pumpAll]
  rfl

theorem genView_tellMaster (s : State) (e : Nat) (q : Parked) (g : Gnt) : genView (tellMaster s e q g) = genView s := by
  unfold tellMaster
  split <;> rfl

theorem genView_denied (s : State) (r : MxReq) : genView (denied s r) = genView s := by
  unfold denied
  split
  · rfl
  · exact genView_loseHandle ..

theorem genView_settle (s : State) (e : Nat) (q : Parked) (g : Gnt) : genView (settle s e q g) = genView s := by
  have htold := genView_tellMaster s e q g
  unfold settle
  dsimp only
  cases g with
  | grant =>
    dsimp only
    rw [genView_enterReq]
    split
    · exact (genView_acceptPiece ..).trans htold
    · exact htold
  | deny =>
    dsimp only
    split
    · exact (genView_denied ..).trans htold
    · exact (genView_denied ..).trans htold
    · exact htold
    · exact (genView_targetDeny ..).trans htold
  | stale =>
    dsimp only
    split
    · exact (genView_targetStale ..).trans htold
    · exact htold
    · exact htold
  | stall => exact htold

theorem genView_startWalk (s : State) (e client page : Nat) : genView (startWalk s e client page) = genView s := by
  unfold startWalk
  dsimp only
  split
  · rfl
  · exact (genView_mcRead ..).trans (genView_setMx ..)

theorem genView_parkReq (s : State) (e : Nat) (q : Parked) : genView (parkReq s e q) = genView s := by
  have htold (t : State) : genView (tellMaster t e q .stall) = genView t := genView_tellMaster ..
  unfold parkReq
  dsimp only
  split
  · exact htold _
  · split
    · exact htold _
    · exact (genView_startWalk ..).trans (htold _)

theorem genView_present {s t : State} {q : Parked} (h : present s q = some t) : genView t = genView s := by
  unfold present at h
  dsimp only at h
  split at h
  · cases h
  · cases h
    split
    · exact genView_parkReq ..
    · exact genView_settle ..

theorem genView_redecide (s : State) (e page : Nat) : genView (redecide s e page) = genView s :=
  (genView_foldl (fun _ _ => genView_settle ..) _ _).trans (genView_setMx ..)

/-! ### Entries of the POT (R130) -/

theorem genView_setEntry (s : State) (page : Nat) (x : Pot) : genView (setEntry s page x) = genView s := by
  unfold setEntry
  dsimp only
  split
  · cases h : writeSector (setPot s page x) 0 true (pot (setPot s page x) (sectorPage (potSector (setPot s page x) page)))
        (potSector (setPot s page x) page) (potImage (setPot s page x) page) with
    | some t => exact (genView_writeSector h).trans (genView_setPot ..)
    | none => exact (genView_memAlarm ..).trans (genView_setPot ..)
  · rfl

theorem genView_install (s : State) (page : Nat) : genView (install s page) = genView s := by
  unfold install
  dsimp only
  refine (genView_foldl (fun s e => ?_) _ _).trans (genView_setMem s _)
  rw [genView_redecide, cacheIn, genView_setMx, genView_setMx]

end Sys2Proof.Machine

/-! PROOFS. Remote requests, kills and resets, and the generations (06 R163 to R190, 07 R211, R212). -/

namespace Sys2Proof.Machine

/-! ## Streams and requests of this chip (R163 to R190) -/

theorem genView_askStream (s : State) (t : SrcStream) : genView (askStream s t) = genView s := genView_sendFrame ..

theorem genView_askNext (s : State) : genView (askNext s) = genView s := by
  unfold askNext
  split
  · split
    · exact genView_askStream ..
    · rfl
  · rfl

theorem genView_closeStream (s : State) (t : SrcStream) : genView (closeStream s t) = genView s := by
  unfold closeStream
  dsimp only
  rw [genView_askNext]
  split
  · exact genView_sendFrame ..
  · rfl

theorem genView_closeStreams (s : State) (pid : Nat) : genView (closeStreams s pid) = genView s :=
  genView_foldl (fun _ _ => genView_closeStream ..) _ s

@[simp] theorem genView_sourceDeny (s : State) (r : RReq) : genView (sourceDeny s r) = genView s := genView_loseHandle ..

theorem genView_putStream (s : State) (t : SrcStream) : genView (putStream s t) = genView s := rfl

theorem genView_dropAtomic (s : State) (id : BitVec 40) : genView (dropAtomic s id) = genView s := rfl

theorem genView_sendWrite (s : State) (t : SrcStream) (r : RReq) : genView (sendWrite s t r) = genView s := by
  unfold sendWrite
  dsimp only
  split
  · exact genView_sendFrame ..
  · exact genView_sendFrame ..

theorem genView_failRelease (f : CtxFault) (node : Nat) (s : State) (k : Release) :
    genView (failRelease f node s k) = genView s := by
  unfold failRelease
  dsimp only
  rw [genView_loseHandle]
  split <;> rfl

theorem genView_denyWaiting (s : State) (r : RReq) (node : Nat) : genView (denyWaiting s r node) = genView s := by
  unfold denyWaiting
  dsimp only
  split
  · exact (genView_foldl (fun _ _ => genView_failRelease ..) _ _).trans (genView_sourceDeny ..)
  · exact genView_sourceDeny ..

theorem genView_joinStream (s : State) (r : RReq) (node : Nat) : genView (joinStream s r node) = genView s := by
  unfold joinStream
  dsimp only
  split
  · split
    · rfl
    · exact genView_askNext ..
  · exact genView_askNext ..

theorem genView_closeAndResume (s : State) (t : SrcStream) : genView (closeAndResume s t) = genView s := by
  refine (genView_foldl (fun s r => ?_) _ _).trans (genView_closeStream ..)
  split
  · exact genView_joinStream ..
  · rfl

theorem genView_pumpStream (s : State) (pid node f : Nat) : genView (pumpStream s pid node f) = genView s := by
  induction f generalizing s with
  | zero => rfl
  | succ f ih =>
    unfold pumpStream
    dsimp only
    split
    · rfl
    · split
      · rfl
      · split
        · exact (ih _).trans (genView_denyWaiting ..)
        · split
          · rfl
          · split
            · exact genView_closeAndResume ..
            · exact (ih _).trans (genView_sendWrite ..)

theorem genView_pumpNow (s : State) (pid node : Nat) : genView (pumpNow s pid node) = genView s := by
  unfold pumpNow
  split
  · exact genView_pumpStream ..
  · rfl

@[simp] theorem genView_writeReq (s : State) (r : RReq) (node : Nat) : genView (writeReq s r node) = genView s :=
  (genView_pumpNow ..).trans (genView_joinStream ..)

theorem genView_takeNum (s : State) (r : RReq) : genView (takeNum s r).1 = genView s := rfl

theorem genView_flushStreams (s : State) (r : RReq) (scope : Nat) : genView (flushStreams s r scope) = genView s := by
  refine genView_foldl (fun s t => ?_) _ s
  exact (genView_writeReq ..).trans (genView_takeNum ..)

theorem genView_firstAtomic (s : State) (a : AtomEnt) : genView (firstAtomic s a) = genView s := by
  unfold firstAtomic
  dsimp only
  split
  · exact genView_sourceDeny ..
  · exact genView_sendFrame ..

theorem genView_presentEach {w : Waiter} (l : List MxReq) {s t : State}
    (h : l.foldlM (fun s q => present s { req := q, who := w }) s = some t) : genView t = genView s := by
  induction l generalizing s with
  | nil =>
    cases h
    rfl
  | cons q l ih =>
    obtain ⟨u, hu, hl⟩ := Option.bind_eq_some_iff.mp h
    exact (ih hl).trans (genView_present hu)

theorem genView_presentLocal {s t : State} {r : RReq} {near : Option (BitVec 40)}
    (h : presentLocal s r near = some t) : genView t = genView s := by
  unfold presentLocal at h
  dsimp only at h
  split at h
  · cases h
    rfl
  · exact (genView_presentEach _ h).trans (genView_emit ..)

theorem genView_sealRelease (s : State) (k : Release) : genView (sealRelease s k) = genView s := by
  unfold sealRelease
  dsimp only
  split
  · cases h : presentLocal s k.req k.near with
    | none => rfl
    | some t => exact (genView_setRmt t _).trans (genView_presentLocal h)
  · split
    · split
      · exact genView_firstAtomic ..
      · rfl
    · exact genView_writeReq ..

@[simp] theorem genView_beginRelease (s : State) (r : RReq) (atom near : Option (BitVec 40)) :
    genView (beginRelease s r atom near) = genView s := by
  have hflush := genView_flushStreams (takeNum s r).1 r (scopeOf r.op)
  unfold beginRelease
  dsimp only
  split
  · exact (genView_sealRelease ..).trans hflush
  · exact hflush

theorem genView_addAcquire (s : State) (r : RReq) (tag : BitVec 40) (atomic : Bool) :
    genView (addAcquire s r tag atomic) = genView s := rfl

theorem genView_sendTracked (s : State) (r : RReq) (node : Nat) (d : Desc) (body : Bytes) :
    genView (sendTracked s r node d body) = genView s := genView_sendFrame ..

theorem genView_reqLoad (s : State) (r : RReq) (node : Nat) : genView (reqLoad s r node) = genView s := by
  unfold reqLoad
  dsimp only
  split
  · rfl
  · rw [genView_sendTracked]
    split <;> rfl

theorem genView_reqTracked {s : State} {r : RReq} {node : Nat} {d : Desc} {body : Bytes} (c : Prop) [Decidable c] :
    genView (if c then s else sendTracked s r node d body) = genView s := by
  split
  · rfl
  · exact genView_sendTracked ..

theorem genView_bulkPiece (r : RReq) (node : Nat) (xfer : BitVec 40) (s : State) (i : Nat) :
    genView (bulkPiece r node xfer s i) = genView s := genView_sendFrame ..

theorem genView_reqBulkWr (s : State) (r : RReq) (node : Nat) : genView (reqBulkWr s r node) = genView s :=
  genView_foldl (genView_bulkPiece r node _) _ s

theorem genView_reqStore (s : State) (r : RReq) (node : Nat) : genView (reqStore s r node) = genView s := by
  unfold reqStore
  split
  · exact genView_sendFrame ..
  · exact genView_writeReq ..

theorem genView_reqSeam (s : State) (r : RReq) (node : Nat) : genView (reqSeam s r node) = genView s := by
  unfold reqSeam
  dsimp only
  split
  · split
    · exact genView_beginRelease ..
    · exact (genView_sealRelease ..).trans (genView_takeNum s r)
  · exact (genView_writeReq ..).trans (genView_takeNum s r)

theorem genView_reqAtomic (s : State) (r : RReq) (node : Nat) : genView (reqAtomic s r node) = genView s := by
  unfold reqAtomic
  dsimp only
  split
  · rfl
  · split
    · exact genView_beginRelease ..
    · exact genView_firstAtomic ..

theorem genView_formRequest (s : State) (r : RReq) (node : Nat) : genView (formRequest s r node) = genView s := by
  simp only [formRequest, apply_ite genView, genView_reqLoad, genView_reqStore, genView_reqSeam, genView_reqAtomic,
    genView_reqBulkWr, reqBulkRd, reqFence, genView_sendTracked, ite_self]

theorem genView_holdReq (s : State) (r : RReq) : genView (holdReq s r) = genView s := rfl

theorem genView_presentOrHold {s u : State} {r : RReq} {near : Option (BitVec 40)} (h : genView u = genView s) :
    genView ((presentLocal u r near).getD (holdReq s r)) = genView s := by
  cases hp : presentLocal u r near with
  | none => rfl
  | some t => exact (genView_presentLocal hp).trans h

theorem genView_localReq (s : State) (r : RReq) : genView (localReq s r) = genView s := by
  unfold localReq
  dsimp only
  split
  · exact genView_beginRelease ..
  · split
    · exact genView_beginRelease ..
    · split
      · exact genView_presentOrHold rfl
      · exact genView_presentOrHold rfl

theorem genView_issueReq (s : State) (r : RReq) : genView (issueReq s r) = genView s := by
  have hstarted : genView (if commits r then enterCommit s r.ctx else startCmd s r.ctx) = genView s := by
    split
    · exact genView_enterCommit ..
    · exact genView_startCmd ..
  unfold issueReq
  dsimp only
  split
  · rfl
  · split
    · split
      · rfl
      · exact (genView_localReq ..).trans hstarted
    · split
      · exact (genView_sourceDeny ..).trans (genView_startCmd ..)
      · split
        · rfl
        · exact (genView_formRequest ..).trans hstarted

theorem genView_retryHeld (s : State) : genView (retryHeld s) = genView s :=
  (genView_foldl genView_issueReq _ _).trans (genView_setRmt s _)

/-! ## The ends of a kill and of a reset (R211, R212) -/

theorem genView_restamp (s : State) (pid : Nat) (p : Nat → Bool) : genView (restamp s pid p) = genView s := by
  refine genView_foldl (fun s e => ?_) _ s
  rfl

theorem genView_rewind (s : State) (i : Nat) : genView (rewind s i) = genView s := by
  unfold rewind
  dsimp only
  split <;> rfl

theorem genView_startKill (s : State) (pid : Nat) : genView (startKill s pid) = genView s := by
  unfold startKill
  split
  · dsimp only
    split
    · rfl
    · exact genView_finishWaits ..
  · rfl

theorem genView_endKill (s : State) (pid : Nat) (k : Kill) : genView (endKill s pid k) = genView s := by
  have hclosed : genView (closeStreams (restamp s pid fun _ => true) pid) = genView s :=
    (genView_closeStreams ..).trans (genView_restamp ..)
  have hstopped : genView (k.stopped.foldl endSave (evictCtx (k.stopped.foldl rewind
      (closeStreams (restamp s pid fun _ => true) pid)) k.ctx)) = genView s := by
    rw [genView_foldl genView_endSave, genView_evictCtx, genView_foldl genView_rewind, hclosed]
  have hstart (u : State) : genView (u.part.kills.foldl (fun s x => if x.1 == pid then startKill s pid else s) u) =
      genView u := by
    refine genView_foldl (fun s x => ?_) _ u
    split
    · exact genView_startKill ..
    · rfl
  unfold endKill
  dsimp only
  rw [genView_releaseCommits, hstart]
  split
  · exact (genView_finishWaits ..).trans hstopped
  · exact hstopped

theorem genView_endReset (s : State) (pid : Nat) : genView (endReset s pid) = genView s := by
  have hclosed : genView (closeStreams (restamp s pid fun m => m ≤ 0x8F) pid) = genView s :=
    (genView_closeStreams ..).trans (genView_restamp ..)
  unfold endReset
  dsimp only
  split
  · exact hclosed
  · exact hclosed

end Sys2Proof.Machine

/-! PROOFS. What a teardown ends (02 R46, 07 R214). -/

namespace Sys2Proof.Machine

/-! ## Steps of a teardown (R46, R214)

`WorkView` is what the advance of a reset or a teardown ends or must leave: the started commands, the weight bundles with
their streams and imports, the POT and the peer entries. -/

structure WorkView where
  waits : List Wait
  wb    : WbState
  pot   : Tbl Pot
  peers : Tbl Peer

def workView (s : State) : WorkView := ⟨s.cmd.waits, s.wb, s.mem.pot, s.part.peers⟩

theorem workView_foldl {α : Type} {f : State → α → State} (h : ∀ s a, workView (f s a) = workView s) (l : List α)
    (s : State) : workView (l.foldl f s) = workView s := by
  induction l generalizing s with
  | nil => rfl
  | cons a l ih => exact (ih (f s a)).trans (h s a)

/-! ### Operations that leave it -/

theorem workView_push (s : State) (f : OutFrame) : workView (push s f) = workView s := by
  unfold push
  split <;> rfl

theorem workView_sendFrame (s : State) (cls : BitVec 4) (dst : Nat) (sptag dptag : BitVec 16) (d : Desc)
    (body : Bytes) (track : Nat) (retry poison : Bool) :
    workView (sendFrame s cls dst sptag dptag d body track retry poison) = workView s := workView_push ..

theorem workView_answer (s : State) (g : Ingress) (kind : BitVec 8) (st : Status) (data : Bytes) (poison : Bool) :
    workView (answer s g kind st data poison) = workView s := workView_push ..

theorem workView_freeStream (s : State) (i : Nat) : workView (freeStream s i) = workView s := by
  unfold freeStream
  dsimp only
  have hfirst : workView (match (stream s i).hold.1 with
      | some h => answer (setStream s i { inc := (stream s i).inc }) h.req kSeamFail .errStale
      | none => setStream s i { inc := (stream s i).inc }) = workView s := by
    split
    · exact workView_answer ..
    · rfl
  split
  · exact (workView_answer ..).trans hfirst
  · exact hfirst

theorem workView_freeStreamsOf (s : State) (pid : Nat) : workView (freeStreamsOf s pid) = workView s := by
  refine workView_foldl (fun s i => ?_) _ s
  exact (workView_freeStream ..).trans rfl

theorem workView_setRing (s : State) (n : Nat) (x : Ring) : workView (setRing s n x) = workView s := rfl

theorem workView_askNext (s : State) : workView (askNext s) = workView s := by
  unfold askNext
  split
  · split
    · exact workView_sendFrame ..
    · rfl
  · rfl

theorem workView_closeStream (s : State) (t : SrcStream) : workView (closeStream s t) = workView s := by
  unfold closeStream
  dsimp only
  rw [workView_askNext]
  split
  · exact workView_sendFrame ..
  · rfl

theorem workView_closeStreams (s : State) (pid : Nat) : workView (closeStreams s pid) = workView s :=
  workView_foldl (fun _ _ => workView_closeStream ..) _ s

theorem workView_restamp (s : State) (pid : Nat) (p : Nat → Bool) : workView (restamp s pid p) = workView s := by
  refine workView_foldl (fun s e => ?_) _ s
  rfl

theorem workView_endReset (s : State) (pid : Nat) : workView (endReset s pid) = workView s := by
  have hclosed : workView (closeStreams (restamp s pid fun m => m ≤ 0x8F) pid) = workView s :=
    (workView_closeStreams ..).trans (workView_restamp ..)
  unfold endReset
  dsimp only
  split
  · exact hclosed
  · exact hclosed

theorem workView_stopAll (s : State) (pid : Nat) : workView (stopAll s pid) = workView s := by
  refine workView_foldl (fun s i => ?_) _ s
  rfl

theorem workView_evictCtx (s : State) (i : Nat) : workView (evictCtx s i) = workView s := by
  unfold evictCtx
  dsimp only
  split <;> rfl

theorem workView_dropTracked (s : State) (h : BitVec 32) : workView (dropTracked s h) = workView s := rfl

theorem workView_clearSlot (s : State) (i : Nat) : workView (clearSlot s i) = workView s := rfl

theorem workView_releaseTdi (s : State) (n : Nat) (st : Tdi) : workView (releaseTdi s n st) = workView s := by
  unfold releaseTdi
  dsimp only
  split
  · split
    · exact workView_foldl (fun _ _ => workView_clearSlot ..) _ _
    · rfl
  · rfl

theorem workView_owe (s : State) (p : Nat) (cls : BitVec 4) (flits : Nat) : workView (owe s p cls flits) = workView s := by
  unfold owe
  dsimp only
  split <;> rfl

theorem workView_dropInput (s : State) (p : FoldFrame → Bool) : workView (dropInput s p) = workView s := by
  refine workView_foldl (fun s u => ?_) _ s
  dsimp only
  split
  · rfl
  · exact (workView_foldl (fun _ _ => workView_owe ..) _ _).trans rfl

theorem workView_dropShares (s : State) (pid : Nat) : workView (dropShares s pid) = workView s := by
  unfold dropShares
  dsimp only
  rw [workView_foldl fun s e => ?_, workView_foldl fun s p => ?_]
  · rfl
  · rfl

theorem workView_clearPidSlots (s : State) (pid : Nat) : workView (clearPidSlots s pid) = workView s :=
  workView_foldl workView_clearSlot _ s

theorem workView_ironTeardown (s : State) (pid : Nat) : workView (ironTeardown s pid) = workView s := rfl

theorem workView_setTear (s : State) (pid : Nat) (x : Tear) : workView (setTear s pid x) = workView s := rfl

theorem workView_beginTorn (s : State) (pid : Nat) : workView (beginTorn s pid) = workView s := by
  refine workView_foldl (fun s p => ?_) _ s
  rfl

/-! ### Commands that end -/

/-- Commands that complete leave the started ones, and nothing else that a teardown works on. -/
theorem workView_finishWaits (s : State) (p : Wait → Bool) (st : Status) (r : BitVec 192) :
    workView (finishWaits s p st r) = { workView s with waits := s.cmd.waits.filter fun w => !p w } := by
  have hfinish (s : State) (w : Wait) : workView (finish s w.tkt st r) = workView s := by
    obtain ⟨-, -, -, -, hpart, ⟨hmem, -, -⟩, -, -, -, -, hwb, -⟩ := finishWith_frame s w.tkt st false r
    simp only [workView, finish] at hpart hmem hwb ⊢
    rw [hpart, hmem, hwb]
    exact congrArg (fun l => WorkView.mk l _ _ _) (cmdKept_finish s w.tkt st r).waits
  exact (workView_foldl hfinish _ _).trans rfl

/-- From `s` to `t` started commands, streams and imports only go, and the POT stays. -/
structure WorkShrinks (s t : State) : Prop where
  waits   : t.cmd.waits ⊆ s.cmd.waits
  streams : t.wb.streams ⊆ s.wb.streams
  imports : t.wb.imports ⊆ s.wb.imports
  pot     : t.mem.pot = s.mem.pot

namespace WorkShrinks

theorem trans {s t u : State} (h : WorkShrinks s t) (k : WorkShrinks t u) : WorkShrinks s u :=
  ⟨List.Subset.trans k.waits h.waits, List.Subset.trans k.streams h.streams, List.Subset.trans k.imports h.imports,
    k.pot.trans h.pot⟩

theorem of_view {s t : State} (h : workView t = workView s) : WorkShrinks s t := by
  have hwaits : t.cmd.waits = s.cmd.waits := congrArg WorkView.waits h
  have hwb : t.wb = s.wb := congrArg WorkView.wb h
  exact ⟨by rw [hwaits]; exact List.Subset.refl _, by rw [hwb]; exact List.Subset.refl _,
    by rw [hwb]; exact List.Subset.refl _, congrArg WorkView.pot h⟩

theorem foldl {α : Type} {f : State → α → State} (h : ∀ s a, WorkShrinks s (f s a)) (l : List α) (s : State) :
    WorkShrinks s (l.foldl f s) := by
  induction l generalizing s with
  | nil => exact .of_view rfl
  | cons a l ih => exact (h s a).trans (ih (f s a))

theorem finishWaits (s : State) (p : Wait → Bool) (st : Status) (r : BitVec 192) :
    WorkShrinks s (finishWaits s p st r) := by
  have h := workView_finishWaits s p st r
  have hwaits : (Machine.finishWaits s p st r).cmd.waits = s.cmd.waits.filter fun w => !p w := congrArg WorkView.waits h
  have hwb : (Machine.finishWaits s p st r).wb = s.wb := congrArg WorkView.wb h
  exact ⟨by rw [hwaits]; exact List.filter_subset_self _, by rw [hwb]; exact List.Subset.refl _,
    by rw [hwb]; exact List.Subset.refl _, congrArg WorkView.pot h⟩

end WorkShrinks

theorem workView_zeroBlocks (s : State) (l : List Nat) : workView (zeroBlocks s l) = workView s := rfl

theorem workView_setPlan (s : State) (n : Nat) (p : FoldPlan) : workView (setPlan s n p) = workView s := rfl

theorem workShrinks_foldTeardown (s : State) (pid : Nat) : WorkShrinks s (foldTeardown s pid) := by
  have hplans (l : List Nat) : WorkShrinks s (l.foldl (fun s n => endDisarms (setPlan s n {}) n .errLost) s) :=
    .foldl (fun s n => .trans (.of_view (workView_setPlan s n {})) (.finishWaits ..)) l s
  unfold foldTeardown
  dsimp only
  generalize hu : List.foldl _ s _ = u
  have hfreed : WorkShrinks s u := hu ▸ hplans _
  exact hfreed.trans (.of_view ((workView_zeroBlocks ..).trans (workView_dropInput ..)))

theorem workShrinks_wbTeardown (s : State) (pid : Nat) : WorkShrinks s (wbTeardown s pid) :=
  ⟨List.Subset.refl _, List.filter_subset_self _, List.filter_subset_self _, rfl⟩

/-- Clearing a torn partition ends work and starts none. -/
theorem workShrinks_clearTorn (s : State) (pid : Nat) : WorkShrinks s (clearTorn s pid) := by
  unfold clearTorn
  dsimp only
  split
  · split
    · generalize hu : releaseTdi _ _ _ = u
      have hbefore : WorkShrinks s u := .of_view (by
        rw [← hu, workView_releaseTdi, emptyRing, workView_setRing]
        exact workView_foldl (fun _ _ => (workView_evictCtx ..).trans (workView_dropTracked ..)) _ s)
      have hclosed := hbefore.trans ((workShrinks_foldTeardown u pid).trans
        (.of_view (workView_closeStreams (foldTeardown u pid) pid)))
      generalize closeStreams (foldTeardown u pid) pid = v at hclosed
      have hcleared : WorkShrinks v (ironTeardown (clearPidSlots (dropShares v pid) pid) pid) := .of_view (by
        rw [workView_ironTeardown, workView_clearPidSlots, workView_dropShares])
      refine (hclosed.trans hcleared).trans ((workShrinks_wbTeardown _ pid).trans (.of_view ?_))
      rw [workView_setTear, workView_beginTorn]
    · exact .of_view rfl
  · exact .of_view rfl

/-- The peer entries of pending bindings alone are written. -/
theorem endBinds_only (s : State) (pid : Nat) :
    ∃ l, endBinds s pid = { s with part := { s.part with peers := l } } := by
  unfold endBinds
  generalize s.cmd.waits = w
  induction w generalizing s with
  | nil => exact ⟨_, rfl⟩
  | cons x w ih =>
    rw [List.foldl_cons]
    split
    · split
      · obtain ⟨l, hl⟩ := ih (setPeer s _ _ _)
        exact ⟨l, hl⟩
      · exact ih s
    · exact ih s

/-- With the advance of a teardown only the teardown itself stays started for the PID, and its streams and imports go. -/
theorem endOthers_ends (s : State) (pid : Nat) :
    (∀ x ∈ (endOthers s pid).cmd.waits, x.pid = pid → ∃ p a b n, x.kind = .teardown p a b n) ∧
    (∀ x ∈ (endOthers s pid).wb.streams, x.pid ≠ pid) ∧ (∀ x ∈ (endOthers s pid).wb.imports, x.pid ≠ pid) ∧
    (endOthers s pid).mem.pot = s.mem.pot := by
  obtain ⟨l, hl⟩ := endBinds_only { s with wb := { s.wb with
    streams := s.wb.streams.filter fun x => x.pid != pid, imports := s.wb.imports.filter fun m => m.pid != pid } } pid
  unfold endOthers dropSent
  dsimp only
  rw [hl]
  generalize hv : finishWaits _ _ _ _ = v
  have hview : workView v = _ := hv ▸ workView_finishWaits ..
  have hwaits : v.cmd.waits = _ := congrArg WorkView.waits hview
  have hwb : v.wb = _ := congrArg WorkView.wb hview
  have hpot : v.mem.pot = _ := congrArg WorkView.pot hview
  refine ⟨fun x hx hpid => ?_, fun x hx => ?_, fun x hx => ?_, hpot⟩
  · rw [hwaits] at hx
    have hother := (List.mem_filter.mp hx).2
    cases hk : x.kind with
    | teardown p a b n => exact ⟨p, a, b, n, rfl⟩
    | _ => simp [hpid, hk] at hother
  · rw [hwb] at hx
    simpa using (List.mem_filter.mp hx).2
  · rw [hwb] at hx
    simpa using (List.mem_filter.mp hx).2

end Sys2Proof.Machine

/-! PROOFS. GEN_ADVANCE, PART_TEARDOWN and TEARDOWN_DRAINED (02 R41, R46, 07 R214, 08 R232). -/

namespace Sys2Proof.Machine

/-! ## An advance (R41, R232) -/

theorem genView_dropHeldReleases (s : State) (i : Nat) : genView (dropHeldReleases s i) = genView s := rfl

theorem genView_freeStream (s : State) (i : Nat) : genView (freeStream s i) = genView s := by
  unfold freeStream
  dsimp only
  have hfirst : genView (match (stream s i).hold.1 with
      | some h => answer (setStream s i { inc := (stream s i).inc }) h.req kSeamFail .errStale
      | none => setStream s i { inc := (stream s i).inc }) = genView s := by
    split
    · exact genView_answer ..
    · rfl
  split
  · exact (genView_answer ..).trans hfirst
  · exact hfirst

theorem genView_freeStreamsOf (s : State) (pid : Nat) : genView (freeStreamsOf s pid) = genView s := by
  refine genView_foldl (fun s i => ?_) _ s
  exact (genView_freeStream ..).trans (genView_dropHeldReleases ..)

/-- Entries of a ring that are posted and not fetched. -/
def unfetched (r : Ring) : Nat := (r.tail + ringSize r - r.head) % ringSize r

/-- The pre-advance counts of a state, in its view. -/
theorem ring_setPre (s : State) (n pid m : Nat) : ring (setPre s n pid) m =
    if m = n then { ring s n with pre := tset 0 (ring s n).pre pid (unfetched (ring s n)) } else ring s m :=
  ring_setRing ..

/-- What an advance writes: the generation, and the pre-advance counts of the two rings. -/
theorem advance_writes (s : State) {pid : Nat} (h : pid ≠ 0) :
    (advance s pid).part.gens = tset 0 s.part.gens pid (curGen s pid + 1) ∧ (advance s pid).fuse = s.fuse ∧
    tget 0 (ring (advance s pid) 0).pre pid = unfetched (ring s 0) ∧
    tget 0 (ring (advance s pid) pid).pre pid = unfetched (ring s pid) := by
  have hview : ∃ u : State, u.part.gens = tset 0 s.part.gens pid (curGen s pid + 1) ∧ u.fuse = s.fuse ∧
      u.cmd.rings = s.cmd.rings ∧ genView (advance s pid) = genView (setPre (setPre u 0 pid) pid pid) :=
    by refine ⟨_, ?_, ?_, ?_, genView_freeStreamsOf _ pid⟩ <;> rfl
  obtain ⟨u, hgens, hfuse, hrings, hview⟩ := hview
  have hring (n : Nat) : ring u n = ring s n := by rw [ring, hrings, ring]
  have hpre (n : Nat) : (ring (advance s pid) n).pre = (ring (setPre (setPre u 0 pid) pid pid) n).pre :=
    congrFun (congrArg GenView.pre hview) n
  refine ⟨(congrArg GenView.gens hview).trans hgens, (congrArg GenView.fuse hview).trans hfuse, ?_, ?_⟩
  · rw [hpre, ring_setPre, if_neg h.symm, ring_setPre, if_pos rfl, tget_tset_same, hring]
  · rw [hpre, ring_setPre, if_pos rfl, tget_tset_same, ring_setPre, if_neg h, hring]

theorem workView_advance (s : State) (pid : Nat) : workView (advance s pid) = workView s := by
  unfold advance
  dsimp only
  rw [workView_freeStreamsOf]
  rfl

/-! ## What follows the advance of a teardown (R46, R214) -/

theorem genView_setRing_other {s : State} {n m : Nat} (h : m ≠ n) (x : Ring) :
    (genView (setRing s n x)).pre m = (genView s).pre m := by
  simp only [genView, ring_setRing, if_neg h]

theorem genView_clearSlots (l : List Nat) (s : State) : genView (l.foldl clearSlot s) = genView s :=
  genView_foldl genView_clearSlot l s

theorem genView_releaseTdi (s : State) (n : Nat) (st : Tdi) : genView (releaseTdi s n st) = genView s := by
  unfold releaseTdi
  dsimp only
  split
  · split
    · exact genView_clearSlots ..
    · rfl
  · rfl

theorem genView_dropShares (s : State) (pid : Nat) : genView (dropShares s pid) = genView s := by
  unfold dropShares
  dsimp only
  rw [genView_foldl fun s e => ?_, genView_foldl fun s p => ?_]
  · rfl
  · rfl

theorem genView_clearPidSlots (s : State) (pid : Nat) : genView (clearPidSlots s pid) = genView s :=
  genView_clearSlots ..

theorem genView_ironTeardown (s : State) (pid : Nat) : genView (ironTeardown s pid) = genView s := rfl

theorem genView_wbTeardown (s : State) (pid : Nat) : genView (wbTeardown s pid) = genView s := rfl

theorem genView_setTear (s : State) (pid : Nat) (x : Tear) : genView (setTear s pid x) = genView s := rfl

theorem genView_beginTorn (s : State) (pid : Nat) : genView (beginTorn s pid) = genView s := by
  refine genView_foldl (fun s p => ?_) _ s
  rfl

/-- Clearing a torn partition empties its own ring; generations, fuses and every other ring's counts stay. -/
theorem clearTorn_keeps (s : State) {pid : Nat} (h : pid ≠ 0) : (clearTorn s pid).part.gens = s.part.gens ∧
    (clearTorn s pid).fuse = s.fuse ∧ (ring (clearTorn s pid) 0).pre = (ring s 0).pre := by
  unfold clearTorn
  dsimp only
  split
  · split
    · generalize hu : List.foldl _ s _ = u
      have hlost : genView u = genView s := by
        rw [← hu]
        exact genView_foldl (fun _ _ => (genView_evictCtx ..).trans (genView_dropTracked ..)) _ s
      have hcleared (x : Tear) : genView (setTear (beginTorn (wbTeardown (ironTeardown (clearPidSlots (dropShares
          (closeStreams (foldTeardown (releaseTdi (emptyRing u pid) pid .unlocked) pid) pid) pid) pid) pid) pid) pid)
          pid x) = genView (emptyRing u pid) := by
        rw [genView_setTear, genView_beginTorn, genView_wbTeardown, genView_ironTeardown, genView_clearPidSlots,
          genView_dropShares, genView_closeStreams, genView_foldTeardown, genView_releaseTdi]
      generalize hv : setTear _ pid _ = v
      have hview : genView v = genView (emptyRing u pid) := hv ▸ hcleared _
      exact ⟨(congrArg GenView.gens hview).trans (congrArg GenView.gens hlost),
        (congrArg GenView.fuse hview).trans (congrArg GenView.fuse hlost),
        (congrFun (congrArg GenView.pre hview) 0).trans
          ((genView_setRing_other h.symm _).trans (congrFun (congrArg GenView.pre hlost) 0))⟩
    · exact ⟨rfl, rfl, rfl⟩
  · exact ⟨rfl, rfl, rfl⟩

theorem genView_endOthers (s : State) (pid : Nat) : genView (endOthers s pid) = genView s := by
  obtain ⟨l, hl⟩ := endBinds_only { s with wb := { s.wb with
    streams := s.wb.streams.filter fun x => x.pid != pid, imports := s.wb.imports.filter fun m => m.pid != pid } } pid
  unfold endOthers dropSent
  dsimp only
  rw [hl]
  exact (genView_finishWaits ..).trans rfl

theorem genView_stopAll (s : State) (pid : Nat) : genView (stopAll s pid) = genView s := by
  refine genView_foldl (fun s i => ?_) _ s
  rfl

/-- All that the advance of a teardown brings. -/
def tearNow (s : State) (pid : Nat) : State :=
  clearTorn (setTear (stopAll (endOthers s pid) pid) pid { advanced := true }) pid

theorem tearNow_keeps (s : State) {pid : Nat} (h : pid ≠ 0) : (tearNow s pid).part.gens = s.part.gens ∧
    (tearNow s pid).fuse = s.fuse ∧ (ring (tearNow s pid) 0).pre = (ring s 0).pre := by
  have hbefore : genView (setTear (stopAll (endOthers s pid) pid) pid { advanced := true }) = genView s := by
    rw [genView_setTear, genView_stopAll, genView_endOthers]
  obtain ⟨hgens, hfuse, hpre⟩ := clearTorn_keeps (setTear (stopAll (endOthers s pid) pid) pid { advanced := true }) h
  exact ⟨hgens.trans (congrArg GenView.gens hbefore), hfuse.trans (congrArg GenView.fuse hbefore),
    hpre.trans (congrFun (congrArg GenView.pre hbefore) 0)⟩

/-- Beside the teardown nothing of the PID goes on. -/
theorem tearNow_ends (s : State) (pid : Nat) :
    (∀ x ∈ (tearNow s pid).cmd.waits, x.pid = pid → ∃ p a b n, x.kind = .teardown p a b n) ∧
    (∀ x ∈ (tearNow s pid).wb.streams, x.pid ≠ pid) ∧ (∀ x ∈ (tearNow s pid).wb.imports, x.pid ≠ pid) ∧
    (tearNow s pid).mem.pot = s.mem.pot := by
  obtain ⟨hwaits, hstreams, himports, hpot⟩ := endOthers_ends s pid
  have hstopped : workView (setTear (stopAll (endOthers s pid) pid) pid { advanced := true }) =
      workView (endOthers s pid) := (workView_setTear ..).trans (workView_stopAll ..)
  have h := (WorkShrinks.of_view hstopped).trans (workShrinks_clearTorn _ pid)
  exact ⟨fun x hx => hwaits x (h.waits hx), fun x hx => hstreams x (h.streams hx),
    fun x hx => himports x (h.imports hx), h.pot.trans hpot⟩

/-! ## The end of a teardown (R214 steps 6 to 8) -/

theorem genView_freePage (s : State) (page : Nat) : genView (freePage s page) = genView s := by
  rw [freePage, genView_install]
  exact (genView_setRmt _ _).trans (genView_setEntry ..)

theorem genView_unuse (s : State) (pid : Nat) : genView (unuse s pid) = genView s := by
  refine genView_foldl (fun s p => ?_) _ s
  dsimp only
  split
  · exact genView_setEntry ..
  · exact (genView_install ..).trans (genView_setEntry ..)

theorem genView_freeFenceOf (s : State) (i : Nat) : genView (freeFenceOf s i) = genView s :=
  (genView_setFence ..).trans (genView_signalFence ..)

theorem genView_takeTile (s : State) (pid t : Nat) : genView (takeTile s pid t) = genView s := rfl

theorem part_finishWaits (s : State) (p : Wait → Bool) (st : Status) (r : BitVec 192) :
    (finishWaits s p st r).part = s.part := by
  have hfinish (l : List Wait) (u : State) : (l.foldl (fun s w => finish s w.tkt st r) u).part = u.part := by
    induction l generalizing u with
    | nil => rfl
    | cons w l ih =>
      obtain ⟨-, -, -, -, hpart, -⟩ := finishWith_frame u w.tkt st false r
      exact (ih _).trans hpart
  exact hfinish _ _

/-- With the end of a teardown the descriptor is FREE and the teardown over. -/
theorem endTear_ends (s : State) (pid : Nat) : part (endTear s pid) pid = {} ∧ tearOf (endTear s pid) pid = none ∧
    (endTear s pid).part.gens = s.part.gens ∧ (endTear s pid).fuse = s.fuse := by
  unfold endTear
  dsimp only
  generalize hu : List.foldl (fun s t => takeTile s pid t) _ _ = u
  have hview : genView u = genView s := by
    rw [← hu, genView_foldl fun s t => genView_takeTile s pid t, genView_foldl genView_freeFenceOf,
      genView_foldl (f := dropCtx) fun _ _ => genView_setCtx .., genView_unuse, genView_foldl genView_freePage]
  generalize hv : finishWaits _ _ _ _ = v
  have hparts : v.part = _ := hv ▸ part_finishWaits ..
  have hgen : genView v = genView s := by
    rw [← hv, genView_finishWaits]
    exact hview
  refine ⟨?_, ?_, congrArg GenView.gens hgen, congrArg GenView.fuse hgen⟩
  · rw [part, hparts]
    exact (tget_filter u.part.parts (fun i => i != pid) pid).trans (by rw [bne_self_eq_false]; rfl)
  · rw [tearOf, hparts, List.find?_filter]
    simp

/-! ## GEN_ADVANCE, PART_TEARDOWN and TEARDOWN_DRAINED -/

/-- The first advance that waits for a PID is taken. -/
def advanceTaken (s : State) (pid : Nat) : State :=
  advance { s with part := { s.part with genWait := dropFirst (fun g => g.1 == pid) s.part.genWait } } pid

section
variable {s : State} {pid : Pid} {w : GenWhy} (hw : nextAdvance s pid.val = some w)
include hw

theorem execGenAdvance_late (h : tget 0 s.part.genAt pid.val = s.tarn.now + 1) : execGenAdvance pid s = .next s := by
  have hlate : (tget 0 s.part.genAt pid.val == now s + 1) = true := beq_iff_eq.mpr h
  simp only [execGenAdvance, hw, hlate, if_true]

/-- What follows the advance rests on why it was asked for. -/
theorem execGenAdvance_due (h : tget 0 s.part.genAt pid.val ≠ s.tarn.now + 1) : execGenAdvance pid s =
    .next (match w with
      | .reset => endReset (advanceTaken s pid.val) pid.val
      | .kill => ((killOf (advanceTaken s pid.val) pid.val).map fun k =>
          retryHeld (endKill (advanceTaken s pid.val) pid.val k)).getD (advanceTaken s pid.val)
      | .teardown => tearNow (advanceTaken s pid.val) pid.val) := by
  have hdue : (tget 0 s.part.genAt pid.val == now s + 1) = false := beq_false_of_ne h
  simp only [execGenAdvance, hw, hdue, Bool.false_eq_true, if_false]
  cases w with
  | reset => rfl
  | kill =>
    change (match killOf (advanceTaken s pid.val) pid.val with
      | some k => Host.Outcome.next (retryHeld (endKill (advanceTaken s pid.val) pid.val k))
      | none => .next (advanceTaken s pid.val)) = _
    cases killOf (advanceTaken s pid.val) pid.val <;> rfl
  | teardown => rfl

end

theorem advanceTaken_writes (s : State) {pid : Nat} (h : pid ≠ 0) :
    (advanceTaken s pid).part.gens = tset 0 s.part.gens pid (curGen s pid + 1) ∧ (advanceTaken s pid).fuse = s.fuse ∧
    tget 0 (ring (advanceTaken s pid) 0).pre pid = unfetched (ring s 0) ∧
    tget 0 (ring (advanceTaken s pid) pid).pre pid = unfetched (ring s pid) := advance_writes _ h

theorem workView_advanceTaken (s : State) (pid : Nat) : workView (advanceTaken s pid) = workView s := workView_advance ..

/-- GEN_ADVANCE of a PID that waits for its advance. -/
theorem genAdvance_spec {s : State} {pid : Pid} {w : GenWhy} (hpid : pid.val ≠ 0) (hw : nextAdvance s pid.val = some w) :
    (tget 0 s.part.genAt pid.val = s.tarn.now + 1 → exec (.genAdvance pid) s = .next s) ∧
    (tget 0 s.part.genAt pid.val ≠ s.tarn.now + 1 →
      ∃ t, exec (.genAdvance pid) s = .next t ∧ t.part.gens = tset 0 s.part.gens pid.val (curGen s pid.val + 1) ∧
        tget 0 (ring t 0).pre pid.val = unfetched (ring s 0) ∧
        (w ≠ .teardown → tget 0 (ring t pid.val).pre pid.val = unfetched (ring s pid.val)) ∧
        (w = .teardown →
          (∀ x ∈ t.cmd.waits, x.pid = pid.val → ∃ p a b n, x.kind = .teardown p a b n) ∧
          (∀ x ∈ t.wb.streams, x.pid ≠ pid.val) ∧ ∀ x ∈ t.wb.imports, x.pid ≠ pid.val) ∧
        (w ≠ .kill → t.mem.pot = s.mem.pot) ∧ (w = .reset → t.part.peers = s.part.peers) ∧ t.fuse = s.fuse) := by
  refine ⟨execGenAdvance_late hw, fun hdue => ⟨_, execGenAdvance_due hw hdue, ?_⟩⟩
  obtain ⟨hgens, hfuse, hoper, hown⟩ := advanceTaken_writes s hpid
  have hwork := workView_advanceTaken s pid.val
  generalize advanceTaken s pid.val = u at hgens hfuse hoper hown hwork ⊢
  have hkept {t : State} (h : genView t = genView u) :
      t.part.gens = tset 0 s.part.gens pid.val (curGen s pid.val + 1) ∧
      tget 0 (ring t 0).pre pid.val = unfetched (ring s 0) ∧
      tget 0 (ring t pid.val).pre pid.val = unfetched (ring s pid.val) ∧ t.fuse = s.fuse := by
    have hpre (n : Nat) : (ring t n).pre = (ring u n).pre := congrFun (congrArg GenView.pre h) n
    exact ⟨(congrArg GenView.gens h).trans hgens, by rw [hpre, hoper], by rw [hpre, hown],
      (congrArg GenView.fuse h).trans hfuse⟩
  cases w with
  | reset =>
    obtain ⟨hg, h0, hp, hf⟩ := hkept (genView_endReset u pid.val)
    have hview := (workView_endReset u pid.val).trans hwork
    exact ⟨hg, h0, fun _ => hp, nofun, fun _ => congrArg WorkView.pot hview, fun _ => congrArg WorkView.peers hview, hf⟩
  | kill =>
    have hview : genView (((killOf u pid.val).map fun k => retryHeld (endKill u pid.val k)).getD u) = genView u := by
      cases killOf u pid.val with
      | none => rfl
      | some k => exact (genView_retryHeld _).trans (genView_endKill u pid.val k)
    obtain ⟨hg, h0, hp, hf⟩ := hkept hview
    exact ⟨hg, h0, fun _ => hp, nofun, fun h => absurd rfl h, nofun, hf⟩
  | teardown =>
    obtain ⟨hg, hf, h0⟩ := tearNow_keeps u hpid
    obtain ⟨hwaits, hstreams, himports, hpot⟩ := tearNow_ends u pid.val
    exact ⟨hg.trans hgens, by rw [h0, hoper], fun h => absurd rfl h, fun _ => ⟨hwaits, hstreams, himports⟩,
      fun _ => hpot.trans (congrArg WorkView.pot hwork), nofun, hf.trans hfuse⟩

/-- The state of a partition whose teardown begins. -/
def tearBegun (s : State) (pid : Nat) : State :=
  let s1 := withdrawKill (setPart s pid { part s pid with state := .tearing }) pid
  askAdvance { s1 with part := { s1.part with tears := s1.part.tears ++ [(pid, {})] } } pid .teardown

theorem part_tearBegun (s : State) (pid : Nat) : (part (tearBegun s pid) pid).state = .tearing :=
  congrArg Part.state (part_setPart_same s pid { part s pid with state := .tearing })

theorem runTeardown_active {s : State} {t : Ticket} (h : active s (tagPid t.ptag) = true) (p : Pkt) (m : List ReadIn) :
    runTeardown s t p m = .wait (tearBegun s (tagPid t.ptag)) (tagPid t.ptag) (.teardown (tagPid t.ptag) 0 0 0) := by
  simp only [runTeardown, h, Bool.not_true, Bool.false_eq_true, if_false]
  rfl

theorem runTeardown_inactive {s : State} {t : Ticket} (h : active s (tagPid t.ptag) = false) (p : Pkt) (m : List ReadIn) :
    runTeardown s t p m = .fail .errState := by
  simp only [runTeardown, h, Bool.not_false, if_true]

theorem execPartTeardown_accepted {s : State} {c : Cmd} {k : State} {t : Ticket}
    (h : accepted opTeardown s c = some (k, t)) :
    exec (.partTeardown c) s = .next (conclude k t (runTeardown k t c.body c.mem)) :=
  congrArg Host.Outcome.next (issue_of_accepted h)

theorem execTeardownDrained_ends {s : State} {pid : Pid} {x : Tear} (htear : tearOf s pid.val = some x)
    (hclear : x.cleared = true) (hdrained : tornDrained s pid.val = true) :
    exec (.teardownDrained pid) s = .next (endTear s pid.val) := by
  change execTeardownDrained pid s = _
  simp only [execTeardownDrained, htear, hclear, hdrained, Bool.and_self, if_true]

/-- Settles O23: GEN_ADVANCE by the view of an advance, PART_TEARDOWN by its run, and the end of a teardown. -/
theorem generationAdvanceAndTeardown : Obligations.GenerationAdvanceAndTeardown := by
  unfold Obligations.GenerationAdvanceAndTeardown
  refine ⟨fun s pid w hpid hw => genAdvance_spec hpid hw, fun s c k t hacc => ?_, fun s c k t hacc hno => ?_,
    fun s pid x htear hclear hdrained => ?_⟩
  · intro pid hactive
    refine ⟨_, (execPartTeardown_accepted hacc).trans (by rw [runTeardown_active hactive, conclude]), ?_⟩
    refine ⟨part_tearBegun k pid, List.mem_append_right _ (List.mem_singleton.mpr rfl), rfl, rfl,
      fun x hx => ?_, rfl, rfl⟩
    simpa using (List.mem_filter.mp hx).2
  · rw [execPartTeardown_accepted hacc, runTeardown_inactive hno, conclude]
  · exact ⟨_, execTeardownDrained_ends htear hclear hdrained, endTear_ends s pid.val⟩

end Sys2Proof.Machine

/-! PROOFS. LEAVE_TIMEOUT and a table of ports out of canonical form (02 R31). -/

namespace Sys2Proof.Machine

/-! ## A leave and a table of ports out of canonical form

A leave takes every OPEN port down and then clears the sequence values kept for the next session (`clearKept`). That goes
through the table of ports and drops each entry that has become the default one. The statements of the leave speak of every
state, also of one whose table lists a port twice (`twf` fails): there the port's first entry may be one that `clearKept`
drops, and the port then reads as the second entry, which the leave has not touched. -/

/-- A table of ports out of canonical form: port 0 keeps a sequence value and is OFF, and a second entry, which no read
reaches, is OPEN. -/
def portTwice : Tbl Link := [(0, { kept := some (1, 0) }), (0, { state := .opened })]

/-- A write keeps the canonical form (`twf_tset`); this table does not have it. -/
theorem portTwice_illFormed : twf {} portTwice = false := by decide +kernel

/-- A chip that has told its Summit 1 s ago that it leaves. -/
def lateLeaver : State :=
  { tarn := { now := 1000000 }, range := { memb := .leaving, leaveAt := some 0 }, ridge := { links := portTwice } }

theorem leaveTimeout_lateLeaver : exec .leaveTimeout lateLeaver = .next (leaveRange lateLeaver) := rfl

theorem opened_leaveRange_lateLeaver : (link (leaveRange lateLeaver) 0).state = .opened := by decide +kernel

/-- Refutes O57: LEAVE_TIMEOUT of `lateLeaver` leaves port 0 OPEN. The statement speaks of every state, also of one whose
table of ports is not in canonical form, and the counterexample rests on that alone. -/
theorem not_rangeTimersActAtTheirTime : ¬ Obligations.RangeTimersActAtTheirTime := by
  intro h
  obtain ⟨-, -, -, -, -, -, hleave, -⟩ := h lateLeaver
  obtain ⟨e, he, -, -, -, -, -, -, -, hclosed⟩ := (hleave 0 rfl).2 rfl (Nat.le_refl _)
  obtain rfl : leaveRange lateLeaver = e := Host.Outcome.next.inj (leaveTimeout_lateLeaver.symm.trans he)
  exact hclosed 0 opened_leaveRange_lateLeaver

end Sys2Proof.Machine

/-! PROOFS. LEAVE_ACK and a table of ports out of canonical form (02 R31, 13 R360). -/

namespace Sys2Proof.Machine

/-! ## LEAVE_ACK and a table of ports out of canonical form -/

/-- A message that passes its checks while firmware is up has its effect. -/
theorem ringMsg_of_passes {i : MsgForm} {vals : Bool} {m : RMsg} {s : State} (hrdy : s.boot.rdy = true)
    (hup : s.boot.scuUp = true) (hcheck : msgCheck i vals m s = none) (f : State → State) :
    ringMsg i vals m f s = .next (f s) := by
  simp only [ringMsg, hrdy, hup, hcheck, Bool.and_self, Bool.not_true, Bool.false_eq_true, if_false]

/-- LEAVE_ACK taken: the member that waits for its Summit leaves. -/
def takeLeaveAck (m : RMsg) (s : State) : State :=
  onMsg s m fun s =>
    if s.range.memb == .leaving && m.src == s.range.summit then (leaveRange (dropSent s fun w => w == .leave), [])
    else (s, [])

theorem exec_leaveAck (m : RMsg) (s : State) :
    exec (.leaveAck m) s = ringMsg formLeaveAck true m (takeLeaveAck m) s := rfl

/-- A leaving chip with its firmware up, whose table of ports is out of canonical form. -/
def upLeaver : State :=
  { boot := { rdy := true, scuUp := true }, range := { memb := .leaving }, ridge := { links := portTwice } }

/-- LEAVE_ACK of its Summit, node 0. -/
def ackOfSummit : RMsg := { src := 0 }

theorem msgStatus_ackOfSummit : msgStatus upLeaver (.leaveAck ackOfSummit) = none := by decide +kernel

theorem leaveAck_upLeaver : exec (.leaveAck ackOfSummit) upLeaver = .next (takeLeaveAck ackOfSummit upLeaver) :=
  (exec_leaveAck ..).trans (ringMsg_of_passes rfl rfl msgStatus_ackOfSummit _)

theorem opened_after_leaveAck : (link (takeLeaveAck ackOfSummit upLeaver) 0).state = .opened := by decide +kernel

/-- Refutes O55: LEAVE_ACK leaves port 0 of `upLeaver` OPEN. The statement speaks of every state, also
of one whose table of ports is not in canonical form, and the counterexample rests on that alone. -/
theorem not_joiningLeavingAndEvidence : ¬ Obligations.JoiningLeavingAndEvidence := by
  intro h
  obtain ⟨-, -, -, -, -, -, -, -, -, -, -, -, -, hack, -⟩ := h upLeaver ackOfSummit
  obtain ⟨e, he, -, -, -, -, -, hclosed, -⟩ := hack ⟨rfl, ⟨rfl, rfl⟩, msgStatus_ackOfSummit⟩ rfl rfl
  obtain rfl : takeLeaveAck ackOfSummit upLeaver = e := Host.Outcome.next.inj (leaveAck_upLeaver.symm.trans he)
  exact hclosed 0 opened_after_leaveAck

end Sys2Proof.Machine

/-! PROOFS. An acquire of this chip's own memory whose engine is not ready (05 R128, 06 R164, R176). -/

namespace Sys2Proof.Machine

/-! ## An acquire of this chip's own memory whose engine is not ready

Where the engine's port is not ready, `localReq` keeps the request in the state it found: no acquire is entered and no tag is
used, and the request will enter its acquire when it is issued again. The statement keeps it in the state that has the
acquire already. -/

/-- A tile's acquire load of PID 1 from the first byte of the chip with node ID 0. -/
def ownAcquire : RReq := { mport := 0, pid := 1, gen := 0, ctx := 0, cls := clsLoad, op := 1 }

/-- A member of a range, node 0, before any access. -/
def memberNode0 : State := { range := { memb := .member } }

/-- A read that waits for its POT entry. -/
def waitingRead : Parked :=
  { req := { addr := 0, pid := 1, gen := 0, mport := 0, op := 0, size := 0 } }

/-- `memberNode0` with the miss queue full in the engine that the acquire's address belongs to. -/
def fullEngine : State := setMx memberNode0 (engineOf memberNode0 0) { missq := List.replicate 32 waitingRead }

/-- An engine whose miss queue is full takes no request (R128). -/
theorem present_of_full {s : State} {q : Parked} (h : 32 ≤ (mx s (engineOf s q.req.addr.toNat)).missq.length) :
    present s q = none := if_pos h

theorem localReqs_ownAcquire : ∃ x, localReqs ownAcquire = [x] ∧ x.addr = 0 := ⟨_, rfl, rfl⟩

/-- The engine of `fullEngine` is not ready for the acquire, under whatever tag. -/
theorem presentLocal_fullEngine (r : RmtState) (near : Option (BitVec 40)) :
    presentLocal { fullEngine with rmt := r } ownAcquire near = none := by
  obtain ⟨x, hx, haddr⟩ := localReqs_ownAcquire
  have hfull (o : List Out) (w : Waiter) : present { fullEngine with rmt := r, out := o } ⟨x, w⟩ = none := by
    refine present_of_full ?_
    rw [haddr]
    change 32 ≤ (mx fullEngine (engineOf memberNode0 0)).missq.length
    rw [fullEngine, mx_setMx_same]
    exact Nat.le_of_eq List.length_replicate.symm
  simp only [presentLocal, hx, List.isEmpty_cons, Bool.false_eq_true, if_false, List.foldlM_cons]
  exact congrArg (Option.bind · _) (hfull ..)

/-- A request without data, of a size that its class allows, has its shape already. -/
theorem takeShape_of_shaped (s : State) {r : RReq} (hcls : (r.cls == clsBulkWr) = false) (hgives : givesData r = false)
    (hsize : r.size.toNat < sizeLimit r.cls) (hdata : r.data = []) (hmask : r.mask = []) : takeShape s r = (s, r) := by
  have hshape : shapeReq s.rmt.frees r = r := by
    obtain ⟨⟩ := r
    obtain rfl := hdata
    obtain rfl := hmask
    simp only [shapeReq, hcls, hgives, if_pos hsize, Bool.false_eq_true, if_false]
  simp only [takeShape, hshape, beq_self_eq_true, if_true]

theorem takeShape_ownAcquire : takeShape fullEngine ownAcquire = (fullEngine, ownAcquire) :=
  takeShape_of_shaped _ rfl rfl (by decide) rfl rfl

theorem startCmd_fullEngine : startCmd fullEngine ownAcquire.ctx = fullEngine := rfl

/-- A request of the current generation, of a class that its master may issue, is issued in its shape. -/
theorem exec_remoteRequest_issues {s : State} {r : RReq} (hgen : (r.pid.val != 0 && r.gen != curGen s r.pid.val) = false)
    (hcls : classAllowed r = true) :
    exec (.remoteRequest r) s = .next (issueReq (takeShape s r).1 (takeShape s r).2) := by
  change execRemoteRequest r s = _
  simp only [execRemoteRequest, hgen, hcls, Bool.not_true, Bool.false_eq_true, if_false]

/-- An access to this chip's own address that nothing keeps back (R164). -/
theorem issueReq_own {s : State} {r : RReq} (hgen : (r.pid.val != 0 && r.gen != curGen s r.pid.val) = false)
    (hown : ownAddress s r = true) (hkept : keptBack s r = false) (hcommits : commits r = false) :
    issueReq s r = localReq (startCmd s r.ctx) r := by
  simp only [issueReq, hgen, hown, hkept, hcommits, Bool.false_eq_true, if_false, if_true]

/-- An acquire that the engine does not take is kept in the state it found. -/
theorem localReq_acquire_refused {s : State} {r : RReq} (hcls : r.cls = clsLoad) (hkind : kindOf r.op = 1)
    (h : presentLocal (addNear s r (localReqs r).length).1 r (some (addNear s r (localReqs r).length).2) = none) :
    localReq s r = holdReq s r := by
  have hseam : (clsLoad == clsSeam) = false := rfl
  have hatom : (clsLoad == clsAtomic) = false := rfl
  simp only [localReq, hcls, hkind, h, hseam, hatom, beq_self_eq_true, Bool.false_and, Bool.and_self, Bool.false_eq_true,
    if_false, if_true, Option.getD_none]

/-- The acquire is kept, and nothing else of the state changes. -/
theorem exec_ownAcquire : exec (.remoteRequest ownAcquire) fullEngine = .next (holdReq fullEngine ownAcquire) := by
  rw [exec_remoteRequest_issues rfl rfl, takeShape_ownAcquire, issueReq_own rfl rfl rfl rfl, startCmd_fullEngine,
    localReq_acquire_refused rfl rfl (presentLocal_fullEngine ..)]

/-- Refutes O41: while the engine's port is not ready, an acquire of this chip's own memory is kept with no acquire entered;
the statement has it entered. -/
theorem not_remoteRequestsAreFormedOrDenied : ¬ Obligations.RemoteRequestsAreFormedOrDenied := by
  intro h
  obtain ⟨-, -, -, hhome, -⟩ := h fullEngine ownAcquire
  obtain ⟨-, -, hacquire, -⟩ := hhome (.inr rfl) rfl rfl
  have hbegun : (if commits ownAcquire = true then enterCommit fullEngine ownAcquire.ctx
      else startCmd fullEngine ownAcquire.ctx) = fullEngine := startCmd_fullEngine
  simp only [takeShape_ownAcquire, hbegun, presentLocal_fullEngine, Option.getD_none] at hacquire
  have hheld := Host.Outcome.next.inj (exec_ownAcquire.symm.trans (hacquire rfl ⟨rfl, rfl⟩))
  have hacquires : (0 : Nat) = 1 := congrArg (·.rmt.acquires.length) hheld
  exact absurd hacquires (by decide)

end Sys2Proof.Machine

/-! PROOFS. A released SEAM that ages in its ingress master (03 R76, R84). -/

namespace Sys2Proof.Machine

/-! ## A released SEAM that ages in its ingress master

R76 excepts a released seam from the discard of requests whose AGE reaches 160, and so does `agedNow`. The clause of the
statement on INGRESS_FRAME_AGED has no such exception: it discards a request of any class. -/

/-- A flush of node 70 that its segment has released, aged 40 µs on its way. -/
def agedSeam : Ingress :=
  { via := 0, src := 70, sptag := 6144, dptag := 6144, cls := clsSeam, age := 160, flits := 0 }

/-- The chip with that seam alone in its ingress masters. -/
def seamWaits : State := { ridge := { ingress := [agedSeam] } }

theorem agedNow_seam {g : Ingress} (h : g.cls = clsSeam) (quarter : Nat) : agedNow g quarter = false := by
  simp [agedNow, h]

/-- A seam is not discarded for its age. -/
theorem execIngressFrameAged_seam {s : State} {idx : Nat} {g : Ingress} (hg : s.ridge.ingress[idx]? = some g)
    (h : g.cls = clsSeam) : execIngressFrameAged idx s = .next s := by
  simp only [execIngressFrameAged, hg, agedNow_seam h, Bool.false_eq_true, if_false]

/-- Discarding a request takes it out of its ingress master. -/
theorem ingress_dropAged (s : State) (idx : Nat) (g : Ingress) :
    (dropAged s idx g).ridge.ingress = s.ridge.ingress.eraseIdx idx := by
  obtain ⟨t, howe⟩ := owe_frame (setIngress s idx none) g.via g.cls g.flits
  simp only [dropAged, howe]
  rfl

/-- Refutes O40: a released seam whose AGE reaches 160 stays in its ingress master; the statement has it discarded. -/
theorem not_ingressSeamsAndStreamsInTime : ¬ Obligations.IngressSeamsAndStreamsInTime := by
  intro h
  obtain ⟨-, hdiscards, -⟩ := h seamWaits
  have hkept : exec (.ingressFrameAged 0) seamWaits = .next seamWaits :=
    execIngressFrameAged_seam (s := seamWaits) (idx := 0) (g := agedSeam) rfl rfl
  have heq : seamWaits = dropAged seamWaits 0 agedSeam :=
    Host.Outcome.next.inj (hkept.symm.trans (hdiscards 0 agedSeam rfl rfl (by decide)))
  have hgone : [agedSeam] = [] := (congrArg (·.ridge.ingress) heq).trans (ingress_dropAged ..)
  exact List.cons_ne_nil _ _ hgone

end Sys2Proof.Machine

/-! PROOFS. What little-endian bytes spell, and the writes of the operator page (00 R10, 08 R246, R247, 15 R401 to R410). -/

namespace Sys2Proof.Machine

/-! ## What little-endian bytes spell (R10) -/

theorem leNat_leBytes (n x : Nat) : leNat (leBytes n x) = x % 256 ^ n := by
  induction n generalizing x with
  | zero => simp [leBytes, leNat, Nat.mod_one]
  | succ n ih =>
    rw [leBytes, leNat, ih, BitVec.toNat_ofNat, Nat.pow_succ' (n := n), Nat.mod_mul]

/-- A slice that a byte string holds whole, between a part before it and a part behind it. -/
theorem slice_append {a b c : Bytes} {off n : Nat} (ha : a.length = off) (hb : b.length = n) :
    slice (a ++ b ++ c) off n = b := by
  subst ha hb
  simp [slice, zeros]

/-- A number written between other bytes reads back. -/
theorem le_append {a c : Bytes} {off n x : Nat} (ha : a.length = off) :
    le (a ++ leBytes n x ++ c) off n = x % 256 ^ n := by
  rw [le, slice_append ha (Laws.leBytes_length n x), leNat_leBytes]

theorem le_leBytes (n x : Nat) : le (leBytes n x) 0 n = x % 256 ^ n := by
  simpa using le_append (a := []) (c := []) (n := n) (x := x) rfl

/-! ## Register writes of one word (R401) -/

/-- A write of four aligned bytes is a write of their word. -/
theorem wordsOf_word {off : Nat} (h : off % 4 = 0) (v : BitVec 32) : wordsOf off (leBytes 4 v.toNat) = [(off, v)] := by
  have hfirst : (off + 3) / 4 * 4 = off := by omega
  have hword : v.toNat % 256 ^ 4 = v.toNat := Nat.mod_eq_of_lt v.isLt
  simp only [wordsOf, Laws.leBytes_length, hfirst, Nat.add_sub_cancel_left, Nat.reduceDiv, List.range_one,
    List.map_cons, List.map_nil, Nat.mul_zero, Nat.add_zero, le_leBytes, hword, BitVec.ofNat_toNat, BitVec.setWidth_eq]

/-- A word written to a page that the port admits. -/
theorem exec_registerWrite_word {s : State} {a : Acc} {pg : Page} {off : Nat} (h : regOpen s a pg = true)
    (hoff : off % 4 = 0) (v : BitVec 32) :
    exec (.registerWrite a pg off (leBytes 4 v.toNat)) s = .next (writePage s pg off v) := by
  change execRegisterWrite a pg off _ s = _
  rw [execRegisterWrite, onWrite_of_regOpen h, wordsOf_word hoff]
  rfl

/-- Offset of a function's ring block in its page (R246, R403). -/
def ringBlock (fn : Pid) : Nat := if fn = 0 then 0x800 else 0x100

/-- A word of a function's ring block. -/
theorem writePage_ringBlock (s : State) (fn : Pid) {off : Nat} (h : off < 0x40) (v : BitVec 32) :
    writePage s (fnPage fn) (ringBlock fn + off) v = writeRingReg s fn.val off v := by
  by_cases hfn : fn = 0
  · have h4 : 0x800 + off ≠ 0x0004 := by omega
    have h180 : 0x800 + off ≠ 0x0180 := by omega
    have h448 : 0x800 + off ≠ 0x0448 := by omega
    have hin : 0x800 + off < 0x0840 := by omega
    simp [hfn, fnPage, ringBlock, writePage, writeOp, h4, h180, h448, hin]
  · have hin : 0x100 + off < 0x140 := by omega
    simp [hfn, fnPage, ringBlock, writePage, hin]

theorem exec_registerWrite_ringBlock {s : State} {a : Acc} {fn : Pid} (h : regOpen s a (fnPage fn) = true) {off : Nat}
    (hoff : off < 0x40) (hword : off % 4 = 0) (v : BitVec 32) :
    exec (.registerWrite a (fnPage fn) (ringBlock fn + off) (leBytes 4 v.toNat)) s =
      .next (writeRingReg s fn.val off v) := by
  have haligned : (ringBlock fn + off) % 4 = 0 := by
    unfold ringBlock
    split <;> omega
  rw [exec_registerWrite_word h haligned, writePage_ringBlock s fn hoff]

/-! ## The operator page (R404, R410) -/

theorem writeCtl_doeOn {v : BitVec 32} (h : v.getLsbD 1 = true) (s : State) :
    writeCtl s v = { s with cmd := { s.cmd with tenantHold := v.getLsbD 8, vfDoeEn := true } } := by
  simp [writeCtl, h]

/-- A mailbox of a virtual function is in the middle of a message. -/
def midMessage (s : State) (mb : Nat) : Bool :=
  s.spdm.conns.any fun e => e.1 == mb && 1 ≤ e.1 && e.1 ≤ 31 && !e.2.chunkIn.isEmpty

/-- VF_DOE_EN going to 0 ends the sessions of the mailboxes in the middle of a message. -/
theorem sessions_closeDoe (s : State) :
    (closeDoe s).spdm.sessions = s.spdm.sessions.filter fun x => !midMessage s x.mb := by
  refine List.filter_congr fun x _ => congrArg (! ·) ?_
  rw [Bool.eq_iff_iff]
  simp [midMessage, and_assoc, and_comm, and_left_comm]

/-- With VF_DOE_EN 0 a write of QB_CTL sets TENANT_HOLD, and closes the mailboxes that were enabled. -/
theorem writeCtl_doeOff {v : BitVec 32} (h : v.getLsbD 1 = false) (s : State) :
    (writeCtl s v).cmd.vfDoeEn = false ∧ (writeCtl s v).cmd.tenantHold = v.getLsbD 8 ∧
    (s.cmd.vfDoeEn = true → (writeCtl s v).spdm.sessions = s.spdm.sessions.filter fun x => !midMessage s x.mb) ∧
    (writeCtl s v).part = s.part ∧ (writeCtl s v).keys = s.keys ∧ (writeCtl s v).mem = s.mem := by
  cases hen : s.cmd.vfDoeEn with
  | true =>
    have hclose : writeCtl s v = closeDoe { s with cmd := { s.cmd with tenantHold := v.getLsbD 8 } } := by
      simp only [writeCtl, h, hen, Bool.false_eq_true, if_false, if_true]
    rw [hclose]
    exact ⟨rfl, rfl, fun _ => sessions_closeDoe { s with cmd := { s.cmd with tenantHold := v.getLsbD 8 } }, rfl, rfl, rfl⟩
  | false =>
    have hkeep : writeCtl s v = { s with cmd := { s.cmd with tenantHold := v.getLsbD 8 } } := by
      simp only [writeCtl, h, hen, Bool.false_eq_true, if_false]
    rw [hkeep]
    exact ⟨hen, rfl, fun hon => absurd hon Bool.false_ne_true, rfl, rfl, rfl⟩

/-- The Reserved part of the window takes nothing (R410). -/
theorem exec_registerWrite_rest {s : State} {a : Acc} (h : regOpen s a .rest = true) (off : Nat) (b : Bytes) :
    exec (.registerWrite a .rest off b) s = .next s := by
  change execRegisterWrite a .rest off b s = _
  rw [execRegisterWrite, onWrite_of_regOpen h]
  induction wordsOf off b with
  | nil => rfl
  | cons w ws ih => exact ih

/-! ## Pages that are closed (R402, R410) -/

/-- A page takes no write: qb_rst_n is asserted, or the pages are closed and the port completes the access. -/
def pageClosed (s : State) (a : Acc) (pg : Page) : Prop :=
  s.boot.inReset = true ∨ (pagesOpen s = false ∧ admitAcc s a pg ≠ .ur true ∧ admitAcc s a pg ≠ .ur false)

theorem onWrite_of_closed {s : State} {a : Acc} {pg : Page} (h : pageClosed s a pg) (f : State → State) :
    onWrite s a pg f = .next s := by
  rcases h with h | ⟨hclosed, htrue, hfalse⟩
  · simp [onWrite, h]
  · unfold onWrite
    split
    · rfl
    · cases hadmit : admitAcc s a pg with
      | yes => simp [hclosed]
      | no => rfl
      | ur flt => cases flt <;> simp_all

/-- Settles O7: QB_CTL by VF_DOE_EN, each word of a ring block by EN, and pages that take no write. -/
theorem operatorPageWritesAndClosedPages : Obligations.OperatorPageWritesAndClosedPages := by
  refine ⟨fun s a v h => ?_, fun s a fn v h => ?_, fun s a off b h => exec_registerWrite_rest h off b,
    fun s a fn pg off b v hclosed => ?_⟩
  · have hctl : exec (.vfDoeEnWrite a v) s = .next (writeCtl s v) := onWrite_of_regOpen h fun s => writeCtl s v
    refine ⟨fun hv => hctl.trans (congrArg _ (writeCtl_doeOn hv s)), fun hv => hctl.trans (congrArg _ (writeCtl_doeOn hv s)),
      fun hv => ⟨_, hctl, writeCtl_doeOff hv s⟩, onWrite_of_regOpen h fun s => writeAlarm s v,
      fun p => onWrite_of_regOpen h fun s => writeLink s p.val v, fun e => onWrite_of_regOpen h fun s => writeMx s e.val v,
      exec_registerWrite_word h rfl v⟩
  · intro base write r e low high
    have hwrite : ∀ off, off < 0x40 → off % 4 = 0 → write off = .next (writeRingReg s fn.val off v) :=
      fun off hoff hword => exec_registerWrite_ringBlock h hoff hword v
    rw [hwrite 0x10 (by decide) rfl, hwrite 0x14 (by decide) rfl, hwrite 0x18 (by decide) rfl,
      hwrite 0x1C (by decide) rfl, hwrite 0x20 (by decide) rfl, hwrite 0x24 (by decide) rfl]
    have hnext {t u : State} (h : t = u) : (Host.Outcome.next t : Result) = .next u := congrArg _ h
    refine ⟨fun hen => ?_, fun hen => ?_, fun hen => ?_, fun hen => ?_⟩
    · have hen : ¬ (ring s fn.val).en = true := hen ▸ Bool.false_ne_true
      exact ⟨hnext (if_neg hen), hnext (if_neg hen), hnext (if_neg hen), hnext (if_neg hen)⟩
    · exact ⟨hnext (if_pos hen), hnext (if_pos hen), hnext (if_pos hen), hnext (if_pos hen)⟩
    · have hen : ¬ (evt s fn.val).en = true := hen ▸ Bool.false_ne_true
      exact ⟨hnext (if_neg hen), hnext (if_neg hen)⟩
    · exact ⟨hnext (if_pos hen), hnext (if_pos hen)⟩
  · have hfn : pageClosed s a (fnPage fn) := hclosed.imp_right fun ⟨hc, ht, hf, _⟩ => ⟨hc, ht, hf⟩
    have hpg : pageClosed s a pg := hclosed.imp_right fun ⟨hc, _, _, ht, hf⟩ => ⟨hc, ht, hf⟩
    exact ⟨onWrite_of_closed hpg fun s : State => (wordsOf off b).foldl (fun s (e : Nat × BitVec 32) => writePage s pg e.1 e.2) s,
      onWrite_of_closed hfn fun s => writeTail s fn.val v, onWrite_of_closed hfn fun s => writeRingCtl s fn.val (v ||| 1),
      onWrite_of_closed hfn fun s => writeRingCtl s fn.val (v &&& ~~~ 1#32),
      onWrite_of_closed hfn fun s => writeEvtCtl s fn.val (v ||| 1)⟩

end Sys2Proof.Machine

/-! PROOFS. The port timers (03 R62 to R68, R74). -/

namespace Sys2Proof.Machine

/-! ## Ports that change state (R62, R411) -/

theorem noRoute_frame (p : Nat) (s : State) (h : Handed) :
    ∃ t, noRoute p s h = { s with ridge := { s.ridge with links := t } } := by
  obtain ⟨t, howe⟩ := owe_frame s h.t.via h.t.inner.cls h.t.flits
  rw [noRoute, howe]
  exact ⟨_, rfl⟩

/-- A port that changes state writes the ports and the last time one was OPEN. -/
theorem portTo_frame (s : State) (p : Nat) (st : PortState) : ∃ t o,
    portTo s p st = { s with ridge := { s.ridge with links := t }, range := { s.range with openAt := o } } := by
  have hdiscard (l : List Handed) (u : State) :
      ∃ t, l.foldl (noRoute p) u = { u with ridge := { u.ridge with links := t } } := by
    induction l generalizing u with
    | nil => exact ⟨u.ridge.links, rfl⟩
    | cons h l ih =>
      obtain ⟨t, hone⟩ := noRoute_frame p u h
      obtain ⟨t', hall⟩ := ih (noRoute p u h)
      exact ⟨t', by rw [List.foldl_cons, hall, hone]⟩
  unfold portTo
  dsimp only
  split
  · obtain ⟨t, h⟩ := hdiscard (link s p).transitq
      (setLink { s with range := { s.range with openAt := now s } } p (dropSession (link s p) st))
    exact ⟨t, _, h⟩
  · obtain ⟨t, h⟩ := hdiscard (link s p).transitq (setLink s p (dropSession (link s p) st))
    exact ⟨t, s.range.openAt, h⟩

/-- A port taken OFF holds no session key. -/
theorem link_portTo_off (s : State) (p : Nat) : (link (portTo s p .off) p).state = .off ∧
    (link (portTo s p .off) p).txCur = none ∧ (link (portTo s p .off) p).rxCur = none := by
  have hview : portView (link (portTo s p .off) p) = offView := by
    have h := congrArg (fun f => f.ports p) (footing_portTo_off s p)
    exact h.trans (Function.update_self ..)
  exact ⟨congrArg PortView.state hview, congrArg PortView.txCur hview, congrArg PortView.rxCur hview⟩

/-- An ADMIT port that ends is OFF without keys, with or without a relay behind it. -/
theorem link_admitOff (s : State) (p : Nat) : (link (admitOff s p) p).state = .off ∧
    (link (admitOff s p) p).txCur = none ∧ (link (admitOff s p) p).rxCur = none := by
  unfold admitOff
  split
  · rename_i k hk
    obtain rfl : k.port = p := by simpa using List.find?_some hk
    exact link_portTo_off s k.port
  · exact link_portTo_off s p

theorem admitOff_keeps (s : State) (p : Nat) : (admitOff s p).part = s.part ∧ (admitOff s p).mem = s.mem := by
  unfold admitOff
  split
  · obtain ⟨t, o, h⟩ := portTo_frame s (Relay.port ‹_›) .off
    simp [dropRelay, h, clearSlot]
  · obtain ⟨t, o, h⟩ := portTo_frame s p .off
    simp [h, clearSlot]

/-- The result of a command that has taken a port OFF. -/
theorem portResult_portTo_off (s : State) (p : Nat) : portResult (portTo s p .off) p = resultOf [(8, 0)] := by
  rw [portResult, (link_portTo_off s p).1]
  rfl

/-- While no reform waits for its old key, a port that moves ends none (R364). -/
theorem endReform_idle {s : State} (h : s.range.retiring = false) : endReform s = s := by
  simp [endReform, h]

theorem range_finishWaits (s : State) (p : Wait → Bool) (st : Status) (r : BitVec 192) :
    (finishWaits s p st r).range = s.range := by
  unfold finishWaits
  dsimp only
  generalize s.cmd.waits.filter p = hit
  have hfold (u : State) : (hit.foldl (fun s w => finish s w.tkt st r) u).range = u.range := by
    induction hit generalizing u with
    | nil => rfl
    | cons w ws ih =>
      obtain ⟨-, -, -, -, -, -, -, -, hrange, -⟩ := finishWith_frame u w.tkt st false r
      exact (ih _).trans hrange
  exact hfold _

/-- A CTRL frame joins its port's queue. -/
theorem sendCtrl_port {p : Nat} (h : p < 36) (s : State) (kind : Nat) (ans : Bool) : sendCtrl s p kind ans =
    setLink s p { link s p with ctlq := (link s p).ctlq ++ [ctrlFrame s p kind ans] } := if_pos h

/-! ## The timers -/

section
variable {s : State} {p : Port}

theorem execTxRekeyTimer_due {u : Nat} (hfirst : (link s p.val).txFirst = some u) (ho : (link s p.val).state = .opened)
    (hdue : u + 60000000 ≤ now s) :
    execTxRekeyTimer p s = .next (setLink s p.val { link s p.val with flipDue := true }) := by
  simp [execTxRekeyTimer, hfirst, ho, hdue]

theorem execTxRekeyTimer_early {u : Nat} (hfirst : (link s p.val).txFirst = some u) (hearly : now s < u + 60000000) :
    execTxRekeyTimer p s = .next s := by
  simp [execTxRekeyTimer, hfirst, Nat.not_le.mpr hearly]

/-- A port that holds session keys. -/
theorem execTxKeyDerived_keyed (h : (link s p.val).state = .opened ∨ (link s p.val).state = .probing) :
    ((link s p.val).state != .opened && (link s p.val).state != .probing) = false := by
  rcases h with h | h <;> simp [h]

theorem execTxKeyDerived_tx (h : (link s p.val).state = .opened ∨ (link s p.val).state = .probing) {k : SKey}
    (hcur : (link s p.val).txCur = some k) (hnext : (link s p.val).txNext = none) :
    execTxKeyDerived p false s = .next (match rkBad s k.epoch.toNat with
      | none => setLink s p.val { link s p.val with txNext := some (txKey s p.val k.epoch (k.idx + 1)) }
      | some b => b) := by
  simp only [execTxKeyDerived, execTxKeyDerived_keyed h, hcur, hnext, Bool.false_eq_true, if_false]
  cases rkBad s k.epoch.toNat <;> rfl

theorem execTxKeyDerived_rx (h : (link s p.val).state = .opened ∨ (link s p.val).state = .probing) {k : SKey}
    (hcur : (link s p.val).rxCur = some k) (hother : (link s p.val).rxOther = none) :
    execTxKeyDerived p true s = .next (match rkBad s (nextEpoch s).toNat with
      | none => setLink s p.val { link s p.val with
          rxOther := some (if k.epoch = nextEpoch s then rxKey s p.val k.epoch (k.idx + 1)
            else rxKey s p.val (nextEpoch s) 0)
          rxPrev := false }
      | some b => b) := by
  simp only [execTxKeyDerived, execTxKeyDerived_keyed h, hcur, hother, Bool.false_eq_true, if_false, if_true]
  cases rkBad s (nextEpoch s).toNat with
  | some b => rfl
  | none =>
    by_cases he : k.epoch = nextEpoch s
    · simp [he]
    · simp [he]

theorem execTxKeyDerived_keyless (ho : (link s p.val).state ≠ .opened) (hp : (link s p.val).state ≠ .probing) (rx : Bool) :
    execTxKeyDerived p rx s = .next s := by
  simp [execTxKeyDerived, ho, hp]

/-- The windows that outlast the previous RX key are those of the current key's epoch. -/
def keptWins (l : Link) : List Win :=
  match l.rxCur with
  | some k => l.wins.filter fun w => w.epoch == k.epoch
  | none => []

theorem mem_keptWins {l : Link} {w : Win} (h : w ∈ keptWins l) : w ∈ l.wins ∧ ∃ k, l.rxCur = some k ∧ w.epoch = k.epoch := by
  unfold keptWins at h
  split at h
  · rename_i k hk
    obtain ⟨hmem, hepoch⟩ := List.mem_filter.mp h
    exact ⟨hmem, k, hk, eq_of_beq hepoch⟩
  · cases h

theorem execRxPrevRetire_due (hprev : (link s p.val).rxPrev = true) (hdue : (link s p.val).prevSince + 1000 ≤ now s)
    (hretiring : s.range.retiring = false) : execRxPrevRetire p s = .next (setLink s p.val { link s p.val with
      rxOther := none, rxPrev := false, prevFrames := 0, wins := keptWins (link s p.val) }) := by
  simp only [execRxPrevRetire, hprev, hdue, decide_true, Bool.and_self, if_true, retireRx]
  exact congrArg _ (endReform_idle hretiring)

theorem execRxPrevRetire_early (h : (link s p.val).rxPrev = false ∨ now s < (link s p.val).prevSince + 1000) :
    execRxPrevRetire p s = .next s := by
  rcases h with h | h
  · simp [execRxPrevRetire, h]
  · simp [execRxPrevRetire, Nat.not_le.mpr h]

theorem execKeepaliveTimer_due (ho : (link s p.val).state = .opened) (hq : (link s p.val).ctlq = [])
    (hdue : (link s p.val).lastTx + 10 ≤ now s) :
    execKeepaliveTimer p s = .next (setLink s p.val { link s p.val with ctlq := [ctrlFrame s p.val 0 false] }) := by
  simp [execKeepaliveTimer, hdue, hq, ho, sendCtrl_port p.isLt]

theorem execKeepaliveTimer_early (h : now s < (link s p.val).lastTx + 10) : execKeepaliveTimer p s = .next s := by
  simp [execKeepaliveTimer, Nat.not_le.mpr h]

/-- Outside a range no loss is reported. -/
theorem execPeerLoss_due (ho : (link s p.val).state = .opened) (hdue : (link s p.val).lastRx + 40 ≤ now s)
    (hclosing : (link s p.val).closing = false) (hretiring : s.range.retiring = false) (hrange : inRange s = false)
    (hq : (link s p.val).transitq = []) : ∃ t, execPeerLoss p s = .next t ∧
      link t p.val = dropSession { link s p.val with peerLost := true } .down ∧ (∀ q, q ≠ p.val → link t q = link s q) ∧
      t.part = s.part ∧ t.keys = s.keys := by
  obtain ⟨r, hdown⟩ := portDown_quiet (s := setLink s p.val { link s p.val with peerLost := true }) (n := p.val)
    (by simpa using hclosing) (by simpa using hq) hretiring
  generalize hd : portDown (setLink s p.val { link s p.val with peerLost := true }) p.val = d at hdown
  generalize hw : evWord 0 (evHandle 0 4) (p.val + (link s p.val).peerNode * 256) 0 = w
  obtain ⟨-, -, -, hkeys, -, hpart, -, hridge, -, -, hr, -⟩ := postEvent_same d 0 w
  have hreport : reportLoss (postEvent d 0 w) (link s p.val).peerNode p.val = postEvent d 0 w := by
    have hout : inRange (postEvent d 0 w) = false := by
      rw [inRange, hr, hdown]
      exact hrange
    simp [reportLoss, hout]
  have hlink (q : Nat) : link (postEvent d 0 w) q =
      if q = p.val then dropSession { link s p.val with peerLost := true } .down else link s q := by
    rw [link, hridge, hdown, ← link, link_setLink, link_setLink_same]
    split
    · rfl
    · exact (link_setLink ..).trans (if_neg ‹_›)
  refine ⟨postEvent d 0 w, ?_, (hlink _).trans (if_pos rfl), fun q hne => (hlink q).trans (if_neg hne), ?_, ?_⟩
  · have hcond : ((link s p.val).state == .opened && decide ((link s p.val).lastRx + 40 ≤ now s)) = true := by
      simp [ho, hdue]
    refine (if_pos hcond).trans (congrArg Host.Outcome.next ?_)
    rw [← hreport, ← hw, ← hd]
  · rw [hpart, hdown]
    rfl
  · rw [hkeys, hdown]
    rfl

theorem execPeerLoss_early (h : now s < (link s p.val).lastRx + 40) : execPeerLoss p s = .next s := by
  simp [execPeerLoss, Nat.not_le.mpr h]

theorem execProbeTimeout_due (hs : (link s p.val).state = .probing) (hdue : (link s p.val).since + 1000 ≤ now s) :
    execProbeTimeout p s = .next (finishWaits (portTo s p.val .off) (fun w => w.kind == .linkOpen p.val) .authFail
      (resultOf [(8, 0)])) := by
  simp [execProbeTimeout, hs, hdue, portResult_portTo_off]

theorem execProbeTimeout_early (h : now s < (link s p.val).since + 1000) : execProbeTimeout p s = .next s := by
  simp [execProbeTimeout, Nat.not_le.mpr h]

theorem execAdmitIdleTimeout_due (hs : (link s p.val).state = .admitting)
    (hdue : (link s p.val).lastRx + 20000000 ≤ now s) : execAdmitIdleTimeout p s = .next (admitOff s p.val) := by
  simp [execAdmitIdleTimeout, hs, hdue]

theorem execAdmitIdleTimeout_early (h : now s < (link s p.val).lastRx + 20000000) :
    execAdmitIdleTimeout p s = .next s := by
  simp [execAdmitIdleTimeout, Nat.not_le.mpr h]

theorem drained_iff (l : Link) : drained l = true ↔ l.ctlq = [] ∧ l.transitq = [] := by
  simp [drained]

theorem execCloseDrainDone_due (ho : (link s p.val).state = .opened) (hclosing : (link s p.val).closing = true)
    (hdone : ((link s p.val).ctlq = [] ∧ (link s p.val).transitq = []) ∨ (link s p.val).since + 50 ≤ now s)
    (hretiring : s.range.retiring = false) : execCloseDrainDone p s = .next (finishWaits (portTo s p.val .off)
      (fun w => w.kind == .linkClose p.val) .ok (resultOf [(8, 0)])) := by
  have hends : (drained (link s p.val) || decide ((link s p.val).since + 50 ≤ now s)) = true := by
    rw [Bool.or_eq_true, drained_iff, decide_eq_true_eq]
    exact hdone
  have hquiet : (finishWaits (portTo s p.val .off) (fun w => w.kind == .linkClose p.val) .ok
      (resultOf [(8, 0)])).range.retiring = false := by
    obtain ⟨t, o, h⟩ := portTo_frame s p.val .off
    rw [range_finishWaits, h]
    exact hretiring
  simp only [execCloseDrainDone, ho, hclosing, hends, beq_self_eq_true, Bool.and_self, if_true, endClose,
    portResult_portTo_off, endReform_idle hquiet]

theorem execCloseDrainDone_early (h : (link s p.val).closing = false ∨
    (((link s p.val).ctlq ≠ [] ∨ (link s p.val).transitq ≠ []) ∧ now s < (link s p.val).since + 50)) :
    execCloseDrainDone p s = .next s := by
  rcases h with h | ⟨hq, hearly⟩
  · simp [execCloseDrainDone, h]
  · have hwaits : drained (link s p.val) = false := by
      rw [Bool.eq_false_iff, Ne, drained_iff, not_and_or]
      exact hq
    simp [execCloseDrainDone, hwaits, Nat.not_le.mpr hearly]

theorem execLinkRetryFail_awaited (ho : (link s p.val).state = .opened) (hr : (link s p.val).retrying.isSome = true) :
    execLinkRetryFail p s = .next (linkAlarm s p.val) := by
  simp [execLinkRetryFail, ho, hr]

theorem execLinkRetryFail_idle (hr : (link s p.val).retrying = none) : execLinkRetryFail p s = .next s := by
  simp [execLinkRetryFail, hr]

end

/-- Settles O39: each timer at its time, and before it. -/
theorem portTimersActAtTheirTime : Obligations.PortTimersActAtTheirTime := by
  intro s p n l
  refine ⟨fun u hfirst ho hdue => execTxRekeyTimer_due hfirst ho hdue,
    fun u hfirst hearly => execTxRekeyTimer_early hfirst hearly,
    fun k hs hcur hnext => execTxKeyDerived_tx hs hcur hnext, fun k hs hcur hother => execTxKeyDerived_rx hs hcur hother,
    fun ho hp rx => execTxKeyDerived_keyless ho hp rx,
    fun hprev hdue hretiring => ⟨_, execRxPrevRetire_due hprev hdue hretiring, fun w hw => mem_keptWins hw⟩,
    fun h => execRxPrevRetire_early h, fun ho hq hdue => ⟨_, execKeepaliveTimer_due ho hq hdue, rfl, ?_⟩,
    fun h => execKeepaliveTimer_early h, fun ho hdue hclosing hretiring hrange hq => ?_,
    fun h => execPeerLoss_early h, fun hs hdue => execProbeTimeout_due hs hdue, fun h => execProbeTimeout_early h,
    fun hs hdue => ⟨_, execAdmitIdleTimeout_due hs hdue, (link_admitOff s n).1, (link_admitOff s n).2.1,
      (admitOff_keeps s n).1⟩,
    fun h => execAdmitIdleTimeout_early h,
    fun ho hclosing hdone hretiring => execCloseDrainDone_due ho hclosing hdone hretiring,
    fun h => execCloseDrainDone_early h, fun ho hr => execLinkRetryFail_awaited ho hr, fun hr => execLinkRetryFail_idle hr⟩
  · have hstate : (link s n).state = .opened := ho
    exact if_neg (by rw [show (link s p.val).state = .opened from hstate]; decide)
  · obtain ⟨t, hexec, hport, hothers, hpart, hkeys⟩ := execPeerLoss_due ho hdue hclosing hretiring hrange hq
    exact ⟨t, hexec, by rw [hport]; rfl, by rw [hport]; rfl, by rw [hport]; rfl, hothers, hpart, hkeys⟩

end Sys2Proof.Machine

/-! PROOFS. The port commands: LINK_SESSION, LINK_REKEY, LINK_SCREE (03 R59 to R64, R70, R82, R89). -/

namespace Sys2Proof.Machine

section
variable {s k : State} {c : Cmd} {t : Ticket}

/-- A command that reads no memory comes to what its run comes to in the state it starts in. -/
theorem issue_of_accepted_unread {op : Op} (hreads : op.reads k t c.body c.mem = [])
    (h : accepted op s c = some (k, t)) : issue op s c = conclude k t (op.run k t c.body c.mem) := by
  rw [issue_of_accepted h, hreads]
  rfl

/-! ## LINK_SESSION OPEN (R59, R61, R62, R63) -/

theorem execLinkSessionOpen_accepted (h : accepted opLinkOpen s c = some (k, t)) :
    exec (.linkSessionOpen c) s = .next (conclude k t (runLinkOpen k t c.body c.mem)) :=
  congrArg Host.Outcome.next (issue_of_accepted_unread rfl h)

/-- A LINK_SESSION OPEN that is accepted names one of the 36 ports. -/
theorem open_port (h : accepted opLinkOpen s c = some (k, t)) : parm c.body 16 8 < 36 := by
  have hpre := (accepted_facts h).1
  simp only [opLinkOpen, ite_eq_left_iff, reduceCtorEq, imp_false, not_not, Bool.and_eq_true, portNamed,
    decide_eq_true_eq] at hpre
  omega

/-- The port that starts to probe, before its keys. -/
def probeLink (s : State) (p : Pkt) : Link :=
  let l := link s (parm p 16 8)
  { l with
    state := .probing, peerNode := parm p 18 14, peerPort := parm p 20 8, cableDly := parm p 21 8
    transit := parm p 22 8, ctr := {}, lastSeq := 0, since := now s, lastRx := now s, lastTx := now s
    grant := grantOf s (parm p 16 8), txSeq := match l.kept with
      | some (e, q) => if e == s.range.epoch then q else 0
      | none => 0 }

/-- A session that opens under the epoch of the last one goes on with its sequence numbers (R61). -/
theorem probeLink_txSeq {u : State} {p : Pkt} {q : BitVec 64} (h : (link u (parm p 16 8)).kept = some (u.range.epoch, q)) :
    (probeLink u p).txSeq = q := by
  simp only [probeLink, h, beq_self_eq_true, if_true]

/-- The chip as it derives the keys of a port that starts to probe. -/
def probeState (s : State) (p : Pkt) : State :=
  setLink { s with ridge := { s.ridge with txSample := tset 0 s.ridge.txSample (parm p 16 8) 0 } } (parm p 16 8) (probeLink s p)

/-- The port that probes, with both session keys of index 0. -/
def keyedLink (s : State) (p : Pkt) : Link :=
  { probeLink s p with
    txCur := some (txKey (probeState s p) (parm p 16 8) s.range.epoch 0)
    rxCur := some (rxKey (probeState s p) (parm p 16 8) s.range.epoch 0) }

/-- OPEN of an OFF port of a chip in a range, within the port's shares. -/
theorem runLinkOpen_off (m : List ReadIn) (hoff : (link s (parm c.body 16 8)).state = .off) (hin : inRange s = true)
    (hsum : parm c.body 22 8 + ((link s (parm c.body 16 8)).shares.map (·.2)).sum ≤ 32) :
    runLinkOpen s t c.body m = match rkBad s s.range.epoch.toNat with
      | some b => .failWith .errIntegrity 0 b
      | none => .wait (sendCtrl (setLink (probeState s c.body) (parm c.body 16 8) (keyedLink s c.body))
          (parm c.body 16 8) 1 false) 0 (.linkOpen (parm c.body 16 8)) := by
  unfold runLinkOpen
  rw [if_neg (by simp [hoff, hin]), if_neg (by omega)]
  rfl

theorem runLinkOpen_refused (m : List ReadIn) (h : (link s (parm c.body 16 8)).state ≠ .off ∨ inRange s = false) :
    runLinkOpen s t c.body m = .fail .errState := if_pos (by simpa using h)

theorem lowEnd_congr {u v : State} {n : Nat} (hrange : v.range = u.range)
    (hpeer : (link v n).peerNode = (link u n).peerNode ∧ (link v n).peerPort = (link u n).peerPort) :
    lowEnd v n = lowEnd u n := by
  simp only [lowEnd, hrange, hpeer]

/-- A session key rests on the range, the key slots and the port's pair. -/
theorem sessionKey_congr {u v : State} {n : Nat} (hrange : v.range = u.range) (hkeys : v.keys = u.keys)
    (hpeer : (link v n).peerNode = (link u n).peerNode ∧ (link v n).peerPort = (link u n).peerPort)
    (e : BitVec 30) (dir : Bool) (i : Nat) : sessionKey v n e dir i = sessionKey u n e dir i := by
  have hrk : rkOf v e.toNat = rkOf u e.toNat := by simp only [rkOf, rkSlot, slot, hrange, hkeys]
  simp only [sessionKey, sessionInfo, lowEnd_congr hrange hpeer, hpeer, hrange, hrk]

/-- Both directions of a port rest on its state, its pair and the range. -/
theorem txDir_congr {u v : State} {n : Nat} (hrange : v.range = u.range) (hstate : (link v n).state = (link u n).state)
    (hpeer : (link v n).peerNode = (link u n).peerNode ∧ (link v n).peerPort = (link u n).peerPort) :
    txDir v n = txDir u n := by
  simp only [txDir, relayOf, lowEnd_congr hrange hpeer, hstate, hrange]

theorem open_probes (h : accepted opLinkOpen s c = some (k, t)) (hoff : (link k (parm c.body 16 8)).state = .off)
    (hin : inRange k = true) (hsum : parm c.body 22 8 + ((link k (parm c.body 16 8)).shares.map (·.2)).sum ≤ 32)
    (hgood : rkBad k k.range.epoch.toNat = none) :
    ∃ e q, exec (.linkSessionOpen c) s = .next e ∧
      link e (parm c.body 16 8) = { keyedLink k c.body with ctlq := q } ∧
      (link e (parm c.body 16 8)).txCur = some (txKey e (parm c.body 16 8) k.range.epoch 0) ∧
      (link e (parm c.body 16 8)).rxCur = some (rxKey e (parm c.body 16 8) k.range.epoch 0) ∧
      e.cmd.waits = k.cmd.waits ++ [⟨t, 0, .linkOpen (parm c.body 16 8)⟩] ∧
      (∀ p, p ≠ parm c.body 16 8 → link e p = link k p) ∧
      e.part = k.part ∧ e.keys = k.keys ∧ e.mem = k.mem ∧ e.range = k.range := by
  rw [execLinkSessionOpen_accepted h, runLinkOpen_off _ hoff hin hsum, hgood]
  simp only [conclude, sendCtrl_port (open_port h)]
  generalize hn : parm c.body 16 8 = n
  generalize hq : (link (setLink (probeState k c.body) n (keyedLink k c.body)) n).ctlq ++ _ = q
  generalize hu : setLink (setLink (probeState k c.body) n (keyedLink k c.body)) n _ = u
  have hport : link u n = { keyedLink k c.body with ctlq := q } := by
    rw [← hu, link_setLink_same, link_setLink_same]
  have hbefore : link (probeState k c.body) n = probeLink k c.body := by
    rw [probeState, hn, link_setLink_same]
  have hothers (p : Nat) (hne : p ≠ n) : link u p = link k p := by
    rw [← hu, link_setLink, if_neg hne, link_setLink, if_neg hne, probeState, hn, link_setLink, if_neg hne]
    rfl
  have hpeer : (link u n).peerNode = (link (probeState k c.body) n).peerNode ∧
      (link u n).peerPort = (link (probeState k c.body) n).peerPort := by
    rw [hport, hbefore]
    exact ⟨rfl, rfl⟩
  have hrange : u.range = (probeState k c.body).range := by rw [← hu]; rfl
  have hkeys : u.keys = (probeState k c.body).keys := by rw [← hu]; rfl
  have hdir : txDir u n = txDir (probeState k c.body) n := txDir_congr hrange (by rw [hport, hbefore]; rfl) hpeer
  refine ⟨_, q, rfl, hport, ?_, ?_, by rw [← hu]; rfl, hothers, by rw [← hu]; rfl, hkeys, by rw [← hu]; rfl, hrange⟩
  · refine (congrArg Link.txCur hport).trans (congrArg some ?_)
    refine Eq.trans ?_ (sessionKey_congr hrange hkeys hpeer k.range.epoch (txDir u n) 0).symm
    rw [hdir, hn]
    rfl
  · refine (congrArg Link.rxCur hport).trans (congrArg some ?_)
    refine Eq.trans ?_ (sessionKey_congr hrange hkeys hpeer k.range.epoch (!txDir u n) 0).symm
    rw [hdir, hn]
    rfl

/-! ## LINK_SESSION CLOSE and SHARE (R62, R63, R82) -/

theorem execLinkSessionClose_accepted (h : accepted opLinkClose s c = some (k, t)) :
    exec (.linkSessionClose c) s = .next (conclude k t (runLinkClose k t c.body c.mem)) :=
  congrArg Host.Outcome.next (issue_of_accepted_unread rfl h)

theorem close_opened (h : accepted opLinkClose s c = some (k, t))
    (ho : (link k (parm c.body 16 8)).state = .opened) :
    exec (.linkSessionClose c) s = .next { setLink k (parm c.body 16 8) { link k (parm c.body 16 8) with
        closing := true
        since := if (link k (parm c.body 16 8)).closing then (link k (parm c.body 16 8)).since else now k } with
      cmd := { k.cmd with waits := k.cmd.waits ++ [⟨t, 0, .linkClose (parm c.body 16 8)⟩] } } := by
  rw [execLinkSessionClose_accepted h]
  unfold runLinkClose
  dsimp only
  split
  case h_1 => rfl
  all_goals simp_all

/-- CLOSE of a port that is DOWN or ADMITTING: it is OFF at once, without keys. -/
theorem close_ends (h : accepted opLinkClose s c = some (k, t))
    (hs : (link k (parm c.body 16 8)).state = .down ∨ (link k (parm c.body 16 8)).state = .admitting) :
    ∃ e, exec (.linkSessionClose c) s = .next (finish e t .ok (resultOf [(8, 0)])) ∧
      (link e (parm c.body 16 8)).state = .off ∧ (link e (parm c.body 16 8)).txCur = none ∧
      (link e (parm c.body 16 8)).rxCur = none ∧ e.part = k.part ∧ e.mem = k.mem := by
  rw [execLinkSessionClose_accepted h, runLinkClose]
  rcases hs with hs | hs
  · rw [hs]
    obtain ⟨hstate, htx, hrx⟩ := link_portTo_off k (parm c.body 16 8)
    obtain ⟨ls, o, hframe⟩ := portTo_frame k (parm c.body 16 8) .off
    exact ⟨_, rfl, hstate, htx, hrx, by rw [hframe], by rw [hframe]⟩
  · rw [hs]
    obtain ⟨hstate, htx, hrx⟩ := link_admitOff k (parm c.body 16 8)
    obtain ⟨hpart, hmem⟩ := admitOff_keeps k (parm c.body 16 8)
    exact ⟨_, rfl, hstate, htx, hrx, hpart, hmem⟩

theorem close_refused (h : accepted opLinkClose s c = some (k, t))
    (hs : (link k (parm c.body 16 8)).state = .off ∨ (link k (parm c.body 16 8)).state = .probing) :
    exec (.linkSessionClose c) s = .next (finish k t .errState) := by
  rw [execLinkSessionClose_accepted h, runLinkClose]
  rcases hs with hs | hs <;> rw [hs] <;> rfl

theorem execLinkSessionShare_accepted (h : accepted opLinkShare s c = some (k, t)) :
    exec (.linkSessionShare c) s = .next (conclude k t (runLinkShare k t c.body c.mem)) :=
  congrArg Host.Outcome.next (issue_of_accepted_unread rfl h)

/-- The port with the share that a LINK_SESSION SHARE sets. -/
def sharedLink (s : State) (t : Ticket) (p : Pkt) : Link :=
  { link s (parm p 16 8) with shares := tset 0 (link s (parm p 16 8)).shares (tagPid t.ptag) (parm p 18 8) }

theorem share_set (h : accepted opLinkShare s c = some (k, t)) (hsum : shareSum (sharedLink k t c.body) ≤ 32) :
    exec (.linkSessionShare c) s = .next (finish (setLink k (parm c.body 16 8) (sharedLink k t c.body)) t .ok
      (portResult k (parm c.body 16 8))) := by
  rw [execLinkSessionShare_accepted h, show runLinkShare k t c.body c.mem = _ from if_neg (Nat.not_lt.mpr hsum)]
  rfl

theorem share_refused (h : accepted opLinkShare s c = some (k, t)) (hsum : 32 < shareSum (sharedLink k t c.body)) :
    exec (.linkSessionShare c) s = .next (finish k t .errResource) := by
  rw [execLinkSessionShare_accepted h, show runLinkShare k t c.body c.mem = _ from if_pos hsum]
  rfl

/-! ## LINK_SESSION ADMIT (R62, R64, R358) -/

theorem onlyDraws_draw (u : State) : OnlyDraws u (draw u).1 := onlyDraws_drawBytes ..

theorem onlyDraws_drawEc (u : State) : OnlyDraws u (drawEc u).1 := onlyDraws_drawBytes ..

theorem onlyDraws_drawKem (u : State) : OnlyDraws u (drawKem u).1 := onlyDraws_drawBytes ..

theorem OnlyDraws.fuse {u v : State} (h : OnlyDraws u v) : v.fuse = u.fuse := by
  obtain ⟨⟨_, rfl, -, -⟩, -⟩ := h
  rfl

/-- Where DS and FWS verify, reading them changes nothing (R259). -/
theorem idKeys_good {u : State} (h : readBad u [0, 1] = none) : idKeys u = u := by simp [idKeys, h]

/-- The exchange of a chip with an identity: draws alone, and then this end's signed shares. -/
theorem admitExchange_sent {u : State} (hgood : readBad u [0, 1] = none) (hroot : u.fuse.rootKind = .valid) (n : Nat)
    (relay : Bool) : ∃ v shares, OnlyDraws u v ∧ (admitExchange u n relay).1 = sendShares v n shares := by
  rw [admitExchange, idKeys_good hgood]
  dsimp only
  have hec := onlyDraws_drawEc u
  split
  · have hdraws := hec.trans (onlyDraws_draw _)
    exact ⟨_, _, hdraws, if_pos (beq_iff_eq.mpr (hdraws.fuse ▸ hroot))⟩
  · have hdraws := hec.trans (onlyDraws_drawKem _)
    exact ⟨_, _, hdraws, if_pos (beq_iff_eq.mpr (hdraws.fuse ▸ hroot))⟩

/-- A key counts only on a chip with an identity. -/
theorem rootKind_of_admitted {u : State} (hgood : readBad u [0, 1] = none) {n : Nat} {relay : Bool} {x : Key}
    (h : (admitExchange u n relay).2 = some x) : u.fuse.rootKind = .valid := by
  rw [admitExchange, idKeys_good hgood] at h
  by_contra hroot
  cases relay <;> simp [hroot] at h

/-- What the exchange of an admitted chip leaves as it was. -/
theorem admitExchange_keeps {u : State} (hgood : readBad u [0, 1] = none) {n : Nat} {relay : Bool} {x : Key}
    (h : (admitExchange u n relay).2 = some x) (v : State) (hv : (admitExchange u n relay).1 = v) :
    (∀ i, slot v i = slot u i) ∧ v.range = u.range ∧ v.part = u.part ∧ v.mem = u.mem := by
  obtain ⟨w, shares, ⟨⟨_, hkeys, -, -⟩, hslots, -, -⟩, hsent⟩ :=
    admitExchange_sent hgood (rootKind_of_admitted hgood h) n relay
  subst hv
  rw [hsent]
  exact ⟨fun i => slot_eq_of_slots hslots i, by rw [hkeys]; rfl, by rw [hkeys]; rfl, by rw [hkeys]; rfl⟩

/-- An ADMIT session holds the agreed key, in its slot and on the port, and changes no other slot. -/
theorem startAdmit_holds (u : State) (n i : Nat) (relay : Bool) (x : Key) :
    (link (startAdmit u n i relay x) n).state = .admitting ∧
    polClass (slot (startAdmit u n i relay x) i).policy = classCode .agreed ∧ (slot (startAdmit u n i relay x) i).key = x ∧
    (link (startAdmit u n i relay x) n).txCur = some ⟨0, 0, x⟩ ∧ (link (startAdmit u n i relay x) n).rxCur = some ⟨0, 0, x⟩ ∧
    (∀ j, j ≠ i → slot (startAdmit u n i relay x) j = slot u j) ∧ (startAdmit u n i relay x).part = u.part ∧
    (startAdmit u n i relay x).mem = u.mem ∧ (startAdmit u n i relay x).range =
      if relay then { u.range with relays := u.range.relays ++ [{ port := n, slot := i }] } else u.range := by
  have hslots (j : Nat) : slot (startAdmit u n i relay x) j = slot (writeSlot u i x (policy .agreed .none 0 0 0)) j := by
    cases relay <;> rfl
  have hlink : link (startAdmit u n i relay x) n = { link u n with
      state := .admitting, txCur := some ⟨0, 0, x⟩, rxCur := some ⟨0, 0, x⟩, txSeq := 0, since := now u, lastRx := now u
      lastTx := now u } := link_setLink_same ..
  refine ⟨by rw [hlink], ?_, ?_, by rw [hlink], by rw [hlink], fun j hj => ?_, ?_, ?_, ?_⟩
  · rw [hslots, writeSlot, slot_setSlot_same]
    exact (by decide : polClass (policy .agreed .none 0 0 0) = classCode .agreed)
  · rw [hslots, writeSlot, slot_setSlot_same]
  · rw [hslots, slot_writeSlot_ne u hj]
  all_goals cases relay <;> rfl

theorem execLinkSessionAdmit_accepted (h : accepted opLinkAdmit s c = some (k, t)) :
    exec (.linkSessionAdmit c) s = .next (conclude k t (runLinkAdmit k t c.body c.mem)) :=
  congrArg Host.Outcome.next (issue_of_accepted_unread rfl h)

theorem admit_refused (h : accepted opLinkAdmit s c = some (k, t))
    (hs : (link k (parm c.body 16 8)).state ≠ .off ∨ k.keys.entFailed = true) :
    exec (.linkSessionAdmit c) s = .next (finish k t .errState) := by
  rw [execLinkSessionAdmit_accepted h, show runLinkAdmit k t c.body c.mem = _ from if_pos (by simpa using hs)]
  rfl

/-- The slot that an ADMIT takes: a pool slot as a relay, slot 6 as a joiner. -/
def admitSlot (s : State) : Option Nat :=
  if inRange s then (freeDerived s).head? else if polClass (slot s 6).policy == 0 then some 6 else none

theorem runLinkAdmit_off (m : List ReadIn) (hoff : (link k (parm c.body 16 8)).state = .off)
    (hent : k.keys.entFailed = false) : runLinkAdmit k t c.body m = match admitSlot k with
      | none => .fail .errResource
      | some i =>
        if inRange k && k.range.relays.length ≥ 4 then .fail .errResource
        else match (admitExchange k (parm c.body 16 8) (inRange k)).2 with
          | some x => .ok (startAdmit (admitExchange k (parm c.body 16 8) (inRange k)).1 (parm c.body 16 8) i (inRange k) x)
              (resultOf [(8, 4)])
          | none => .failWith .authFail (resultOf [(8, 0)]) (admitExchange k (parm c.body 16 8) (inRange k)).1 := by
  unfold runLinkAdmit
  rw [if_neg (by simp [hoff, hent])]
  rfl

/-- ADMIT of a joiner (R64): the agreed key in slot 6, or AUTH_FAIL. -/
theorem admit_joins (h : accepted opLinkAdmit s c = some (k, t)) (hoff : (link k (parm c.body 16 8)).state = .off)
    (hout : inRange k = false) (hent : k.keys.entFailed = false) :
    exec (.linkSessionAdmit c) s = .next (if polClass (slot k 6).policy = 0 then
      match (admitExchange k (parm c.body 16 8) false).2 with
      | some x => finish (startAdmit (admitExchange k (parm c.body 16 8) false).1 (parm c.body 16 8) 6 false x) t .ok
          (resultOf [(8, 4)])
      | none => finish (admitExchange k (parm c.body 16 8) false).1 t .authFail (resultOf [(8, 0)])
    else finish k t .errResource) := by
  rw [execLinkSessionAdmit_accepted h, runLinkAdmit_off _ hoff hent, admitSlot, hout]
  by_cases hfree : polClass (slot k 6).policy = 0
  · simp only [hfree, beq_self_eq_true, if_true, Bool.false_eq_true, if_false, Bool.false_and]
    split <;> rfl
  · simp only [hfree, if_false, Bool.false_eq_true, beq_iff_eq, conclude]

/-- ADMIT of a relay (R358) with a free pool slot. -/
theorem admit_relays {i : Nat} {rest : List Nat} (h : accepted opLinkAdmit s c = some (k, t))
    (hoff : (link k (parm c.body 16 8)).state = .off) (hin : inRange k = true) (hent : k.keys.entFailed = false)
    (hfree : freeDerived k = i :: rest) (hfew : k.range.relays.length < 4) :
    exec (.linkSessionAdmit c) s = .next (match (admitExchange k (parm c.body 16 8) true).2 with
      | some x => finish (startAdmit (admitExchange k (parm c.body 16 8) true).1 (parm c.body 16 8) i true x) t .ok
          (resultOf [(8, 4)])
      | none => finish (admitExchange k (parm c.body 16 8) true).1 t .authFail (resultOf [(8, 0)])) := by
  rw [execLinkSessionAdmit_accepted h, runLinkAdmit_off _ hoff hent, admitSlot, hin]
  simp only [hfree, if_true, List.head?_cons, Bool.true_and, decide_eq_true_eq, ge_iff_le, Nat.not_le.mpr hfew, if_false]
  split <;> rfl

theorem admit_full (h : accepted opLinkAdmit s c = some (k, t)) (hoff : (link k (parm c.body 16 8)).state = .off)
    (hin : inRange k = true) (hent : k.keys.entFailed = false)
    (hfull : freeDerived k = [] ∨ 4 ≤ k.range.relays.length) :
    exec (.linkSessionAdmit c) s = .next (finish k t .errResource) := by
  rw [execLinkSessionAdmit_accepted h, runLinkAdmit_off _ hoff hent, admitSlot, hin]
  rcases hfull with hnone | hmany
  · simp only [hnone, if_true, List.head?_nil]
    rfl
  · cases hfree : freeDerived k with
    | nil => rfl
    | cons i rest =>
      simp only [if_true, List.head?_cons, Bool.true_and, decide_eq_true_eq, ge_iff_le, hmany]
      rfl

/-! ## LINK_REKEY and LINK_SCREE (R70, R89) -/

theorem execLinkRekey_accepted (h : accepted opLinkRekey s c = some (k, t)) :
    exec (.linkRekey c) s = .next (conclude k t (runLinkRekey k t c.body c.mem)) :=
  congrArg Host.Outcome.next (issue_of_accepted_unread rfl h)

theorem rekey_marks (h : accepted opLinkRekey s c = some (k, t)) (ho : (link k (parm c.body 16 8)).state = .opened)
    (hnext : (link k (parm c.body 16 8)).txNext.isSome = true)
    (hlast : ∀ u, (link k (parm c.body 16 8)).lastFlip = some u → u + 10000 ≤ now k) :
    exec (.linkRekey c) s =
      .next (finish (setLink k (parm c.body 16 8) { link k (parm c.body 16 8) with flipDue := true }) t .ok) := by
  rw [execLinkRekey_accepted h]
  unfold runLinkRekey
  dsimp only
  rw [if_neg (by simp [ho]), if_neg]
  · rfl
  · rw [Option.isNone_eq_false_iff.mpr hnext, Bool.false_or]
    split
    · simpa using hlast _ ‹_›
    · simp

theorem rekey_refused (h : accepted opLinkRekey s c = some (k, t)) (ho : (link k (parm c.body 16 8)).state ≠ .opened) :
    exec (.linkRekey c) s = .next (finish k t .errState) := by
  rw [execLinkRekey_accepted h, show runLinkRekey k t c.body c.mem = _ from if_pos (by simpa using ho)]
  rfl

theorem rekey_busy {u : Nat} (h : accepted opLinkRekey s c = some (k, t))
    (ho : (link k (parm c.body 16 8)).state = .opened)
    (hsoon : (link k (parm c.body 16 8)).txNext = none ∨
      ((link k (parm c.body 16 8)).lastFlip = some u ∧ now k < u + 10000)) :
    exec (.linkRekey c) s = .next (finish k t .busy) := by
  rw [execLinkRekey_accepted h]
  unfold runLinkRekey
  dsimp only
  rw [if_neg (by simp [ho]), if_pos]
  · rfl
  · rcases hsoon with hnone | ⟨hlast, hearly⟩
    · simp [hnone]
    · simp [hlast, hearly]

theorem scree_set (h : accepted opLinkScree s c = some (k, t)) :
    exec (.linkScree c) s = .next (finish (setLink k (parm c.body 16 8) { link k (parm c.body 16 8) with
      screeFM1 := parm c.body 17 8 - 1, screeCad := parm c.body 18 8 }) t .ok) :=
  congrArg Host.Outcome.next (issue_of_accepted_unread rfl h)

end

/-- Settles O35: each of the port commands, form by form. -/
theorem portCommandsFollowThePortState : Obligations.PortCommandsFollowThePortState := by
  intro s c k t n l shared
  refine ⟨fun hacc hoff hin hsum hgood => ?_, fun b hacc hoff hin hsum hbad => ?_, fun hacc hs => ?_,
    fun hacc ho => close_opened hacc ho, fun hacc hs => close_ends hacc hs, fun hacc hs => close_refused hacc hs,
    fun hacc hsum => share_set hacc hsum, fun hacc hsum => share_refused hacc hsum,
    fun hacc hoff hout hent hgood => ?_, fun i rest hacc hoff hin hent hfree hfew hgood => ?_,
    fun relay hroot hgood => ?_, fun hacc hoff hin hent hfull => admit_full hacc hoff hin hent hfull,
    fun hacc hs => admit_refused hacc hs, fun hacc ho hnext hlast => rekey_marks hacc ho hnext hlast,
    fun hacc ho => rekey_refused hacc ho, fun u hacc ho hsoon => rekey_busy hacc ho hsoon, fun hacc => scree_set hacc⟩
  · obtain ⟨e, q, hexec, hport, htx, hrx, hwaits, hothers, hpart, hkeys, hmem, hrange⟩ :=
      open_probes hacc hoff hin hsum hgood
    refine ⟨e, hexec, congrArg Link.state hport, congrArg Link.peerNode hport, congrArg Link.peerPort hport,
      congrArg Link.cableDly hport, congrArg Link.transit hport, congrArg Link.ctr hport,
      fun x hkept => (congrArg Link.txSeq hport).trans ?_, htx, hrx, hwaits, hothers, hpart, hkeys, hmem, hrange⟩
    exact probeLink_txSeq hkept
  · rw [execLinkSessionOpen_accepted hacc, runLinkOpen_off _ hoff hin hsum, hbad]
    rfl
  · rw [execLinkSessionOpen_accepted hacc, runLinkOpen_refused _ hs]
    rfl
  · have hexec := admit_joins hacc hoff hout hent
    split
    · rename_i hfree
      rw [if_pos hfree] at hexec
      split <;> rename_i hx <;> rw [show parm c.body 16 8 = n from rfl, hx] at hexec
      · obtain ⟨hslot, hrange, hpart, hmem⟩ := admitExchange_keeps hgood hx _ rfl
        obtain ⟨hstate, hclass, hkey, htx, hrx, hothers, hp, hm, hr⟩ :=
          startAdmit_holds (admitExchange k n false).1 n 6 false ‹_›
        exact ⟨_, hexec, hstate, hclass, hkey, htx, hrx, fun i hi => (hothers i hi).trans (hslot i), hr.trans hrange,
          hp.trans hpart, hm.trans hmem⟩
      · exact hexec
    · exact hexec.trans (congrArg Host.Outcome.next (if_neg ‹_›))
  · have hexec := admit_relays hacc hoff hin hent hfree hfew
    split <;> rename_i hx <;> rw [show parm c.body 16 8 = n from rfl, hx] at hexec
    · obtain ⟨-, hrange, hpart, hmem⟩ := admitExchange_keeps hgood hx _ rfl
      obtain ⟨hstate, hclass, hkey, htx, -, -, hp, hm, hr⟩ := startAdmit_holds (admitExchange k n true).1 n i true ‹_›
      exact ⟨_, hexec, hstate, hclass, hkey, htx, by rw [hr, if_pos rfl, hrange], hp.trans hpart, hm.trans hmem⟩
    · exact hexec
  · obtain ⟨v, shares, ⟨⟨_, hkeys, -, -⟩, -⟩, hsent⟩ := admitExchange_sent hgood hroot n relay
    exact ⟨v, shares, hsent, by rw [hkeys], by rw [hkeys], by rw [hkeys], by rw [hkeys]⟩

end Sys2Proof.Machine

/-! PROOFS. What a verified frame comes to at its consumer (03 R57, R77, R83 to R86, 06 R167, R186 to R189, 07 R200). -/

namespace Sys2Proof.Machine

/-! ## Answers and stream entries -/

/-- An answer of a target: a frame joins the router's queue, and nothing else changes. -/
def OnlyAnswers (s t : State) : Prop := ∃ q, t = { s with ridge := { s.ridge with outq := q } }

/-- A target writes its stream table, and answers. -/
def OnlyStreams (s t : State) : Prop := ∃ q l, t = { s with ridge := { s.ridge with outq := q, streams := l } }

theorem OnlyAnswers.trans {s t u : State} (h : OnlyAnswers s t) (k : OnlyAnswers t u) : OnlyAnswers s u := by
  obtain ⟨q, rfl⟩ := h
  obtain ⟨q', rfl⟩ := k
  exact ⟨q', rfl⟩

theorem OnlyStreams.trans {s t u : State} (h : OnlyStreams s t) (k : OnlyStreams t u) : OnlyStreams s u := by
  obtain ⟨q, l, rfl⟩ := h
  obtain ⟨q', l', rfl⟩ := k
  exact ⟨q', l', rfl⟩

theorem OnlyStreams.refl (s : State) : OnlyStreams s s := ⟨s.ridge.outq, s.ridge.streams, rfl⟩

theorem OnlyAnswers.onlyStreams {s t : State} (h : OnlyAnswers s t) : OnlyStreams s t := by
  obtain ⟨q, rfl⟩ := h
  exact ⟨q, s.ridge.streams, rfl⟩

theorem OnlyAnswers.stream {s t : State} (h : OnlyAnswers s t) (i : Nat) : stream t i = stream s i := by
  obtain ⟨q, rfl⟩ := h
  rfl

/-- A frame of this chip that names no ADMIT port joins the router's queue (R55). -/
theorem onlyAnswers_sendFrame (s : State) (cls : BitVec 4) (dst : Nat) (sptag dptag : BitVec 16) (d : Desc) (body : Bytes)
    (track : Nat) (retry poison : Bool) : OnlyAnswers s (sendFrame s cls dst sptag dptag d body track retry poison) := by
  unfold sendFrame push
  exact ⟨_, if_neg (Nat.lt_irrefl 36)⟩

theorem onlyAnswers_answer (s : State) (g : Ingress) (kind : BitVec 8) (st : Status) (data : Bytes) (poison : Bool) :
    OnlyAnswers s (answer s g kind st data poison) := onlyAnswers_sendFrame ..

theorem onlyStreams_setStream (s : State) (i : Nat) (t : Stream) : OnlyStreams s (setStream s i t) := ⟨_, _, rfl⟩

theorem stream_setStream (s : State) (i j : Nat) (t : Stream) :
    stream (setStream s i t) j = if j = i then t else stream s j := tget_tset ..

theorem segGet_segSet {α : Type} (p : α × α) (b : Bool) (x : α) : segGet (segSet p b x) b = x := by
  cases b <;> rfl

theorem onlyAnswers_refuse (s : State) (g : Ingress) (st : Status) : OnlyAnswers s (refuse s g st) := by
  unfold refuse
  split
  · exact onlyAnswers_answer ..
  · split
    · exact onlyAnswers_answer ..
    · exact ⟨s.ridge.outq, rfl⟩

theorem onlyStreams_refuseStore (s : State) (g : Ingress) (st : Status) : OnlyStreams s (refuseStore s g st) := by
  have hanswer := (onlyAnswers_refuse s g st).onlyStreams
  unfold refuseStore
  dsimp only
  split
  · exact hanswer.trans (onlyStreams_setStream ..)
  · exact hanswer

theorem onlyStreams_holdSeam (s : State) (g : Ingress) : OnlyStreams s (holdSeam s g) := by
  unfold holdSeam
  dsimp only
  split
  · exact .refl s
  · exact onlyStreams_setStream ..

theorem onlyStreams_refuseReq (s : State) (g : Ingress) : OnlyStreams s (refuseReq s g) := by
  unfold refuseReq
  split
  · exact .refl s
  split
  · exact onlyStreams_refuseStore ..
  split
  · split
    · exact (onlyStreams_setStream ..).trans (onlyStreams_holdSeam ..)
    · exact .refl s
  · exact (onlyAnswers_refuse ..).onlyStreams

theorem onlyAnswers_staleFrame (s : State) (g : Ingress) :
    OnlyAnswers (linkCtr s g.via fun c => { c with stale := inc32 c.stale }) (staleFrame s g) := by
  unfold staleFrame
  dsimp only
  split
  · exact ⟨_, rfl⟩
  · exact onlyAnswers_refuse ..

/-- A freed entry keeps its INC alone, and the seams that it held are answered (R83). -/
theorem freeStream_frees (s : State) (i : Nat) : OnlyStreams s (freeStream s i) ∧
    stream (freeStream s i) i = { inc := (stream s i).inc } := by
  have hseam (u : State) (h : Option Held) : OnlyAnswers u (match h with
      | some x => answer u x.req kSeamFail .errStale
      | none => u) := by
    cases h with
    | none => exact ⟨u.ridge.outq, rfl⟩
    | some x => exact onlyAnswers_answer ..
  have hanswers : OnlyAnswers (setStream s i { inc := (stream s i).inc }) (freeStream s i) :=
    (hseam _ (stream s i).hold.1).trans (hseam _ (stream s i).hold.2)
  exact ⟨(onlyStreams_setStream ..).trans hanswers.onlyStreams, by
    rw [hanswers.stream, stream_setStream, if_pos rfl]⟩

/-! ## The stages of a request -/

section
variable {s : State} {g : Ingress}

/-- R77: a tag that is not current, or whose PID has no partition. -/
theorem takeRequest_stale (h : tagCurrent s g.dptag = false ∨ pidPresent s (tagPid g.dptag) = false) :
    takeRequest s g = owe (staleFrame s g) g.via g.cls g.flits := if_pos (by simpa using h)

theorem takeRequest_fold (ht : tagCurrent s g.dptag = true) (hp : pidPresent s (tagPid g.dptag) = true)
    (hfold : g.cls = clsFold) : takeRequest s g = takeFold s g := by
  simp [takeRequest, ht, hp, hfold]

theorem takeRequest_peer (ht : tagCurrent s g.dptag = true) (hp : pidPresent s (tagPid g.dptag) = true)
    (hfold : g.cls ≠ clsFold) (hpeer : peerAdmits s (tagPid g.dptag) g.src g.sptag = false) : takeRequest s g =
      owe (refuseReq (partCtr s fun c => { c with peerRefuse := inc32 c.peerRefuse }) g) g.via g.cls g.flits := by
  simp [takeRequest, ht, hp, hfold, hpeer]

/-- A request that passes R77, R200, R167, R186 and R187. -/
def Admitted (s : State) (g : Ingress) : Prop :=
  (tagCurrent s g.dptag = true ∧ pidPresent s (tagPid g.dptag) = true) ∧ peerAdmits s (tagPid g.dptag) g.src g.sptag = true ∧
  opOk g = true ∧ outsideQuad s g = false ∧ notOwner s g = false

theorem takeRequest_admitted (h : Admitted s g) (hfold : g.cls ≠ clsFold) : takeRequest s g = dispatchReq s g := by
  obtain ⟨⟨ht, hp⟩, hpeer, hop, hquad, hown⟩ := h
  simp [takeRequest, ht, hp, hfold, hpeer, hop, hquad, hown]

/-- What a request that writes nothing leaves: the memory, the ingress masters and the pages this chip owns. -/
def Inert (s r : State) : Prop :=
  r.mem = s.mem ∧ r.ridge.ingress = s.ridge.ingress ∧ r.rmt.owned = s.rmt.owned

/-- Answers, stream entries and credits write nothing. -/
theorem OnlyStreams.inert_owe {t : State} (h : OnlyStreams s t) (p : Nat) (cls : BitVec 4) (n : Nat) :
    Inert s (owe t p cls n) ∧ (owe t p cls n).part = s.part := by
  obtain ⟨q, l, rfl⟩ := h
  obtain ⟨ls, howe⟩ := owe_frame { s with ridge := { s.ridge with outq := q, streams := l } } p cls n
  rw [howe]
  exact ⟨⟨rfl, rfl, rfl⟩, rfl⟩

theorem stream_owe (t : State) (p : Nat) (cls : BitVec 4) (n i : Nat) : stream (owe t p cls n) i = stream t i := by
  obtain ⟨ls, howe⟩ := owe_frame t p cls n
  rw [howe]
  rfl

/-! ## An admitted request, class by class -/

theorem dispatchReq_stream (h : g.cls = clsStream) : dispatchReq s g = owe (takeStream s g) g.via g.cls g.flits :=
  if_pos (by simp [h])

theorem lostStream_false (hseam : g.cls ≠ clsSeam) (hstore : g.cls ≠ clsStore) : lostStream s g = false := by
  simp [lostStream, hseam, hstore]

/-- R83: a STORE or SEAM of a stream entry that is another's is counted. -/
theorem dispatchReq_lost (hlost : lostStream s g = true) : dispatchReq s g =
    owe (linkCtr s g.via fun c => { c with stale := inc32 c.stale }) g.via g.cls g.flits := by
  have hcls : g.cls ≠ clsStream := by
    intro h
    rw [lostStream_false (by rw [h]; decide) (by rw [h]; decide)] at hlost
    cases hlost
  simp [dispatchReq, hcls, hlost]

theorem dispatchReq_own (h : g.cls = clsOwn) (hpoison : g.poison = false) : dispatchReq s g =
    owe (if g.desc.op == 1 then takeNotice s g else takeFence s g) g.via g.cls g.flits := by
  have hlost : lostStream s g = false := lostStream_false (by rw [h]; decide) (by rw [h]; decide)
  simp [dispatchReq, hlost, hpoison, h, show clsOwn ≠ clsStream by decide]

theorem dispatchReq_atomic (h : g.cls = clsAtomic) (hpoison : g.poison = false) : dispatchReq s g = takeAtomic s g := by
  have hlost : lostStream s g = false := lostStream_false (by rw [h]; decide) (by rw [h]; decide)
  simp [dispatchReq, hlost, hpoison, h, show clsAtomic ≠ clsStream by decide, show clsAtomic ≠ clsOwn by decide]

theorem dispatchReq_seam (h : g.cls = clsSeam) (hpoison : g.poison = false) (howns : ownsStream s g = true) :
    dispatchReq s g = owe (holdSeam s g) g.via g.cls g.flits := by
  have hlost : lostStream s g = false := by simp [lostStream, howns]
  simp [dispatchReq, hlost, hpoison, h, show clsSeam ≠ clsStream by decide, show clsSeam ≠ clsOwn by decide,
    show clsSeam ≠ clsAtomic by decide]

/-- A load or a bulk read, and a bulk write or a STORE whose data is sound, joins the ingress master. -/
theorem dispatchReq_memory (h : g.cls = clsLoad ∨ g.cls = clsBulkRd ∨ (g.poison = false ∧
    (g.cls = clsBulkWr ∨ (g.cls = clsStore ∧ lostStream s g = false)))) : dispatchReq s g = enqueue s g := by
  have hlost : lostStream s g = false := by
    rcases h with h | h | ⟨-, h | ⟨-, h⟩⟩
    case inr.inr.inr => exact h
    all_goals exact lostStream_false (by rw [h]; decide) (by rw [h]; decide)
  have hsound : (g.poison && carriesData g) = false := by
    rcases h with h | h | ⟨h, -⟩
    case inr.inr => rw [h]; rfl
    all_goals rw [carriesData, h, Bool.and_eq_false_iff]; exact .inr rfl
  have hcls : g.cls ≠ clsStream ∧ g.cls ≠ clsOwn ∧ g.cls ≠ clsAtomic ∧ g.cls ≠ clsSeam := by
    rcases h with h | h | ⟨-, h | ⟨h, -⟩⟩ <;> rw [h] <;> decide
  obtain ⟨hstream, hown, hatomic, hseam⟩ := hcls
  simp [dispatchReq, hlost, hsound, hstream, hown, hatomic, hseam]

theorem takeAtomic_new (hamo : amoOk g = true) (hmiss : retryHit s g = none) : takeAtomic s g = enqueue s g := by
  simp [takeAtomic, hamo, hmiss]

theorem takeAtomic_hit {x : BitVec 64} (hamo : amoOk g = true) (hhit : retryHit s g = some x) :
    takeAtomic s g = answerHit s g x := by
  simp [takeAtomic, hamo, hhit]

theorem takeStream_full (hop : g.desc.op = 1) (hfull : 4095 ≤ lowest (fun n => (stream s n).used) 4095 0) :
    takeStream s g = answer s g kGrant .busy := by
  simp [takeStream, hop, hfull]

/-- The entry that a STREAM open takes (R83). -/
def openedStream (s : State) (g : Ingress) (i : Nat) : Stream :=
  { used := true, inc := (stream s i).inc + 1, src := g.src, sptag := g.sptag, dptag := g.dptag, idleAt := now s }

theorem takeStream_opens (hop : g.desc.op = 1) {i : Nat} (hi : lowest (fun n => (stream s n).used) 4095 0 = i)
    (hfree : i < 4095) : OnlyStreams s (takeStream s g) ∧ stream (takeStream s g) i = openedStream s g i ∧
      ∀ m, m ≠ i → stream (takeStream s g) m = stream s m := by
  have hanswers : OnlyAnswers (setStream s i (openedStream s g i)) (takeStream s g) := by
    unfold takeStream
    dsimp only
    rw [if_neg (by rw [hop]; decide), hi, if_neg (by omega)]
    exact onlyAnswers_answer ..
  refine ⟨(onlyStreams_setStream ..).trans hanswers.onlyStreams, ?_, fun m hm => ?_⟩
  · rw [hanswers.stream, stream_setStream, if_pos rfl]
  · rw [hanswers.stream, stream_setStream, if_neg hm]

theorem takeStream_closes (hop : g.desc.op = 2) (howns : ownsStream s g = true) :
    takeStream s g = freeStream s g.desc.stream.toNat := by
  simp [takeStream, hop, howns]

/-- A SEAM whose segment's slot is free is held there (R84). -/
theorem holdSeam_free (hfree : segGet (stream s g.desc.stream.toNat).hold g.desc.seg = none) :
    stream (holdSeam s g) g.desc.stream.toNat = { stream s g.desc.stream.toNat with
      hold := segSet (stream s g.desc.stream.toNat).hold g.desc.seg (some { req := g, at_ := now s }), idleAt := now s } := by
  simp [holdSeam, hfree, stream_setStream]

/-- The body of an ownership notice is whole (R189). -/
def NoticeWhole (g : Ingress) : Prop :=
  g.desc.off.toNat % 2097152 = 0 ∧ g.desc.size = 15 ∧ g.desc.id40 = 0 ∧ g.desc.stream = 0xFFF ∧ 16 ≤ g.data.length ∧
  le g.data 3 13 = 0

theorem takeNotice_gain (h : NoticeWhole g) (hgain : le g.data 2 1 = 1) (hnode : le g.data 0 2 = s.range.nodeId) :
    takeNotice s g = { s with rmt := { s.rmt with
      owned := farPage g.src g.desc.off :: s.rmt.owned.filter fun x => x != farPage g.src g.desc.off
      disowned := s.rmt.disowned.filter fun x => x != farPage g.src g.desc.off } } := by
  obtain ⟨hoff, hsize, hid, hstream, hlen, htail⟩ := h
  simp [takeNotice, hoff, hsize, hid, hstream, Nat.not_lt.mpr hlen, htail, hgain, hnode]

theorem takeNotice_loss (h : NoticeWhole g) (hloss : le g.data 2 1 = 0) (hmine : farPage g.src g.desc.off ∈ s.rmt.owned) :
    takeNotice s g = { s with rmt := { s.rmt with
      owned := s.rmt.owned.filter fun x => x != farPage g.src g.desc.off
      disowned := farPage g.src g.desc.off :: s.rmt.disowned.filter fun x => x != farPage g.src g.desc.off } } := by
  obtain ⟨hoff, hsize, hid, hstream, hlen, htail⟩ := h
  simp [takeNotice, hoff, hsize, hid, hstream, Nat.not_lt.mpr hlen, htail, hloss, hmine]

theorem takeFence_signals (hoff : g.desc.off = 0) (hsize : g.desc.size = 15) (hstream : g.desc.stream = 0xFFF)
    (hlen : 16 ≤ g.data.length) (htail : le g.data 13 3 = 0) (hst : le g.data 12 1 ≤ 14)
    (hfence : fenceMatch s (BitVec.ofNat 32 (le g.data 0 4)) = true)
    (hpid : (fence s (fenceIdx (BitVec.ofNat 32 (le g.data 0 4)))).pid = tagPid g.dptag) :
    takeFence s g =
      let x := signalFence s (BitVec.ofNat 32 (le g.data 0 4)) (BitVec.ofNat 64 (le g.data 4 8))
        (BitVec.ofNat 8 (le g.data 12 1)) g.dptag
      answer x.1 g kFenceAck (match x.2 with
        | .stale => .errStale
        | .oooStrict => .errParam
        | _ => .ok) := by
  have hlow : le g.data 12 1 % 256 ≤ 14 := (Nat.mod_le ..).trans hst
  unfold takeFence
  dsimp only
  exact (if_neg (by simp [hoff, hsize, hstream, hlow, htail, Nat.not_lt.mpr hlen, hfence])).trans
    (if_neg (by simp [hpid]))

/-- A port that counts a stale frame and is given its credits back: nothing is written, and no stream changes. -/
theorem stale_counted {t : State} (h : OnlyAnswers (linkCtr s g.via fun c => { c with stale := inc32 c.stale }) t) :
    Inert s (owe t g.via g.cls g.flits) ∧ (owe t g.via g.cls g.flits).part = s.part ∧
    (owe t g.via g.cls g.flits).ridge.streams = s.ridge.streams ∧
    (link (owe t g.via g.cls g.flits) g.via).ctr.stale = inc32 (link s g.via).ctr.stale := by
  obtain ⟨o, hlink⟩ := link_owe t g.via g.cls g.flits g.via
  obtain ⟨ls, howe⟩ := owe_frame t g.via g.cls g.flits
  have hcount : link t g.via = { link s g.via with ctr := { (link s g.via).ctr with stale := inc32 (link s g.via).ctr.stale } } := by
    obtain ⟨q, rfl⟩ := h
    exact link_setLink_same ..
  refine ⟨?_, ?_, ?_, by rw [hlink, hcount]⟩
  all_goals
    obtain ⟨q, rfl⟩ := h
    rw [howe]
  · exact ⟨rfl, rfl, rfl⟩
  · rfl
  · rfl

theorem request_stale (h : tagCurrent s g.dptag = false ∨ pidPresent s (tagPid g.dptag) = false) :
    Inert s (takeRequest s g) ∧ (takeRequest s g).part = s.part ∧
    (takeRequest s g).ridge.streams = s.ridge.streams ∧
    (link (takeRequest s g) g.via).ctr.stale = inc32 (link s g.via).ctr.stale := by
  rw [takeRequest_stale h]
  exact stale_counted (onlyAnswers_staleFrame s g)

theorem request_refused (ht : tagCurrent s g.dptag = true) (hp : pidPresent s (tagPid g.dptag) = true)
    (hfold : g.cls ≠ clsFold) (hpeer : peerAdmits s (tagPid g.dptag) g.src g.sptag = false) :
    Inert s (takeRequest s g) ∧ (takeRequest s g).part.ctr.peerRefuse = inc32 s.part.ctr.peerRefuse ∧
    (takeRequest s g).part.ctxs = s.part.ctxs ∧ (takeRequest s g).part.fences = s.part.fences := by
  rw [takeRequest_peer ht hp hfold hpeer]
  obtain ⟨hinert, hpart⟩ := (onlyStreams_refuseReq (partCtr s fun c => { c with peerRefuse := inc32 c.peerRefuse })
    g).inert_owe g.via g.cls g.flits
  rw [hpart]
  exact ⟨hinert, rfl, rfl, rfl⟩

/-- Loads, stores, bulk requests and new atomics join the ingress master (R182). -/
theorem request_joins (h : Admitted s g) (hcls : g.cls = clsLoad ∨ g.cls = clsBulkRd ∨ (g.poison = false ∧
    (g.cls = clsBulkWr ∨ (g.cls = clsStore ∧ lostStream s g = false) ∨
      (g.cls = clsAtomic ∧ amoOk g = true ∧ retryHit s g = none)))) : takeRequest s g = enqueue s g := by
  rcases hcls with hc | hc | ⟨hpoison, hc | ⟨hc, hkept⟩ | ⟨hc, hamo, hmiss⟩⟩ <;>
    rw [takeRequest_admitted h (by rw [hc]; decide)]
  · exact dispatchReq_memory (.inl hc)
  · exact dispatchReq_memory (.inr (.inl hc))
  · exact dispatchReq_memory (.inr (.inr ⟨hpoison, .inl hc⟩))
  · exact dispatchReq_memory (.inr (.inr ⟨hpoison, .inr ⟨hc, hkept⟩⟩))
  · rw [dispatchReq_atomic hc hpoison, takeAtomic_new hamo hmiss]

/-- A retry whose result is cached is answered from the cache, and not applied (R86). -/
theorem request_replayed {x : BitVec 64} (h : Admitted s g) (hpoison : g.poison = false) (hcls : g.cls = clsAtomic)
    (hamo : amoOk g = true) (hhit : retryHit s g = some x) :
    Inert s (takeRequest s g) ∧ takeRequest s g = owe (answer s g kAtomic .ok
      (leBytes ((amoBytes (kindOf g.desc.op) g.desc.size.toNat).getD 4) x.toNat)) g.via g.cls g.flits := by
  rw [takeRequest_admitted h (by rw [hcls]; decide), dispatchReq_atomic hcls hpoison, takeAtomic_hit hamo hhit]
  exact ⟨((onlyAnswers_answer ..).onlyStreams.inert_owe ..).1, rfl⟩

theorem request_heldSeam (h : Admitted s g) (hpoison : g.poison = false) (hcls : g.cls = clsSeam)
    (howns : ownsStream s g = true) (hfree : segGet (stream s g.desc.stream.toNat).hold g.desc.seg = none) :
    let k := g.desc.stream.toNat
    Inert s (takeRequest s g) ∧
    segGet (stream (takeRequest s g) k).hold g.desc.seg = some { req := g, at_ := now s } ∧
    (stream (takeRequest s g) k).landed = (stream s k).landed ∧
    (stream (takeRequest s g) k).fault = (stream s k).fault ∧ (takeRequest s g).part = s.part := by
  rw [takeRequest_admitted h (by rw [hcls]; decide), dispatchReq_seam hcls hpoison howns]
  obtain ⟨hinert, hpart⟩ := (onlyStreams_holdSeam s g).inert_owe g.via g.cls g.flits
  intro k
  rw [stream_owe, holdSeam_free hfree]
  exact ⟨hinert, segGet_segSet .., rfl, rfl, hpart⟩

theorem request_lost (h : Admitted s g) (hlost : lostStream s g = true) :
    Inert s (takeRequest s g) ∧ (takeRequest s g).part = s.part ∧
    (takeRequest s g).ridge.streams = s.ridge.streams ∧
    (link (takeRequest s g) g.via).ctr.stale = inc32 (link s g.via).ctr.stale := by
  have hfold : g.cls ≠ clsFold := by
    intro hc
    rw [lostStream_false (by rw [hc]; decide) (by rw [hc]; decide)] at hlost
    cases hlost
  rw [takeRequest_admitted h hfold, dispatchReq_lost hlost]
  exact stale_counted ⟨(linkCtr s g.via fun c => { c with stale := inc32 c.stale }).ridge.outq, rfl⟩

/-- A STREAM open takes the lowest free entry under the next INC, or is answered BUSY (R83). -/
theorem request_opens (h : Admitted s g) (hcls : g.cls = clsStream) (hop : g.desc.op = 1) :
    let j := lowest (fun n => (stream s n).used) 4095 0
    let r := takeRequest s g
    Inert s r ∧ (4095 ≤ j → r = owe (answer s g kGrant .busy) g.via g.cls g.flits) ∧
    (j < 4095 → (stream r j).used = true ∧ (stream r j).inc = (stream s j).inc + 1 ∧ (stream r j).src = g.src ∧
      (stream r j).sptag = g.sptag ∧ (stream r j).dptag = g.dptag ∧ ∀ m, m ≠ j → stream r m = stream s m) := by
  intro j r
  have htaken : r = owe (takeStream s g) g.via g.cls g.flits :=
    (takeRequest_admitted h (by rw [hcls]; decide)).trans (dispatchReq_stream hcls)
  rw [htaken]
  by_cases hfree : j < 4095
  · obtain ⟨honly, hentry, hothers⟩ := takeStream_opens hop (i := j) rfl hfree
    refine ⟨(honly.inert_owe ..).1, fun hfull => absurd hfree (Nat.not_lt.mpr hfull), fun _ => ?_⟩
    simp only [stream_owe, hentry]
    exact ⟨rfl, rfl, rfl, rfl, rfl, hothers⟩
  · rw [takeStream_full hop (Nat.not_lt.mp hfree)]
    exact ⟨((onlyAnswers_answer ..).onlyStreams.inert_owe ..).1, fun _ => rfl, fun h => absurd h hfree⟩

theorem request_closes (h : Admitted s g) (hcls : g.cls = clsStream) (hop : g.desc.op = 2)
    (howns : ownsStream s g = true) : Inert s (takeRequest s g) ∧
    (stream (takeRequest s g) g.desc.stream.toNat).used = false ∧
    (stream (takeRequest s g) g.desc.stream.toNat).inc = (stream s g.desc.stream.toNat).inc := by
  obtain ⟨honly, hentry⟩ := freeStream_frees s g.desc.stream.toNat
  rw [takeRequest_admitted h (by rw [hcls]; decide), dispatchReq_stream hcls, takeStream_closes hop howns, stream_owe,
    hentry]
  exact ⟨(honly.inert_owe ..).1, rfl, rfl⟩

theorem request_own (h : Admitted s g) (hpoison : g.poison = false) (hcls : g.cls = clsOwn) :
    takeRequest s g = owe (if g.desc.op == 1 then takeNotice s g else takeFence s g) g.via g.cls g.flits := by
  rw [takeRequest_admitted h (by rw [hcls]; decide), dispatchReq_own hcls hpoison]

/-- Of a notice that gives this chip a page: the page alone comes (R188). -/
theorem request_gains (h : Admitted s g) (hpoison : g.poison = false) (hcls : g.cls = clsOwn) (hop : g.desc.op = 1)
    (hwhole : NoticeWhole g) (hgain : le g.data 2 1 = 1) (hnode : le g.data 0 2 = s.range.nodeId) :
    (takeRequest s g).mem = s.mem ∧ farPage g.src g.desc.off ∈ (takeRequest s g).rmt.owned ∧
    ∀ x, x ≠ farPage g.src g.desc.off → (x ∈ (takeRequest s g).rmt.owned ↔ x ∈ s.rmt.owned) := by
  rw [request_own h hpoison hcls, if_pos (by rw [hop]; decide), takeNotice_gain hwhole hgain hnode]
  obtain ⟨ls, howe⟩ := owe_frame { s with rmt := { s.rmt with
    owned := farPage g.src g.desc.off :: s.rmt.owned.filter fun x => x != farPage g.src g.desc.off
    disowned := s.rmt.disowned.filter fun x => x != farPage g.src g.desc.off } } g.via g.cls g.flits
  rw [howe]
  refine ⟨rfl, List.mem_cons_self .., fun x hx => ?_⟩
  simp [hx]

/-- Of a notice that takes a page from this chip: the page alone goes (R188). -/
theorem request_loses (h : Admitted s g) (hpoison : g.poison = false) (hcls : g.cls = clsOwn) (hop : g.desc.op = 1)
    (hwhole : NoticeWhole g) (hloss : le g.data 2 1 = 0) (hmine : farPage g.src g.desc.off ∈ s.rmt.owned) :
    (takeRequest s g).mem = s.mem ∧ farPage g.src g.desc.off ∉ (takeRequest s g).rmt.owned ∧
    ∀ x, x ≠ farPage g.src g.desc.off → (x ∈ (takeRequest s g).rmt.owned ↔ x ∈ s.rmt.owned) := by
  rw [request_own h hpoison hcls, if_pos (by rw [hop]; decide), takeNotice_loss hwhole hloss hmine]
  obtain ⟨ls, howe⟩ := owe_frame { s with rmt := { s.rmt with
    owned := s.rmt.owned.filter fun x => x != farPage g.src g.desc.off
    disowned := farPage g.src g.desc.off :: s.rmt.disowned.filter fun x => x != farPage g.src g.desc.off } } g.via g.cls
    g.flits
  rw [howe]
  refine ⟨rfl, by simp, fun x hx => ?_⟩
  simp [hx]

end

/-! ## A frame of an OPEN port (R57, R77, R227) -/

section
variable {s : State} {n : Nat} {i : Inner} {age flits : Nat}

theorem takeOpen_transit (hscree : i.cls ≠ clsScree) (hctrl : i.cls ≠ clsCtrl) (hnode : i.dstNode.toNat ≠ s.range.nodeId) :
    takeOpen s n i age flits = { s with ridge := { s.ridge with
      router := s.ridge.router ++ [{ via := n, inner := { i with age := BitVec.ofNat 8 age }, flits := flits }] } } := by
  simp [takeOpen, hscree, hctrl, hnode]

theorem takeOpen_range (hnode : i.dstNode.toNat = s.range.nodeId) (h : i.cls = clsRange) :
    takeOpen s n i age flits = takeRange s n i := by
  simp [takeOpen, hnode, h, show clsRange ≠ clsScree by decide, show clsRange ≠ clsCtrl by decide]

theorem takeOpen_local (hscree : i.cls ≠ clsScree) (hctrl : i.cls ≠ clsCtrl) (hnode : i.dstNode.toNat = s.range.nodeId)
    (hrange : i.cls ≠ clsRange) : takeOpen s n i age flits = takeLocal s n i age flits := by
  simp [takeOpen, hscree, hctrl, hnode, hrange]

theorem takeRange_full (h : 64 ≤ s.cmd.rangeQ.length) :
    takeRange s n i = { s with cmd := { s.cmd with rangeDropped := inc16 s.cmd.rangeDropped } } := if_pos h

theorem takeRange_joins (hroom : s.cmd.rangeQ.length < 64) (hlen : i.payload.length = 64) : ∃ q : RangeIn,
    takeRange s n i = { s with cmd := { s.cmd with rangeQ := s.cmd.rangeQ ++ [q] } } ∧ q.src = i.srcNode.toNat ∧
    q.packet.opcode = BitVec.ofNat 8 (le i.payload 0 1) ∧ q.packet.form = BitVec.ofNat 8 (le i.payload 2 1) ∧
    q.packet.body.seq = BitVec.ofNat 16 (le i.payload 4 2) ∧
    q.packet.body.params = BitVec.ofNat 384 (le i.payload 16 48) := by
  unfold takeRange
  dsimp only
  rw [if_neg (by omega), if_neg (by simp [hlen]), if_neg (by simp [hlen])]
  exact ⟨_, rfl, rfl, rfl, rfl, rfl, rfl⟩

/-- The flits of a frame for this chip are counted for its PID, and the state is else as it was. -/
theorem counted_frame (s : State) (pid flits : Nat) :
    ∃ x, (if pid == 0 then s else telAdd s pid 4 flits) = { s with tel := x } := by
  split
  · exact ⟨s.tel, rfl⟩
  · exact ⟨_, rfl⟩

theorem takeLocal_stale (hcls : i.cls = clsResp ∨ i.cls = clsBulkData)
    (h : tagCurrent s i.dstPtag = false ∨ pidPresent s (tagPid i.dstPtag) = false) :
    (link (takeLocal s n i age flits) n).ctr.stale = inc32 (link s n).ctr.stale ∧
    (takeLocal s n i age flits).out = s.out ∧ (takeLocal s n i age flits).rmt = s.rmt ∧
    (takeLocal s n i age flits).part = s.part := by
  obtain ⟨x, hcounted⟩ := counted_frame s (tagPid i.dstPtag) flits
  obtain ⟨ls, howe⟩ := owe_frame { s with tel := x } n i.cls flits
  obtain ⟨o, hlink⟩ := link_owe { s with tel := x } n i.cls flits n
  have htaken : takeLocal s n i age flits =
      linkCtr (owe { s with tel := x } n i.cls flits) n fun c => { c with stale := inc32 c.stale } := by
    unfold takeLocal
    dsimp only
    rw [if_pos (by simpa using hcls), if_pos (by simpa using h), hcounted]
  rw [htaken]
  refine ⟨?_, ?_, ?_, ?_⟩
  · rw [linkCtr, link_setLink_same, hlink]
    rfl
  all_goals rw [linkCtr, howe]; rfl

/-- Where the unit keeps no request, none is issued again. -/
theorem retryHeld_idle {s : State} (h : s.rmt.held = []) : retryHeld s = s := by
  have hall : s.rmt.held.foldl issueReq { s with rmt := { s.rmt with held := [] } } =
      { s with rmt := { s.rmt with held := [] } } := by rw [h]; rfl
  exact hall.trans (congrArg (fun l => { s with rmt := { s.rmt with held := l } }) h.symm)

/-- A load's answer gives its master the data and takes the load from the tracker (R173). -/
theorem takeLocal_load {e : LoadEnt} (hcls : i.cls = clsResp) (ht : tagCurrent s i.dstPtag = true)
    (hp : pidPresent s (tagPid i.dstPtag) = true) (hheld : s.rmt.held = []) (hop : (descOf i.payload).op = kLoad)
    (hstatus : (descOf i.payload).status = 0) (hpoison : i.poison = false)
    (he : loadEnt s (descOf i.payload).id40 i.srcNode.toNat clsLoad = some e) :
    (takeLocal s n i age flits).out = .rmtData e.req.mport e.req.ctx (i.payload.drop 16) :: s.out ∧
    (takeLocal s n i age flits).rmt.loads = s.rmt.loads.filter (fun x => x.tag != e.tag) ∧
    (takeLocal s n i age flits).part = s.part ∧ (takeLocal s n i age flits).mem = s.mem := by
  obtain ⟨x, hcounted⟩ := counted_frame s (tagPid i.dstPtag) flits
  obtain ⟨ls, howe⟩ := owe_frame { s with tel := x } n i.cls flits
  have hanswer (u : State) (hu : loadEnt u (descOf i.payload).id40 i.srcNode.toNat clsLoad = some e) :
      takeResp u i = emit (dropLoad u e.tag) (.rmtData e.req.mport e.req.ctx (i.payload.drop 16)) := by
    simp [takeResp, hop, hstatus, hu, deliver, hpoison]
  have htaken : takeLocal s n i age flits = retryHeld (emit (dropLoad (owe { s with tel := x } n i.cls flits) e.tag)
      (.rmtData e.req.mport e.req.ctx (i.payload.drop 16))) := by
    unfold takeLocal
    dsimp only
    rw [if_pos (by simp [hcls]), if_neg (by simp [ht, hp]), if_pos (by simp [hcls]), hcounted, hanswer]
    rw [howe]
    exact he
  rw [htaken, howe, retryHeld_idle (s := emit (dropLoad { s with tel := x, ridge := { s.ridge with links := ls } } e.tag) _)
    hheld]
  exact ⟨rfl, rfl, rfl, rfl⟩

theorem takeLocal_request (hresp : i.cls ≠ clsResp) (hdata : i.cls ≠ clsBulkData) : ∃ x,
    let fold := i.cls == clsFold
    takeLocal s n i age flits = takeRequest
      { s with tel := x, ridge := { s.ridge with ingressNum := s.ridge.ingressNum + 1 } } {
        num := s.ridge.ingressNum, via := n, src := i.srcNode.toNat, sptag := i.srcPtag, dptag := i.dstPtag, cls := i.cls
        age := age, at_ := now s, desc := if fold then {} else descOf i.payload
        data := if fold then i.payload else i.payload.drop 16, flits := flits, len := i.len.toNat
        padded := fold && i.padded, retry := i.retry, poison := i.poison } := by
  obtain ⟨x, hcounted⟩ := counted_frame s (tagPid i.dstPtag) flits
  refine ⟨x, ?_⟩
  unfold takeLocal
  dsimp only
  rw [if_neg (by simp [hresp, hdata]), hcounted]

end

/-- Settles O37: each class of frame at its consumer. -/
theorem verifiedFramesReachTheirConsumers : Obligations.VerifiedFramesReachTheirConsumers := by
  refine ⟨fun s n i age flits => ?_, fun s g hvia => ?_⟩
  · intro took pid b fold g answer hscree hctrl
    refine ⟨fun hnode => takeOpen_transit hscree hctrl hnode, fun hnode hcls => ?_, fun hnode hcls h => ?_,
      fun e hnode hcls ht hp hheld hop hst hpoison he => ?_, fun hnode hcls hrequest => ?_⟩
    · rw [show took = takeRange s n i from takeOpen_range hnode hcls]
      exact ⟨fun hfull => takeRange_full hfull, fun hroom hlen => takeRange_joins hroom hlen⟩
    · have hrange : i.cls ≠ clsRange := by rcases hcls with h | h <;> rw [h] <;> decide
      rw [show took = takeLocal s n i age flits from takeOpen_local hscree hctrl hnode hrange]
      exact takeLocal_stale hcls h
    · have hrange : i.cls ≠ clsRange := by rw [hcls]; decide
      rw [show took = takeLocal s n i age flits from takeOpen_local hscree hctrl hnode hrange]
      exact takeLocal_load hcls ht hp hheld hop hst hpoison he
    · obtain ⟨hresp, hdata⟩ := not_or.mp hrequest
      rw [show took = takeLocal s n i age flits from takeOpen_local hscree hctrl hnode hcls]
      obtain ⟨x, htaken⟩ := takeLocal_request (s := s) (n := n) (age := age) (flits := flits) hresp hdata
      exact ⟨_, htaken, rfl, rfl, rfl, rfl, rfl, rfl, rfl⟩
  · intro r k current admitted back inert
    refine ⟨fun h => ?_, fun hcur hfold hpoison hroom => ?_, fun hcur hfold hpeer => ?_, fun hadm h => ?_,
      fun x hadm hpoison hcls hamo hhit => ?_, fun hadm hpoison hcls howns hfree => ?_, fun hadm hlost => ?_,
      fun hadm hcls hop => ?_, fun hadm hcls hop howns => ?_,
      fun hadm hpoison hcls hop hoff hsize hid hstream hlen htail => ?_,
      fun hadm hpoison hcls hop hoff hsize hstream hlen htail hst hfence hpid => ?_⟩
    · obtain ⟨hinert, hpart, hstreams, hstale⟩ := request_stale h
      exact ⟨hinert, hpart, hstale, hstreams⟩
    · exact (takeRequest_fold hcur.1 hcur.2 hfold).trans (if_neg (by simp [hpoison, hroom]))
    · exact request_refused hcur.1 hcur.2 hfold hpeer
    · exact request_joins hadm h
    · exact request_replayed hadm hpoison hcls hamo hhit
    · exact request_heldSeam hadm hpoison hcls howns hfree
    · obtain ⟨hinert, hpart, hstreams, hstale⟩ := request_lost hadm hlost
      exact ⟨hinert, hpart, hstreams, hstale⟩
    · exact request_opens hadm hcls hop
    · exact request_closes hadm hcls hop howns
    · have hwhole : NoticeWhole g := ⟨hoff, hsize, hid, hstream, hlen, htail⟩
      exact ⟨fun hgain hnode => request_gains hadm hpoison hcls hop hwhole hgain hnode,
        fun hloss hmine => request_loses hadm hpoison hcls hop hwhole hloss hmine⟩
    · exact (request_own hadm hpoison hcls).trans (congrArg back ((if_neg (by rw [hop]; decide)).trans
        (takeFence_signals hoff hsize hstream hlen htail hst hfence hpid)))

end Sys2Proof.Machine

/-! PROOFS. The remote trackers in time, and OWN_TRANSFER (06 R83, R87, R170 to R175, R188). -/

namespace Sys2Proof.Machine

/-! ## How far a failure spreads (R171, R174, R175, R208) -/

/-- A failed request: what it takes from the trackers, and what else stays. Entries leave the trackers and none joins; the
peer entries and the counts of R192 stay, as do the SEAMs that are out; the trace grows. -/
structure Spread (s t : State) : Prop where
  out : s.out <:+ t.out
  peers : t.part.peers = s.part.peers
  ctr : t.rmt.ctr = s.rmt.ctr
  loads : ∀ x ∈ t.rmt.loads, x ∈ s.rmt.loads
  bulk : ∀ x ∈ t.rmt.bulk, ∃ y ∈ s.rmt.bulk, y.tag = x.tag ∧ y.xfer = x.xfer
  atomics : ∀ x ∈ t.rmt.atomics, x ∈ s.rmt.atomics
  releases : ∀ x ∈ t.rmt.releases, x ∈ s.rmt.releases
  held : s.rmt.held = [] → t.rmt.held = []
  seams : ∀ b, (∀ u ∈ s.rmt.streams, (segOf u.segs b).seam = none) → ∀ u ∈ t.rmt.streams, (segOf u.segs b).seam = none

namespace Spread

variable {s t u : State}

theorem trans (h : Spread s t) (k : Spread t u) : Spread s u where
  out := h.out.trans k.out
  peers := k.peers.trans h.peers
  ctr := k.ctr.trans h.ctr
  loads x hx := h.loads x (k.loads x hx)
  bulk x hx := by
    obtain ⟨y, hy, htag, hxfer⟩ := k.bulk x hx
    obtain ⟨z, hz, htag', hxfer'⟩ := h.bulk y hy
    exact ⟨z, hz, htag'.trans htag, hxfer'.trans hxfer⟩
  atomics x hx := h.atomics x (k.atomics x hx)
  releases x hx := h.releases x (k.releases x hx)
  held hs := k.held (h.held hs)
  seams b hs := k.seams b (h.seams b hs)

/-- A step that leaves the remote request unit and the peer entries. -/
theorem of_rmt (hrmt : t.rmt = s.rmt) (hpeers : t.part.peers = s.part.peers) (hout : s.out <:+ t.out) : Spread s t where
  out := hout
  peers := hpeers
  ctr := by rw [hrmt]
  loads x hx := hrmt ▸ hx
  bulk x hx := ⟨x, hrmt ▸ hx, rfl, rfl⟩
  atomics x hx := hrmt ▸ hx
  releases x hx := hrmt ▸ hx
  held hs := by rw [hrmt, hs]
  seams b hs u hu := hs u (hrmt ▸ hu)

theorem refl (s : State) : Spread s s := of_rmt rfl rfl List.suffix_rfl

theorem foldl {α : Type} {f : State → α → State} (h : ∀ s a, Spread s (f s a)) (l : List α) (s : State) :
    Spread s (l.foldl f s) := by
  induction l generalizing s with
  | nil => exact refl s
  | cons a l ih => exact (h s a).trans (ih _)

end Spread

theorem spread_emit (s : State) (o : Out) : Spread s (emit s o) := .of_rmt rfl rfl (List.suffix_cons ..)

theorem spread_postBoth (s : State) (pid type : Nat) (b0 : BitVec 32) (b8 b15 : Nat) :
    Spread s (postBoth s pid type b0 b8 b15) := by
  obtain ⟨-, -, -, -, -, hpart, -, -, hrmt, -⟩ := postBoth_same s pid type b0 b8 b15
  exact .of_rmt hrmt (by rw [hpart]) (cmdKept_postBoth ..).out

theorem spread_finish (s : State) (t : Ticket) (st : Status) (r : BitVec 192) : Spread s (finish s t st r) := by
  obtain ⟨-, -, -, -, hpart, -, hrmt, -⟩ := finishWith_frame s t st false r
  exact .of_rmt hrmt (by rw [show (finish s t st r).part = s.part from hpart]) (cmdKept_finish ..).out

theorem spread_finishWaits (s : State) (p : Wait → Bool) (st : Status) (r : BitVec 192) :
    Spread s (finishWaits s p st r) :=
  have hwaits : Spread s { s with cmd := { s.cmd with waits := s.cmd.waits.filter fun w => !p w } } :=
    .of_rmt rfl rfl List.suffix_rfl
  hwaits.trans (.foldl (f := fun (s : State) (w : Wait) => finish s w.tkt st r) (fun _ _ => spread_finish ..) _ _)

theorem spread_countStopped (s : State) (i : Nat) : Spread s (countStopped s i) := by
  unfold countStopped
  dsimp only
  split
  · split
    · exact .refl s
    · exact .of_rmt rfl rfl List.suffix_rfl
  · exact .refl s

/-- A segment of a lost context keeps its SEAM (R208). -/
theorem segOf_loseSeg (h : BitVec 32) (p : Seg × Seg) (b : Bool) :
    (segOf (loseSeg h p.1, loseSeg h p.2) b).seam = (segOf p b).seam := by cases b <;> rfl

theorem keepBulk_tag {s : State} {h : BitVec 32} {b x : BulkEnt} (hx : keepBulk s h b = some x) :
    b.tag = x.tag ∧ b.xfer = x.xfer := by
  unfold keepBulk at hx
  split at hx
  · obtain rfl := Option.some.inj hx
    exact ⟨rfl, rfl⟩
  · obtain ⟨k, -, rfl⟩ := Option.map_eq_some_iff.mp hx
    exact ⟨rfl, rfl⟩

theorem spread_dropTracked (s : State) (h : BitVec 32) : Spread s (dropTracked s h) where
  out := List.suffix_rfl
  peers := rfl
  ctr := rfl
  loads _ hx := List.mem_of_mem_filter hx
  bulk x hx := by
    obtain ⟨b, hb, hkeep⟩ := List.mem_filterMap.mp hx
    exact ⟨b, hb, keepBulk_tag hkeep⟩
  atomics _ hx := List.mem_of_mem_filter hx
  releases _ hx := List.mem_of_mem_filter hx
  held hs := by simp [dropTracked, hs]
  seams b hs u hu := by
    obtain ⟨v, hv, rfl⟩ := List.mem_map.mp hu
    exact (segOf_loseSeg ..).trans (hs v hv)

theorem spread_partCtr (s : State) (f : PartCtr → PartCtr) : Spread s (partCtr s f) := .of_rmt rfl rfl List.suffix_rfl

theorem spread_setPart (s : State) (pid : Nat) (p : Part) : Spread s (setPart s pid p) := .of_rmt rfl rfl List.suffix_rfl

theorem spread_setCtx (s : State) (i : Nat) (c : Ctx) : Spread s (setCtx s i c) := .of_rmt rfl rfl List.suffix_rfl

theorem spread_dropSignals (s : State) (p : HeldSignal → Bool) : Spread s (dropSignals s p) :=
  .of_rmt rfl rfl List.suffix_rfl

theorem spread_unbindDma (s : State) (i : Nat) : Spread s (unbindDma s i) := .of_rmt rfl rfl List.suffix_rfl

theorem spread_loseCtx (s : State) (i : Nat) (f : CtxFault) (addr : BitVec 48) (node : BitVec 14) :
    Spread s (loseCtx s i f addr node) := by
  have hstop (u : State) : Spread u (if (ctx s i).phase == .none then u else emit u (.schedStop i)) := by
    split
    · exact .refl u
    · exact spread_emit ..
  unfold loseCtx
  dsimp only
  split
  · exact .refl s
  · refine .trans ?_ (spread_postBoth ..)
    refine .trans ?_ (spread_finishWaits ..)
    refine .trans ?_ (spread_partCtr ..)
    refine .trans ?_ (spread_setPart ..)
    refine .trans ?_ (spread_setCtx ..)
    refine .trans ?_ (spread_dropSignals ..)
    refine .trans ?_ (spread_dropTracked ..)
    refine .trans ?_ (spread_unbindDma ..)
    exact (spread_countStopped s i).trans (hstop _)

theorem spread_loseHandle (s : State) (h : BitVec 32) (f : CtxFault) (addr : BitVec 48) (node : BitVec 14) :
    Spread s (loseHandle s h f addr node) := by
  unfold loseHandle
  split
  · exact spread_loseCtx ..
  · exact .refl s

/-- A failed request: its master is told, and its context is lost. -/
theorem spread_failReq (s : State) (r : RReq) (node : Nat) (f : CtxFault) :
    Spread s (failReq s r node f) ∧ .rmtError r.mport r.ctx ∈ (failReq s r node f).out := by
  have hlose := spread_loseHandle (emit s (.rmtError r.mport r.ctx)) r.ctx f (reqAddr r) (BitVec.ofNat 14 node)
  exact ⟨(spread_emit ..).trans hlose, hlose.out.subset (List.mem_cons_self ..)⟩

/-- A filter of a tracker's entries. -/
theorem Spread.of_filter {s t : State} (hout : t.out = s.out) (hpeers : t.part.peers = s.part.peers)
    (hctr : t.rmt.ctr = s.rmt.ctr) (hheld : t.rmt.held = s.rmt.held) (hstreams : t.rmt.streams = s.rmt.streams)
    (hloads : t.rmt.loads ⊆ s.rmt.loads) (hbulk : t.rmt.bulk ⊆ s.rmt.bulk) (hatomics : t.rmt.atomics ⊆ s.rmt.atomics)
    (hreleases : t.rmt.releases ⊆ s.rmt.releases) : Spread s t where
  out := by rw [hout]
  peers := hpeers
  ctr := hctr
  loads _ hx := hloads hx
  bulk x hx := ⟨x, hbulk hx, rfl, rfl⟩
  atomics _ hx := hatomics hx
  releases _ hx := hreleases hx
  held hs := by rw [hheld, hs]
  seams b hs u hu := hs u (hstreams ▸ hu)

theorem spread_dropAtomic (s : State) (id : BitVec 40) : Spread s (dropAtomic s id) :=
  .of_filter rfl rfl rfl rfl rfl (List.Subset.refl _) (List.Subset.refl _) (List.filter_subset_self ..) (List.Subset.refl _)

/-- The trackers without a release, and without the atomic that it is of (R175). -/
def withoutRelease (s : State) (k : Release) : State :=
  let s1 := { s with rmt := { s.rmt with
    releases := s.rmt.releases.filter fun x => x.num != k.num
    acquires := s.rmt.acquires.filter fun a => a.atomic || some a.tag != k.near } }
  match k.atom with
  | some id => dropAtomic s1 id
  | none => s1

theorem failRelease_eq (f : CtxFault) (node : Nat) (s : State) (k : Release) : failRelease f node s k =
    loseHandle (withoutRelease s k) k.req.ctx f (reqAddr k.req) (BitVec.ofNat 14 node) := rfl

theorem spread_withoutRelease (s : State) (k : Release) : Spread s (withoutRelease s k) ∧
    (withoutRelease s k).rmt.releases = s.rmt.releases.filter fun x => x.num != k.num := by
  have hfilter : Spread s { s with rmt := { s.rmt with
      releases := s.rmt.releases.filter fun x => x.num != k.num
      acquires := s.rmt.acquires.filter fun a => a.atomic || some a.tag != k.near } } :=
    .of_filter rfl rfl rfl rfl rfl (List.Subset.refl _) (List.Subset.refl _) (List.Subset.refl _) (List.filter_subset_self ..)
  unfold withoutRelease
  dsimp only
  cases k.atom with
  | none => exact ⟨hfilter, rfl⟩
  | some id => exact ⟨hfilter.trans (spread_dropAtomic ..), rfl⟩

/-- A release that fails leaves the tracker, whatever its context loses with it (R175). -/
theorem spread_failRelease (f : CtxFault) (node : Nat) (s : State) (k : Release) :
    Spread s (failRelease f node s k) ∧ ∀ x ∈ (failRelease f node s k).rmt.releases, x.num ≠ k.num := by
  obtain ⟨hwithout, hreleases⟩ := spread_withoutRelease s k
  rw [failRelease_eq]
  have hlose := spread_loseHandle (withoutRelease s k) k.req.ctx f (reqAddr k.req) (BitVec.ofNat 14 node)
  refine ⟨hwithout.trans hlose, fun x hx => ?_⟩
  have hmem := hlose.releases x hx
  rw [hreleases] at hmem
  simpa using (List.mem_filter.mp hmem).2

/-- The releases that pass a test fail, and none that passes it is left (R175). -/
theorem spread_failWaiting (s : State) (p : Release → Bool) (f : CtxFault) (node : Nat) :
    Spread s (failWaiting s p f node) ∧ ∀ x ∈ (failWaiting s p f node).rmt.releases, p x = false := by
  have hall (l : List Release) (u : State) : Spread u (l.foldl (failRelease f node) u) ∧
      ∀ x ∈ (l.foldl (failRelease f node) u).rmt.releases, ∀ k ∈ l, x.num ≠ k.num := by
    induction l generalizing u with
    | nil => exact ⟨.refl u, fun _ _ _ hk => absurd hk (List.not_mem_nil)⟩
    | cons k l ih =>
      obtain ⟨hone, hgone⟩ := spread_failRelease f node u k
      obtain ⟨hrest, hothers⟩ := ih (failRelease f node u k)
      refine ⟨hone.trans hrest, fun x hx y hy => ?_⟩
      rcases List.mem_cons.mp hy with rfl | hy
      · exact hgone x (hrest.releases x hx)
      · exact hothers x hx y hy
  obtain ⟨hspread, hgone⟩ := hall (s.rmt.releases.filter p) s
  refine ⟨hspread, fun x hx => ?_⟩
  by_contra hp
  have hfailed : x ∈ s.rmt.releases.filter p := List.mem_filter.mpr ⟨hspread.releases x hx, by simpa using hp⟩
  exact hgone x hx x hfailed rfl

/-! ## Loads and bulk writes unanswered for 1 ms (R172 to R174) -/

/-- A timeout silences the peer entry, and leaves the trackers. -/
theorem targetSilent_silences (s : State) (pid node : Nat) : (targetSilent s pid node).rmt = s.rmt ∧
    s.out <:+ (targetSilent s pid node).out ∧
    ((peer s pid node).valid = true → (peer (targetSilent s pid node) pid node).silent = true) := by
  have hposted (u : State) : (postBoth u pid 3 0 node 0).part = u.part ∧ (postBoth u pid 3 0 node 0).rmt = u.rmt := by
    obtain ⟨-, -, -, -, -, hpart, -, -, hrmt, -⟩ := postBoth_same u pid 3 0 node 0
    exact ⟨hpart, hrmt⟩
  unfold targetSilent
  dsimp only
  split
  · obtain ⟨hpart, hrmt⟩ := hposted (setPeer s pid node { peer s pid node with silent := true })
    refine ⟨hrmt, (cmdKept_postBoth (setPeer s pid node _) ..).out, fun _ => ?_⟩
    rw [peer, hpart]
    exact congrArg Peer.silent (tget_tset_same ..)
  · obtain ⟨-, hrmt⟩ := hposted s
    exact ⟨hrmt, (cmdKept_postBoth s ..).out, fun h => absurd h ‹_›⟩

theorem peer_congr {s t : State} (h : t.part.peers = s.part.peers) (pid node : Nat) : peer t pid node = peer s pid node := by
  rw [peer, h, peer]

/-- What a timeout of a request comes to: its failure spreads, and its peer entry is silent. -/
theorem timeout_ends {s : State} (r : RReq) (node : Nat) (f : CtxFault) (hheld : s.rmt.held = []) : ∃ m t,
    retryHeld (targetSilent (failReq s r node f) r.pid.val node) = t ∧ Spread s m ∧ t.rmt = m.rmt ∧
    .rmtError r.mport r.ctx ∈ t.out ∧
    ((peer s r.pid.val node).valid = true → (peer t r.pid.val node).silent = true) := by
  obtain ⟨hspread, hmem⟩ := spread_failReq s r node f
  obtain ⟨hrmt, hout, hsilent⟩ := targetSilent_silences (failReq s r node f) r.pid.val node
  have hidle : (targetSilent (failReq s r node f) r.pid.val node).rmt.held = [] := by rw [hrmt, hspread.held hheld]
  have hpeer : peer (failReq s r node f) r.pid.val node = peer s r.pid.val node :=
    peer_congr hspread.peers ..
  exact ⟨_, _, retryHeld_idle hidle, hspread, hrmt, hout.subset hmem, fun h => hsilent (hpeer ▸ h)⟩

section
variable {s : State} {tag : BitVec 40}

theorem loadTimeout_due {e : LoadEnt} (hfind : s.rmt.loads.find? (fun x => x.tag == tag) = some e)
    (hdue : past s e.sealed 1000 = true) (hheld : s.rmt.held = []) :
    ∃ t, exec (.loadTimeout tag) s = .next t ∧ (∀ x ∈ t.rmt.loads, x ∈ s.rmt.loads ∧ x.tag ≠ tag) ∧
      t.rmt.ctr.loadTmo = inc32 s.rmt.ctr.loadTmo ∧ (.rmtError e.req.mport e.req.ctx) ∈ t.out ∧
      ((peer s e.req.pid.val e.node).valid = true → (peer t e.req.pid.val e.node).silent = true) := by
  obtain ⟨m, t, ht, hspread, hrmt, hmem, hsilent⟩ := timeout_ends (s := rmtCtr (dropLoad s tag) fun c =>
    { c with loadTmo := inc32 c.loadTmo }) e.req e.node .remote hheld
  refine ⟨t, ?_, fun x hx => ?_, ?_, hmem, hsilent⟩
  · change execLoadTimeout tag s = _
    unfold execLoadTimeout
    simp only [hfind, hdue, if_true, ht]
  · have hleft := List.mem_filter.mp (hspread.loads x (hrmt ▸ hx))
    exact ⟨hleft.1, by simpa using hleft.2⟩
  · rw [hrmt, hspread.ctr]
    rfl

theorem loadTimeout_early {e : LoadEnt} (hfind : s.rmt.loads.find? (fun x => x.tag == tag) = some e)
    (hearly : past s e.sealed 1000 = false) : exec (.loadTimeout tag) s = .next s := by
  change execLoadTimeout tag s = _
  simp [execLoadTimeout, hfind, hearly]

/-- A transfer that fails leaves none of its frames in the write tracker (R172). -/
theorem spread_failXfer (s : State) (e : BulkEnt) (f : CtxFault) :
    Spread s (failXfer s e f) ∧ ∀ x ∈ (failXfer s e f).rmt.bulk, x.xfer ≠ e.xfer := by
  have hdrop : Spread s (dropXfer s e.xfer) :=
    .of_filter rfl rfl rfl rfl rfl (List.Subset.refl _) (List.filter_subset_self ..) (List.Subset.refl _) (List.Subset.refl _)
  obtain ⟨hfail, -⟩ := spread_failWaiting (dropXfer s e.xfer) (fun k => k.bulks.contains e.xfer) f e.node
  refine ⟨hdrop.trans hfail, fun x hx => ?_⟩
  obtain ⟨y, hy, -, hxfer⟩ := hfail.bulk x hx
  rw [← hxfer]
  simpa using (List.mem_filter.mp hy).2

theorem bulkTimeout_due {e : BulkEnt} (hfind : s.rmt.bulk.find? (fun x => x.tag == tag) = some e)
    (hdue : past s e.sealed 1000 = true) (hheld : s.rmt.held = []) :
    ∃ t, exec (.bulkWriteTimeout tag) s = .next t ∧
      (∀ x ∈ t.rmt.bulk, x.xfer ≠ e.xfer ∧ ∃ y ∈ s.rmt.bulk, y.tag = x.tag ∧ y.xfer = x.xfer) ∧
      (e.lost = true → t.rmt.ctr.loadTmo = s.rmt.ctr.loadTmo ∧ t.part.peers = s.part.peers) ∧
      (e.lost = false → t.rmt.ctr.loadTmo = inc32 s.rmt.ctr.loadTmo ∧ (.rmtError e.req.mport e.req.ctx) ∈ t.out ∧
        ((peer s e.req.pid.val e.node).valid = true → (peer t e.req.pid.val e.node).silent = true)) := by
  obtain ⟨hfail, hgone⟩ := spread_failXfer s e .bulk
  change ∃ t, execBulkWriteTimeout tag s = _ ∧ _
  unfold execBulkWriteTimeout
  cases hlost : e.lost with
  | true =>
    refine ⟨failXfer s e .bulk, ?_, fun x hx => ⟨hgone x hx, hfail.bulk x hx⟩,
      fun _ => ⟨by rw [hfail.ctr], hfail.peers⟩, nofun⟩
    simp only [hfind, hdue, hlost, Bool.not_true, Bool.false_eq_true, if_false, if_true, retryHeld_idle (hfail.held hheld)]
  | false =>
    obtain ⟨m, t, ht, hspread, hrmt, hmem, hsilent⟩ := timeout_ends (s := rmtCtr (failXfer s e .bulk) fun c =>
      { c with loadTmo := inc32 c.loadTmo }) e.req e.node .bulk (hfail.held hheld)
    have hpeer : peer (rmtCtr (failXfer s e .bulk) fun c => { c with loadTmo := inc32 c.loadTmo }) e.req.pid.val e.node =
        peer s e.req.pid.val e.node := peer_congr hfail.peers ..
    refine ⟨t, ?_, fun x hx => ?_, nofun, fun _ => ⟨?_, hmem, fun h => hsilent (hpeer ▸ h)⟩⟩
    · simp only [hfind, hdue, hlost, Bool.not_true, Bool.false_eq_true, if_false, ht]
    · obtain ⟨y, hy, htag, hxfer⟩ := hspread.bulk x (hrmt ▸ hx)
      obtain ⟨z, hz, htag', hxfer'⟩ := hfail.bulk y hy
      exact ⟨hxfer ▸ hgone y hy, z, hz, htag'.trans htag, hxfer'.trans hxfer⟩
    · rw [hrmt, hspread.ctr, rmtCtr, hfail.ctr]

theorem bulkTimeout_early {e : BulkEnt} (hfind : s.rmt.bulk.find? (fun x => x.tag == tag) = some e)
    (hearly : past s e.sealed 1000 = false) : exec (.bulkWriteTimeout tag) s = .next s := by
  change execBulkWriteTimeout tag s = _
  simp [execBulkWriteTimeout, hfind, hearly]

end

/-! ## Frames of the unit, and atomics without an answer (R58, R87) -/

/-- A frame of this chip, as the router's queue holds it (R55, R58). -/
theorem sendFrame_queued (s : State) (cls : BitVec 4) (dst : Nat) (sptag dptag : BitVec 16) (d : Desc) (body : Bytes)
    (track : Nat) (retry poison : Bool) : ∃ f, sendFrame s cls dst sptag dptag d body track retry poison =
      { s with ridge := { s.ridge with outq := s.ridge.outq ++ [f] } } ∧ f.inner.cls = cls ∧ f.inner.retry = retry ∧
      f.inner.payload = descBytes d ++ body := by
  unfold sendFrame push
  exact ⟨_, if_neg (Nat.lt_irrefl 36), rfl, rfl, rfl⟩

theorem spread_sendFrame (s : State) (cls : BitVec 4) (dst : Nat) (sptag dptag : BitVec 16) (d : Desc) (body : Bytes)
    (track : Nat) (retry poison : Bool) : Spread s (sendFrame s cls dst sptag dptag d body track retry poison) := by
  obtain ⟨f, hsent, -⟩ := sendFrame_queued s cls dst sptag dptag d body track retry poison
  rw [hsent]
  exact .of_rmt rfl rfl List.suffix_rfl

/-- The ID of a descriptor reads back (R58). -/
theorem id40_descOf (d : Desc) (body : Bytes) : (descOf (descBytes d ++ body)).id40 = d.id40 := by
  have hparts : descBytes d ++ body = (leBytes 6 d.off.toNat ++ leBytes 1 d.op.toNat ++ leBytes 1 d.size.toNat) ++
      leBytes 5 d.id40.toNat ++
      (leBytes 2 (d.inc.toNat * 8192 + b2n d.seg * 4096 + d.stream.toNat) ++ leBytes 1 d.status.toNat ++ body) := by
    simp only [descBytes, List.append_assoc]
  have hread : le (descBytes d ++ body) 8 5 = d.id40.toNat := by
    rw [hparts, le_append (by simp [Laws.leBytes_length])]
    exact Nat.mod_eq_of_lt d.id40.isLt
  rw [show (descOf (descBytes d ++ body)).id40 = BitVec.ofNat 40 (le (descBytes d ++ body) 8 5) from rfl, hread,
    BitVec.ofNat_toNat, BitVec.setWidth_eq]

/-- The atomic tracker once an atomic has had its retry (R87). -/
def noteRetry (s : State) (id : BitVec 40) : State :=
  { s with rmt := { s.rmt with
    atomics := s.rmt.atomics.map fun x => if x.id == id then { x with retried := true } else x } }

section
variable {s : State} {id : BitVec 40} {a : AtomEnt}

theorem atomicRetry_due (hfind : s.rmt.atomics.find? (fun x => x.id == id) = some a) (hdue : past s a.sealed 45 = true)
    (hfirst : a.retried = false) : ∃ t f, exec (.atomicRetryTimer id) s = .next t ∧
      t.ridge.outq = s.ridge.outq ++ [f] ∧ f.inner.cls = clsAtomic ∧ f.inner.retry = true ∧
      (descOf f.inner.payload).id40 = id ∧ ∀ x ∈ t.rmt.atomics, x.id = id → x.retried = true := by
  have hid : a.id = id := by simpa using List.find?_some hfind
  obtain ⟨f, hsent, hcls, hretry, hpayload⟩ := sendFrame_queued (noteRetry s id) clsAtomic a.node
    (mkTag a.req.pid.val a.req.gen) a.dptag
    { off := targetOff a.req, op := a.req.op, size := a.req.size, id40 := a.id } a.req.data (a.id.toNat + 1) true false
  have hexec : exec (.atomicRetryTimer id) s = .next (sendAtomic (noteRetry s id) a true) := by
    change execAtomicRetryTimer id s = _
    unfold execAtomicRetryTimer
    simp only [hfind, hdue, hfirst, Bool.not_false, Bool.and_self, if_true]
    rfl
  refine ⟨_, f, hexec.trans (congrArg Host.Outcome.next hsent), rfl, hcls, hretry, by rw [hpayload, id40_descOf, hid],
    fun x hx hxid => ?_⟩
  obtain ⟨y, -, rfl⟩ := List.mem_map.mp hx
  by_cases hy : y.id = id
  · simp [hy]
  · simp [hy] at hxid

theorem atomicRetry_idle (hfind : s.rmt.atomics.find? (fun x => x.id == id) = some a)
    (h : past s a.sealed 45 = false ∨ a.retried = true) : exec (.atomicRetryTimer id) s = .next s := by
  change execAtomicRetryTimer id s = _
  rcases h with h | h <;> simp [execAtomicRetryTimer, hfind, h]

theorem atomicUnknown_due (hfind : s.rmt.atomics.find? (fun x => x.id == id) = some a)
    (hdue : past s a.sealed 130 = true) (hheld : s.rmt.held = []) :
    ∃ t, exec (.atomicUnknownTimer id) s = .next t ∧ (∀ x ∈ t.rmt.atomics, x.id ≠ id) ∧
      (.rmtUnknown a.req.mport a.req.ctx) ∈ t.out := by
  have hlose := spread_loseHandle (emit (dropAtomic s id) (.rmtUnknown a.req.mport a.req.ctx)) a.req.ctx .atomic
    (reqAddr a.req) (BitVec.ofNat 14 a.node)
  refine ⟨_, ?_, fun x hx => ?_, hlose.out.subset (List.mem_cons_self ..)⟩
  · change execAtomicUnknownTimer id s = _
    unfold execAtomicUnknownTimer
    simp only [hfind, hdue, if_true, retryHeld_idle (hlose.held hheld)]
  · simpa using (List.mem_filter.mp (hlose.atomics x hx)).2

theorem atomicUnknown_early (hfind : s.rmt.atomics.find? (fun x => x.id == id) = some a)
    (hearly : past s a.sealed 130 = false) : exec (.atomicUnknownTimer id) s = .next s := by
  change execAtomicUnknownTimer id s = _
  simp [execAtomicUnknownTimer, hfind, hearly]

end

/-! ## Streams that close (R170, R171) -/

/-- The unit with its streams rewritten. -/
def withStreams (s : State) (l : List SrcStream) : State := { s with rmt := { s.rmt with streams := l } }

/-- Where no stream gains a SEAM, nothing spreads. -/
theorem spread_withStreams {s : State} {l : List SrcStream} (h : ∀ b, (∀ u ∈ s.rmt.streams, (segOf u.segs b).seam = none) →
    ∀ u ∈ l, (segOf u.segs b).seam = none) : Spread s (withStreams s l) where
  out := List.suffix_rfl
  peers := rfl
  ctr := rfl
  loads _ hx := hx
  bulk x hx := ⟨x, hx, rfl, rfl⟩
  atomics _ hx := hx
  releases _ hx := hx
  held hs := hs
  seams := h

/-- A stream is rewritten with the segments that it has. -/
theorem spread_replaceStream {s : State} {t u : SrcStream} (ht : t ∈ s.rmt.streams) (hsegs : u.segs = t.segs)
    (p : SrcStream → Bool) : Spread s (withStreams s (s.rmt.streams.map fun x => if p x then u else x)) := by
  refine spread_withStreams fun b hs v hv => ?_
  obtain ⟨x, hx, rfl⟩ := List.mem_map.mp hv
  split
  · rw [hsegs]
    exact hs t ht
  · exact hs x hx

/-- A stream that has been asked for, under the tags of now (R83, R165). -/
def askedStream (s : State) (t : SrcStream) : SrcStream :=
  { t with asked := true, retryAt := none, sptag := curTag s t.pid, dptag := (peer s t.pid t.node).ptag }

theorem askStream_eq (s : State) (t : SrcStream) : askStream s t =
    sendFrame (withStreams s (s.rmt.streams.map fun x => if sameStream x t then askedStream s t else x)) clsStream t.node
      (askedStream s t).sptag (askedStream s t).dptag { op := 1 } [] := rfl

theorem spread_askStream {s : State} {t : SrcStream} (ht : t ∈ s.rmt.streams) : Spread s (askStream s t) := by
  have hasked := spread_replaceStream (u := askedStream s t) ht rfl fun x => sameStream x t
  rw [askStream_eq]
  exact hasked.trans (spread_sendFrame ..)

theorem spread_askNext (s : State) : Spread s (askNext s) := by
  unfold askNext
  split
  · split
    · exact spread_askStream (List.mem_of_find?_eq_some ‹_›)
    · exact .refl s
  · exact .refl s

/-- The streams once one has closed: it stays while a SEAM of it is out (R171). -/
def closedStreams (s : State) (t : SrcStream) : List SrcStream :=
  (s.rmt.streams.filter fun x => !sameStream x t) ++
    if segWaits t.segs.1 || segWaits t.segs.2 then [{ t with closed := true, waiting := [] }] else []

/-- Each stream left after a close is another one, or the closed one with the segments it had. -/
theorem mem_closedStreams {s : State} {t u : SrcStream} (h : u ∈ closedStreams s t) :
    (u ∈ s.rmt.streams ∧ sameStream u t = false) ∨ (u.segs = t.segs ∧ u.closed = true) := by
  rcases List.mem_append.mp h with hu | hu
  · obtain ⟨hmem, hother⟩ := List.mem_filter.mp hu
    exact .inl ⟨hmem, by simpa using hother⟩
  · split at hu
    · obtain rfl := List.mem_singleton.mp hu
      exact .inr ⟨rfl, rfl⟩
    · exact absurd hu List.not_mem_nil

theorem closeStream_eq (s : State) (t : SrcStream) : closeStream s t =
    askNext (if t.granted && !t.closed then
      sendFrame (withStreams s (closedStreams s t)) clsStream t.node t.sptag t.dptag
        { op := 0x02, stream := t.id, inc := t.inc } []
    else withStreams s (closedStreams s t)) := rfl

theorem spread_closeStream {s : State} {t : SrcStream} (ht : t ∈ s.rmt.streams) : Spread s (closeStream s t) := by
  have hclosed : Spread s (withStreams s (closedStreams s t)) := by
    refine spread_withStreams fun b hs u hu => ?_
    rcases mem_closedStreams hu with ⟨hmem, -⟩ | ⟨hsegs, -⟩
    · exact hs u hmem
    · rw [hsegs]
      exact hs t ht
  rw [closeStream_eq]
  refine .trans ?_ (spread_askNext _)
  split
  · exact hclosed.trans (spread_sendFrame ..)
  · exact hclosed

theorem mem_of_srcStream {s : State} {pid node : Nat} {t : SrcStream} (h : srcStream s pid node = some t) :
    t ∈ s.rmt.streams := List.mem_of_find?_eq_some h

theorem spread_joinStream (s : State) (r : RReq) (node : Nat) : Spread s (joinStream s r node) := by
  unfold joinStream
  dsimp only
  split
  · rename_i t ht
    have hput : Spread s (putStream s { t with waiting := t.waiting ++ [r] }) :=
      spread_replaceStream (u := { t with waiting := t.waiting ++ [r] }) (mem_of_srcStream ht) rfl
        fun x => sameStream x { t with waiting := t.waiting ++ [r] }
    split
    · exact hput
    · exact hput.trans (spread_askNext _)
  · refine .trans (spread_withStreams (l := s.rmt.streams ++ [_]) fun b hs u hu => ?_) (spread_askNext _)
    rcases List.mem_append.mp hu with hu | hu
    · exact hs u hu
    · obtain rfl := List.mem_singleton.mp hu
      cases b <;> rfl

theorem spread_closeAndResume {s : State} {t : SrcStream} (ht : t ∈ s.rmt.streams) : Spread s (closeAndResume s t) := by
  refine (spread_closeStream ht).trans (.foldl (f := fun s r => if stillWanted s r then joinStream s r t.node else s)
    (fun u r => ?_) _ _)
  split
  · exact spread_joinStream ..
  · exact .refl u

/-! ## A SEAM without an answer (R171) -/

theorem segOf_segPut_same (p : Seg × Seg) (b : Bool) (x : Seg) : segOf (segPut p b x) b = x := by cases b <;> rfl

theorem segOf_segPut (p : Seg × Seg) (b c : Bool) : (segOf (segPut p b {}) c).seam = none ∨
    segOf (segPut p b {}) c = segOf p c := by
  cases b <;> cases c <;> simp [segOf, segPut]

/-- A stream is itself. -/
theorem sameStream_self (t : SrcStream) : sameStream t t = true := by simp [sameStream]

/-- The one stream whose segment is freed has no SEAM there (R171). -/
theorem freeSeg_frees {s : State} {t : SrcStream} (hs : s.rmt.streams = [t]) (b : Bool) : Spread s (freeSeg s t b) ∧
    ∀ u ∈ (freeSeg s t b).rmt.streams, (segOf u.segs b).seam = none := by
  have hstreams : ∃ l, freeSeg s t b = withStreams s l ∧ ∀ u ∈ l, u.segs = segPut t.segs b {} := by
    unfold freeSeg
    dsimp only
    split
    · exact ⟨_, rfl, fun u hu => by simp [hs, sameStream_self] at hu⟩
    · refine ⟨_, rfl, fun u hu => ?_⟩
      have hself : sameStream t { t with segs := segPut t.segs b {} } = true := sameStream_self t
      simp only [hs, List.map_cons, List.map_nil, hself, if_true, List.mem_singleton] at hu
      rw [hu]
  obtain ⟨l, hfree, hsegs⟩ := hstreams
  rw [hfree]
  refine ⟨spread_withStreams fun c hall u hu => ?_, fun u hu => ?_⟩
  · rw [hsegs u hu]
    rcases segOf_segPut t.segs b c with h | h
    · exact h
    · rw [h]
      exact hall t (by simp [hs])
  · rw [hsegs u hu, segOf_segPut_same]

/-- The unit with a failed SEAM's segment free, and the failure counted unless its context was lost before (R208). -/
def seamCounted (s : State) (t : SrcStream) (b : Bool) : State :=
  if (segOf t.segs b).lost then freeSeg s t b
  else rmtCtr (freeSeg s t b) fun c => { c with seamFail := inc32 c.seamFail }

/-- Past the count, the failure of a SEAM spreads, and no release that noted it is left. -/
theorem spread_seamFailed (s : State) (t : SrcStream) (b : Bool) (r : RReq) :
    Spread (seamCounted s t b) (seamFailed s t b r) ∧
    ∀ k ∈ (seamFailed s t b r).rmt.releases, k.waits.contains (seamNum r) = false := by
  have hlose (u : State) : Spread u
      (if (segOf t.segs b).lost then u else loseHandle u r.ctx .seam (reqAddr r) (BitVec.ofNat 14 t.node)) := by
    split
    · exact .refl u
    · exact spread_loseHandle ..
  obtain ⟨hfail, hgone⟩ := spread_failWaiting (if (segOf t.segs b).lost then seamCounted s t b else
    loseHandle (seamCounted s t b) r.ctx .seam (reqAddr r) (BitVec.ofNat 14 t.node))
    (fun x => x.waits.contains (seamNum r)) .seam t.node
  have hresume (u : State) : Spread u (match (if t.closed then none else srcStream u t.pid t.node) with
      | some t2 => closeAndResume u t2
      | none => u) := by
    split
    · rename_i t2 ht2
      split at ht2
      · cases ht2
      · exact spread_closeAndResume (mem_of_srcStream ht2)
    · exact .refl u
  have hlast := hresume (failWaiting (if (segOf t.segs b).lost then seamCounted s t b else
    loseHandle (seamCounted s t b) r.ctx .seam (reqAddr r) (BitVec.ofNat 14 t.node))
    (fun x => x.waits.contains (seamNum r)) .seam t.node)
  exact ⟨((hlose _).trans hfail).trans hlast, fun k hk => hgone k (hlast.releases k hk)⟩

section
variable {s : State} {pid : Pid} {node : BitVec 14} {seg : Bool}

theorem seamTimeout_early (h : ∀ t ∈ s.rmt.streams, t.pid = pid.val → t.node = node.toNat →
    past s (segOf t.segs seg).seamAt 2000 = false) : exec (.seamTimeout pid node seg) s = .next s := by
  have hnone : overdue s pid.val node.toNat seg = none := by
    refine List.findSome?_eq_none_iff.mpr fun t ht => ?_
    refine if_neg fun hc => ?_
    simp only [Bool.and_eq_true, beq_iff_eq] at hc
    obtain ⟨⟨hpid, hnode⟩, hpast⟩ := hc
    rw [h t ht hpid hnode] at hpast
    cases hpast
  change execSeamTimeout pid node seg s = _
  simp only [execSeamTimeout, hnone]

theorem seamTimeout_due {t : SrcStream} {r : RReq} (hs : s.rmt.streams = [t]) (hpid : t.pid = pid.val)
    (hnode : t.node = node.toNat) (hseam : (segOf t.segs seg).seam = some r)
    (hdue : past s (segOf t.segs seg).seamAt 2000 = true) (hheld : s.rmt.held = []) :
    ∃ e, exec (.seamTimeout pid node seg) s = .next e ∧
      e.rmt.ctr.seamFail = (if (segOf t.segs seg).lost = true then s.rmt.ctr.seamFail else inc32 s.rmt.ctr.seamFail) ∧
      (∀ u ∈ e.rmt.streams, (segOf u.segs seg).seam = none) ∧
      ∀ k ∈ e.rmt.releases, k ∈ s.rmt.releases ∧ seamNum r ∉ k.waits := by
  have hover : overdue s pid.val node.toNat seg = some (t, r) := by
    simp [overdue, hs, hpid, hnode, hdue, hseam]
  obtain ⟨hfree, hnone⟩ := freeSeg_frees hs seg
  obtain ⟨hspread, hgone⟩ := spread_seamFailed s t seg r
  have hcounted : (seamCounted s t seg).rmt.held = (freeSeg s t seg).rmt.held ∧
      (seamCounted s t seg).rmt.releases = (freeSeg s t seg).rmt.releases ∧
      (seamCounted s t seg).rmt.streams = (freeSeg s t seg).rmt.streams ∧ (seamCounted s t seg).rmt.ctr.seamFail =
        (if (segOf t.segs seg).lost = true then s.rmt.ctr.seamFail else inc32 s.rmt.ctr.seamFail) := by
    unfold seamCounted
    split
    · exact ⟨rfl, rfl, rfl, by rw [hfree.ctr]⟩
    · exact ⟨rfl, rfl, rfl, by rw [rmtCtr, hfree.ctr]⟩
  obtain ⟨hheld', hreleases, hstreams, hcount⟩ := hcounted
  have hidle : (seamFailed s t seg r).rmt.held = [] := hspread.held (hheld'.trans (hfree.held hheld))
  refine ⟨seamFailed s t seg r, ?_, by rw [hspread.ctr, hcount], hspread.seams seg (hstreams ▸ hnone), fun k hk => ?_⟩
  · change execSeamTimeout pid node seg s = _
    simp only [execSeamTimeout, hover, retryHeld_idle hidle]
  · exact ⟨hfree.releases k (hreleases ▸ hspread.releases k hk), by simpa using hgone k hk⟩

/-! ## Streams out of use, and streams asked for again (R83, R170) -/

theorem askNext_idle {u : State} (h : ∀ x ∈ u.rmt.streams, x.asked = true ∨ x.closed = true) : askNext u = u := by
  have hnone : u.rmt.streams.find? (fun t => !t.asked && !t.closed && !t.waiting.isEmpty && stamps u t) = none := by
    refine List.find?_eq_none.mpr fun x hx => ?_
    rcases h x hx with h | h <;> simp [h]
  simp only [askNext, hnone]

theorem srcStream_key {t : SrcStream} {p n : Nat} (h : srcStream s p n = some t) :
    t.pid = p ∧ t.node = n ∧ t.closed = false := by
  have hkey : (t.pid == p && t.node == n && !t.closed) = true := List.find?_some (p := fun t : SrcStream =>
    t.pid == p && t.node == n && !t.closed) h
  simpa [and_assoc] using hkey

/-- The open stream of a partition to a node that has closed is not found again. -/
theorem srcStream_closed {t : SrcStream} {p n : Nat} (ht : srcStream s p n = some t) {u : State}
    (hu : u.rmt.streams = closedStreams s t) : srcStream u p n = none := by
  obtain ⟨hpid, hnode, hopen⟩ := srcStream_key ht
  refine List.find?_eq_none.mpr fun x hx => ?_
  rcases mem_closedStreams (hu ▸ hx) with ⟨-, hother⟩ | ⟨-, hclosed⟩
  · intro hfound
    simp only [Bool.and_eq_true, beq_iff_eq, Bool.not_eq_true'] at hfound
    obtain ⟨⟨hp, hn⟩, hc⟩ := hfound
    simp [sameStream, hpid, hnode, hopen, hp, hn, hc] at hother
  · simp [hclosed]

theorem streamIdle_due {t : SrcStream} (ht : srcStream s pid.val node.toNat = some t) (hgranted : t.granted = true)
    (hwaiting : t.waiting = []) (hdue : t.lastUse + 5000 ≤ now s)
    (hasked : ∀ x ∈ s.rmt.streams, x.asked = true ∨ x.closed = true) :
    ∃ e f, exec (.streamIdleCloseSource pid node) s = .next e ∧ srcStream e pid.val node.toNat = none ∧
      e.ridge.outq = s.ridge.outq ++ [f] ∧ f.inner.cls = clsStream ∧
      f.inner.payload = descBytes { op := 2, stream := t.id, inc := t.inc } := by
  obtain ⟨-, -, hopen⟩ := srcStream_key ht
  obtain ⟨f, hsent, hcls, -, hpayload⟩ := sendFrame_queued (withStreams s (closedStreams s t)) clsStream t.node t.sptag
    t.dptag { op := 0x02, stream := t.id, inc := t.inc } [] 0 false false
  have hidle : askNext (sendFrame (withStreams s (closedStreams s t)) clsStream t.node t.sptag t.dptag
      { op := 0x02, stream := t.id, inc := t.inc } []) = _ := askNext_idle fun x hx => by
    rw [hsent] at hx
    rcases mem_closedStreams hx with ⟨hmem, -⟩ | ⟨-, hclosed⟩
    · exact hasked x hmem
    · exact .inr hclosed
  have hexec : exec (.streamIdleCloseSource pid node) s = .next (closeStream s t) := by
    change execStreamIdleCloseSource pid node s = _
    simp [execStreamIdleCloseSource, ht, hgranted, hwaiting, hdue]
  rw [hexec, closeStream_eq, if_pos (by rw [hgranted, hopen]; rfl), hidle, hsent]
  exact ⟨_, f, rfl, srcStream_closed ht rfl, rfl, hcls, by rw [hpayload, List.append_nil]⟩

theorem streamIdle_early {t : SrcStream} (ht : srcStream s pid.val node.toNat = some t)
    (h : t.granted = false ∨ t.waiting ≠ [] ∨ now s < t.lastUse + 5000) :
    exec (.streamIdleCloseSource pid node) s = .next s := by
  change execStreamIdleCloseSource pid node s = _
  rcases h with h | h | h <;> simp [execStreamIdleCloseSource, ht, h, Nat.not_le.mpr]

theorem grantRetry_silent {t : SrcStream} (ht : srcStream s pid.val node.toNat = some t)
    (hdue : past s t.retryAt 0 = true) (hsilent : stamps s t = false) :
    exec (.streamGrantRetry pid node) s = .next (pumpNow s pid.val node.toNat) := by
  change execStreamGrantRetry pid node s = _
  simp [execStreamGrantRetry, ht, hdue, hsilent]

theorem grantRetry_asks {t : SrcStream} (ht : srcStream s pid.val node.toNat = some t)
    (hdue : past s t.retryAt 0 = true) (hstamps : stamps s t = true) :
    ∃ e f, exec (.streamGrantRetry pid node) s = .next e ∧ e.ridge.outq = s.ridge.outq ++ [f] ∧
      f.inner.cls = clsStream ∧ f.inner.payload = descBytes { op := 1 } := by
  obtain ⟨f, hsent, hcls, -, hpayload⟩ := sendFrame_queued
    (withStreams s (s.rmt.streams.map fun x => if sameStream x t then askedStream s t else x)) clsStream t.node
    (askedStream s t).sptag (askedStream s t).dptag { op := 1 } [] 0 false false
  have hexec : exec (.streamGrantRetry pid node) s = .next (askStream s t) := by
    change execStreamGrantRetry pid node s = _
    simp [execStreamGrantRetry, ht, hdue, hstamps]
  rw [hexec, askStream_eq, hsent]
  exact ⟨_, f, rfl, rfl, hcls, by rw [hpayload, List.append_nil]⟩

theorem grantRetry_early {t : SrcStream} (ht : srcStream s pid.val node.toNat = some t)
    (hearly : past s t.retryAt 0 = false) : exec (.streamGrantRetry pid node) s = .next s := by
  change execStreamGrantRetry pid node s = _
  simp [execStreamGrantRetry, ht, hearly]

end

/-! ## Releases (R175) -/

section
variable {s : State} {n : Nat} {k : Release}

theorem releaseSeal_ready (hfind : s.rmt.releases.find? (fun x => x.num == n) = some k) (h : releaseReady s k = true) :
    exec (.releaseSeal n) s = .next (sealRelease s k) := by
  change execReleaseSeal n s = _
  simp [execReleaseSeal, hfind, h]

theorem releaseSeal_waits (hfind : s.rmt.releases.find? (fun x => x.num == n) = some k) (h : releaseReady s k = false) :
    exec (.releaseSeal n) s = .next s := by
  change execReleaseSeal n s = _
  simp [execReleaseSeal, hfind, h]

/-- A release waits for a bulk transfer, a release or a SEAM that it noted (R175 step 3). -/
theorem releaseReady_false (h : (∃ b ∈ s.rmt.bulk, b.xfer ∈ k.bulks) ∨ (∃ x ∈ s.rmt.releases, x.num ∈ k.waits) ∨
    ∃ t ∈ s.rmt.streams, ∃ r ∈ openSeams t, seamNum r ∈ k.waits) : releaseReady s k = false := by
  by_contra hready
  simp only [Bool.not_eq_false, releaseReady, Bool.and_eq_true, List.all_eq_true, bne_iff_ne] at hready
  obtain ⟨hbulks, hwaits⟩ := hready
  rcases h with ⟨b, hb, hxfer⟩ | ⟨x, hx, hnum⟩ | ⟨t, ht, r, hr, hnum⟩
  · exact hbulks _ hxfer b hb rfl
  · exact (hwaits _ hnum).1 x hx rfl
  · exact (hwaits _ hnum).2 t ht r hr rfl

end

/-! ## OWN_TRANSFER (R188, R233) -/

section
variable {s k : State} {c : Cmd} {t : Ticket}

/-- The page with its new owner in the ownership table (R187). -/
def ownerSet (s : State) (page node : Nat) : State :=
  { s with rmt := { s.rmt with
    own := tset 0 s.rmt.own page ((if node == s.range.nodeId then homeOwner - 1 else node) + 1) } }

theorem own_ownerSet (s : State) (page node p : Nat) : tget 0 (ownerSet s page node).rmt.own p =
    if p = page then (if node = s.range.nodeId then homeOwner else node + 1) else tget 0 s.rmt.own p := by
  simp only [ownerSet, tget_tset]
  by_cases hnode : node = s.range.nodeId
  · simp [hnode, homeOwner]
  · simp [hnode]

theorem onlyAnswers_sendNotice (s : State) (pid node page new : Nat) (gain : Bool) :
    OnlyAnswers s (sendNotice s pid node page new gain) := by
  unfold sendNotice
  dsimp only
  split
  · exact ⟨s.ridge.outq, rfl⟩
  · exact onlyAnswers_sendFrame ..

theorem runOwnTransfer_sets (m : List ReadIn) (hlive : (pot k (parm c.body 16 32)).state = .live)
    (ht4c : (pot k (parm c.body 16 32)).t4c = true) : ∃ u, runOwnTransfer k t c.body m = .ok u ∧
      OnlyAnswers (ownerSet k (parm c.body 16 32) (parm c.body 20 14)) u := by
  have hno : ¬ (!((pot k (parm c.body 16 32)).state == .live && (pot k (parm c.body 16 32)).t4c)) = true := by
    simp [hlive, ht4c]
  by_cases hsame : (tget 0 k.rmt.own (parm c.body 16 32) - 1 ==
      if parm c.body 20 14 == k.range.nodeId then homeOwner - 1 else parm c.body 20 14) = true
  · exact ⟨_, (if_neg hno).trans (if_pos hsame), ⟨k.ridge.outq, rfl⟩⟩
  · exact ⟨_, (if_neg hno).trans (if_neg hsame), (onlyAnswers_sendNotice ..).trans (onlyAnswers_sendNotice ..)⟩

theorem execOwnTransfer_accepted (h : accepted opOwnTransfer s c = some (k, t)) :
    exec (.ownTransfer c) s = .next (conclude k t (runOwnTransfer k t c.body c.mem)) :=
  congrArg Host.Outcome.next (issue_of_accepted_unread rfl h)

theorem ownTransfer_gives (h : accepted opOwnTransfer s c = some (k, t)) :
    let page := parm c.body 16 32
    let node := parm c.body 20 14
    (pot k page).state = .live → (pot k page).t4c = true → ∃ u, exec (.ownTransfer c) s = .next (finish u t .ok) ∧
      tget 0 u.rmt.own page = (if node = k.range.nodeId then homeOwner else node + 1) ∧
      (∀ q, q ≠ page → tget 0 u.rmt.own q = tget 0 k.rmt.own q) ∧ u.mem = k.mem ∧ u.part = k.part ∧ u.keys = k.keys := by
  intro page node hlive ht4c
  obtain ⟨u, hrun, q, hu⟩ := runOwnTransfer_sets (t := t) c.mem hlive ht4c
  have hexec : exec (.ownTransfer c) s = .next (finish u t .ok) := by
    rw [execOwnTransfer_accepted h, hrun]
    rfl
  have hown (p : Nat) : tget 0 u.rmt.own p = _ := (by rw [hu] : _ = tget 0 (ownerSet k page node).rmt.own p).trans
    (own_ownerSet k page node p)
  exact ⟨u, hexec, (hown page).trans (if_pos rfl), fun p hp => (hown p).trans (if_neg hp), by rw [hu]; rfl, by rw [hu]; rfl,
    by rw [hu]; rfl⟩

theorem ownTransfer_refused (h : accepted opOwnTransfer s c = some (k, t))
    (hs : (pot k (parm c.body 16 32)).state ≠ .live ∨ (pot k (parm c.body 16 32)).t4c = false) :
    exec (.ownTransfer c) s = .next (finish k t .errState) := by
  have hrun : runOwnTransfer k t c.body c.mem = .fail .errState := by
    refine if_pos ?_
    rcases hs with hs | hs <;> simp [hs]
  rw [execOwnTransfer_accepted h, hrun]
  rfl

theorem ownPre_errParam (n : Nat) {b : Pkt} (h : allPages ≤ parm b 16 32 ∨
    (parm b 20 14 ≠ s.range.nodeId ∧ (peer s (tagPid b.ptag) (parm b 20 14)).valid = false)) :
    ownPre s n b = some .errParam := by
  refine if_pos ?_
  rcases h with h | ⟨hnode, hpeer⟩
  · simp [h]
  · simp [hnode, hpeer]

theorem ownPre_errPerm (n : Nat) {b : Pkt} (hpage : parm b 16 32 < allPages)
    (hnode : parm b 20 14 = s.range.nodeId ∨ (peer s (tagPid b.ptag) (parm b 20 14)).valid = true)
    (hlive : (pot s (parm b 16 32)).state = .live) (hpid : (pot s (parm b 16 32)).pid ≠ tagPid b.ptag) :
    ownPre s n b = some .errPerm := by
  unfold ownPre
  dsimp only
  rw [if_neg, if_pos (by simp [hlive, hpid])]
  rcases hnode with h | h <;> simp [h, Nat.not_le.mpr hpage]

end

/-- Settles O42: the trackers at their times, and the transfer of a page. -/
theorem remoteTrackersAndOwnership : Obligations.RemoteTrackersAndOwnership := by
  intro s
  refine ⟨fun tag e hfind hdue hheld => loadTimeout_due hfind hdue hheld,
    fun tag e hfind hearly => loadTimeout_early hfind hearly,
    fun tag e hfind hdue hheld => bulkTimeout_due hfind hdue hheld,
    fun tag e hfind hearly => bulkTimeout_early hfind hearly,
    fun pid node seg => ⟨fun h => seamTimeout_early h,
      fun t r hs hpid hnode hseam hdue hheld => seamTimeout_due hs hpid hnode hseam hdue hheld⟩,
    fun id a hfind hdue hfirst => atomicRetry_due hfind hdue hfirst, fun id a hfind h => atomicRetry_idle hfind h,
    fun id a hfind hdue hheld => atomicUnknown_due hfind hdue hheld,
    fun id a hfind hearly => atomicUnknown_early hfind hearly,
    fun pid node t ht => ⟨fun hgranted hwaiting hdue hasked => streamIdle_due ht hgranted hwaiting hdue hasked,
      fun h => streamIdle_early ht h, fun hdue hsilent => grantRetry_silent ht hdue hsilent,
      fun hdue hstamps => grantRetry_asks ht hdue hstamps, fun hearly => grantRetry_early ht hearly⟩,
    fun n k hfind => ⟨fun hready => releaseSeal_ready hfind hready, fun b hb hxfer => ?_, fun x hx hnum => ?_,
      fun t ht r hr hnum => ?_⟩,
    fun c k t hacc => ⟨ownTransfer_gives hacc, fun hs => ownTransfer_refused hacc hs⟩,
    fun n b => ⟨fun h => ownPre_errParam n h, fun hpage hnode hlive hpid => ownPre_errPerm n hpage hnode hlive hpid⟩⟩
  · exact releaseSeal_waits hfind (releaseReady_false (.inl ⟨b, hb, hxfer⟩))
  · exact releaseSeal_waits hfind (releaseReady_false (.inr (.inl ⟨x, hx, hnum⟩)))
  · exact releaseSeal_waits hfind (releaseReady_false (.inr (.inr ⟨t, ht, r, hr, hnum⟩)))

end Sys2Proof.Machine

/-! PROOFS. Fold plans: grants, arming and release (04 R98, R108 to R112). -/

namespace Sys2Proof.Machine

/-! ## Folds of updates, and tables over a list of keys -/

/-- What one update of a fold establishes and every update keeps holds at its end. -/
theorem foldl_establishes {α β : Type} {P : β → Prop} {f : β → α → β} (hkeeps : ∀ s a, P s → P (f s a)) {l : List α}
    {a : α} (ha : a ∈ l) (hsets : ∀ s, P (f s a)) (s : β) : P (l.foldl f s) := by
  obtain ⟨l₁, l₂, rfl⟩ := List.append_of_mem ha
  rw [List.foldl_append, List.foldl_cons]
  exact List.foldlRecOn l₂ f (hsets _) fun s hs b _ => hkeeps s b hs

theorem mem_span {a n i : Nat} : i ∈ span a n ↔ a ≤ i ∧ i < a + n := by
  simp only [span, List.mem_map, List.mem_range]
  constructor
  · rintro ⟨j, hj, rfl⟩
    omega
  · exact fun ⟨h1, h2⟩ => ⟨i - a, by omega, by omega⟩

theorem forall_mem_span {a n : Nat} {P : Nat → Prop} : (∀ b ∈ span a n, P b) ↔ ∀ i, i < n → P (a + i) := by
  simp [span]

theorem add_mem_span {a n i : Nat} (h : i < n) : a + i ∈ span a n := mem_span.mpr ⟨by omega, by omega⟩

/-- Writing one value at every key of a list. -/
theorem tget_foldl_tset (l : List Nat) (t : Tbl Nat) (v i : Nat) :
    tget 0 (l.foldl (fun t b => tset 0 t b v) t) i = if i ∈ l then v else tget 0 t i := by
  induction l generalizing t with
  | nil => simp
  | cons b l ih =>
    rw [List.foldl_cons, ih, tget_tset]
    by_cases hl : i ∈ l <;> by_cases hb : i = b <;> simp [hl, hb]

/-- A key that is erased, or absent from the start, is absent. -/
theorem tget_foldl_terase {l : List Nat} {t : Tbl Nat} {i : Nat} (h : i ∈ l ∨ tget 0 t i = 0) :
    tget 0 (l.foldl (fun t b => terase t b) t) i = 0 := by
  have hkeeps (t : Tbl Nat) (b : Nat) (ht : tget 0 t i = 0) : tget 0 (terase t b) i = 0 := by
    rcases eq_or_ne i b with rfl | hb
    · exact tget_terase_same t i
    · exact (tget_terase_other t hb).trans ht
  rcases h with h | h
  · exact foldl_establishes (P := fun t : Tbl Nat => tget 0 t i = 0) hkeeps h (fun t => tget_terase_same t i) t
  · exact List.foldlRecOn (motive := fun t : Tbl Nat => tget 0 t i = 0) l _ h fun t ht b _ => hkeeps t b ht

/-! ## Plans and line pairs -/

theorem plan_setPlan (s : State) (i j : Nat) (p : FoldPlan) :
    plan (setPlan s i p) j = if j = i then p else plan s j := tget_tset ..

theorem pairAt_setPair (s : State) (i j : Nat) (x : LinePair) :
    pairAt (setPair s i x) j = if j = i then x else pairAt s j := tget_tset ..

theorem plan_congr {s t : State} (h : t.fold.plans = s.fold.plans) (n : Nat) : plan t n = plan s n := by
  rw [plan, h, plan]

theorem plans_openSlot (s : State) (p : FoldPlan) (chunk : Nat) : (openSlot s p chunk).fold.plans = s.fold.plans :=
  List.foldlRecOn (motive := fun t : State => t.fold.plans = s.fold.plans) _ _ rfl fun _ ht _ _ => ht

/-- Clearing INIT of one pair clears no other pair's and sets none. -/
theorem init_clearInit {s : State} {i j : Nat} (h : i = j ∨ (pairAt s j).init = false) :
    (pairAt (setPair s i { pairAt s i with init := false }) j).init = false := by
  rw [pairAt_setPair]
  split
  · rfl
  · exact h.resolve_left (Ne.symm ‹_›)

theorem init_openSlot_kept {s : State} {i : Nat} (h : (pairAt s i).init = false) (p : FoldPlan) (chunk : Nat) :
    (pairAt (openSlot s p chunk) i).init = false :=
  List.foldlRecOn (motive := fun t : State => (pairAt t i).init = false) _ _ h fun _ ht _ _ => init_clearInit (.inr ht)

/-- A slot that opens has every INIT bit clear (R110). -/
theorem init_openSlot (s : State) (p : FoldPlan) (chunk : Nat) {j : Nat} (h : j < 64 * fmtBlocks p.inFmt) :
    (pairAt (openSlot s p chunk) (slotPair p chunk j)).init = false :=
  foldl_establishes (P := fun t : State => (pairAt t (slotPair p chunk j)).init = false)
    (fun _ _ ht => init_clearInit (.inr ht)) (List.mem_range.mpr h) (fun _ => init_clearInit (.inl rfl)) s

theorem plan_armPlan (s : State) (n m : Nat) (d : FoldPlan) :
    plan (armPlan s n d) m = if m = n then { d with num := s.fold.arms + 1 } else plan s m := by
  have hplans (u : State) : ((List.range d.slots).foldl (fun s c => openSlot s d c) u).fold.plans = u.fold.plans :=
    List.foldlRecOn (motive := fun t : State => t.fold.plans = u.fold.plans) _ _ rfl
      fun _ ht _ _ => (plans_openSlot ..).trans ht
  exact (plan_congr (hplans _) m).trans (plan_setPlan ..)

theorem init_openSlots (s : State) (d : FoldPlan) {l : List Nat} {i j : Nat} (hi : i ∈ l)
    (hj : j < 64 * fmtBlocks d.inFmt) :
    (pairAt (l.foldl (fun s c => openSlot s d c) s) (slotPair d i j)).init = false :=
  foldl_establishes (P := fun t : State => (pairAt t (slotPair d i j)).init = false)
    (fun _ c ht => init_openSlot_kept ht d c) hi (fun t => init_openSlot t d i hj) s

theorem init_armPlan (s : State) (n : Nat) (d : FoldPlan) {i j : Nat} (hi : i < d.slots)
    (hj : j < 64 * fmtBlocks d.inFmt) : (pairAt (armPlan s n d) (slotPair d i j)).init = false := by
  unfold armPlan
  exact init_openSlots _ d (List.mem_range.mpr hi) hj

/-! ## FOLD_PLAN GRANT (R98) -/

section
variable {s k : State} {c : Cmd} {t : Ticket}

theorem execFoldPlanGrant_accepted (h : accepted opPlanGrant s c = some (k, t)) :
    exec (.foldPlanGrant c) s = .next (conclude k t (runPlanGrant k t c.body c.mem)) :=
  congrArg Host.Outcome.next (issue_of_accepted_unread rfl h)

/-- The blocks that a GRANT names, by unit * 64 + block. -/
def grantSpan (p : Pkt) : List Nat := span (parm p 16 8 * 64 + parm p 17 8) (parm p 18 8)

/-- Blocks of a PID. -/
def grantBlocks (s : State) (l : List Nat) (pid : Nat) : State :=
  { s with fold := { s.fold with blocks := l.foldl (fun t b => tset 0 t b (pid + 1)) s.fold.blocks } }

/-- A block that is granted or being zeroed. -/
def blockTaken (s : State) (b : Nat) : Bool := tget 0 s.fold.blocks b != 0 || s.fold.zeroing.contains b

/-- A confidential partition would share the unit (R98). -/
def sharesUnit (s : State) (p : Pkt) (pid : Nat) : Bool :=
  unitHolds s (parm p 16 8) pid fun q => (part s q).conf || (part s pid).conf

theorem runPlanGrant_active (h : tagPid t.ptag = 0 ∨ active k (tagPid t.ptag) = true) (p : Pkt) (m : List ReadIn) :
    runPlanGrant k t p m = if (grantSpan p).any (blockTaken k) || sharesUnit k p (tagPid t.ptag) then .fail .errResource
      else .ok (grantBlocks k (grantSpan p) (tagPid t.ptag)) := by
  refine if_neg ?_
  rcases h with h | h <;> simp [h]

theorem foldPlanGrant_gives (hacc : accepted opPlanGrant s c = some (k, t))
    (hpid : tagPid t.ptag = 0 ∨ active k (tagPid t.ptag) = true)
    (hfree : ∀ b ∈ grantSpan c.body, blockTaken k b = false) (hshare : sharesUnit k c.body (tagPid t.ptag) = false) :
    exec (.foldPlanGrant c) s = .next (finish (grantBlocks k (grantSpan c.body) (tagPid t.ptag)) t .ok) := by
  have hany : (grantSpan c.body).any (blockTaken k) = false := by simpa using hfree
  rw [execFoldPlanGrant_accepted hacc, runPlanGrant_active hpid, hany, hshare]
  rfl

theorem foldPlanGrant_refused (hacc : accepted opPlanGrant s c = some (k, t))
    (hpid : tagPid t.ptag = 0 ∨ active k (tagPid t.ptag) = true)
    (h : (∃ b ∈ grantSpan c.body, blockTaken k b = true) ∨ sharesUnit k c.body (tagPid t.ptag) = true) :
    exec (.foldPlanGrant c) s = .next (finish k t .errResource) := by
  have hno : ((grantSpan c.body).any (blockTaken k) || sharesUnit k c.body (tagPid t.ptag)) = true := by
    simpa using h
  rw [execFoldPlanGrant_accepted hacc, runPlanGrant_active hpid, if_pos hno]
  rfl

/-! ## FOLD_PLAN ARM (R108, R109) -/

/-- Whether a descriptor is legal does not depend on the PID. -/
theorem planOk_planOf (pid q : Nat) (b : Bytes) : planOk (planOf pid b) = planOk (planOf q b) := rfl

theorem planCheck_errParam (s : State) (p : Pkt) {q : Nat} {b : Bytes}
    (h : descClean b = false ∨ planOk (planOf q b) = false) : planCheck s p [.data b] = some .errParam := by
  refine if_pos ?_
  rw [planOk_planOf _ q]
  rcases h with h | h <;> simp [h]

theorem planCheck_errPerm {s : State} {p : Pkt} {q : Nat} {b : Bytes} (hclean : descClean b = true)
    (hok : planOk (planOf q b) = true) (h : let d := planOf q b
      (d.preload = true ∧ recorded s (tagPid p.ptag) d.preBase (d.nchunk * strideOf d.inFmt d.ce) = false) ∨
      (d.outMem = true ∧ recorded s (tagPid p.ptag) d.outBase (d.nchunk * strideOf d.outFmt d.ce) = false)) :
    planCheck s p [.data b] = some .errPerm := by
  refine (if_neg ?_).trans (if_pos ?_)
  · rw [planOk_planOf _ q]
    simp [hclean, hok]
  · simp only [Bool.or_eq_true, Bool.and_eq_true, Bool.not_eq_true']
    exact h

/-- The state that an ARM acts on: its descriptor has been read. -/
def armRead (k : State) (t : Ticket) (c : Cmd) : State := readAll k (opPlanArm.reads k t c.body c.mem) c.mem

theorem execFoldPlanArm_accepted (h : accepted opPlanArm s c = some (k, t)) :
    exec (.foldPlanArm c) s = .next (conclude (armRead k t c) t (runPlanArm (armRead k t c) t c.body c.mem)) :=
  congrArg Host.Outcome.next (issue_of_accepted h)

/-- Where the read delivers a descriptor, ARM comes to what its run comes to with it. -/
theorem foldPlanArm_of_run (hacc : accepted opPlanArm s c = some (k, t)) {b : Bytes} (hmem : c.mem = [.data b]) {x : Res}
    (hrun : runPlanArm (armRead k t c) t c.body [.data b] = x) :
    exec (.foldPlanArm c) s = .next (conclude (armRead k t c) t x) := by
  rw [execFoldPlanArm_accepted hacc, hmem, hrun]

theorem foldPlanArm_poisoned (hacc : accepted opPlanArm s c = some (k, t)) {a : Nat} {l : List Nat}
    (hmem : c.mem = [.poison a l]) : exec (.foldPlanArm c) s = .next (finish (armRead k t c) t .errIntegrity) := by
  rw [execFoldPlanArm_accepted hacc, hmem]
  rfl

/-- A partition may arm a plan: it is active, and in the range where it is confidential. -/
def mayArm (s : State) (pid : Nat) : Prop :=
  (pid = 0 ∨ active s pid = true) ∧ ((part s pid).conf = true → inRange s = true)

/-- What ARM asks of the plan's number, its unit and its blocks (R98, R109). -/
structure ArmRoom (s : State) (pid no : Nat) (d : FoldPlan) : Prop where
  free : (plan s no).state = .free
  unit : tcount s.fold.plans (fun e => e.state != .free && e.unit == d.unit) < 16
  fits : d.blkFirst + d.slots * fmtBlocks d.inFmt ≤ 64
  mine : ∀ x ∈ planBlocks d, tget 0 s.fold.blocks x = pid + 1
  idle : ∀ e ∈ s.fold.plans, e.2.state = .armed → ∀ x ∈ planBlocks e.2, x ∉ planBlocks d

variable {r : State} {p : Pkt} {b : Bytes}

theorem runPlanArm_outOfRange (hconf : (part r (tagPid t.ptag)).conf = true) (hrange : inRange r = false) :
    runPlanArm r t p [.data b] = .fail .errState :=
  if_pos (by simp [hconf, hrange])

theorem mayArm.passes (h : mayArm r (tagPid t.ptag)) : ¬ (!(tagPid t.ptag == 0 || active r (tagPid t.ptag)) ||
    ((part r (tagPid t.ptag)).conf && !inRange r)) = true := by
  obtain ⟨hpid, hrange⟩ := h
  cases hconf : (part r (tagPid t.ptag)).conf
  · rcases hpid with h | h <;> simp [h]
  · rcases hpid with h | h <;> simp [h, hrange hconf]

theorem runPlanArm_taken (hmay : mayArm r (tagPid t.ptag)) (h : (plan r (le b 0 2 % 1024)).state ≠ .free) :
    runPlanArm r t p [.data b] = .fail .errResource :=
  (if_neg hmay.passes).trans (if_pos (by simp [h]))

theorem runPlanArm_arms (hmay : mayArm r (tagPid t.ptag))
    (h : ArmRoom r (tagPid t.ptag) (le b 0 2 % 1024) (planOf (tagPid t.ptag) b)) :
    runPlanArm r t p [.data b] = .ok (armPlan r (le b 0 2 % 1024) (planOf (tagPid t.ptag) b))
      (resultOf [(8, le b 0 2 % 1024), (10, (planOf (tagPid t.ptag) b).unit)]) := by
  refine (if_neg hmay.passes).trans (if_neg ?_)
  simp only [Bool.or_eq_true, not_or, bne_iff_ne, ne_eq, not_not, decide_eq_true_eq, Nat.not_le, Bool.not_eq_true',
    Bool.not_eq_false, List.all_eq_true, beq_iff_eq, List.any_eq_true, Bool.and_eq_true, List.contains_iff_mem, not_exists,
    not_and]
  exact ⟨⟨⟨⟨h.free, h.unit⟩, Nat.not_lt.mpr h.fits⟩, h.mine⟩, h.idle⟩

/-! ## FOLD_RELEASE DISARM and DISARM FORCE (R112) -/

theorem execFoldReleaseDisarm_accepted (h : accepted opDisarm s c = some (k, t)) :
    exec (.foldReleaseDisarm c) s = .next (conclude k t (runDisarm k t c.body c.mem)) :=
  congrArg Host.Outcome.next (issue_of_accepted_unread rfl h)

theorem foldReleaseDisarm_frees (hacc : accepted opDisarm s c = some (k, t))
    (hused : (plan k (parm c.body 17 16)).state ≠ .free)
    (hempty : (plan k (parm c.body 17 16)).state = .armed → holding (plan k (parm c.body 17 16)) = false) :
    exec (.foldReleaseDisarm c) s = .next (finish (setPlan k (parm c.body 17 16) {}) t .ok
      (releaseResult (plan k (parm c.body 17 16)))) := by
  rw [execFoldReleaseDisarm_accepted hacc, runDisarm, if_neg]
  · rfl
  · by_cases harmed : (plan k (parm c.body 17 16)).state = .armed
    · simp [harmed, hempty harmed]
    · simp [harmed, hused]

theorem foldReleaseDisarm_refused (hacc : accepted opDisarm s c = some (k, t))
    (h : (plan k (parm c.body 17 16)).state = .free ∨
      ((plan k (parm c.body 17 16)).state = .armed ∧ holding (plan k (parm c.body 17 16)) = true)) :
    exec (.foldReleaseDisarm c) s = .next (finish k t .errState) := by
  rw [execFoldReleaseDisarm_accepted hacc, runDisarm, if_pos]
  · rfl
  · rcases h with h | ⟨harmed, hholds⟩
    · simp [h]
    · simp [harmed, hholds]

/-- What DISARM FORCE comes to in each state of the plan. -/
theorem foldReleaseDisarmForce_accepted (hacc : accepted opDisarmForce s c = some (k, t)) :
    exec (.foldReleaseDisarmForce c) s = .next (conclude k t
      (match (plan k (parm c.body 17 16)).state with
        | .free => .fail .errState
        | .armed => .wait k (tagPid t.ptag) (.disarm (plan k (parm c.body 17 16)).unit (parm c.body 17 16))
        | .done | .faulted => .ok (setPlan k (parm c.body 17 16) {}) (releaseResult (plan k (parm c.body 17 16))))) := by
  have hexec : exec (.foldReleaseDisarmForce c) s = .next (conclude k t (runDisarmForce k t c.body c.mem)) :=
    congrArg Host.Outcome.next (issue_of_accepted_unread rfl hacc)
  rw [hexec, runDisarmForce]
  cases hstate : (plan k (parm c.body 17 16)).state <;> rfl

end

/-! ## Freed plans (R112) -/

section
variable (s : State)

theorem fold_signalFence (h : BitVec 32) (v : BitVec 64) (st : BitVec 8) (ptag : BitVec 16) :
    (signalFence s h v st ptag).1.fold = s.fold := by
  have hpost (u : State) (fn vec : Nat) (irq : Bool) (w : BitVec 128) : (postFence u fn vec irq w).fold = u.fold := by
    obtain ⟨-, -, -, -, -, -, -, -, -, hfold, -⟩ := postFence_same u fn vec irq w
    exact hfold
  have hwake (l : List Nat) (e : BitVec 8) (u : State) : (l.foldl (fun s c => wake s c e) u).fold = u.fold :=
    List.foldlRecOn (motive := fun x : State => x.fold = u.fold) l _ rfl fun _ hx _ _ => hx
  unfold signalFence
  dsimp only
  split
  · rfl
  · split
    · exact (hpost ..).trans (hwake ..)
    · split
      · rfl
      · exact (hpost ..).trans (hwake ..)

theorem fold_planError (p : FoldPlan) (r : FoldReason) : (planError s p r).fold = s.fold := by
  unfold planError
  split
  · exact fold_signalFence ..
  · rfl

/-- A plan without a fence signals none. -/
theorem planError_fenceless {p : FoldPlan} (h : p.fence = 0xFFFFFFFF) (r : FoldReason) : planError s p r = s := by
  have hnone : planFence s p = none := if_neg (by simp [h])
  rw [planError, hnone]

theorem fold_finishWaits (p : Wait → Bool) (st : Status) (r : BitVec 192) : (finishWaits s p st r).fold = s.fold := by
  refine List.foldlRecOn (motive := fun u : State => u.fold = s.fold) _ _ rfl fun u hu w _ => ?_
  obtain ⟨-, -, -, -, -, -, -, hfold, -⟩ := finishWith_frame u w.tkt st false r
  exact hfold.trans hu

theorem fold_forceFree (n : Nat) : (forceFree s n).fold = (setPlan s n {}).fold := by
  unfold forceFree
  dsimp only
  split
  · exact fold_planError ..
  · rfl

theorem forceFree_fenceless {n : Nat} (h : (plan s n).fence = 0xFFFFFFFF) : forceFree s n = setPlan s n {} := by
  unfold forceFree
  dsimp only
  split
  · exact planError_fenceless _ h _
  · rfl

end

/-! ## FOLD_RELEASE RECLAIM (R98, R112) -/

/-- A block that leaves its PID, or had none, is nobody's. -/
theorem blocks_zeroBlocks (s : State) {l : List Nat} {b : Nat} (h : b ∈ l) :
    tget 0 (zeroBlocks s l).fold.blocks b = 0 := by
  refine tget_foldl_terase ?_
  by_cases hb : tget 0 s.fold.blocks b = 0
  · exact .inr hb
  · exact .inl (List.mem_filter.mpr ⟨h, by simpa using hb⟩)

theorem zeroing_zeroBlocks {s : State} {l : List Nat} {b : Nat} (h : b ∈ l) (hb : tget 0 s.fold.blocks b ≠ 0) :
    b ∈ (zeroBlocks s l).fold.zeroing := by
  by_cases hz : b ∈ s.fold.zeroing
  · exact List.mem_append_left _ hz
  · exact List.mem_append_right _ (List.mem_filter.mpr ⟨List.mem_filter.mpr ⟨h, by simpa using hb⟩, by simpa using hz⟩)

/-- A plan that RECLAIM frees ends the commands that wait for it. -/
def reclaimPlan (s : State) (e : Nat × FoldPlan) : State := endDisarms (forceFree s e.1) e.1 .errState

theorem fold_reclaimPlan (s : State) (e : Nat × FoldPlan) : (reclaimPlan s e).fold = (setPlan s e.1 {}).fold :=
  (fold_finishWaits ..).trans (fold_forceFree ..)

theorem plan_reclaimPlan (s : State) (e : Nat × FoldPlan) (n : Nat) :
    plan (reclaimPlan s e) n = if n = e.1 then {} else plan s n :=
  (plan_congr (congrArg FoldState.plans (fold_reclaimPlan s e)) n).trans (plan_setPlan ..)

theorem blocks_reclaimPlans (l : List (Nat × FoldPlan)) (s : State) :
    (l.foldl reclaimPlan s).fold.blocks = s.fold.blocks :=
  List.foldlRecOn (motive := fun u : State => u.fold.blocks = s.fold.blocks) l _ rfl
    fun u hu e _ => (congrArg FoldState.blocks (fold_reclaimPlan u e)).trans hu

theorem free_reclaimPlans {l : List (Nat × FoldPlan)} {e : Nat × FoldPlan} (he : e ∈ l) (s : State) :
    (plan (l.foldl reclaimPlan s) e.1).state = .free := by
  refine foldl_establishes (P := fun u : State => (plan u e.1).state = .free) (fun u x hu => ?_) he (fun u => ?_) s
  · rw [plan_reclaimPlan]
    split
    · rfl
    · exact hu
  · rw [plan_reclaimPlan, if_pos rfl]

/-- The blocks that a RECLAIM names. -/
def reclaimSpan (p : Pkt) : List Nat := span (parm p 16 8 * 64 + parm p 19 8) (parm p 20 8)

/-- The plans that use one of them. -/
def reclaimed (s : State) (p : Pkt) : List (Nat × FoldPlan) :=
  s.fold.plans.filter fun e => e.2.state != .free && (planBlocks e.2).any fun b => (reclaimSpan p).contains b

/-- The state after a RECLAIM. -/
def reclaim (s : State) (p : Pkt) : State :=
  zeroBlocks ((reclaimed s p).foldl reclaimPlan s)
    (reclaimSpan p ++ ((reclaimed s p).map fun e => planBlocks e.2).flatten).eraseDups

section
variable {s k : State} {c : Cmd} {t : Ticket}

theorem foldReleaseReclaim_accepted (h : accepted opReclaim s c = some (k, t)) :
    ∃ r, exec (.foldReleaseReclaim c) s = .next (finish (reclaim k c.body) t .ok r) :=
  ⟨_, congrArg Host.Outcome.next (issue_of_accepted_unread rfl h)⟩

theorem mem_reclaimBlocks {p : Pkt} {b : Nat} (h : b ∈ reclaimSpan p) (l : List Nat) :
    b ∈ (reclaimSpan p ++ l).eraseDups := List.mem_eraseDups.mpr (List.mem_append_left _ h)

theorem reclaim_blocks (s : State) {p : Pkt} {b : Nat} (h : b ∈ reclaimSpan p) :
    tget 0 (reclaim s p).fold.blocks b = 0 ∧ (tget 0 s.fold.blocks b ≠ 0 → b ∈ (reclaim s p).fold.zeroing) := by
  refine ⟨blocks_zeroBlocks _ (mem_reclaimBlocks h _), fun hb => zeroing_zeroBlocks (mem_reclaimBlocks h _) ?_⟩
  rwa [blocks_reclaimPlans]

theorem reclaim_frees {s : State} {p : Pkt} {e : Nat × FoldPlan} (he : e ∈ s.fold.plans) (hused : e.2.state ≠ .free)
    {b : Nat} (hb : b ∈ reclaimSpan p) (hblock : b ∈ planBlocks e.2) : (plan (reclaim s p) e.1).state = .free := by
  refine free_reclaimPlans (l := reclaimed s p) (List.mem_filter.mpr ⟨he, ?_⟩) s
  simp only [Bool.and_eq_true, bne_iff_ne, List.any_eq_true, List.contains_iff_mem]
  exact ⟨hused, b, hblock, hb⟩

end

/-! ## Frame boundaries and zeroed blocks (R98, R112) -/

section
variable {s : State} (u : Port)

/-- The plans of a unit whose forced disarm waits for its frame boundary. -/
def disarmsDue (l : List Wait) : List Nat :=
  l.filterMap fun w => match w.kind with
    | .disarm k n => if k == u.val then some n else none
    | _ => none

/-- A forced disarm takes effect. -/
def endDisarm (s : State) (n : Nat) : State :=
  finishWaits (forceFree s n) (fun w => w.kind == .disarm u.val n) .ok (releaseResult (plan s n))

theorem execFoldDisarmBoundary_eq :
    exec (.foldDisarmBoundary u) s = .next ((disarmsDue u s.cmd.waits).foldl (endDisarm u) s) := rfl

theorem finishWaits_one {w : Wait} (hwaits : s.cmd.waits = [w]) {p : Wait → Bool} (hp : p w = true) (st : Status)
    (r : BitVec 192) : finishWaits s p st r = finish { s with cmd := { s.cmd with waits := [] } } w.tkt st r := by
  simp [finishWaits, hwaits, hp]

theorem foldDisarmBoundary_frees {w : Wait} {m : Nat} (hwaits : s.cmd.waits = [w]) (hkind : w.kind = .disarm u.val m)
    (hfence : (plan s m).fence = 0xFFFFFFFF) : ∃ e, exec (.foldDisarmBoundary u) s =
      .next (finish e w.tkt .ok (releaseResult (plan s m))) ∧ (plan e m).state = .free ∧ e.cmd.waits = [] ∧
      e.fold.blocks = s.fold.blocks ∧ e.part = s.part := by
  have hdue : disarmsDue u s.cmd.waits = [m] := by simp [disarmsDue, hwaits, hkind]
  have hfreed : plan (setPlan s m {}) m = {} := (plan_setPlan ..).trans (if_pos rfl)
  refine ⟨{ setPlan s m {} with cmd := { s.cmd with waits := [] } }, ?_, congrArg FoldPlan.state hfreed, rfl, rfl, rfl⟩
  rw [execFoldDisarmBoundary_eq, hdue, List.foldl_cons, List.foldl_nil, endDisarm, forceFree_fenceless s hfence]
  exact congrArg Host.Outcome.next (finishWaits_one (s := setPlan s m {}) hwaits (by simp [hkind]) ..)

theorem foldDisarmBoundary_idle (h : ∀ w ∈ s.cmd.waits, ∀ m, w.kind ≠ .disarm u.val m) :
    exec (.foldDisarmBoundary u) s = .next s := by
  have hnone : disarmsDue u s.cmd.waits = [] := by
    refine List.filterMap_eq_nil_iff.mpr fun w hw => ?_
    cases hkind : w.kind with
    | disarm k n => exact if_neg fun hk => h w hw n (by rw [hkind, eq_of_beq hk])
    | _ => rfl
  rw [execFoldDisarmBoundary_eq, hnone, List.foldl_nil]

theorem pairAt_clearBlock (s : State) (b i : Nat) :
    pairAt (clearBlock s b) i = if i / 64 != b then pairAt s i else {} :=
  tget_filter s.fold.sram (fun k => k / 64 != b) i

/-- A block that has been zeroed: it can be granted again. -/
def blockZeroed (s : State) (b : Nat) : State :=
  { clearBlock s b with fold := { (clearBlock s b).fold with zeroing := s.fold.zeroing.filter fun x => x != b } }

theorem execFoldBlockZeroed_eq (b : Fin 64) : exec (.foldBlockZeroed u b) s =
    .next (if u.val * 64 + b.val ∈ s.fold.zeroing then blockZeroed s (u.val * 64 + b.val) else s) := by
  change execFoldBlockZeroed u b s = _
  by_cases h : u.val * 64 + b.val ∈ s.fold.zeroing
  · rw [if_pos h]
    exact if_pos (List.contains_iff_mem.mpr h)
  · rw [if_neg h]
    exact if_neg (by simpa using h)

theorem foldBlockZeroed_zeroes (b : Fin 64) : let n := u.val * 64 + b.val
    ∃ e, exec (.foldBlockZeroed u b) s = .next e ∧ n ∉ e.fold.zeroing ∧
      (n ∈ s.fold.zeroing → ∀ i, i < 64 → pairAt e (n * 64 + i) = {}) ∧
      (∀ i, i / 64 ≠ n → pairAt e i = pairAt s i) ∧
      (∀ x, x ≠ n → (x ∈ e.fold.zeroing ↔ x ∈ s.fold.zeroing)) ∧ e.fold.plans = s.fold.plans := by
  intro n
  refine ⟨_, execFoldBlockZeroed_eq u b, ?_⟩
  by_cases h : n ∈ s.fold.zeroing
  · rw [if_pos h]
    refine ⟨by simp [blockZeroed, n], fun _ i hi => ?_, fun i hi => ?_, fun x hx => ?_, rfl⟩
    · exact (pairAt_clearBlock ..).trans (if_neg (by simp only [bne_iff_ne, ne_eq, n]; omega))
    · exact (pairAt_clearBlock ..).trans (if_pos (by simpa using hi))
    · simp only [blockZeroed, List.mem_filter, bne_iff_ne, and_iff_left_iff_imp]
      exact fun _ => hx
  · rw [if_neg h]
    exact ⟨h, fun hn => absurd hn h, fun _ _ => rfl, fun _ _ => Iff.rfl, rfl⟩

end

/-- Settles O43: each form of FOLD_PLAN and FOLD_RELEASE, and the two events of a unit that follow them. -/
theorem foldPlansAreGrantedArmedAndReleased : Obligations.FoldPlansAreGrantedArmedAndReleased := by
  intro s c k t
  refine ⟨fun hacc hpid hfree hshare => ?_, fun i hacc hpid hi h => ?_,
    fun r b hmem => ⟨fun h => ?_, fun hclean hok h => ?_⟩,
    fun b hacc hmem hpid => ⟨fun hconf hrange => ?_, fun hrange hused => ?_, fun hrange hfree hunit hfits hmine hidle => ?_⟩,
    fun a l hacc hmem => foldPlanArm_poisoned hacc hmem,
    fun hacc hused hempty => foldReleaseDisarm_frees hacc hused hempty,
    fun hacc h => foldReleaseDisarm_refused hacc h, fun hacc harmed => ?_, fun hacc hended => ?_, fun hacc hfree => ?_,
    fun hacc => ?_, fun u w m hwaits hkind hfence => foldDisarmBoundary_frees u hwaits hkind hfence,
    fun u h => foldDisarmBoundary_idle u h, fun u b => foldBlockZeroed_zeroes u b⟩
  · have hblocks (b : Nat) := tget_foldl_tset (grantSpan c.body) k.fold.blocks (tagPid t.ptag + 1) b
    refine ⟨_, foldPlanGrant_gives hacc hpid (forall_mem_span.mpr fun i hi => ?_) hshare,
      fun i hi => (hblocks _).trans (if_pos (add_mem_span hi)), fun b hb => (hblocks b).trans (if_neg ?_), rfl, rfl, rfl⟩
    · obtain ⟨hnone, hclean⟩ := hfree i hi
      simpa [blockTaken] using And.intro hnone hclean
    · simp only [grantSpan, mem_span]
      dsimp only at hb
      omega
  · refine foldPlanGrant_refused hacc hpid ?_
    rcases h with h | h | h
    · exact .inl ⟨_, add_mem_span hi, by simpa [blockTaken] using .inl h⟩
    · exact .inl ⟨_, add_mem_span hi, by simpa [blockTaken] using .inr h⟩
    · exact .inr h
  · rw [hmem]
    exact planCheck_errParam r c.body h
  · rw [hmem]
    exact planCheck_errPerm hclean hok h
  · exact foldPlanArm_of_run hacc hmem (runPlanArm_outOfRange hconf hrange)
  · exact foldPlanArm_of_run hacc hmem (runPlanArm_taken ⟨hpid, hrange⟩ hused)
  · exact ⟨foldPlanArm_of_run hacc hmem (runPlanArm_arms ⟨hpid, hrange⟩ ⟨hfree, hunit, hfits, hmine, hidle⟩),
      (plan_armPlan ..).trans (if_pos rfl), fun m hm => (plan_armPlan ..).trans (if_neg hm),
      fun i j hi hj => init_armPlan _ _ _ hi hj⟩
  · rw [foldReleaseDisarmForce_accepted hacc, harmed]
    rfl
  · rw [foldReleaseDisarmForce_accepted hacc]
    rcases hended with h | h <;> rw [h] <;> rfl
  · rw [foldReleaseDisarmForce_accepted hacc, hfree]
    rfl
  · obtain ⟨r, hexec⟩ := foldReleaseReclaim_accepted hacc
    exact ⟨_, r, hexec, fun i hi => reclaim_blocks k (add_mem_span hi),
      fun x hx hused ⟨i, hi, hblock⟩ => reclaim_frees hx hused (add_mem_span hi) hblock⟩

end Sys2Proof.Machine

/-! PROOFS. The output write of a former arming, and a plan that owes its fence a signal (04 R111, R112, 08 R237). -/

namespace Sys2Proof.Machine

/-! ## The output write of a former arming

While the pages of an emitted chunk change, FOLD_OUTPUT_WRITE_DONE leaves the chunk where it is. The model then asks
whether the plan of that number is done (`checkDone`), which a plan armed again since may be without the chunk. -/

/-- A chunk whose first write's page is in change keeps its place, at the front. -/
theorem foldOutputWriteDone_waits {s : State} {u : Port} {n : BitVec 10} {chunk : BitVec 32} {num : Nat} {w : FoldOut}
    (hfind : s.fold.writing.find? (fun w => w.unit == u.val && w.plan == n.toNat && w.chunk == chunk.toNat && w.num == num) =
      some w) (hbytes : w.bytes ≠ []) (hwait : ∀ r ∈ outReqs w, changing s (pageOf r.addr.toNat) = true) :
    exec (.foldOutputWriteDone u n chunk num) s = .next (checkDone { s with fold := { s.fold with
      writing := w :: s.fold.writing.filter fun x => x != w } } w.plan) := by
  have hnone : (outReqs w).takeWhile (fun r => !changing s (pageOf r.addr.toNat)) = [] := by
    cases hreqs : outReqs w with
    | nil => rfl
    | cons r l => simp [hwait r (by simp [hreqs])]
  change execFoldOutputWriteDone u n chunk num s = _
  simp [execFoldOutputWriteDone, hfind, hnone, hbytes]

/-- Chunk 0 of arming 1 of plan 4, of PID 0, which goes to page 20. -/
def staleOut : FoldOut :=
  { unit := 0, plan := 4, num := 1, chunk := 0, pid := 0, gen := 0, off := 0x2800000, bytes := [0] }

/-- Plan 4 armed again, with fence 0: its one chunk has been emitted, and no write of this arming is left. -/
def unsignalledPlan : FoldPlan :=
  { state := .armed, outMem := true, nchunk := 1, base := 1, emitted := 1, fence := 0, num := 2 }

/-- `evtOnDevice` with both, page 20 in change, and the fence live. -/
def rearmedChip : State :=
  { evtOnDevice with
    part := { fences := [(0, { state := .live })] }
    mem := { evtOnDevice.mem with changes := [(20, {})] }
    fold := { plans := [(4, unsignalledPlan)], writing := [staleOut], arms := 2 } }

/-- Every page that the chunk goes to is in change. -/
theorem changing_staleOut : ∀ r ∈ outReqs staleOut, changing rearmedChip (pageOf r.addr.toNat) = true := by decide +kernel

/-- The write leaves the chunk, and the plan is done without it. -/
theorem foldOutputWriteDone_rearmedChip :
    exec (.foldOutputWriteDone 0 4 0 1) rearmedChip = .next (checkDone rearmedChip 4) :=
  foldOutputWriteDone_waits (w := staleOut) (by decide +kernel) (by decide) changing_staleOut

/-- The fence is signalled: its event goes to the operator's event ring in device memory and counts a read-modify-write. -/
theorem mem_checkDone_rearmedChip : (checkDone rearmedChip 4).mem ≠ rearmedChip.mem := by decide +kernel

/-- Refutes O44: where a chunk of a former arming waits, its output write makes the plan of that number DONE and signals its
fence, and with the operator's event ring in device memory the write of the fence's event changes the engines' part of the
state, which the statement has unchanged. The counterexample rests on the statement's speaking of every state: in
`rearmedChip` an armed plan has nothing left to emit or write, which R112 makes DONE with its last write. -/
theorem not_foldFramesCommitWholeOrNotAtAll : ¬ Obligations.FoldFramesCommitWholeOrNotAtAll := by
  intro h
  obtain ⟨-, -, -, -, -, hwrite, -⟩ := h rearmedChip 0
  obtain ⟨-, hfound⟩ := hwrite 4 0 1
  obtain ⟨hwaits, -⟩ := hfound staleOut (by decide +kernel) (by decide)
  obtain ⟨t, ht, -, hmem⟩ := hwaits changing_staleOut
  obtain rfl : checkDone rearmedChip 4 = t := Host.Outcome.next.inj (foldOutputWriteDone_rearmedChip.symm.trans ht)
  exact mem_checkDone_rearmedChip hmem

end Sys2Proof.Machine

/-! PROOFS. Requests of the memory engines: their checks, their answers, and what waits (05 R123, R127, R128). -/

namespace Sys2Proof.Machine

/-! ## What the traffic with the controllers changes (R153 to R155) -/

section
variable (s : State) (e client n : Nat) (rt : Bool) (pl : Nat) (d : Sector)

theorem out_charge : (charge s e client n rt).out = s.out := by
  unfold charge
  dsimp only
  split <;> rfl

theorem out_noteLate (write : Bool) (pri : Pri) : (noteLate s pl write pri).out = s.out := by
  unfold noteLate
  split <;> rfl

theorem out_mcRead : (mcRead s client rt pl).out =
    .mcRead (placePkg pl) (placeSec pl) (nextPri s (placeEng pl) client rt) :: s.out :=
  congrArg (_ :: ·) ((out_noteLate ..).trans (out_charge ..))

theorem out_mcWrite : (mcWrite s client rt pl d).out =
    .mcWrite (placePkg pl) (placeSec pl) d (nextPri s (placeEng pl) client rt) :: s.out :=
  congrArg (_ :: ·) ((out_noteLate ..).trans (out_charge ..))

theorem nextPri_realTime : nextPri s e client true = .rt := rfl

theorem mx_charge (j : Nat) : ∃ k, mx (charge s e client n rt) j = { mx s j with tokens := k } := by
  have hset (t : Tbl Nat) : ∃ k, mx (setMx s e { mx s e with tokens := t }) j = { mx s j with tokens := k } := by
    rw [mx_setMx]
    split
    · next h => exact ⟨t, by rw [h]⟩
    · exact ⟨_, rfl⟩
  unfold charge
  dsimp only
  split
  · exact hset _
  · exact hset _

theorem mx_noteLate (write : Bool) (pri : Pri) (j : Nat) :
    ∃ l, mx (noteLate s pl write pri) j = { mx s j with late := l } := by
  unfold noteLate
  dsimp only
  split
  · rw [mx_setMx]
    split
    · next h => exact ⟨_, by rw [h]⟩
    · exact ⟨_, rfl⟩
  · exact ⟨_, rfl⟩

/-- An engine after a sector has been asked for: its tokens, and what waits at OVER. -/
theorem mx_mcRead (j : Nat) : ∃ k l, mx (mcRead s client rt pl) j = { mx s j with tokens := k, late := l } := by
  obtain ⟨k, hk⟩ := mx_charge s (placeEng pl) client 1 rt j
  obtain ⟨l, hl⟩ := mx_noteLate (charge s (placeEng pl) client 1 rt) pl false (nextPri s (placeEng pl) client rt) j
  exact ⟨k, l, hl.trans (by rw [hk])⟩

/-- So after one has been passed on. -/
theorem mx_mcWrite (j : Nat) : ∃ k l, mx (mcWrite s client rt pl d) j = { mx s j with tokens := k, late := l } := by
  obtain ⟨k, hk⟩ := mx_charge s (placeEng pl) client 1 rt j
  obtain ⟨l, hl⟩ := mx_noteLate (charge s (placeEng pl) client 1 rt) pl true (nextPri s (placeEng pl) client rt) j
  exact ⟨k, l, hl.trans (by rw [hk])⟩

end

/-! ## The checks of a request (R127) -/

section
variable {s : State} {r : MxReq} {x : Pot}

/-- What check 1 asks of the kind, the port and the bytes of a request. -/
theorem shapeOk_facts (h : shapeOk s r = true) : r.op ≤ 3#4 ∧ portRights r.mport.toNat ≠ none ∧
    r.addr.toNat % 256 + mxSpan r ≤ 256 ∧ r.addr.toNat + mxSpan r ≤ 0x1E000000000 := by
  simp only [shapeOk, Bool.and_eq_true, decide_eq_true_eq, Option.isSome_iff_ne_none] at h
  obtain ⟨⟨⟨⟨⟨-, hop⟩, hport⟩, hblock⟩, hspace⟩, -⟩ := h
  exact ⟨hop, hport, hblock, hspace⟩

/-- A request that names a reserved kind or port, or bytes outside a block or the data pages, fails check 1. -/
theorem shapeOk_false (h : 3#4 < r.op ∨ portRights r.mport.toNat = none ∨ 256 < r.addr.toNat % 256 + mxSpan r ∨
    0x1E000000000 < r.addr.toNat + mxSpan r) : shapeOk s r = false := by
  rw [Bool.eq_false_iff]
  intro hok
  obtain ⟨hop, hport, hblock, hspace⟩ := shapeOk_facts hok
  rcases h with h | h | h | h
  · exact absurd hop (BitVec.not_le.mpr h)
  · exact hport h
  · omega
  · omega

/-- Check 2 lets a request pass: PID 0, or a current generation. -/
def genOk (s : State) (r : MxReq) : Prop := r.pid.val = 0 ∨ r.gen = curGen s r.pid.val

theorem staleGen_false (h : genOk s r) : (r.pid.val != 0 && r.gen != curGen s r.pid.val) = false := by
  rcases h with h | h <;> simp [h]

theorem decideIn_deny_of_shape (h : shapeOk s r = false) : decideIn s r x = .deny := by simp [decideIn, h]

theorem decideIn_stale (h : shapeOk s r = true) (hpid : r.pid.val ≠ 0) (hgen : r.gen ≠ curGen s r.pid.val) :
    decideIn s r x = .stale := by simp [decideIn, h, hpid, hgen]

/-- Past checks 1 and 2 the entry decides. -/
theorem decideIn_entry (h : shapeOk s r = true) (hgen : genOk s r) : decideIn s r x =
    if potBadPage s (pageOf r.addr.toNat) then .deny else if entryOk s r x then .grant else .deny := by
  simp [decideIn, h, staleGen_false hgen]

theorem decideIn_deny_of_entry (h : shapeOk s r = true) (hgen : genOk s r) (hentry : entryOk s r x = false) :
    decideIn s r x = .deny := by
  rw [decideIn_entry h hgen, hentry]
  split <;> rfl

/-- Checks 3 to 5 with the rights of the port's class. -/
theorem entryOk_iff {rd wr : Nat} (hrights : portRights r.mport.toNat = some (rd, wr)) : entryOk s r x = true ↔
    x.state = .live ∧ x.pid = r.pid.val ∧ (x.sys = true → r.mport = 0xE0) ∧
    (r.op ≠ 1 → r.op ≠ 2 → x.rights.getLsbD rd = true) ∧ (r.op ≠ 0 → x.rights.getLsbD wr = true) ∧
    (isDebug r.mport.toNat = true → x.conf = false ∧ dbgHolds s r.pid.val = true) := by
  have hsys : ((r.mport.toNat == 0xE0) = true) ↔ r.mport = 0xE0 := by
    rw [beq_iff_eq]
    exact ⟨fun h => BitVec.eq_of_toNat_eq h, fun h => by rw [h]; rfl⟩
  simp only [entryOk, hrights, Option.getD_some, Bool.and_eq_true, Bool.or_eq_true, Bool.not_eq_true', beq_iff_eq] at hsys ⊢
  rw [hsys]
  grind

/-- The rights that each kind needs, where the port's class has them. -/
theorem decideNow_deny_of_right {rd wr : Nat} (hrights : portRights r.mport.toNat = some (rd, wr))
    (hshape : shapeOk s r = true) (hgen : genOk s r)
    (h : let e := pot s (pageOf r.addr.toNat)
      (r.op = 0 ∧ e.rights.getLsbD rd = false) ∨ ((r.op = 1 ∨ r.op = 2) ∧ e.rights.getLsbD wr = false) ∨
        (r.op = 3 ∧ (e.rights.getLsbD rd && e.rights.getLsbD wr) = false)) : decideNow s r = .deny := by
  refine decideIn_deny_of_entry hshape hgen (Bool.eq_false_iff.mpr fun hok => ?_)
  obtain ⟨-, -, -, hread, hwrite, -⟩ := (entryOk_iff hrights).mp hok
  rcases h with ⟨hop, hoff⟩ | ⟨hop | hop, hoff⟩ | ⟨hop, hoff⟩
  · rw [hread (by rw [hop]; decide) (by rw [hop]; decide)] at hoff
    cases hoff
  · rw [hwrite (by rw [hop]; decide)] at hoff
    cases hoff
  · rw [hwrite (by rw [hop]; decide)] at hoff
    cases hoff
  · rw [hread (by rw [hop]; decide) (by rw [hop]; decide), hwrite (by rw [hop]; decide)] at hoff
    cases hoff

/-- Every request that passes the five checks is granted. -/
theorem decideNow_grant {rd wr : Nat} (hrights : portRights r.mport.toNat = some (rd, wr)) (hshape : shapeOk s r = true)
    (hgen : genOk s r) (hgood : potBadPage s (pageOf r.addr.toNat) = false)
    (hlive : (pot s (pageOf r.addr.toNat)).state = .live) (hpid : (pot s (pageOf r.addr.toNat)).pid = r.pid.val)
    (hsys : (pot s (pageOf r.addr.toNat)).sys = true → r.mport = 0xE0)
    (hread : r.op = 0 ∨ r.op = 3 → (pot s (pageOf r.addr.toNat)).rights.getLsbD rd = true)
    (hwrite : r.op = 1 ∨ r.op = 2 ∨ r.op = 3 → (pot s (pageOf r.addr.toNat)).rights.getLsbD wr = true)
    (hdebug : isDebug r.mport.toNat = true → (pot s (pageOf r.addr.toNat)).conf = false ∧ dbgHolds s r.pid.val = true) :
    decideNow s r = .grant := by
  have hkind : r.op = 0 ∨ r.op = 1 ∨ r.op = 2 ∨ r.op = 3 := by
    have hle := (shapeOk_facts hshape).1
    bv_omega
  have hok : entryOk s r (pot s (pageOf r.addr.toNat)) = true := by
    refine (entryOk_iff hrights).mpr ⟨hlive, hpid, hsys, fun h1 h2 => hread ?_, fun h0 => hwrite ?_, hdebug⟩
    · exact hkind.imp_right fun h => (h.resolve_left h1).resolve_left h2
    · exact hkind.resolve_left h0
  rw [decideNow, decideIn_entry hshape hgen, hgood, hok]
  rfl

/-- Check 3: the page is LIVE under the PID, and no system page but for port 0xE0. -/
theorem decideNow_deny_of_page (hshape : shapeOk s r = true) (hgen : genOk s r)
    (h : let e := pot s (pageOf r.addr.toNat)
      e.state ≠ .live ∨ e.pid ≠ r.pid.val ∨ (e.sys = true ∧ r.mport ≠ 0xE0)) : decideNow s r = .deny := by
  obtain ⟨⟨rd, wr⟩, hrights⟩ := Option.ne_none_iff_exists'.mp (shapeOk_facts hshape).2.1
  refine decideIn_deny_of_entry hshape hgen (Bool.eq_false_iff.mpr fun hok => ?_)
  obtain ⟨hlive, hpid, hsys, -, -, -⟩ := (entryOk_iff hrights).mp hok
  rcases h with h | h | ⟨h, hport⟩
  · exact h hlive
  · exact h hpid
  · exact hport (hsys h)

/-- Check 5: a debug-class request. -/
theorem decideNow_deny_of_debug (hshape : shapeOk s r = true) (hgen : genOk s r) (hdebug : isDebug r.mport.toNat = true)
    (h : (pot s (pageOf r.addr.toNat)).conf = true ∨ dbgHolds s r.pid.val = false) : decideNow s r = .deny := by
  obtain ⟨⟨rd, wr⟩, hrights⟩ := Option.ne_none_iff_exists'.mp (shapeOk_facts hshape).2.1
  refine decideIn_deny_of_entry hshape hgen (Bool.eq_false_iff.mpr fun hok => ?_)
  obtain ⟨-, -, -, -, -, hdbg⟩ := (entryOk_iff hrights).mp hok
  obtain ⟨hconf, hholds⟩ := hdbg hdebug
  rcases h with h | h
  · rw [hconf] at h
    cases h
  · rw [hholds] at h
    cases h

/-! ### In the cycle of the request (R127, R128, R130) -/

theorem decideFirst_deny_of_shape (n : Nat) (h : shapeOk s r = false) : decideFirst s n r = .deny := by
  simp [decideFirst, h]

theorem decideFirst_stale (n : Nat) (h : shapeOk s r = true) (hpid : r.pid.val ≠ 0) (hgen : r.gen ≠ curGen s r.pid.val) :
    decideFirst s n r = .stale := by simp [decideFirst, h, hpid, hgen]

/-- A request of a page in UPDATE stalls. -/
theorem decideFirst_stall_of_changing (n : Nat) (h : shapeOk s r = true) (hgen : genOk s r)
    (hchange : changing s (pageOf r.addr.toNat) = true) : decideFirst s n r = .stall := by
  simp [decideFirst, h, staleGen_false hgen, hchange]

/-- A request that does not stall has the answer of the entry that the slice holds. -/
theorem decideFirst_of_cached {n : Nat} (hcached : ∀ x, cached s n (pageOf r.addr.toNat) = some x →
      x = pot s (pageOf r.addr.toNat)) (hgo : decideFirst s n r ≠ .stall) : decideFirst s n r = decideNow s r := by
  unfold decideFirst at hgo ⊢
  unfold decideNow
  dsimp only at hgo ⊢
  split
  · next h => rw [decideIn_deny_of_shape (by simpa using h)]
  · next h =>
    rw [if_neg h] at hgo
    split
    · next hgen => simp [decideIn, h, hgen]
    · next hgen =>
      rw [if_neg hgen] at hgo
      split
      · next hwait => exact absurd (if_pos hwait) hgo
      · next hwait =>
        rw [if_neg hwait] at hgo
        cases hx : cached s n (pageOf r.addr.toNat) with
        | none => exact absurd (by rw [hx]) hgo
        | some x => exact congrArg (decideIn s r) (hcached x hx)

end

/-! ## What a fault of a context charges (R127, R208) -/

section
variable {s t : State}

theorem charged_of_mem (hmem : t.mem = s.mem) (htel : t.tel = s.tel) : charged s t := by
  refine ⟨by rw [hmem], by rw [htel], fun e => ?_⟩
  simp only [mx, hmem]

theorem charged_postBoth (s : State) (pid type : Nat) (b0 : BitVec 32) (b8 b15 : Nat) :
    charged s (postBoth s pid type b0 b8 b15) := by
  obtain ⟨-, -, -, -, -, -, h, -⟩ := postBoth_same s pid type b0 b8 b15
  exact h

theorem charged_finish (s : State) (t : Ticket) (st : Status) (r : BitVec 192) : charged s (finish s t st r) := by
  obtain ⟨-, -, -, -, -, h, -⟩ := finishWith_frame s t st false r
  exact h

theorem charged_foldl {α : Type} {f : State → α → State} (h : ∀ s a, charged s (f s a)) (l : List α) (s : State) :
    charged s (l.foldl f s) := by
  induction l generalizing s with
  | nil => exact .refl s
  | cons a l ih => exact (h s a).trans (ih _)

theorem charged_finishWaits (s : State) (p : Wait → Bool) (st : Status) (r : BitVec 192) :
    charged s (finishWaits s p st r) :=
  have hwaits : charged s { s with cmd := { s.cmd with waits := s.cmd.waits.filter fun w => !p w } } :=
    charged_of_mem rfl rfl
  hwaits.trans (charged_foldl (f := fun (s : State) (w : Wait) => finish s w.tkt st r) (fun _ _ => charged_finish ..) _ _)

theorem charged_countStopped (s : State) (i : Nat) : charged s (countStopped s i) := by
  unfold countStopped
  dsimp only
  split
  · split
    · exact .refl s
    · exact charged_of_mem rfl rfl
  · exact .refl s

theorem charged_partCtr (s : State) (f : PartCtr → PartCtr) : charged s (partCtr s f) := charged_of_mem rfl rfl

theorem charged_setPart (s : State) (pid : Nat) (p : Part) : charged s (setPart s pid p) := charged_of_mem rfl rfl

theorem charged_setCtx (s : State) (i : Nat) (c : Ctx) : charged s (setCtx s i c) := charged_of_mem rfl rfl

theorem charged_dropHeld (s : State) (i : Nat) (h : BitVec 32) (p : HeldSignal → Bool) :
    charged s (dropSignals (dropTracked (unbindDma s i) h) p) := charged_of_mem rfl rfl

/-- A context that is lost costs the engines what its events cost. -/
theorem charged_loseCtx (s : State) (i : Nat) (f : CtxFault) (addr : BitVec 48) (node : BitVec 14) :
    charged s (loseCtx s i f addr node) := by
  unfold loseCtx
  dsimp only
  split
  · exact .refl s
  · refine .trans ?_ (charged_postBoth ..)
    refine .trans ?_ (charged_finishWaits ..)
    refine .trans ?_ (charged_partCtr ..)
    refine .trans ?_ (charged_setPart ..)
    refine .trans ?_ (charged_setCtx ..)
    refine .trans ?_ (charged_dropHeld ..)
    split
    · exact charged_countStopped s i
    · exact (charged_countStopped s i).trans (charged_of_mem rfl rfl)

theorem charged_loseHandle (s : State) (h : BitVec 32) (f : CtxFault) (addr : BitVec 48) (node : BitVec 14) :
    charged s (loseHandle s h f addr node) := by
  unfold loseHandle
  split
  · exact charged_loseCtx ..
  · exact .refl s

/-- The descriptor of a context that is lost. -/
theorem ctx_loseCtx {i : Nat} (h : liveCtx (ctx s i)) (f : CtxFault) (addr : BitVec 48) (node : BitVec 14) :
    ctx (loseCtx s i f addr node) i = { ctx s i with
      state := .lost, slot := 0, fault := f, faultAddr := addr, faultNode := node, waitFence := 0xFFFFFFFF, waitValue := 0
      held := false, stopping := (ctx s i).phase != .none } := by
  have hlive : ((ctx s i).state != .resident && (ctx s i).state != .evicted) = false := by
    rcases h with h | h <;> simp [h]
  have hevent (u : State) (pid type : Nat) (b0 : BitVec 32) (b8 b15 : Nat) :
      (postBoth u pid type b0 b8 b15).part = u.part := by
    obtain ⟨-, -, -, -, -, h, -⟩ := postBoth_same u pid type b0 b8 b15
    exact h
  unfold loseCtx
  simp only [hlive, Bool.false_eq_true, if_false]
  rw [ctx, hevent, part_finishWaits]
  change ctx (partCtr _ _) i = _
  simp only [partCtr_reads, setPart_reads, ctx_setCtx_same]

end

/-! ## The final answer (R127) -/

section
variable {s : State} {r : MxReq} {n : Nat}

/-- The state of a denied request of a master before its context is told. -/
def denyCounted (s : State) (n : Nat) (r : MxReq) : State :=
  mxCtr (emit s (.gnt n r.tag r.mport .deny)) n fun c => { c with deny := inc32 c.deny }

theorem settle_deny : settle s n { req := r } .deny = denied (denyCounted s n r) r := rfl

theorem settle_stale : settle s n { req := r } .stale =
    mxCtr (emit s (.gnt n r.tag r.mport .stale)) n fun c => { c with stale := inc32 c.stale } := rfl

/-- What counting leaves of an engine. -/
theorem mx_mxCtr (s : State) (n : Nat) (f : MxCtr → MxCtr) (j : Nat) :
    ∃ c, mx (mxCtr s n f) j = { mx s j with ctr := c } := by
  rw [mxCtr, mx_setMx]
  split
  · next h => exact ⟨_, by rw [h]⟩
  · exact ⟨_, rfl⟩

theorem denied_no_ctx (h : ctxMatch s r.ctx = false) : denied s r = s := by
  simp [denied, loseHandle, h]

theorem charged_denied (s : State) (r : MxReq) : charged s (denied s r) := by
  unfold denied
  split
  · exact .refl s
  · exact charged_loseHandle ..

/-- DENY and STALE touch no memory, and of the budgets those of a lost context's events alone. -/
theorem settle_refused_keeps (n : Nat) {g : Gnt} (hg : g = .deny ∨ g = .stale) :
    let t := settle s n { req := r } g
    t.mem.pot = s.mem.pot ∧ ∀ x, (g = .stale ∨ ctxMatch s r.ctx = false → (mx t x).tokens = (mx s x).tokens) ∧
      (mx t x).cairn = (mx s x).cairn ∧ (mx t x).ops = (mx s x).ops ∧ (mx t x).reqs = (mx s x).reqs := by
  rcases hg with rfl | rfl
  · obtain ⟨hmem, -, hmx⟩ := charged_denied (denyCounted s n r) r
    dsimp only
    rw [settle_deny]
    refine ⟨by rw [hmem]; rfl, fun x => ?_⟩
    obtain ⟨c, hc⟩ := mx_mxCtr (emit s (.gnt n r.tag r.mport .deny)) n (fun c => { c with deny := inc32 c.deny }) x
    have hcount : mx (denyCounted s n r) x = { mx s x with ctr := c } := hc
    refine ⟨fun h => ?_, ?_, ?_, ?_⟩
    · have hctx : ctxMatch s r.ctx = false := h.resolve_left (by simp)
      rw [denied_no_ctx (s := denyCounted s n r) hctx, hcount]
    all_goals rw [hmx x, hcount]
  · dsimp only
    rw [settle_stale]
    refine ⟨rfl, fun x => ?_⟩
    obtain ⟨c, hc⟩ := mx_mxCtr (emit s (.gnt n r.tag r.mport .stale)) n (fun c => { c with stale := inc32 c.stale }) x
    rw [hc]
    exact ⟨fun _ => rfl, rfl, rfl, rfl⟩

/-- A DENY for a PID other than 0 is an access fault of the requesting context. -/
theorem settle_deny_loses (n : Nat) (hpid : r.pid.val ≠ 0) (hmatch : ctxMatch s r.ctx = true)
    (hres : (ctx s (ctxIdx r.ctx)).state = .resident) :
    let c := ctx (settle s n { req := r } .deny) (ctxIdx r.ctx)
    c.state = .lost ∧ c.fault = .access ∧ c.faultAddr = BitVec.ofNat 48 r.addr.toNat := by
  have hlost : denied (denyCounted s n r) r =
      loseCtx (denyCounted s n r) (ctxIdx r.ctx) .access (BitVec.ofNat 48 r.addr.toNat) 0 := by
    have hmatch' : ctxMatch (denyCounted s n r) r.ctx = true := hmatch
    simp [denied, hpid, loseHandle, hmatch']
  dsimp only
  rw [settle_deny, hlost, ctx_loseCtx (s := denyCounted s n r) (.inl hres)]
  exact ⟨rfl, rfl, rfl⟩

end

/-! ## A request on a port (R123, R128, R133, R210) -/

section
variable {s : State} {r : MxReq}

theorem length_fillBytes (k n : Nat) (b : Bytes) : (fillBytes k n b).length = n := by simp [fillBytes]

/-- The request that is taken has the data and mask that its fields give it, and its other fields. -/
theorem shapeMx_shapes (s : State) (r : MxReq) : reqShaped (shapeMx s r).2 = true ∧ (shapeMx s r).2.addr = r.addr := by
  unfold shapeMx
  split
  · next h => exact ⟨h, rfl⟩
  · refine ⟨?_, rfl⟩
    simp only [reqShaped, length_fillBytes, beq_self_eq_true, Bool.true_and]
    split
    · rfl
    · split
      · simp
      · rfl

theorem mem_shapeMx (s : State) (r : MxReq) : (shapeMx s r).1.mem = s.mem := by
  unfold shapeMx
  split <;> rfl

theorem mem_startCmd (s : State) (h : BitVec 32) : (startCmd s h).mem = s.mem := by
  unfold startCmd
  dsimp only
  split <;> rfl

theorem mem_enterCommit (s : State) (h : BitVec 32) : (enterCommit s h).mem = s.mem := by
  unfold enterCommit
  dsimp only
  split
  · exact mem_startCmd ..
  · exact mem_startCmd ..

/-- The state in which a request stands before its engine: its context's command has started. -/
def requestBegun (s : State) (r : MxReq) : State :=
  if r.op = 3 then enterCommit (shapeMx s r).1 r.ctx else startCmd (shapeMx s r).1 r.ctx

theorem mem_requestBegun (s : State) (r : MxReq) : (requestBegun s r).mem = s.mem := by
  unfold requestBegun
  split
  · exact (mem_enterCommit ..).trans (mem_shapeMx ..)
  · exact (mem_startCmd ..).trans (mem_shapeMx ..)

/-- The engine of an offset rests on the interleave key. -/
theorem engineOf_congr {s t : State} (h : t.mem.ikey = s.mem.ikey) (off : Nat) : engineOf t off = engineOf s off := by
  simp only [engineOf, pkgOf, interleave, iKey, h]

theorem exec_memRequest_other {e : Eng} (h : e.val ≠ engineOf s r.addr.toNat) : exec (.memRequest e r) s = .next s :=
  if_pos (bne_iff_ne.mpr h.symm)

theorem exec_memRequest_held {e : Eng} (hop : r.op = 3) (h : commitHeld s r.ctx = true) :
    exec (.memRequest e r) s = .next s := by
  change (if _ then _ else if _ then _ else _) = _
  rw [if_pos (c := (r.op == 3#4 && commitHeld s r.ctx) = true) (by simp [hop, h]), ite_self]

/-- On the port of its engine a request that no kill holds is presented. -/
theorem exec_memRequest_presents {e : Eng} (he : e.val = engineOf s r.addr.toNat)
    (hheld : r.op = 3 → commitHeld s r.ctx = false) :
    exec (.memRequest e r) s = .next ((present (requestBegun s r) { req := (shapeMx s r).2 }).getD s) := by
  have hfree : (r.op == 3#4 && commitHeld s r.ctx) = false := by
    by_cases hop : r.op = 3
    · simp [hheld hop]
    · simp [show r.op ≠ 3#4 from hop]
  change execMemRequest e r s = _
  simp only [execMemRequest, he, bne_self_eq_false, hfree, Bool.false_eq_true, if_false, requestBegun, beq_iff_eq]
  rfl

theorem present_full {q : Parked} (h : 32 ≤ (mx s (engineOf s q.req.addr.toNat)).missq.length) : present s q = none :=
  present_of_full h

/-- A request that does not stall is settled. -/
theorem present_settles {q : Parked} (hroom : (mx s (engineOf s q.req.addr.toNat)).missq.length < 32)
    (hgo : decideFirst s (engineOf s q.req.addr.toNat) q.req ≠ .stall) : present s q =
    some (settle s (engineOf s q.req.addr.toNat) q (decideFirst s (engineOf s q.req.addr.toNat) q.req)) := by
  simp [present, Nat.not_le.mpr hroom, hgo]

/-- One that stalls is parked. -/
theorem present_parks {q : Parked} (hroom : (mx s (engineOf s q.req.addr.toNat)).missq.length < 32)
    (hstall : decideFirst s (engineOf s q.req.addr.toNat) q.req = .stall) :
    present s q = some (parkReq s (engineOf s q.req.addr.toNat) q) := by
  simp [present, Nat.not_le.mpr hroom, hstall]

end

/-! ## The checks in order -/

section
variable {s : State} {r : MxReq}

theorem addr_shaped : (shapeMx s r).2.addr = r.addr := (shapeMx_shapes s r).2

theorem engineOf_requestBegun (off : Nat) : engineOf (requestBegun s r) off = engineOf s off :=
  engineOf_congr (by rw [mem_requestBegun]) off

/-- A request that its engine can decide gets that answer. -/
theorem exec_memRequest_settles {e : Eng} (he : e.val = engineOf s r.addr.toNat)
    (hheld : r.op = 3 → commitHeld s r.ctx = false) (hroom : (mx (requestBegun s r) e.val).missq.length < 32)
    (hgo : decideFirst (requestBegun s r) e.val (shapeMx s r).2 ≠ .stall) :
    exec (.memRequest e r) s = .next (settle (requestBegun s r) e.val { req := (shapeMx s r).2 }
      (decideFirst (requestBegun s r) e.val (shapeMx s r).2)) := by
  have hplace : engineOf (requestBegun s r) (shapeMx s r).2.addr.toNat = e.val := by
    rw [addr_shaped, engineOf_requestBegun, he]
  rw [exec_memRequest_presents he hheld, present_settles (by rw [hplace]; exact hroom) (by rw [hplace]; exact hgo), hplace]
  rfl

end

/-- Settles O29: each check by its lemma, then the port's answer and what a refusal leaves. -/
theorem requestsAreDecidedInOrder : Obligations.RequestsAreDecidedInOrder := by
  intro s r a e rights
  refine ⟨fun h => decideIn_deny_of_shape (shapeOk_false h), decideIn_stale, decideNow_deny_of_page,
    fun rd wr hrights hshape hgen h => decideNow_deny_of_right hrights hshape hgen h, decideNow_deny_of_debug,
    fun rd wr hrights hshape hgen => decideNow_grant hrights hshape hgen,
    fun n => ⟨fun h => decideFirst_deny_of_shape n (shapeOk_false h), decideFirst_stale n, decideFirst_of_cached⟩, ?_,
    fun n g hg => settle_refused_keeps n hg, settle_deny_loses, fun n => ⟨rfl, rfl, rfl, rfl⟩⟩
  have hplace : engineOf (requestBegun s r) a = engineOf s a := engineOf_requestBegun a
  exact ⟨(shapeMx_shapes s r).1, fun e he => exec_memRequest_other he, fun e hop hheld => exec_memRequest_held hop hheld,
    fun e he hheld hroom hgo => he ▸ exec_memRequest_settles (he.trans hplace) hheld (he ▸ hroom) (he ▸ hgo)⟩

/-! ## Stalled requests (R128, R129) -/

section
variable (s : State) (e client page : Nat)

/-- A walk that begins stands in its engine, and its read, if any, reaches the controllers. -/
theorem startWalk_begins : ∃ w k l o, w.page = page ∧
    mx (startWalk s e client page) e = { mx s e with walks := (mx s e).walks ++ [w], tokens := k, late := l } ∧
    (startWalk s e client page).out = o ++ s.out ∧ OnlyMx s (startWalk s e client page) := by
  unfold startWalk
  dsimp only
  split
  · refine ⟨_, _, _, [], ?_, mx_setMx_same .., rfl, onlyMx_setMx ..⟩
    rfl
  · generalize hw : (⟨page, _, _, client, false, false⟩ : Walk) = w
    obtain ⟨k, l, hmx⟩ := mx_mcRead (setMx s e { mx s e with walks := (mx s e).walks ++ [w] }) client true
      (dataPlace s (potSector s page)) e
    refine ⟨w, k, l, [_], by rw [← hw], ?_, out_mcRead .., (onlyMx_setMx ..).trans (onlyMx_mcRead ..)⟩
    rw [hmx, mx_setMx_same]

variable (q : Parked)

/-- The request in the miss queue, its master told. -/
def parked : State := emit (setMx s e { mx s e with missq := (mx s e).missq ++ [q] }) (.gnt e q.req.tag q.req.mport .stall)

theorem onlyMx_parked : OnlyMx s (parked s e q) := (onlyMx_setMx ..).trans (onlyMx_emit ..)

theorem onlyMx_mxCtr (f : MxCtr → MxCtr) : OnlyMx s (mxCtr s e f) := onlyMx_setMx ..

theorem mx_parked : mx (parked s e q) e = { mx s e with missq := (mx s e).missq ++ [q] } := mx_setMx_same ..

/-- A master's request is parked: a miss is counted, and the first for a page starts a walk. -/
theorem parkReq_master {r : MxReq} : parkReq s e { req := r } =
    if changing s (pageOf r.addr.toNat) || (cached s e (pageOf r.addr.toNat)).isSome then parked s e { req := r }
    else
      let t := mxCtr (parked s e { req := r }) e fun c => { c with potMiss := inc32 c.potMiss }
      if (mx s e).walks.any fun w => w.page == pageOf r.addr.toNat then t else startWalk t e r.pid.val (pageOf r.addr.toNat) :=
  rfl

/-- What a parked request of a master comes to. -/
theorem parkReq_parks (r : MxReq) : let t := parkReq s e { req := r }
    (mx t e).missq = (mx s e).missq ++ [{ req := r }] ∧ Out.gnt e r.tag r.mport .stall ∈ t.out ∧ t.mem.pot = s.mem.pot ∧
    (changing s (pageOf r.addr.toNat) = false → cached s e (pageOf r.addr.toNat) = none →
      (mx t e).ctr.potMiss = inc32 (mx s e).ctr.potMiss ∧ ∃ w ∈ (mx t e).walks, w.page = pageOf r.addr.toNat) := by
  intro t
  have ht : t = parkReq s e { req := r } := rfl
  clear_value t
  rw [parkReq_master] at ht
  have hp := onlyMx_parked s e { req := r }
  have htold : Out.gnt e r.tag r.mport .stall ∈ (parked s e { req := r }).out := List.mem_cons_self ..
  split at ht
  · next h =>
    refine ⟨by rw [ht, mx_parked], ht ▸ htold, ht ▸ hp.table.1, fun hchange hmiss => ?_⟩
    rw [hchange, hmiss] at h
    cases h
  · dsimp only at ht
    have hc := onlyMx_mxCtr (parked s e { req := r }) e fun c => { c with potMiss := inc32 c.potMiss }
    have hmx : mx (mxCtr (parked s e { req := r }) e fun c => { c with potMiss := inc32 c.potMiss }) e =
        { mx s e with missq := (mx s e).missq ++ [{ req := r }]
                      ctr := { (mx s e).ctr with potMiss := inc32 (mx s e).ctr.potMiss } } := by
      rw [mxCtr, mx_setMx_same, mx_parked]
    split at ht
    · next hwalk =>
      obtain ⟨w, hw, hpage⟩ := List.any_eq_true.mp hwalk
      refine ⟨by rw [ht, hmx], ht ▸ htold, by rw [ht, hc.table.1, hp.table.1], fun _ _ => ⟨by rw [ht, hmx], w, ?_, by simpa using hpage⟩⟩
      rw [ht, hmx]
      exact hw
    · obtain ⟨w, k, l, o, hpage, hwalk, hout, honly⟩ := startWalk_begins
        (mxCtr (parked s e { req := r }) e fun c => { c with potMiss := inc32 c.potMiss }) e r.pid.val (pageOf r.addr.toNat)
      rw [hmx] at hwalk
      refine ⟨by rw [ht, hwalk], ?_, by rw [ht, honly.table.1, hc.table.1, hp.table.1], fun _ _ => ⟨by rw [ht, hwalk], w, ?_, hpage⟩⟩
      · rw [ht, hout]
        exact List.mem_append_right _ htold
      · rw [ht, hwalk]
        exact List.mem_append_right _ (List.mem_singleton_self w)

end

/-- A request with its data, of no context's command, is presented as it stands. -/
theorem exec_memRequest_plain {s : State} {r : MxReq} {e : Eng} (he : e.val = engineOf s r.addr.toNat)
    (hshaped : reqShaped r = true) (hop : r.op ≠ 3) (hctx : ctxMatch s r.ctx = false) :
    exec (.memRequest e r) s = .next ((present s { req := r }).getD s) := by
  have hshape : shapeMx s r = (s, r) := if_pos hshaped
  have hbegun : requestBegun s r = s := by
    rw [requestBegun, if_neg hop, hshape]
    simp [startCmd, hctx]
  rw [exec_memRequest_presents he (fun h => absurd h hop), hbegun, hshape]

/-- Settles O30: the request stands before its engine; its four answers. -/
theorem requestsAreAnsweredOrParked : Obligations.RequestsAreAnsweredOrParked := by
  intro s eng r he hshaped hop hctx hnone q e page
  have hexec := exec_memRequest_plain he hshaped hop (hctx ▸ hnone)
  have hsettles (hroom : (mx s e).missq.length < 32) (hgo : decideFirst s e r ≠ .stall) :
      exec (.memRequest eng r) s = .next (settle s e q (decideFirst s e r)) := by
    rw [hexec, present_settles (q := q) (he ▸ hroom) (he ▸ hgo), ← he]
    rfl
  refine ⟨fun hroom => ⟨fun hg => ⟨?_, rfl⟩, fun hg => ?_, fun hg => ?_, fun hg => ?_⟩, fun hfull => ?_, fun hshape hgen hchange =>
    decideFirst_stall_of_changing e hshape hgen hchange⟩
  · rw [hsettles hroom (by simp [hg]), hg]
  · rw [hsettles hroom (by simp [hg]), hg, settle_deny, denied_no_ctx (s := denyCounted s e r) (hctx ▸ hnone)]
    rfl
  · rw [hsettles hroom (by simp [hg]), hg, settle_stale]
    rfl
  · refine ⟨_, ?_, parkReq_parks s e r⟩
    rw [hexec, present_parks (q := q) (he ▸ hroom) (he ▸ hg), ← he]
    rfl
  · rw [hexec, present_full (q := q) (he ▸ hfull)]
    rfl

end Sys2Proof.Machine

/-! PROOFS. PART_MAP PAGES, PART_UNMAP and MEM_MODE (05 R130, R131, 07 R195, R197). -/

namespace Sys2Proof.Machine

/-! ## Pages that begin to change (R130) -/

section
variable {α : Type}

theorem mem_tput (t : Tbl α) (i : Nat) (x : α) : (i, x) ∈ tput t i x := by
  induction t with
  | nil => simp [tput]
  | cons e t ih =>
    obtain ⟨k, v⟩ := e
    simp only [tput]
    split
    · simp
    · split
      · simp
      · exact List.mem_cons_of_mem _ ih

/-- Writing a key leaves the entries of other keys. -/
theorem mem_tput_other {t : Tbl α} {i j : Nat} {x y : α} (h : (j, y) ∈ t) (hne : j ≠ i) : (j, y) ∈ tput t i x := by
  induction t with
  | nil => cases h
  | cons e t ih =>
    obtain ⟨k, v⟩ := e
    simp only [tput]
    split
    · next hk =>
      rcases List.mem_cons.mp h with h | h
      · cases h
        exact absurd hk.symm hne
      · exact List.mem_cons_of_mem _ h
    · split
      · exact List.mem_cons_of_mem _ h
      · rcases List.mem_cons.mp h with h | h
        · exact h ▸ List.mem_cons_self ..
        · exact List.mem_cons_of_mem _ (ih h)

end

section
variable {f : Pot → Nat → Pot} {need : Pot → Bool}

/-- Beginning the changes of pages writes the table of changes alone. -/
theorem beginPages_only (f : Pot → Nat → Pot) (need : Pot → Bool) (ps l : List Nat) (s : State) :
    ∃ c, beginPages f need ps l s = { s with mem := { s.mem with changes := c } } := by
  induction ps generalizing l s with
  | nil => exact ⟨_, rfl⟩
  | cons p ps ih =>
    unfold beginPages
    dsimp only
    split
    · exact ih _ (beginChange s p _)
    · exact ih _ (beginChange s p _)

/-- A change that has begun stays while other pages begin theirs. -/
theorem beginPages_keeps {ps : List Nat} (l : List Nat) {s : State} {q : Nat} {x : Change} (hq : q ∉ ps)
    (hx : (q, x) ∈ s.mem.changes) : (q, x) ∈ (beginPages f need ps l s).mem.changes := by
  induction ps generalizing l s with
  | nil => exact hx
  | cons p ps ih =>
    obtain ⟨hne, hrest⟩ := not_or.mp (mt List.mem_cons.mpr hq)
    unfold beginPages
    dsimp only
    split
    · exact ih _ hrest (mem_tput_other hx hne)
    · exact ih _ hrest (mem_tput_other hx hne)

/-- Every page of the span begins a change to the entry that `f` gives it. -/
theorem beginPages_begins {ps : List Nat} (l : List Nat) {s : State} {q : Nat} (hdistinct : ps.Nodup) (hq : q ∈ ps) :
    ∃ slot, (q, ({ new := f (pot s q) slot } : Change)) ∈ (beginPages f need ps l s).mem.changes := by
  induction ps generalizing l s with
  | nil => cases hq
  | cons p ps ih =>
    obtain ⟨hp, hps⟩ := List.nodup_cons.mp hdistinct
    unfold beginPages
    dsimp only
    rcases List.mem_cons.mp hq with rfl | hq
    · split
      · exact ⟨_, beginPages_keeps _ hp (mem_tput ..)⟩
      · exact ⟨_, beginPages_keeps _ hp (mem_tput ..)⟩
    · split
      · exact ih _ (s := beginChange s p _) hps hq
      · exact ih _ (s := beginChange s p _) hps hq

end

theorem nodup_span (first count : Nat) : (span first count).Nodup :=
  List.nodup_range.map fun _ _ h => Nat.add_left_cancel h

/-- A state with another remote request unit. -/
def withRmt (s : State) (r : RmtState) : State := { s with rmt := r }

theorem ownPages_only (l : List Nat) (s : State) : ∃ r, ownPages s l = withRmt s r := by
  unfold ownPages
  induction l generalizing s with
  | nil => exact ⟨s.rmt, rfl⟩
  | cons p l ih =>
    obtain ⟨r, h⟩ := ih { s with rmt := { s.rmt with own := tset 0 s.rmt.own p homeOwner } }
    exact ⟨r, h⟩

/-! ## The commands (R195, R197) -/

section
variable {s k : State} {c : Cmd} {t : Ticket}

theorem exec_partMapPages_accepted (h : accepted opMapPages s c = some (k, t)) :
    exec (.partMapPages c) s = .next (conclude k t (runMapPages k t c.body c.mem)) :=
  congrArg Host.Outcome.next (issue_of_accepted_unread rfl h)

theorem exec_partUnmap_accepted (h : accepted opUnmap s c = some (k, t)) :
    exec (.partUnmap c) s = .next (conclude k t (runUnmap k t c.body c.mem)) :=
  congrArg Host.Outcome.next (issue_of_accepted_unread rfl h)

theorem exec_memMode_accepted (h : accepted opMemMode s c = some (k, t)) :
    exec (.memMode c) s = .next (conclude k t (runMemMode k t c.body c.mem)) :=
  congrArg Host.Outcome.next (issue_of_accepted_unread rfl h)

end

/-- The state of a page command that has started: it waits for its pages, and only the changes and the ownership entries
have been written. -/
def PagesStarted (k e : State) (t : Ticket) (first count n : Nat) : Prop :=
  t ∈ (e.cmd.waits.map (·.tkt)) ∧
  e.cmd.waits = k.cmd.waits ++ [⟨t, tagPid t.ptag, .pages (tagPid t.ptag) (span first count) n⟩] ∧
  e.mem.pot = k.mem.pot ∧ e.part = k.part ∧ e.keys = k.keys

/-- The span's pages have begun their changes, and the command waits for them. -/
theorem pagesStarted_wait {k : State} (t : Ticket) (f : Pot → Nat → Pot) (need : Pot → Bool) (l : List Nat)
    (r : RmtState) (first count n : Nat) :
    let e := conclude k t (.wait (withRmt (beginPages f need (span first count) l k) r) (tagPid t.ptag) (.pages (tagPid t.ptag) (span first count) n))
    PagesStarted k e t first count n ∧ ∀ q, first ≤ q → q < first + count →
      ∃ slot, (q, ({ new := f (pot k q) slot } : Change)) ∈ e.mem.changes := by
  refine ⟨?_, fun q hlo hhi => beginPages_begins l (nodup_span first count) (mem_span.mpr ⟨hlo, hhi⟩)⟩
  obtain ⟨c, hc⟩ := beginPages_only f need (span first count) l k
  simp only [conclude, withRmt, hc]
  exact ⟨by simp, rfl, rfl, rfl, rfl⟩

/-! ### PART_MAP PAGES -/

/-- A page that a PART_MAP may name: FREE, not changing, and CLEAN or last used by the PID (R131). -/
def mappable (k : State) (pid q : Nat) : Bool :=
  (pot k q).state == .free && !changing k q && ((pot k q).clean || ((pot k q).pid == pid && (pot k q).used))

/-- The entry that a PART_MAP gives a page, with its Fresh slot. -/
def mapEntry (k : State) (pid : Nat) (p : Pkt) (_ : Pot) (fs : Nat) : Pot :=
  let mode := modeOf (parm p 22 8)
  let asked := BitVec.ofNat 10 (parm p 24 10)
  { pid := pid, mode := mode, state := .live, conf := (part k pid).conf, t4c := parmBit p 23 0
    rights := if (part k pid).conf then asked &&& 0x3FC else asked
    fslot := if mode == .fresh then fs else 0, used := true }

/-- A PART_MAP in Fresh gives each page a slot of these. -/
def mapSlots (k : State) (p : Pkt) : List Nat :=
  if modeOf (parm p 22 8) == .fresh then takeSlots (slotsTaken k) (parm p 20 16) 8 else []

/-- The changes of a PART_MAP's pages, begun. -/
def mapBegun (k : State) (pid : Nat) (p : Pkt) : State :=
  beginPages (mapEntry k pid p) (fun _ => modeOf (parm p 22 8) == .fresh) (span (parm p 16 32) (parm p 20 16)) (mapSlots k p) k

section
variable {k : State} {t : Ticket} {p : Pkt} {m : List ReadIn}

/-- A confidential partition's page has no debug rights (R126). -/
theorem mapEntry_conf {pid fs : Nat} {e : Pot} (h : (part k pid).conf = true) :
    (mapEntry k pid p e fs).rights.getLsbD 0 = false ∧ (mapEntry k pid p e fs).rights.getLsbD 1 = false := by
  simp [mapEntry, h]

theorem runMapPages_refused (h : present0 k (tagPid t.ptag) = false ∨
    spanAll (parm p 16 32) (parm p 20 16) (mappable k (tagPid t.ptag)) = false) : runMapPages k t p m = .fail .errState :=
  if_pos (by rcases h with h | h <;> simp [h]; exact .inr h)

/-- The ownership entries of T4C pages are made beside the changes. -/
theorem runMapPages_starts (hpres : present0 k (tagPid t.ptag) = true)
    (hmap : spanAll (parm p 16 32) (parm p 20 16) (mappable k (tagPid t.ptag)) = true)
    (hown : parmBit p 23 0 = true → k.rmt.own.length + parm p 20 16 ≤ 1024)
    (hfresh : modeOf (parm p 22 8) = .fresh → parm p 20 16 ≤ freshUnused k (tagPid t.ptag)) :
    ∃ r, runMapPages k t p m = .wait (withRmt (mapBegun k (tagPid t.ptag) p) r)
      (tagPid t.ptag) (.pages (tagPid t.ptag) (span (parm p 16 32) (parm p 20 16)) 0) := by
  have hgo : ¬ ((!present0 k (tagPid t.ptag) ||
      !spanAll (parm p 16 32) (parm p 20 16) (mappable k (tagPid t.ptag))) = true) := by simp [hpres, hmap]
  have hroom : ¬ ((parmBit p 23 0 && decide (k.rmt.own.length + parm p 20 16 > 1024) ||
      modeOf (parm p 22 8) == .fresh && decide (freshUnused k (tagPid t.ptag) < parm p 20 16)) = true) := by
    simp only [Bool.or_eq_true, Bool.and_eq_true, decide_eq_true_eq, beq_iff_eq, not_or, not_and, not_lt]
    exact ⟨hown, hfresh⟩
  have hrun : runMapPages k t p m = .wait (if parmBit p 23 0 then
      ownPages (mapBegun k (tagPid t.ptag) p) (span (parm p 16 32) (parm p 20 16)) else mapBegun k (tagPid t.ptag) p)
      (tagPid t.ptag) (.pages (tagPid t.ptag) (span (parm p 16 32) (parm p 20 16)) 0) :=
    (if_neg hgo).trans (if_neg hroom)
  obtain ⟨r, hr⟩ := ownPages_only (span (parm p 16 32) (parm p 20 16)) (mapBegun k (tagPid t.ptag) p)
  rw [hr] at hrun
  split at hrun
  · exact ⟨r, hrun⟩
  · exact ⟨(mapBegun k (tagPid t.ptag) p).rmt, hrun⟩

/-! ### PART_UNMAP and MEM_MODE -/

/-- The entry that an unmapped page keeps: who used it last. -/
def unmapEntry (e : Pot) (_ : Nat) : Pot := { pid := e.pid, used := e.used }

theorem runUnmap_refused (h : present0 k (tagPid t.ptag) = false ∨
    allLive k (tagPid t.ptag) (parm p 16 32) (parm p 20 16) = false) : runUnmap k t p m = .fail .errState :=
  if_pos (by rcases h with h | h <;> simp [h])

theorem runUnmap_starts (hpres : present0 k (tagPid t.ptag) = true)
    (hlive : allLive k (tagPid t.ptag) (parm p 16 32) (parm p 20 16) = true) :
    ∃ r, runUnmap k t p m =
      .wait (withRmt (beginPages unmapEntry (fun _ => false) (span (parm p 16 32) (parm p 20 16)) [] k) r) (tagPid t.ptag)
        (.pages (tagPid t.ptag) (span (parm p 16 32) (parm p 20 16)) 0) :=
  ⟨_, if_neg (by simp [hpres, hlive])⟩

/-- The entry of a page in its new mode, with its Fresh slot. -/
def modeEntry (mode : PMode) (e : Pot) (fs : Nat) : Pot := { e with mode := mode, fslot := if mode == .fresh then fs else 0 }

/-- A page that needs a Fresh slot for its new mode. -/
def needsSlot (mode : PMode) (e : Pot) : Bool := mode == .fresh && e.mode != .fresh

/-- Pages of a MEM_MODE that need a slot. -/
def slotNeeds (k : State) (p : Pkt) : Nat :=
  ((span (parm p 16 32) (parm p 20 16)).filter fun q => needsSlot (modeOf (parm p 22 8)) (pot k q)).length

theorem slotNeeds_le {free : Nat} (hfresh : modeOf (parm p 22 8) = .fresh → parm p 20 16 ≤ free) :
    slotNeeds k p ≤ free := by
  by_cases hmode : modeOf (parm p 22 8) = .fresh
  · have hle : slotNeeds k p ≤ parm p 20 16 := (List.length_filter_le ..).trans (by simp [span])
    exact hle.trans (hfresh hmode)
  · have hoff : (modeOf (parm p 22 8) == .fresh) = false := beq_eq_false_iff_ne.mpr hmode
    simp [slotNeeds, needsSlot, hoff]

/-- The changes of a MEM_MODE's pages, begun. -/
def modeBegun (k : State) (p : Pkt) : State :=
  beginPages (modeEntry (modeOf (parm p 22 8))) (needsSlot (modeOf (parm p 22 8))) (span (parm p 16 32) (parm p 20 16))
    (takeSlots (slotsTaken k) (slotNeeds k p) 8) k

theorem runMemMode_starts (hpres : present0 k (tagPid t.ptag) = true)
    (hlive : allLive k (tagPid t.ptag) (parm p 16 32) (parm p 20 16) = true)
    (hfresh : modeOf (parm p 22 8) = .fresh → parm p 20 16 ≤ freshUnused k (tagPid t.ptag)) :
    runMemMode k t p m = .wait (withRmt (modeBegun k p) (modeBegun k p).rmt) (tagPid t.ptag)
      (.pages (tagPid t.ptag) (span (parm p 16 32) (parm p 20 16)) (parm p 20 16)) :=
  (if_neg (by simp [hpres, hlive])).trans (if_neg (Nat.not_lt.mpr (slotNeeds_le hfresh)))

end

/-- Settles O27: each command begins every page of its span, or ends before the first. -/
theorem pageCommandsChangeEveryPageOrNone : Obligations.PageCommandsChangeEveryPageOrNone := by
  intro s c k t pid first count mode mappable started
  refine ⟨fun hacc hpres hmap hown hfresh => ?_, fun hacc h => ?_, fun hacc hpres hlive => ?_, fun hacc h => ?_,
    fun hacc hpres hlive hfresh => ?_⟩
  · obtain ⟨r, hrun⟩ := runMapPages_starts (m := c.mem) hpres hmap hown hfresh
    obtain ⟨hstarted, hpages⟩ := pagesStarted_wait t (mapEntry k pid c.body) (fun _ => mode == .fresh) (mapSlots k c.body)
      r first count 0
    refine ⟨_, exec_partMapPages_accepted hacc, hrun ▸ hstarted, fun q hlo hhi => ?_⟩
    obtain ⟨slot, hq⟩ := hpages q hlo hhi
    exact ⟨_, hrun ▸ hq, rfl, rfl, rfl, rfl, mapEntry_conf (e := pot k q)⟩
  · rw [exec_partMapPages_accepted hacc, runMapPages_refused h]
    rfl
  · obtain ⟨r, hrun⟩ := runUnmap_starts (m := c.mem) hpres hlive
    obtain ⟨hstarted, hpages⟩ := pagesStarted_wait t unmapEntry (fun _ => false) [] r first count 0
    refine ⟨_, exec_partUnmap_accepted hacc, hrun ▸ hstarted, fun q hlo hhi => ?_⟩
    obtain ⟨slot, hq⟩ := hpages q hlo hhi
    exact ⟨_, hrun ▸ hq, rfl, rfl, rfl, rfl⟩
  · rw [exec_partUnmap_accepted hacc, runUnmap_refused h]
    rfl
  · have hrun := runMemMode_starts (m := c.mem) hpres hlive hfresh
    obtain ⟨hstarted, hpages⟩ := pagesStarted_wait t (modeEntry mode) (needsSlot mode)
      (takeSlots (slotsTaken k) (slotNeeds k c.body) 8) (modeBegun k c.body).rmt first count count
    refine ⟨_, exec_memMode_accepted hacc, hrun ▸ hstarted, fun q hlo hhi => ?_⟩
    obtain ⟨slot, hq⟩ := hpages q hlo hhi
    exact ⟨_, hrun ▸ hq, rfl, rfl, rfl, rfl⟩

end Sys2Proof.Machine

/-! PROOFS. The cairn cache, the POT under the engines' hands, and walks that end (05 R125 to R152). -/

namespace Sys2Proof.Machine

/-! ## What the cairn cache does of itself (R135, R147, R148)

Bringing a line in, giving one up, and advancing a counter read and write sectors of the cairn, and overflow. All that is
traffic of the engines with the controllers: their queues, the POT and every other family stay. -/

/-- What an engine holds of requests and has counted, beside its caches of sectors. -/
structure EngQueues where
  cache : List (Nat × Pot)
  walks : List Walk
  missq : List Parked
  reqs  : List OpenReq
  ops   : List SecOp
  darn  : Tbl Nat
  ctr   : MxCtr

def queues (m : Mx) : EngQueues := ⟨m.cache, m.walks, m.missq, m.reqs, m.ops, m.darn, m.ctr⟩

/-- `t` is `s` but for the traffic of the engines and the root counters. -/
structure TreeStep (s t : State) : Prop where
  rest : t = { s with mem := { s.mem with mx := t.mem.mx, roots := t.mem.roots }, out := t.out, tel := t.tel }
  out : s.out <:+ t.out
  queues : ∀ e, queues (mx t e) = queues (mx s e)

namespace TreeStep

variable {s t u : State}

theorem refl (s : State) : TreeStep s s := ⟨rfl, List.suffix_rfl, fun _ => rfl⟩

theorem trans (h : TreeStep s t) (k : TreeStep t u) : TreeStep s u where
  rest := by rw [k.rest, h.rest]
  out := h.out.trans k.out
  queues e := (k.queues e).trans (h.queues e)

theorem foldl {α : Type} {f : State → α → State} (h : ∀ s a, TreeStep s (f s a)) (l : List α) (s : State) :
    TreeStep s (l.foldl f s) := by
  induction l generalizing s with
  | nil => exact refl s
  | cons a l ih => exact (h s a).trans (ih _)

theorem of_onlyMx (h : OnlyMx s t) (hout : s.out <:+ t.out) (hqueues : ∀ e, Machine.queues (mx t e) = Machine.queues (mx s e)) :
    TreeStep s t where
  rest := by
    obtain ⟨m, o, x, rfl⟩ := h
    rfl
  out := hout
  queues := hqueues

/-- The fields that no such step writes. -/
theorem frame (h : TreeStep s t) : t.part = s.part ∧ t.keys = s.keys ∧ t.cmd = s.cmd ∧ t.boot = s.boot ∧ t.mem.pot = s.mem.pot ∧
    t.mem.potBase = s.mem.potBase ∧ t.mem.potLive = s.mem.potLive ∧ t.mem.potBad = s.mem.potBad ∧ t.mem.keys = s.mem.keys ∧
    t.mem.ikey = s.mem.ikey ∧ t.mem.changes = s.mem.changes := by
  rw [h.rest]
  simp

end TreeStep

section
variable (s : State) (e client : Nat) (rt : Bool) (p : Nat) (d : Sector) (c : CLine)

theorem treeStep_setMx {m : Mx} (h : queues m = queues (mx s e)) : TreeStep s (setMx s e m) := by
  refine .of_onlyMx (onlyMx_setMx ..) List.suffix_rfl fun j => ?_
  rw [mx_setMx]
  split
  · next hj => rw [h, hj]
  · rfl

theorem treeStep_mcRead : TreeStep s (mcRead s client rt p) := by
  refine .of_onlyMx (onlyMx_mcRead ..) (out_mcRead s client rt p ▸ List.suffix_cons ..) fun j => ?_
  obtain ⟨k, l, h⟩ := mx_mcRead s client rt p j
  rw [h]
  rfl

theorem treeStep_mcWrite : TreeStep s (mcWrite s client rt p d) := by
  refine .of_onlyMx (onlyMx_mcWrite ..) (out_mcWrite s client rt p d ▸ List.suffix_cons ..) fun j => ?_
  obtain ⟨k, l, h⟩ := mx_mcWrite s client rt p d j
  rw [h]
  rfl

theorem treeStep_cairnSet : TreeStep s (cairnSet s c) := by
  unfold cairnSet
  dsimp only
  split
  · exact treeStep_setMx s _ rfl
  · exact treeStep_setMx s _ rfl

theorem treeStep_cairnDrop : TreeStep s (cairnDrop s p) := treeStep_setMx s _ rfl

theorem treeStep_want : TreeStep s (want s client rt p) := by
  unfold want
  dsimp only
  split
  · exact .refl s
  · refine .trans ?_ (treeStep_mcRead ..)
    exact treeStep_setMx s _ rfl

theorem treeStep_wantLine (f : Nat) : TreeStep s (wantLine s client rt f p) := by
  induction f generalizing s p with
  | zero => exact .refl s
  | succ f ih =>
    unfold wantLine
    split
    · exact .refl s
    · split
      · exact treeStep_want ..
      · split
        · exact .refl s
        · exact (treeStep_want ..).trans (ih ..)

theorem treeStep_overflow (i base : Nat) : TreeStep s (overflow s client c i base) := by
  unfold overflow
  dsimp only
  refine .trans ?_ (.foldl (fun s p => treeStep_mcRead s client false p) _ _)
  generalize hu : cairnSet s _ = u
  have hset : TreeStep s u := hu ▸ treeStep_cairnSet ..
  refine hset.trans ?_
  exact treeStep_setMx u _ rfl

end

section
variable {s t : State} {client : Nat} {c : CLine}

theorem treeStep_bumpLine {i base : Nat} (h : bumpLine s client c i base = some t) : TreeStep s t := by
  unfold bumpLine at h
  dsimp only at h
  split at h
  · cases h
    exact treeStep_cairnSet ..
  · split at h
    · cases h
      exact treeStep_overflow ..
    · cases h

theorem treeStep_lineOut (h : lineOut s c = some t) : TreeStep s t := by
  unfold lineOut at h
  dsimp only at h
  obtain ⟨u, hu, rfl⟩ := Option.map_eq_some_iff.mp h
  refine .trans ?_ (treeStep_mcWrite ..)
  split at hu
  · cases hu
    exact ⟨rfl, List.suffix_rfl, fun _ => rfl⟩
  · split at hu
    · cases hu
    · obtain ⟨x, -, hx⟩ := Option.bind_eq_some_iff.mp hu
      exact treeStep_bumpLine hx

theorem treeStep_giveUp (s : State) (c : CLine) : TreeStep s (giveUp s c) := by
  unfold giveUp
  dsimp only
  split
  · exact treeStep_cairnDrop ..
  · split
    · split
      · next h => exact (treeStep_lineOut h).trans (treeStep_cairnDrop ..)
      · split
        · exact (treeStep_cairnSet ..).trans (treeStep_wantLine ..)
        · exact treeStep_cairnSet ..
    · split
      · exact (treeStep_cairnDrop ..).trans (treeStep_mcWrite ..)
      · exact (treeStep_cairnSet ..).trans (treeStep_want ..)

theorem treeStep_cairnPut (s : State) (c : CLine) : TreeStep s (cairnPut s c) := by
  have hgive (u : State) (l : List CLine) : TreeStep u (match l[Config.victim c.pl % l.length]? with
      | some v => giveUp u v
      | none => u) := by
    split
    · exact treeStep_giveUp ..
    · exact .refl u
  unfold cairnPut
  dsimp only
  split
  · exact treeStep_cairnSet ..
  · have hput : TreeStep s (setMx s (placeEng c.pl)
        { mx s (placeEng c.pl) with cairn := (mx s (placeEng c.pl)).cairn ++ [c] }) := treeStep_setMx s _ rfl
    split
    · exact hput.trans (hgive _ _)
    · split
      · exact hput.trans (hgive _ _)
      · exact hput

theorem treeStep_tagSet (s : State) (client p : Nat) (tag : BitVec 64) : TreeStep s (tagSet s client p tag) :=
  treeStep_cairnPut ..

theorem treeStep_nextVersion {en : Pot} {sector : Nat} (h : nextVersion s client en sector = some t) : TreeStep s t := by
  obtain ⟨c, -, hc⟩ := Option.bind_eq_some_iff.mp h
  exact treeStep_bumpLine hc

theorem treeStep_darnBack (s : State) (pid p : Nat) (old new : Sector × BitVec 64) :
    TreeStep s (darnBack s pid p old new) := by
  unfold darnBack
  split
  · exact treeStep_mcWrite ..
  · split
    · dsimp only
      split
      · split
        · exact (treeStep_tagSet ..).trans (treeStep_mcWrite ..)
        · exact treeStep_tagSet ..
      · exact treeStep_tagSet ..
    · exact .refl s

/-- What a sector's encryption rests on stays. -/
theorem TreeStep.encSector (h : TreeStep s t) (en : Pot) (n : Nat) (pt : Sector) :
    Machine.encSector t en n pt = Machine.encSector s en n pt := by
  obtain ⟨hpart, -, -, -, -, -, -, -, hkeys, -⟩ := h.frame
  simp only [Machine.encSector, memKeys, mepochOf, ctagOf, part, hpart, hkeys]

/-- A sector that is written reaches its controller in its page's mode, with its tag beside it. -/
theorem writeSector_writes {rt : Bool} {en : Pot} {sector : Nat} {pt : Sector}
    (h : writeSector s client rt en sector pt = some t) : TreeStep s t ∧ ∃ pri, Out.mcWrite (placePkg (dataPlace s sector))
      (placeSec (dataPlace s sector)) (encSector s en sector pt) pri ∈ t.out := by
  unfold writeSector at h
  dsimp only at h
  split at h
  · cases h
    exact ⟨treeStep_mcWrite .., _, out_mcWrite s client rt _ _ ▸ List.mem_cons_self ..⟩
  · obtain ⟨u, hu, rfl⟩ := Option.map_eq_some_iff.mp h
    have hversion : TreeStep s u := by
      split at hu
      · exact treeStep_nextVersion hu
      · cases hu
        exact .refl s
    have htag := treeStep_tagSet (mcWrite u client rt (dataPlace s sector) (encSector u en sector pt)) client
      (dataPlace s sector) (macOf u en sector (sectorVersion u en sector) (encSector u en sector pt))
    refine ⟨(hversion.trans (treeStep_mcWrite ..)).trans htag, nextPri u (placeEng (dataPlace s sector)) client rt,
      htag.out.subset ?_⟩
    rw [out_mcWrite, hversion.encSector]
    exact List.mem_cons_self ..

end

/-! ## The POT under the engines' hands (R125, R129)

No request, answer or alarm writes the POT, or forgets one of its sectors that failed. -/

/-- The POT as the engines read it: its entries, its place, and its sectors that failed darn. -/
structure PotView where
  pot  : Tbl Pot
  base : Nat
  live : Bool
  bad  : List Nat

def potView (s : State) : PotView := ⟨s.mem.pot, s.mem.potBase, s.mem.potLive, s.mem.potBad⟩

section
variable {s t : State}

theorem potView_of_mx (h : t.mem = { s.mem with mx := t.mem.mx }) : potView t = potView s := by
  simp only [potView]
  rw [h]

theorem potView_of_charged (h : charged s t) : potView t = potView s := potView_of_mx h.1

theorem potView_of_onlyMx (h : OnlyMx s t) : potView t = potView s := by
  obtain ⟨m, o, x, rfl⟩ := h
  rfl

theorem TreeStep.potView (h : TreeStep s t) : potView t = potView s := by
  obtain ⟨-, -, -, -, hpot, hbase, hlive, hbad, -⟩ := h.frame
  simp only [Machine.potView, hpot, hbase, hlive, hbad]

theorem potView_of_sameButCmd (h : sameButCmd s t) : potView t = potView s := by
  obtain ⟨-, -, -, -, -, -, hcharged, -⟩ := h
  exact potView_of_charged hcharged

theorem potView_foldl {α : Type} {f : State → α → State} (h : ∀ s a, potView (f s a) = potView s) (l : List α)
    (s : State) : potView (l.foldl f s) = potView s := by
  induction l generalizing s with
  | nil => rfl
  | cons a l ih => exact (ih (f s a)).trans (h s a)

end

/-! ### Alarms, quarantine and zeroise (R12, R265, R369) -/

theorem potView_finishWaits (s : State) (p : Wait → Bool) (st : Status) (r : BitVec 192) :
    potView (finishWaits s p st r) = potView s := potView_of_charged (charged_finishWaits ..)

theorem potView_losePid (s : State) (pid : Nat) (f : CtxFault) : potView (losePid s pid f) = potView s :=
  potView_foldl (fun _ _ => potView_of_charged (charged_loseCtx ..)) _ s

theorem potView_postRinseDone (s : State) (k : RinseTkt) (st : Status) : potView (postRinseDone s k st) = potView s := by
  unfold postRinseDone
  split
  · exact potView_of_sameButCmd (postEvent_same ..)
  · rfl

theorem potView_stopRinse (s : State) : potView (stopRinse s) = potView s := by
  unfold stopRinse
  exact potView_foldl (fun _ _ => potView_postRinseDone ..) _ _

theorem potView_portTo (s : State) (p : Nat) (st : PortState) : potView (portTo s p st) = potView s := by
  obtain ⟨t, o, h⟩ := portTo_frame s p st
  rw [h]
  rfl

theorem potView_closePorts (s : State) : potView (closePorts s) = potView s :=
  (potView_finishWaits ..).trans (potView_foldl (fun _ _ => potView_portTo ..) _ s)

theorem potView_dropInput (s : State) (p : FoldFrame → Bool) : potView (dropInput s p) = potView s := by
  refine potView_foldl (fun s u => ?_) _ s
  dsimp only
  split
  · rfl
  · refine (potView_foldl (fun s f => ?_) _ _).trans rfl
    obtain ⟨t, h⟩ := owe_frame s u clsFold f.flits
    rw [oweFold, h]
    rfl

theorem potView_zeroBlocks (s : State) (l : List Nat) : potView (zeroBlocks s l) = potView s := rfl

theorem potView_freePlan (s : State) (n : Nat) (st : Status) : potView (endDisarms (setPlan s n {}) n st) = potView s :=
  potView_finishWaits (setPlan s n {}) _ st 0

theorem potView_foldQuarantine (s : State) : potView (foldQuarantine s) = potView s := by
  unfold foldQuarantine
  dsimp only
  rw [potView_zeroBlocks, potView_dropInput]
  exact potView_foldl (fun s n => potView_freePlan s n .errState) _ s

theorem potView_clearRangeSlots (s : State) : potView (clearRangeSlots s) = potView s :=
  potView_foldl (f := clearSlot) (fun _ _ => rfl) _ s

theorem potView_setMemb (s : State) (m : Memb) : potView (setMemb s m) = potView s :=
  (potView_of_sameButCmd (setMemb_same s m)).trans rfl

theorem potView_markQuarantined (s : State) : potView (markQuarantined s) = potView s := rfl

theorem potView_quarantine (s : State) : potView (quarantine s) = potView s := by
  by_cases h : s.range.memb = .quarantined
  · simp [quarantine, h]
  · rw [quarantine_steps h, potView_setMemb, potView_markQuarantined, endRangeWaits, potView_finishWaits,
      potView_clearRangeSlots, potView_foldQuarantine, potView_stopRinse, potView_closePorts]
    exact potView_foldl (fun _ _ => potView_losePid ..) _ s

theorem potView_setLink (s : State) (p : Nat) (x : Link) : potView (setLink s p x) = potView s := rfl

theorem potView_clearPortKeys (s : State) : potView (clearPortKeys s) = potView s := by
  unfold clearPortKeys
  exact potView_foldl (fun s p => potView_setLink s p _) _ s

theorem potView_clearStores (s : State) : potView (clearStores s) = potView s := rfl

theorem potView_bootStop (s : State) (cause : Nat) : potView (bootStop s cause) = potView s := by
  unfold bootStop
  split <;> rfl

theorem potView_markZeroised (s : State) (o : Out) : potView (emit (markZeroised s) o) = potView s := rfl

theorem potView_zeroise (s : State) : potView (zeroise s) = potView s := by
  rw [zeroise_steps, potView_quarantine, potView_markZeroised, flashClear_steps, potView_clearPortKeys, potView_clearStores,
    potView_bootStop]

theorem potView_queueEntry (s : State) (kind level source pid detail : Nat) :
    potView (queueEntry s kind level source pid detail) = potView s := by
  unfold queueEntry
  split <;> rfl

theorem potView_raiseAlarm (s : State) (cls : AlarmClass) (pid : Nat) (lvl : Level) (port src detail : Nat)
    (tarn : Bool) : potView (raiseAlarm s cls pid lvl port src detail tarn) = potView s := by
  unfold raiseAlarm
  dsimp only
  generalize maxLevel lvl _ = l
  generalize hu : postBoth _ _ _ _ _ _ = u
  have hlogged : potView u = potView s := by
    rw [← hu, potView_of_charged (charged_postBoth ..)]
    cases tarn with
    | true => rfl
    | false => exact potView_queueEntry ..
  cases l with
  | notice => exact hlogged
  | partition => exact (potView_losePid ..).trans hlogged
  | quarantine => exact (potView_quarantine u).trans hlogged
  | zeroise => exact (potView_zeroise u).trans hlogged

theorem potView_memAlarm (s : State) (e pid : Nat) (lvl : Level) : potView (memAlarm s e pid lvl) = potView s :=
  potView_raiseAlarm ..

/-! ### Sectors (R137 to R145) -/

theorem onlyMx_darnRead (s : State) (e key : Nat) : OnlyMx s (darnRead s e key) := by
  unfold darnRead
  dsimp only
  split
  · exact .rfl' s
  · exact onlyMx_setMx ..

theorem potView_darnRecord (s : State) (e key pid : Nat) : potView (darnRecord s e key pid) = potView s := by
  unfold darnRecord
  dsimp only
  split
  · exact potView_memAlarm ..
  · rfl

theorem potView_verifySector (s : State) (e key pid : Nat) (mac : Sector → BitVec 64) (ct : Sector) (tag : BitVec 64) :
    potView (verifySector s e key pid mac ct tag).1 = potView s := by
  have hread := potView_of_onlyMx (onlyMx_darnRead s e key)
  unfold verifySector
  dsimp only
  split
  · exact hread
  · split
    · exact (potView_darnRecord ..).trans hread
    · exact hread

theorem potView_openSector (s : State) (e : Nat) (en : Pot) (sector : Nat) (ct : Sector) (tag : BitVec 64) :
    potView (openSector s e en sector ct tag).1 = potView s := by
  unfold openSector
  split
  · rfl
  · split
    · rfl
    · have h := potView_verifySector s e sector en.pid (macOf s en sector (sectorVersion s en sector)) ct tag
      split
      · next hv =>
        rw [hv] at h
        exact (treeStep_darnBack ..).potView.trans h
      · next hv =>
        rw [hv] at h
        exact h

theorem potView_poisonSector (s : State) (e pid : Nat) : potView (poisonSector s e pid) = potView s := by
  unfold poisonSector poisonAlarm
  split
  · rfl
  · exact potView_memAlarm ..

/-! ### Answers to remote requests (R77, R84 to R86) -/

theorem potView_of_onlyAnswers {s t : State} (h : OnlyAnswers s t) : potView t = potView s := by
  obtain ⟨q, rfl⟩ := h
  rfl

theorem potView_answer (s : State) (g : Ingress) (kind : BitVec 8) (st : Status) (data : Bytes) (poison : Bool) :
    potView (answer s g kind st data poison) = potView s := potView_of_onlyAnswers (onlyAnswers_answer ..)

theorem potView_refuse (s : State) (g : Ingress) (st : Status) : potView (refuse s g st) = potView s :=
  potView_of_onlyAnswers (onlyAnswers_refuse ..)

theorem potView_dropPending (s : State) (g : Ingress) : potView (dropPending s g) = potView s := rfl

theorem potView_keepResult (s : State) (g : Ingress) (v : BitVec 64) : potView (keepResult s g v) = potView s := rfl

theorem potView_endSeam (s : State) (g : Ingress) (ok : Bool) : potView (endSeam s g ok) = potView s := by
  unfold endSeam
  rw [potView_answer]
  split <;> rfl

theorem potView_sendFrame (s : State) (cls : BitVec 4) (dst : Nat) (sptag dptag : BitVec 16) (d : Desc) (body : Bytes)
    (track : Nat) (retry poison : Bool) : potView (sendFrame s cls dst sptag dptag d body track retry poison) = potView s :=
  potView_of_onlyAnswers (onlyAnswers_sendFrame ..)

theorem potView_finishReq (s : State) (g : Ingress) (x : Gather) : potView (finishReq s g x) = potView s := by
  unfold finishReq
  simp only [apply_ite potView, potView_endSeam, potView_refuse, potView_answer, potView_sendFrame, potView_dropPending,
    potView_keepResult, ite_self]

theorem potView_endPiece (s : State) (g : Ingress) (x : Gather) : potView (endPiece s g x) = potView s := by
  unfold endPiece
  dsimp only
  split
  · exact (potView_finishReq ..).trans rfl
  · rfl

theorem potView_acceptPiece (s : State) (g : Ingress) (bad : Bool) : potView (acceptPiece s g bad) = potView s := by
  unfold acceptPiece
  dsimp only
  split <;> rfl

theorem potView_targetDeny (s : State) (g : Ingress) : potView (targetDeny s g) = potView s :=
  (potView_endPiece ..).trans (potView_acceptPiece ..)

theorem potView_targetStale (s : State) (g : Ingress) : potView (targetStale s g) = potView s := by
  unfold targetStale
  split <;> rfl

/-! ### Requests (R127, R132, R141, R151) -/

theorem potView_loseHandle (s : State) (h : BitVec 32) (f : CtxFault) (addr : BitVec 48) (node : BitVec 14) :
    potView (loseHandle s h f addr node) = potView s := potView_of_charged (charged_loseHandle ..)

theorem potView_denied (s : State) (r : MxReq) : potView (denied s r) = potView s := potView_of_charged (charged_denied s r)

theorem potView_toMaster (s : State) (e : Nat) (o : OpenReq) (data : Bytes) (read : Bool) :
    potView (toMaster s e o data read) = potView s := by
  unfold toMaster
  dsimp only
  split
  · rfl
  · exact (potView_loseHandle ..).trans rfl

theorem potView_respond (s : State) (e : Nat) (o : OpenReq) (data : Bytes) :
    potView (respond s e o data) = potView s := by
  unfold respond
  dsimp only
  split
  · split
    · exact potView_targetStale ..
    · rfl
    · rfl
  · split
    · rfl
    · exact potView_toMaster ..
    · exact potView_endPiece ..
    · rw [potView_toMaster]
      split
      · exact potView_of_sameButCmd (sendTlp_same ..)
      · rfl

theorem potView_setMx (s : State) (e : Nat) (m : Mx) : potView (setMx s e m) = potView s := rfl

theorem potView_sectorDone (s : State) (e rid sector : Nat) (got : Option Sector) (old : Bytes) (poison : Bool) :
    potView (sectorDone s e rid sector got old poison) = potView s := by
  unfold sectorDone
  dsimp only
  split
  · rfl
  · split
    · exact (potView_respond ..).trans (potView_setMx ..)
    · rfl

theorem potView_failOp (s : State) (e : Nat) (en : Pot) (o : SecOp) : potView (failOp s e en o) = potView s := by
  rw [failOp, potView_sectorDone, potView_poisonSector]
  rfl

theorem potView_askFor (s : State) (e : Nat) (q : OpenReq) (en : Pot) (o : SecOp) :
    potView (askFor s e q en o) = potView s := by
  unfold askFor
  simp only [apply_ite potView, (treeStep_wantLine ..).potView, (treeStep_want ..).potView, (treeStep_mcRead ..).potView,
    potView_setMx, ite_self]

theorem potView_applyRead (s : State) (e : Nat) (q : OpenReq) (o : SecOp) (en : Pot) (pt : Sector) :
    potView (applyRead s e q o en pt) = potView s := by
  unfold applyRead
  dsimp only
  split
  · exact (potView_sectorDone ..).trans rfl
  · split
    · next h =>
      rw [potView_sectorDone]
      exact (writeSector_writes h).1.potView
    · exact potView_failOp ..

theorem potView_applyWrite (s : State) (e : Nat) (q : OpenReq) (o : SecOp) (en : Pot) :
    potView (applyWrite s e q o en) = potView s := by
  unfold applyWrite
  dsimp only
  split
  · next h =>
    rw [potView_sectorDone]
    exact (writeSector_writes h).1.potView
  · exact potView_failOp ..

theorem potView_tryOp {s t : State} {e : Nat} {q : OpenReq} {o : SecOp} {en : Pot} (h : tryOp s e q o en = some t) :
    potView t = potView s := by
  unfold tryOp at h
  dsimp only at h
  split at h
  · cases h
  · split at h
    · cases h
      exact potView_applyWrite ..
    · split at h
      · next ct tag _ _ =>
        have hopen := potView_openSector s e en o.sector ct tag
        split at h
        · next hv =>
          rw [hv] at hopen
          cases h
          exact (potView_applyRead ..).trans hopen
        · next hv =>
          rw [hv] at hopen
          cases h
          exact (potView_failOp ..).trans hopen
      · cases h

theorem potView_pump (s : State) (e sector f : Nat) : potView (pump s e sector f) = potView s := by
  induction f generalizing s with
  | zero => rfl
  | succ f ih =>
    unfold pump
    dsimp only
    split
    · rfl
    · split
      · exact (ih _).trans rfl
      · split
        · exact (ih _).trans (potView_failOp ..)
        · split
          · rfl
          · split
            · next h => exact (ih _).trans (potView_tryOp h)
            · exact potView_askFor ..

theorem potView_enterReq (s : State) (e : Nat) (r : MxReq) (w : Waiter) : potView (enterReq s e r w) = potView s :=
  (potView_foldl (fun _ _ => potView_pump ..) _ _).trans rfl

theorem potView_tellMaster (s : State) (e : Nat) (q : Parked) (g : Gnt) : potView (tellMaster s e q g) = potView s := by
  unfold tellMaster
  split <;> rfl

/-- The final answer of a request leaves the POT. -/
theorem potView_settle (s : State) (e : Nat) (q : Parked) (g : Gnt) : potView (settle s e q g) = potView s := by
  have htold := potView_tellMaster s e q g
  unfold settle
  dsimp only
  cases g with
  | grant =>
    dsimp only
    rw [potView_enterReq]
    split
    · exact (potView_acceptPiece ..).trans htold
    · exact htold
  | deny =>
    dsimp only
    split
    · exact (potView_denied ..).trans htold
    · exact (potView_denied ..).trans htold
    · exact htold
    · exact (potView_targetDeny ..).trans htold
  | stale =>
    dsimp only
    split
    · exact (potView_targetStale ..).trans htold
    · exact htold
    · exact htold
  | stall => exact htold

theorem potView_redecide (s : State) (e page : Nat) : potView (redecide s e page) = potView s :=
  (potView_foldl (fun _ _ => potView_settle ..) _ _).trans rfl

/-! ## A sector that has been read (R143, R144) -/

section
variable {s : State} {e key pid : Nat} {mac : Sector → BitVec 64} {ct : Sector} {tag : BitVec 64}

theorem verifySector_verifies (h : mac ct = tag) :
    verifySector s e key pid mac ct tag = (darnRead s e key, some (ct, tag)) := by
  simp [verifySector, h]

theorem verifySector_mends {x : Sector × BitVec 64} (h : mac ct ≠ tag) (hdarn : darn mac ct tag = some x) :
    verifySector s e key pid mac ct tag = (darnRecord (darnRead s e key) e key pid, some x) := by
  simp [verifySector, h, hdarn]

theorem verifySector_fails (h : mac ct ≠ tag) (hdarn : darn mac ct tag = none) :
    verifySector s e key pid mac ct tag = (darnRead s e key, none) := by
  simp [verifySector, h, hdarn]

theorem darnBack_same (s : State) (pid p : Nat) (x : Sector × BitVec 64) : darnBack s pid p x x = s := by
  simp [darnBack]

/-- What a sector's decryption rests on. -/
theorem decSector_onlyMx {t : State} (h : OnlyMx s t) (en : Pot) (n : Nat) (d : Sector) :
    decSector t en n d = decSector s en n d := by
  obtain ⟨m, o, x, rfl⟩ := h
  rfl

end

/-! ## Walks that end (R128, R129, R152) -/

section
variable {s : State} {e : Eng} {page : Nat} {rd : WalkRead} {w : Walk}

/-- The engine once a walk has left it. -/
def walkTaken (s : State) (e : Nat) (page : Nat) : State :=
  setMx s e { mx s e with walks := (mx s e).walks.filter fun x => x.page != page }

theorem page_of_find {l : List Walk} (h : l.find? (fun x => x.page == page) = some w) : w.page = page := by
  simpa using List.find?_some h

theorem exec_potWalkDone_none (h : (mx s e.val).walks.find? (fun x => x.page == page) = none) :
    exec (.potWalkDone e page rd) s = .next s := by
  change execPotWalkDone e page rd s = _
  simp only [execPotWalkDone, h]

theorem exec_potWalkDone_held (h : (mx s e.val).walks.find? (fun x => x.page == page) = some w) (hheld : w.held = true) :
    exec (.potWalkDone e page rd) s = .next s := by
  change execPotWalkDone e page rd s = _
  simp only [execPotWalkDone, h, hheld, if_true]

/-- A walk whose read a link error spoilt, waiting for its second read. -/
def walkAgain (s : State) (e : Nat) (page : Nat) (w : Walk) : State :=
  setMx s e { mx s e with walks := (mx s e).walks.filter (fun x => x.page != page) ++ [{ w with again := true }] }

theorem exec_potWalkDone_again (h : (mx s e.val).walks.find? (fun x => x.page == page) = some w) (hheld : w.held = false)
    (hlerr : rd.lerr = true) (hagain : w.again = false) : exec (.potWalkDone e page rd) s =
    .next (mcRead (walkAgain s e.val page w) w.client true (dataPlace s (potSector s page))) := by
  change execPotWalkDone e page rd s = _
  simp only [execPotWalkDone, walkAgain, h, hheld, hlerr, hagain]
  rfl

/-- The second read goes out in real time, and the walk waits for it. -/
theorem walkAgain_reads (s : State) (e : Nat) (page p : Nat) (w : Walk) :
    (mcRead (walkAgain s e page w) w.client true p).out = .mcRead (placePkg p) (placeSec p) .rt :: s.out ∧
    { w with again := true } ∈ (mx (mcRead (walkAgain s e page w) w.client true p) e).walks := by
  refine ⟨by rw [out_mcRead, nextPri_realTime]; rfl, ?_⟩
  obtain ⟨k, l, hmx⟩ := mx_mcRead (walkAgain s e page w) w.client true p e
  rw [hmx, walkAgain, mx_setMx_same]
  exact List.mem_append_right _ (List.mem_singleton_self _)

section
variable (h : (mx s e.val).walks.find? (fun x => x.page == page) = some w) (hheld : w.held = false)
  (hread : rd.lerr = false ∨ w.again = true)
include h hheld hread

/-- A result for a page being changed is discarded. -/
theorem exec_potWalkDone_changing (hchange : changing s page = true) :
    exec (.potWalkDone e page rd) s = .next (walkTaken s e.val page) := by
  have htaken : (rd.lerr && !w.again) = false := by rcases hread with h | h <;> simp [h]
  change execPotWalkDone e page rd s = _
  simp only [execPotWalkDone, walkTaken, h, hheld, htaken, hchange, Bool.false_eq_true, if_false, if_true]

/-- A sector that opens gives the slice its entry, and the page's requests are decided. -/
theorem exec_potWalkDone_opens (hchange : changing s page = false) {t : State} {d : Sector}
    (hopen : openWalk (walkTaken s e.val page) w rd.ct = (t, some d)) :
    exec (.potWalkDone e page rd) s = .next (redecide (cacheIn t e.val page (potIn d page)) e.val page) := by
  have htaken : (rd.lerr && !w.again) = false := by rcases hread with h | h <;> simp [h]
  change execPotWalkDone e page rd s = _
  simp only [walkTaken] at hopen
  simp only [execPotWalkDone, h, hheld, htaken, hchange, hopen, Bool.false_eq_true, if_false]

/-- One that does not open fails the walk. -/
theorem exec_potWalkDone_fails (hchange : changing s page = false) {t : State}
    (hopen : openWalk (walkTaken s e.val page) w rd.ct = (t, none)) :
    exec (.potWalkDone e page rd) s = .next (failWalk t e.val page) := by
  have htaken : (rd.lerr && !w.again) = false := by rcases hread with h | h <;> simp [h]
  change execPotWalkDone e page rd s = _
  simp only [walkTaken] at hopen
  simp only [execPotWalkDone, h, hheld, htaken, hchange, hopen, Bool.false_eq_true, if_false]

end

section
variable {ct : Sector} {n p : Nat} {en : Pot} (hpage : w.page = page) (hsector : potSector s page = n)
  (hplace : dataPlace s n = p) (hentry : pot s (sectorPage n) = en)
include hpage hsector hplace hentry

/-- A sector that verifies under the walk's VERSION and tag gives its plaintext. -/
theorem openWalk_verifies (hmac : macOf s en n w.version ct = w.tag) :
    openWalk s w ct = (darnRead s (placeEng p) n, some (decSector s en n ct)) := by
  unfold openWalk
  simp only [hpage, hsector, hplace, hentry, verifySector_verifies hmac, darnBack_same, ite_self,
    decSector_onlyMx (onlyMx_darnRead ..)]

/-- One that darn cannot mend gives none. -/
theorem openWalk_fails (hmac : macOf s en n w.version ct ≠ w.tag) (hdarn : darn (macOf s en n w.version) ct w.tag = none) :
    openWalk s w ct = (darnRead s (placeEng p) n, none) := by
  unfold openWalk
  simp only [hpage, hsector, hplace, hentry, verifySector_fails hmac hdarn]

end

/-- Places rest on the interleave key. -/
theorem dataPlace_congr {t : State} (h : t.mem.ikey = s.mem.ikey) (n : Nat) : dataPlace t n = dataPlace s n := by
  simp only [dataPlace, granPlace, pkgOf, interleave, bankPlace, iKey, h]

/-- From then on every page of the sector is denied. -/
theorem potBadPage_failWalk (s : State) (e page : Nat) : potBadPage (failWalk s e page) page = true := by
  have hbad : (failWalk s e page).mem.potBad =
      if s.mem.potBad.contains (page / 16) then s.mem.potBad else page / 16 :: s.mem.potBad := by
    unfold failWalk
    exact congrArg PotView.bad ((potView_memAlarm ..).trans (potView_redecide ..))
  unfold potBadPage
  rw [hbad]
  split
  · assumption
  · simp

end

/-- Settles O31: what a walk's result comes to, by what the walk and its sector are. -/
theorem walksResolveMisses : Obligations.WalksResolveMisses := by
  intro s e page rd m n p en
  refine ⟨exec_potWalkDone_none, fun w hw => ?_⟩
  have hpage := page_of_find hw
  generalize hkey : macOf s en n w.version = mac
  refine ⟨exec_potWalkDone_held hw, fun hheld hlerr hagain => ?_, fun hheld hread =>
    ⟨exec_potWalkDone_changing hw hheld hread, fun hchange => ?_⟩⟩
  · obtain ⟨hout, hwalk⟩ := walkAgain_reads s e.val page p w
    exact ⟨_, exec_potWalkDone_again hw hheld hlerr hagain, hout, hwalk⟩
  · have hplace : dataPlace (walkTaken s e.val page) n = p := dataPlace_congr rfl n
    have hkey' : macOf (walkTaken s e.val page) en n w.version = mac := hkey
    split
    · next hmac =>
      exact exec_potWalkDone_opens hw hheld hread hchange (openWalk_verifies hpage rfl hplace rfl (hkey' ▸ hmac))
    · next hmac =>
      intro hdarn
      exact ⟨_, exec_potWalkDone_fails hw hheld hread hchange
        (openWalk_fails hpage rfl hplace rfl (hkey' ▸ hmac) (hkey' ▸ hdarn)), potBadPage_failWalk ..⟩

end Sys2Proof.Machine

/-! PROOFS. A sector that a controller returns: opened, mended or poisoned (05 R137 to R151). -/

namespace Sys2Proof.Machine

/-! ## What an engine has at hand (R131, R135, R147) -/

section
variable {s t : State} {e : Nat}

theorem tryLines_of_no_wants (h : (mx s e).wants = []) : tryLines s e = s := by simp [tryLines, h]

theorem fillLeaves_of_no_todo (h : ∀ c ∈ s.mem.changes, c.2.todo = []) (e : Nat) : fillLeaves s e = s := by
  have hfold (l : List (Nat × Change)) (hl : ∀ c ∈ l, c.2.todo = []) (u : State) :
      l.foldl (fun s c => (c.2.todo.filter fun p => placeEng p == e).foldl (fun s p =>
        if cairnHas s p then fillLeaf s c.1 p else wantLine s c.2.new.pid false 3 p) s) u = u := by
    induction l generalizing u with
    | nil => rfl
    | cons c l ih =>
      rw [List.foldl_cons, hl c (List.mem_cons_self ..)]
      exact ih (fun x hx => hl x (List.mem_cons_of_mem _ hx)) u
  exact hfold _ h s

theorem settleLeaving_of_none_leaving (h : ∀ c ∈ (mx s e).cairn, c.leaving = false) : settleLeaving s e = s := by
  have hnone : (mx s e).cairn.filter (·.leaving) = [] := List.filter_eq_nil_iff.mpr fun c hc => by simp [h c hc]
  rw [settleLeaving, hnone]
  rfl

/-- Where no line, no fill and no line given up waits, the operations alone go on. -/
theorem engineOn_ops (hwants : (mx s e).wants = []) (hleaving : ∀ c ∈ (mx s e).cairn, c.leaving = false)
    (htodo : ∀ c ∈ s.mem.changes, c.2.todo = []) :
    engineOn s e = pumpAll s e (((mx s e).ops.map (·.sector)).eraseDups) := by
  simp only [engineOn, tryLines_of_no_wants hwants, fillLeaves_of_no_todo htodo, settleLeaving_of_none_leaving hleaving]

/-- What the cairn cache holds rests on its lines. -/
theorem cairnGet_congr (h : ∀ j, (mx t j).cairn = (mx s j).cairn ∧ (mx t j).pinned = (mx s j).pinned) (p : Nat) :
    cairnGet t p = cairnGet s p := by
  obtain ⟨hcairn, hpinned⟩ := h (placeEng p)
  simp only [cairnGet, hcairn, hpinned]

/-- A data sector lies with the engine of its offset (R13, R133). -/
theorem engineOf_sector (s : State) (n : Nat) : engineOf s (n * 128) = placeEng (dataPlace s n) := by
  have hpage : n * 128 / 2 ^ 21 = sectorPage n := by
    unfold sectorPage pageSectors
    omega
  have hgran : n * 128 / 8192 % 256 = n % pageSectors / 64 := by
    unfold pageSectors
    omega
  have hbank := (bankPlace s (BitVec.ofNat 23 (sectorPage n * 8 + n % pageSectors / 64 / 32))).isLt
  unfold engineOf dataPlace granPlace placeAt placeEng
  rw [hpage, hgran]
  omega

end

/-! ## The last sector of a master's read (R123, R132, R145) -/

/-- A master's read of the current generation that waits for one more sector, its first. -/
structure LastRead (s : State) (q : OpenReq) : Prop where
  left : q.left = 1
  got : q.got = []
  bad : q.bad = []
  who : q.who = .master
  port : q.req.mport ≠ 0xC0
  op : q.req.op = 0
  gen : q.gen = curGen s q.req.pid.val

theorem LastRead.congr {s t : State} {q : OpenReq} (h : LastRead s q) (hpart : t.part = s.part) : LastRead t q :=
  ⟨h.left, h.got, h.bad, h.who, h.port, h.op, h.gen.trans (by simp only [curGen, hpart])⟩

section
variable {s : State} {e : Nat} {q : OpenReq} {o : SecOp} {en : Pot}

/-- A current read is answered to its master. -/
theorem respond_read (h : LastRead s q) (o : OpenReq) (data : Bytes) (hreq : o.req = q.req) (hwho : o.who = q.who)
    (hgen : o.gen = q.gen) : respond s e o data = toMaster s e o data true := by
  have hport : ¬ (q.req.mport == 0xC0#8) = true := by simpa using h.port
  simp [respond, hreq, hwho, hgen, h.who, h.op, ← h.gen, hport]

/-- With its last sector a read is answered, and leaves the engine. -/
theorem sectorDone_answers (hreqs : (mx s e).reqs = [q]) (h : LastRead s q) (n : Nat) (d : Sector) :
    sectorDone s e q.rid n (some d) [] false = emit (setMx s e { mx s e with reqs := [] })
      (.rsp e q.req.tag q.req.mport [] (readBytes q.req [(n, d)] [])) := by
  have hlast := h.congr (t := setMx s e { mx s e with reqs := [] }) rfl
  simp [sectorDone, hreqs, h.left, h.got, h.bad, h.op, respond_read hlast, toMaster]

/-- So where its last sector poisons, and the fault has no context to lose. -/
theorem sectorDone_poisons (hreqs : (mx s e).reqs = [q]) (h : LastRead s q) (hctx : ctxMatch s q.req.ctx = false) (n : Nat) :
    sectorDone s e q.rid n none [] true = emit (setMx s e { mx s e with reqs := [] })
      (.rsp e q.req.tag q.req.mport [n] (readBytes q.req [] [n])) := by
  have hlast := h.congr (t := setMx s e { mx s e with reqs := [] }) rfl
  have hnone (o : Out) : ctxMatch (emit (setMx s e { mx s e with reqs := [] }) o) q.req.ctx = false := hctx
  simp [sectorDone, hreqs, h.left, h.got, h.bad, h.op, respond_read hlast, toMaster, loseHandle, hnone]

theorem popOp_last (hops : (mx s e).ops = [o]) : popOp s e o.sector = setMx s e { mx s e with ops := [] } := by
  simp [popOp, hops, dropFirst]

/-- Poison of a muted owner is counted, and no more. -/
theorem poisonSector_muted {pid : Nat} (h : s.mem.muted.contains pid = true) :
    poisonSector s e pid = mxCtr s e fun c => { c with poison := inc32 c.poison } := if_pos h

/-- A read's last operation is done: its sector is delivered. -/
theorem applyRead_delivers (hops : (mx s e).ops = [o]) (hreqs : (mx s e).reqs = [q]) (hrid : o.rid = q.rid) (h : LastRead s q)
    (pt : Sector) : let t := applyRead s e q o en pt
    t.out = .rsp e q.req.tag q.req.mport [] (readBytes q.req [(o.sector, pt)] []) :: s.out ∧
      mx t e = { mx s e with ops := [], reqs := [] } := by
  have hpop : (mx (setMx s e { mx s e with ops := [] }) e).reqs = [q] := by rw [mx_setMx_same, hreqs]
  have hdone := sectorDone_answers hpop (h.congr rfl) o.sector pt
  simp only [applyRead, h.op, popOp_last hops, hrid]
  simp only [hdone]
  refine ⟨rfl, ?_⟩
  change mx (setMx _ e _) e = _
  simp only [mx_setMx_same]

/-- A read's last operation fails: its sector poisons, and is counted. -/
theorem failOp_answers (hops : (mx s e).ops = [o]) (hreqs : (mx s e).reqs = [q]) (hrid : o.rid = q.rid) (h : LastRead s q)
    (hmuted : s.mem.muted.contains en.pid = true) (hctx : ctxMatch s q.req.ctx = false) : let t := failOp s e en o
    t.out = .rsp e q.req.tag q.req.mport [o.sector] (readBytes q.req [] [o.sector]) :: s.out ∧
      (mx t e).ctr.poison = inc32 (mx s e).ctr.poison ∧ (mx t e).ops = [] := by
  generalize hu : mxCtr (setMx s e { mx s e with ops := [] }) e (fun c => { c with poison := inc32 c.poison }) = u
  have hmx : mx u e = { mx s e with ops := [], ctr := { (mx s e).ctr with poison := inc32 (mx s e).ctr.poison } } := by
    rw [← hu, mxCtr]
    simp only [mx_setMx_same]
  have hdone := sectorDone_poisons (s := u) (by rw [hmx, hreqs]) (h.congr (by rw [← hu]; rfl)) (by rw [← hu]; exact hctx) o.sector
  have hfail : failOp s e en o = sectorDone u e q.rid o.sector none [] true := by
    have hpoison := poisonSector_muted (s := setMx s e { mx s e with ops := [] }) (e := e) hmuted
    rw [failOp, popOp_last hops, hpoison, hu, hrid]
  rw [hfail, hdone]
  refine ⟨by rw [← hu]; rfl, ?_⟩
  change (mx (setMx _ e _) e).ctr.poison = _ ∧ (mx (setMx _ e _) e).ops = []
  simp only [mx_setMx_same, hmx, and_self]

/-! ## The operations on a sector (R141, R149, R151) -/

theorem pump_done {n : Nat} (h : (mx s e).ops = []) (f : Nat) : pump s e n f = s := by
  cases f with
  | zero => rfl
  | succ f => simp [pump, h]

section
variable (hops : (mx s e).ops = [o]) (hreqs : (mx s e).reqs = [q]) (hrid : o.rid = q.rid)
include hops hreqs hrid

/-- Under a granule that failed the operation fails. -/
theorem pump_fails (hbad : granBad s o.sector = true) (f : Nat) :
    pump s e o.sector (f + 1) = pump (failOp s e (pot s (sectorPage o.sector)) o) e o.sector f := by
  simp [pump, hops, hreqs, hrid, hbad]

/-- With all it needs at hand it is done. -/
theorem pump_tries (hgood : granBad s o.sector = false) (hovfs : (mx s (engineOf s (o.sector * 128))).ovfs = []) {t : State}
    (htry : tryOp s e q o (pot s (sectorPage o.sector)) = some t) (f : Nat) :
    pump s e o.sector (f + 1) = pump t e o.sector f := by
  simp [pump, hops, hreqs, hrid, hgood, lineBusy, hovfs, htry]

end

section
variable {d : Sector} {tag : BitVec 64} {t : State} (hfull : o.full = false) (hct : o.ct = some d)
  (hline : en.mode = .fresh → cairnHas s (leafOf s o.sector en.fslot) = true)
  (htag : (if en.mode == .mangle then some 0 else tagGet s (dataPlace s o.sector)) = some tag)
include hfull hct hline htag

theorem tryOp_opens {pt : Sector} (hopen : openSector s e en o.sector d tag = (t, some pt)) :
    tryOp s e q o en = some (applyRead t e q o en pt) := by
  have hhas : ¬ (en.mode == .fresh && !cairnHas s (leafOf s o.sector en.fslot)) = true := by
    simpa using hline
  simp only [tryOp, if_neg hhas, hfull, hct, htag, hopen]
  rfl

theorem tryOp_poisons (hopen : openSector s e en o.sector d tag = (t, none)) :
    tryOp s e q o en = some (failOp t e en o) := by
  have hhas : ¬ (en.mode == .fresh && !cairnHas s (leafOf s o.sector en.fslot)) = true := by
    simpa using hline
  simp only [tryOp, if_neg hhas, hfull, hct, htag, hopen]
  rfl

end

end

/-! ## A sector is opened (R137, R141, R143, R144) -/

section
variable {s : State} {e key pid n : Nat} {en : Pot} {d : Sector} {tag : BitVec 64}

theorem darnRead_unrecorded (h : (mx s e).darn = []) (key : Nat) : darnRead s e key = s := by simp [darnRead, h]

/-- The first correction in an engine is recorded there, and counted. -/
theorem mx_darnRecord (h : (mx s e).darn = []) (key pid : Nat) : mx (darnRecord s e key pid) e =
    { mx s e with darn := [(key, 1)], ctr := { (mx s e).ctr with darnFix := inc32 (mx s e).ctr.darnFix } } := by
  simp [darnRecord, h, tset, tput, mxCtr]

theorem onlyMx_darnRecord_first (h : (mx s e).darn = []) (key pid : Nat) : OnlyMx s (darnRecord s e key pid) := by
  have hnew : (tget 0 (mx s e).darn key != 0 || (mx s e).darn.length ≥ 256) = false := by simp [h]
  simp only [darnRecord, hnew, Bool.false_eq_true, if_false]
  exact (onlyMx_setMx ..).trans (onlyMx_setMx ..)

theorem openSector_mangle (hgood : granBad s n = false) (hmode : en.mode = .mangle) :
    openSector s e en n d tag = (s, some (decSector s en n d)) := by
  simp [openSector, hgood, hmode]

section
variable {mac : Sector → BitVec 64} (hgood : granBad s n = false) (hmode : en.mode ≠ .mangle) (hdarn : (mx s e).darn = [])
  (hmac : macOf s en n (sectorVersion s en n) = mac)
include hgood hmode hdarn hmac

theorem openSector_verifies (h : mac d = tag) : openSector s e en n d tag = (s, some (decSector s en n d)) := by
  have hverify := verifySector_verifies (s := s) (e := e) (key := n) (pid := en.pid) h
  simp [openSector, hgood, hmode, hmac, hverify, darnRead_unrecorded hdarn, darnBack_same]

theorem openSector_fails (h : mac d ≠ tag) (hnone : darn mac d tag = none) : openSector s e en n d tag = (s, none) := by
  have hverify := verifySector_fails (s := s) (e := e) (key := n) (pid := en.pid) h hnone
  simp [openSector, hgood, hmode, hmac, hverify, darnRead_unrecorded hdarn]

theorem openSector_mends {x : Sector × BitVec 64} (h : mac d ≠ tag) (hsome : darn mac d tag = some x) :
    openSector s e en n d tag = (darnBack (darnRecord s e n en.pid) en.pid (dataPlace s n) (d, tag) x,
      some (decSector s en n x.1)) := by
  have hverify := verifySector_mends (s := s) (e := e) (key := n) (pid := en.pid) h hsome
  simp [openSector, hgood, hmode, hmac, hverify, darnRead_unrecorded hdarn]

end

/-- Wrong data is written back at real-time priority (R143). -/
theorem darnBack_writes {p : Nat} {old new : Sector × BitVec 64} (h : new.1 ≠ old.1) :
    Out.mcWrite (placePkg p) (placeSec p) new.1 .rt ∈ (darnBack s pid p old new).out := by
  have hback : darnBack s pid p old new = mcWrite s pid true p new.1 := if_pos (bne_iff_ne.mpr h.symm)
  rw [hback, out_mcWrite, nextPri_realTime]
  exact List.mem_cons_self ..

end

/-! ## A sector that a controller returns (R141, R151, R152) -/

section
variable {s u : State} {eng : Eng} {pkg : Fin 4} {sec : BitVec 29} {d : Sector} {odecc : Bool} {p : Nat}

/-- The state once a read has returned: it waits for no promotion and no second read. -/
def returned (s : State) (e p : Nat) : State :=
  let s1 := setMx s e { mx s e with late := dropFirst (fun l => l.pl == p && !l.write) (mx s e).late }
  setMx s1 e { mx s1 e with again := (mx s e).again.filter fun x => x != p }

theorem mx_returned (s : State) (e p j : Nat) : ∃ l a, mx (returned s e p) j = { mx s j with late := l, again := a } := by
  obtain rfl | hj := eq_or_ne j e
  · simp only [returned, mx_setMx_same]
    exact ⟨_, _, rfl⟩
  · simp only [returned, mx_setMx, if_neg hj]
    exact ⟨_, _, rfl⟩

theorem onlyMx_returned (s : State) (e p : Nat) : OnlyMx s (returned s e p) := (onlyMx_setMx ..).trans (onlyMx_setMx ..)

/-- The place of a package of the engine. -/
theorem placeEng_own (eng : Eng) (pkg : Fin 4) (sec : BitVec 29) :
    placeEng (placeAt (4 * eng.val + pkg.val) sec.toNat) = eng.val := by
  have h := sec.isLt
  unfold placeEng placeAt
  omega

theorem exec_mcReadReturn_ignored {lerr : Bool} (h : awaited s (placeAt (4 * eng.val + pkg.val) sec.toNat) = none) :
    exec (.mcReadReturn eng pkg sec d lerr odecc) s = .next s := by
  change execMcReadReturn eng pkg sec d lerr odecc s = _
  simp only [execMcReadReturn, h]

/-- A read that a link error spoilt, to be made once more. -/
def spoilt (s : State) (e p : Nat) : State :=
  let s1 := setMx s e { mx s e with late := dropFirst (fun l => l.pl == p && !l.write) (mx s e).late }
  setMx s1 e { mx s1 e with again := p :: (mx s e).again }

theorem exec_mcReadReturn_spoilt {a : Nat × Bool} (hp : placeAt (4 * eng.val + pkg.val) sec.toNat = p)
    (h : awaited s p = some a) (hagain : (mx s eng.val).again.contains p = false) :
    exec (.mcReadReturn eng pkg sec d true odecc) s = .next (mcRead (spoilt s eng.val p) a.1 a.2 p) := by
  change execMcReadReturn eng pkg sec d true odecc s = _
  simp only [execMcReadReturn, hp, h, hagain]
  rfl

theorem again_spoilt (s : State) (e p client : Nat) (rt : Bool) :
    (mx (mcRead (spoilt s e p) client rt p) e).again.contains p = true := by
  obtain ⟨k, l, h⟩ := mx_mcRead (spoilt s e p) client rt p e
  rw [h]
  simp only [spoilt, mx_setMx_same]
  simp

/-- What has come goes to what awaits it, and the engine goes on. -/
theorem exec_mcReadReturn_taken {a : Nat × Bool} (hp : placeAt (4 * eng.val + pkg.val) sec.toNat = p)
    (h : awaited s p = some a) : exec (.mcReadReturn eng pkg sec d false odecc) s =
      .next (engineOn (takeReturn (returned s eng.val p) p d) eng.val) := by
  change execMcReadReturn eng pkg sec d false odecc s = _
  simp only [execMcReadReturn, hp, h]
  rfl

end

/-! ### The sector of an operation -/

section
variable {s u t : State} {e p : Nat} {o : SecOp} {q : OpenReq} {d : Sector}

/-- An engine has one operation, which reads a sector of place `p` for the last sector of a master's read, and nothing of
the cairn is on its way. -/
structure ReadAwaited (s : State) (e p : Nat) (o : SecOp) (q : OpenReq) : Prop where
  ops : (mx s e).ops = [o]
  reqs : (mx s e).reqs = [q]
  wants : (mx s e).wants = []
  ovfs : (mx s e).ovfs = []
  lines : ∀ c ∈ (mx s e).cairn, c.leaving = false
  fills : ∀ c ∈ s.mem.changes, c.2.todo = []
  engine : placeEng p = e
  place : dataPlace s o.sector = p
  rid : o.rid = q.rid
  issued : o.issued = true
  unread : o.ct = none
  partly : o.full = false
  last : LastRead s q

/-- `u` is `s` with what was read in its operation. -/
structure Arrived (s u : State) (e : Nat) (o : SecOp) (d : Sector) : Prop where
  only : OnlyMx s u
  out : u.out = s.out
  engine : ∃ l a, mx u e = { mx s e with late := l, again := a, ops := [{ o with ct := some d }] }
  cairn : ∀ i, cairnGet u i = cairnGet s i

theorem ReadAwaited.awaited (h : ReadAwaited s e p o q) :
    awaited s p = some (q.req.pid.val, isRealTime q.req.mport.toNat) := by
  simp [Machine.awaited, h.engine, h.wants, h.ops, h.reqs, h.issued, h.unread, h.place, h.rid]

theorem takeReturn_op {r : State} (hwants : (mx r (placeEng p)).wants = []) (hops : (mx r (placeEng p)).ops = [o])
    (hissued : o.issued = true) (hunread : o.ct = none) (hplace : dataPlace r o.sector = p) (d : Sector) :
    takeReturn r p d = setMx r (placeEng p) { mx r (placeEng p) with ops := [{ o with ct := some d }] } := by
  simp [takeReturn, hwants, hops, hissued, hunread, hplace]

theorem ReadAwaited.arrived (h : ReadAwaited s e p o q) (d : Sector) :
    Arrived s (takeReturn (returned s e p) p d) e o d := by
  obtain ⟨l, a, hmx⟩ := mx_returned s e p e
  have hengine := h.engine
  subst hengine
  have htake := takeReturn_op (r := returned s (placeEng p) p) (by rw [hmx, h.wants]) (by rw [hmx, h.ops]) h.issued h.unread
    ((dataPlace_congr rfl _).trans h.place) d
  rw [htake]
  refine ⟨(onlyMx_returned ..).trans (onlyMx_setMx ..), rfl, ⟨l, a, by rw [mx_setMx_same, hmx]⟩, cairnGet_congr fun j => ?_⟩
  obtain ⟨l', a', hj⟩ := mx_returned s (placeEng p) p j
  rw [mx_setMx]
  split
  · next hje => rw [hmx, hje]; exact ⟨rfl, rfl⟩
  · rw [hj]; exact ⟨rfl, rfl⟩

/-- The engine goes on with that operation alone. -/
theorem ReadAwaited.goes_on (h : ReadAwaited s e p o q) (hu : Arrived s u e o d) : engineOn u e = pump u e o.sector 2 := by
  obtain ⟨l, a, hmx⟩ := hu.engine
  obtain ⟨-, -, -, hchanges, -⟩ := hu.only.table
  rw [engineOn_ops (by rw [hmx, h.wants]) (by rw [hmx]; exact h.lines) (by rw [hchanges]; exact h.fills), hmx]
  simp [pumpAll, hmx, List.eraseDups_cons]

theorem ReadAwaited.exec {eng : Eng} {pkg : Fin 4} {sec : BitVec 29} {odecc : Bool}
    (hp : placeAt (4 * eng.val + pkg.val) sec.toNat = p) (h : ReadAwaited s eng.val p o q) (d : Sector) :
    ∃ u, Arrived s u eng.val o d ∧ Machine.exec (.mcReadReturn eng pkg sec d false odecc) s = .next (pump u eng.val o.sector 2) := by
  have hu := h.arrived d
  exact ⟨_, hu, by rw [exec_mcReadReturn_taken hp h.awaited, h.goes_on hu]⟩

theorem leafOf_onlyMx (h : OnlyMx s u) (n fslot : Nat) : leafOf u n fslot = leafOf s n fslot := by
  obtain ⟨-, -, -, -, -, -, -, hikey, -⟩ := h.table
  simp only [leafOf, pkgOf, interleave, iKey, hikey]

theorem macOf_onlyMx (h : OnlyMx s u) (en : Pot) (n version : Nat) : macOf u en n version = macOf s en n version := by
  obtain ⟨-, -, -, -, hkeys, -⟩ := h.table
  obtain ⟨-, -, -, -, -, -, hpart, -⟩ := h.frame
  funext ct
  simp only [macOf, memKeys, mepochOf, ctagOf, part, hpart, hkeys]

/-- What the sector's decision rests on, as it stood when the sector was asked for. -/
theorem Arrived.reads (hu : Arrived s u e o d) : pot u = pot s ∧ granBad u = granBad s ∧ tagGet u = tagGet s ∧
    cairnHas u = cairnHas s ∧ u.mem.muted = s.mem.muted ∧ u.part = s.part ∧ leafOf u = leafOf s ∧ dataPlace u = dataPlace s ∧
    decSector u = decSector s ∧ ∀ en n, macOf u en n (sectorVersion u en n) = macOf s en n (sectorVersion s en n) := by
  have hcairn := hu.cairn
  obtain ⟨hpot, -, -, -, -, hgran, -, hikey, -, -, hmuted⟩ := hu.only.table
  have hmac (en : Pot) (n version : Nat) : macOf u en n version = macOf s en n version := macOf_onlyMx hu.only en n version
  have hversion (en : Pot) (n : Nat) : sectorVersion u en n = sectorVersion s en n := by
    simp only [sectorVersion, hcairn, leafOf_onlyMx hu.only]
  refine ⟨?_, ?_, funext fun i => by simp only [tagGet, hcairn], funext fun i => by simp only [cairnHas, hcairn],
    ?_, ?_, ?_, ?_, ?_, fun en n => by rw [hversion, hmac]⟩
  · exact funext fun k => by simp only [pot, hpot]
  · exact funext fun n => by simp only [granBad, hgran]
  · exact hmuted
  · obtain ⟨-, -, -, -, -, -, hpart, -⟩ := hu.only.frame
    exact hpart
  · exact funext fun n => funext fun f => leafOf_onlyMx hu.only n f
  · exact funext fun n => dataPlace_congr hikey n
  · exact funext fun en => funext fun n => funext fun d => decSector_onlyMx hu.only en n d

end

section
variable {s u t : State} {e p : Nat} {o : SecOp} {q : OpenReq} {d : Sector} {en : Pot}

/-- What `Arrived` says of the engine. -/
theorem ReadAwaited.engine_arrived (h : ReadAwaited s e p o q) (hu : Arrived s u e o d) :
    (mx u e).ops = [{ o with ct := some d }] ∧ (mx u e).reqs = [q] ∧ (mx u e).ovfs = [] ∧
    (mx u e).darn = (mx s e).darn ∧ (mx u e).ctr = (mx s e).ctr := by
  obtain ⟨l, a, hmx⟩ := hu.engine
  rw [hmx]
  exact ⟨rfl, h.reqs, h.ovfs, rfl, rfl⟩

/-- A sector that opens is delivered. -/
theorem ReadAwaited.delivers (h : ReadAwaited s e p o q) (hu : Arrived s u e o d) (hgood : granBad s o.sector = false)
    (hentry : pot s (sectorPage o.sector) = en)
    (hline : en.mode = .fresh → cairnHas s (leafOf s o.sector en.fslot) = true) {tag : BitVec 64}
    (htag : (if en.mode == .mangle then some 0 else tagGet s p) = some tag) {pt : Sector}
    (hopen : openSector u e en o.sector d tag = (t, some pt)) (hpart : t.part = u.part)
    (hops : (mx t e).ops = (mx u e).ops) (hreqs : (mx t e).reqs = (mx u e).reqs) :
    let r := pump u e o.sector 2
    r.out = .rsp e q.req.tag q.req.mport [] (readBytes q.req [(o.sector, pt)] []) :: t.out ∧
      mx r e = { mx t e with ops := [], reqs := [] } := by
  obtain ⟨hpot, hgran, htags, hhas, -, hpart', hleaf, hplace, -, -⟩ := hu.reads
  obtain ⟨hops', hreqs', hovfs', -, -⟩ := h.engine_arrived hu
  have htry := tryOp_opens (q := q) (o := { o with ct := some d }) h.partly rfl (by rw [hhas, hleaf]; exact hline)
    (by rw [htags, hplace, h.place]; exact htag) hopen
  obtain ⟨hout, hmx⟩ := applyRead_delivers (o := { o with ct := some d }) (en := en) (hops.trans hops') (hreqs.trans hreqs')
    h.rid (h.last.congr (hpart.trans hpart')) pt
  have hpump := pump_tries hops' hreqs' h.rid (by rw [hgran]; exact hgood)
    (by rw [engineOf_sector, hplace, h.place, h.engine]; exact hovfs') (by rw [hpot, hentry]; exact htry) 1
  have hdone := pump_done (e := e) (n := o.sector) (by rw [hmx]) 1
  rw [hpump.trans hdone]
  exact ⟨hout, hmx⟩

/-- The last sector of a read poisons, and is counted. -/
def SectorPoisoned (s t : State) (e : Nat) (o : SecOp) (q : OpenReq) : Prop :=
  t.out = .rsp e q.req.tag q.req.mport [o.sector] (readBytes q.req [] [o.sector]) :: s.out ∧
    (mx t e).ctr.poison = inc32 (mx s e).ctr.poison ∧ (mx t e).ops = []

section
variable (h : ReadAwaited s e p o q) (hu : Arrived s u e o d) (hentry : pot s (sectorPage o.sector) = en)
  (hmuted : s.mem.muted.contains en.pid = true) (hctx : ctxMatch s q.req.ctx = false)
include h hu hmuted hctx

theorem ReadAwaited.fails_op :
    SectorPoisoned s (pump (failOp u e en { o with ct := some d }) e o.sector 1) e o q := by
  obtain ⟨hops', hreqs', -, -, hctr⟩ := h.engine_arrived hu
  obtain ⟨-, -, -, -, hmuted', hpart, -⟩ := hu.reads
  have hctx' : ctxMatch u q.req.ctx = false := by simpa only [ctxMatch, ctx, ctxHandle, hpart] using hctx
  obtain ⟨hout, hpoison, hops⟩ := failOp_answers (en := en) hops' hreqs' h.rid (h.last.congr hpart)
    (by rw [hmuted']; exact hmuted) hctx'
  rw [pump_done hops]
  exact ⟨by rw [hout, hu.out], by rw [hpoison, hctr], hops⟩

include hentry

/-- A sector under a line that failed poisons. -/
theorem ReadAwaited.poisons_of_granBad (hbad : granBad s o.sector = true) :
    SectorPoisoned s (pump u e o.sector 2) e o q := by
  obtain ⟨hpot, hgran, -⟩ := hu.reads
  obtain ⟨hops', hreqs', -⟩ := h.engine_arrived hu
  have hpump := pump_fails hops' hreqs' h.rid (by rw [hgran]; exact hbad) 1
  rw [hpot, hentry] at hpump
  rw [hpump]
  exact h.fails_op hu hmuted hctx

/-- One that does not open poisons. -/
theorem ReadAwaited.poisons_of_closed (hgood : granBad s o.sector = false)
    (hline : en.mode = .fresh → cairnHas s (leafOf s o.sector en.fslot) = true) {tag : BitVec 64}
    (htag : (if en.mode == .mangle then some 0 else tagGet s p) = some tag)
    (hopen : openSector u e en o.sector d tag = (u, none)) : SectorPoisoned s (pump u e o.sector 2) e o q := by
  obtain ⟨hpot, hgran, htags, hhas, -, -, hleaf, hplace, -, -⟩ := hu.reads
  obtain ⟨hops', hreqs', hovfs', -, -⟩ := h.engine_arrived hu
  have htry := tryOp_poisons (q := q) (o := { o with ct := some d }) h.partly rfl (by rw [hhas, hleaf]; exact hline)
    (by rw [htags, hplace, h.place]; exact htag) hopen
  have hpump := pump_tries hops' hreqs' h.rid (by rw [hgran]; exact hgood)
    (by rw [engineOf_sector, hplace, h.place, h.engine]; exact hovfs') (by rw [hpot, hentry]; exact htry) 1
  rw [hpump]
  exact h.fails_op hu hmuted hctx

end

/-! ### How a read's sector opens (R137, R141, R143) -/

/-- In the Mangle mode a sector is decrypted as it comes. -/
theorem ReadAwaited.delivers_mangle (h : ReadAwaited s e p o q) (hu : Arrived s u e o d) (hgood : granBad s o.sector = false)
    (hmode : (pot s (sectorPage o.sector)).mode = .mangle) : let r := pump u e o.sector 2
    r.out = .rsp e q.req.tag q.req.mport []
        (readBytes q.req [(o.sector, decSector s (pot s (sectorPage o.sector)) o.sector d)] []) :: s.out ∧
      mx r e = { mx u e with ops := [], reqs := [] } := by
  obtain ⟨-, hgran, -, -, -, -, -, -, hdec, -⟩ := hu.reads
  have hopen := openSector_mangle (e := e) (d := d) (tag := 0) (by rw [hgran]; exact hgood) hmode
  rw [hdec] at hopen
  rw [← hu.out]
  exact h.delivers hu hgood rfl (by rw [hmode]; exact fun h => by cases h) (by rw [hmode]; rfl) hopen rfl rfl rfl

section
variable {tag : BitVec 64} {mac : Sector → BitVec 64} (h : ReadAwaited s e p o q) (hu : Arrived s u e o d)
  (hentry : pot s (sectorPage o.sector) = en) (hgood : granBad s o.sector = false) (hmode : en.mode ≠ .mangle)
  (hline : en.mode = .fresh → cairnHas s (leafOf s o.sector en.fslot) = true) (hdarn : (mx s e).darn = [])
  (htag : tagGet s p = some tag) (hmac : macOf s en o.sector (sectorVersion s en o.sector) = mac)
include h hu hentry hgood hmode hline hdarn htag hmac

/-- A sector whose tag matches its MAC is delivered. -/
theorem ReadAwaited.delivers_verified (hverifies : mac d = tag) : let r := pump u e o.sector 2
    r.out = .rsp e q.req.tag q.req.mport [] (readBytes q.req [(o.sector, decSector s en o.sector d)] []) :: s.out ∧
      mx r e = { mx u e with ops := [], reqs := [] } := by
  obtain ⟨-, hgran, -, -, -, -, -, -, hdec, hmacs⟩ := hu.reads
  obtain ⟨-, -, -, hdarn', -⟩ := h.engine_arrived hu
  have hopen := openSector_verifies (by rw [hgran]; exact hgood) hmode (hdarn'.trans hdarn) ((hmacs ..).trans hmac) hverifies
  rw [hdec] at hopen
  rw [← hu.out]
  exact h.delivers hu hgood hentry hline (by simp [hmode, htag]) hopen rfl rfl rfl

/-- One that darn cannot mend poisons. -/
theorem ReadAwaited.poisons_of_unmended (hmuted : s.mem.muted.contains en.pid = true) (hctx : ctxMatch s q.req.ctx = false)
    (hdiffers : mac d ≠ tag) (hnone : darn mac d tag = none) : SectorPoisoned s (pump u e o.sector 2) e o q := by
  obtain ⟨-, hgran, -, -, -, -, -, -, -, hmacs⟩ := hu.reads
  obtain ⟨-, -, -, hdarn', -⟩ := h.engine_arrived hu
  exact h.poisons_of_closed hu hentry hmuted hctx hgood hline (by simp [hmode, htag])
    (openSector_fails (by rw [hgran]; exact hgood) hmode (hdarn'.trans hdarn) ((hmacs ..).trans hmac) hdiffers hnone)

/-- One that darn mends is delivered mended, recorded, and written back where its data was wrong. -/
theorem ReadAwaited.delivers_mended {x : Sector × BitVec 64} (hdiffers : mac d ≠ tag) (hsome : darn mac d tag = some x) :
    let r := pump u e o.sector 2
    ∃ rest, r.out = .rsp e q.req.tag q.req.mport [] (readBytes q.req [(o.sector, decSector s en o.sector x.1)] []) :: rest ∧
      (mx r e).darn = [(o.sector, 1)] ∧ (mx r e).ctr.darnFix = inc32 (mx s e).ctr.darnFix ∧
      (x.1 ≠ d → Out.mcWrite (placePkg p) (placeSec p) x.1 .rt ∈ rest) := by
  obtain ⟨-, hgran, -, -, -, -, -, hplace, hdec, hmacs⟩ := hu.reads
  obtain ⟨-, -, -, hdarn', hctr⟩ := h.engine_arrived hu
  have hnone := hdarn'.trans hdarn
  have hopen := openSector_mends (by rw [hgran]; exact hgood) hmode hnone ((hmacs ..).trans hmac) hdiffers hsome
  rw [hdec, hplace, h.place] at hopen
  have hrecord := mx_darnRecord hnone o.sector en.pid
  have hback := treeStep_darnBack (darnRecord u e o.sector en.pid) en.pid p (d, tag) x
  have hqueues := hback.queues e
  simp only [queues, hrecord, EngQueues.mk.injEq] at hqueues
  obtain ⟨-, -, -, hreqs, hops, hdarnBack, hctrBack⟩ := hqueues
  obtain ⟨-, -, -, -, -, -, hpartRecord, -⟩ := (onlyMx_darnRecord_first hnone o.sector en.pid).frame
  obtain ⟨hout, hmx⟩ := h.delivers hu hgood hentry hline (by simp [hmode, htag]) hopen (hback.frame.1.trans hpartRecord)
    hops hreqs
  refine ⟨_, hout, ?_, ?_, fun hne => darnBack_writes hne⟩
  · rw [hmx]
    exact hdarnBack
  · rw [hmx, ← hctr]
    exact congrArg MxCtr.darnFix hctrBack

end

/-! ### A tag sector (R135) -/

/-- An engine's first line comes into its cache and drives none out. -/
theorem cairnPut_first {c : CLine} (hpl : c.pl = p) (hcairn : (mx s (placeEng p)).cairn = []) (hhas : cairnHas s p = false) :
    cairnPut s c = setMx s (placeEng p) { mx s (placeEng p) with cairn := [c] } := by
  simp [cairnPut, hpl, hhas, hcairn, cairnLines]

theorem cairnGet_unpinned (hpinned : (mx s (placeEng p)).pinned = []) (hline : isLine p = false) :
    cairnGet s p = (mx s (placeEng p)).cairn.find? fun c => c.pl == p := by
  simp [cairnGet, pinLine, hpinned, hline]

/-- A tag sector goes from its want into an empty cache. -/
theorem takeReturn_tagSector {w : Want} (hwants : (mx s (placeEng p)).wants = [w]) (hpl : w.pl = p) (himg : w.img = none)
    (hline : isLine p = false) (hcairn : (mx s (placeEng p)).cairn = []) (hpinned : (mx s (placeEng p)).pinned = [])
    (d : Sector) : let k := setMx s (placeEng p) { mx s (placeEng p) with wants := [] }
    takeReturn s p d = setMx k (placeEng p) { mx k (placeEng p) with cairn := [{ pl := p, d := d, by_ := w.client }] } := by
  generalize hk : setMx s (placeEng p) { mx s (placeEng p) with wants := [] } = k
  have hmk : mx k (placeEng p) = { mx s (placeEng p) with wants := [] } := by rw [← hk, mx_setMx_same]
  have hnone : cairnGet k p = none := by
    rw [cairnGet_unpinned (by rw [hmk, hpinned]) hline, hmk, hcairn]
    rfl
  have htake : takeReturn s p d = tagsArrive k w.client p d := by
    simp [takeReturn, hwants, hpl, himg, hline, ← hk]
  dsimp only
  rw [htake]
  simp only [tagsArrive, hnone]
  exact cairnPut_first rfl (by rw [hmk, hcairn]) (by rw [cairnHas, hnone]; rfl)

/-- A tag sector that the cache waits for goes into it, and nothing else goes on. -/
theorem tagSector_arrives {w : Want} (hengine : placeEng p = e) (hwants : (mx s e).wants = [w]) (hpl : w.pl = p)
    (himg : w.img = none) (hline : isLine p = false) (hcairn : (mx s e).cairn = []) (hpinned : (mx s e).pinned = [])
    (hops : (mx s e).ops = []) (hfills : ∀ c ∈ s.mem.changes, c.2.todo = []) (d : Sector) :
    let t := engineOn (takeReturn (returned s e p) p d) e
    (mx t e).wants = [] ∧ t.out = s.out ∧ cairnGet t p = some { pl := p, d := d, by_ := w.client } := by
  subst hengine
  obtain ⟨l, a, hmx⟩ := mx_returned s (placeEng p) p (placeEng p)
  have htake := takeReturn_tagSector (s := returned s (placeEng p) p) (by rw [hmx, hwants]) hpl himg hline
    (by rw [hmx, hcairn]) (by rw [hmx, hpinned]) d
  generalize takeReturn (returned s (placeEng p) p) p d = t at htake
  have hmt : mx t (placeEng p) = { mx s (placeEng p) with
      late := l, again := a, wants := [], cairn := [{ pl := p, d := d, by_ := w.client }] } := by
    simp only [htake, mx_setMx_same, hmx]
  have hrest : t.out = s.out ∧ t.mem.changes = s.mem.changes := by simp [htake, returned, setMx]
  have hstill : engineOn t (placeEng p) = t := by
    rw [engineOn_ops (by rw [hmt]) (by simp [hmt]) (by rw [hrest.2]; exact hfills), hmt, hops]
    rfl
  dsimp only
  rw [hstill]
  refine ⟨by rw [hmt], hrest.1, ?_⟩
  rw [cairnGet_unpinned (by rw [hmt, hpinned]) hline, hmt]
  simp

end

/-- Settles O32: each sector by what awaits it, and a read's by how it opens. -/
theorem readSectorsAreOpenedOrPoisoned : Obligations.ReadSectorsAreOpenedOrPoisoned := by
  intro s eng pkg sec d odecc p e m
  have hsec := sec.isLt
  refine ⟨fun lerr => exec_mcReadReturn_ignored, fun a ha hagain => ?_, fun hlines hfills => ⟨?_, ?_⟩⟩
  · refine ⟨mcRead (spoilt s e p) a.1 a.2 p, nextPri (spoilt s e p) (placeEng p) a.1 a.2,
      exec_mcReadReturn_spoilt rfl ha hagain, ?_, again_spoilt .., ?_⟩
    · rw [out_mcRead, placePkg_placeAt _ _ hsec, placeSec_placeAt _ _ hsec]
      rfl
    · obtain ⟨hpot, -⟩ := (onlyMx_mcRead (spoilt s e p) a.1 a.2 p).table
      exact hpot
  · intro o q hops hreqs hwants hovfs hplace hrid hissued hunread hpartly hleft hgot hbad hwho hport hop hgen en mac good fails
    have hmac : macOf s en o.sector (sectorVersion s en o.sector) = mac := rfl
    clear_value mac
    have h : ReadAwaited s e p o q := ⟨hops, hreqs, hwants, hovfs, hlines, hfills, placeEng_own .., hplace, hrid, hissued,
      hunread, hpartly, ⟨hleft, hgot, hbad, hwho, hport, hop, hgen⟩⟩
    obtain ⟨u, hu, hexec⟩ := h.exec (odecc := odecc) rfl d
    have hfails (hpoisons : s.mem.muted.contains en.pid = true → ctxMatch s q.req.ctx = false →
        SectorPoisoned s (pump u e o.sector 2) e o q) : fails := fun hmuted hctx hmatch =>
      ⟨_, hexec, hpoisons hmuted (hctx ▸ hmatch)⟩
    refine ⟨fun hbad => hfails fun hmuted hctx => h.poisons_of_granBad hu rfl hmuted hctx hbad,
      fun hgood hmode => ?_, fun hgood hmode hline hdarn tag htag => ?_⟩
    · obtain ⟨hout, hmx⟩ := h.delivers_mangle hu hgood hmode
      exact ⟨_, hexec, hout, by rw [hmx], by rw [hmx]⟩
    · split
      · next hverifies =>
        obtain ⟨hout, hmx⟩ := h.delivers_verified hu rfl hgood hmode hline hdarn htag hmac hverifies
        exact ⟨_, hexec, hout, by rw [hmx], by rw [hmx]⟩
      · next hdiffers =>
        split
        · next hnone => exact hfails fun hmuted hctx =>
            h.poisons_of_unmended hu rfl hgood hmode hline hdarn htag hmac hmuted hctx hdiffers hnone
        · next x hsome =>
          obtain ⟨rest, hout, hrecord, hcount, hwrite⟩ :=
            h.delivers_mended hu rfl hgood hmode hline hdarn htag hmac hdiffers hsome
          rw [placePkg_placeAt _ _ hsec, placeSec_placeAt _ _ hsec] at hwrite
          exact ⟨_, rest, hexec, hout, by rw [hrecord]; simp [tget], hcount, hwrite⟩
  · intro w hwants hpl himg hline hcairn hpinned hops
    have hawaited : awaited s p = some (w.client, w.rt) := by
      have hengine : placeEng p = e := placeEng_own ..
      have hfind : m.wants.find? (fun w => w.pl == p && w.img.isNone) = some w := by simp [hwants, hpl, himg]
      simp only [awaited, hengine]
      rw [hfind]
    exact ⟨_, exec_mcReadReturn_taken rfl hawaited,
      tagSector_arrives (placeEng_own ..) hwants hpl himg hline hcairn hpinned hops hfills d⟩

end Sys2Proof.Machine

/-! PROOFS. POT entries that change: written, filled and installed (05 R130, R131, R148). -/

namespace Sys2Proof.Machine

/-! ## Lists of steps -/

section
variable {α β : Type} {P : β → Prop} {f : β → α → β}

/-- What every step keeps, the steps of a list keep. -/
theorem foldl_keeps {l : List α} (hkeep : ∀ b, ∀ a ∈ l, P b → P (f b a)) {b : β} (h : P b) : P (l.foldl f b) := by
  induction l generalizing b with
  | nil => exact h
  | cons a l ih =>
    exact ih (fun b x hx => hkeep b x (List.mem_cons_of_mem _ hx)) (hkeep b a (List.mem_cons_self ..) h)

/-- What one step of a list attains and every step keeps holds after the list. -/
theorem foldl_attains {l : List α} {a : α} (ha : a ∈ l) (hkeep : ∀ b a, P b → P (f b a)) (hit : ∀ b, P (f b a)) (b : β) :
    P (l.foldl f b) := by
  obtain ⟨l₁, l₂, rfl⟩ := List.append_of_mem ha
  rw [List.foldl_append, List.foldl_cons]
  exact foldl_keeps (fun b a _ => hkeep b a) (hit _)

/-- An entry of a table after a write is the one written or was there. -/
theorem eq_or_mem_of_mem_tput {t : Tbl α} {i : Nat} {x : α} {y : Nat × α} (h : y ∈ tput t i x) : y = (i, x) ∨ y ∈ t := by
  induction t with
  | nil => exact .inl (List.mem_singleton.mp h)
  | cons k t ih =>
    obtain ⟨k, v⟩ := k
    simp only [tput] at h
    split at h
    · exact (List.mem_cons.mp h).imp_right (List.mem_cons_of_mem _)
    · split at h
      · exact List.mem_cons.mp h
      · rcases List.mem_cons.mp h with h | h
        · exact .inr (h ▸ List.mem_cons_self ..)
        · exact (ih h).imp_right (List.mem_cons_of_mem _)

end

/-! ## An entry that is written (R130 step 3, R148) -/

section
variable {s t : State} {page : Nat} {x : Pot}

theorem bumpLine_isSome {client : Nat} {l : CLine} {i base : Nat}
    (h : minorOf l.d i < 0x3FFF ∨ majorOf l.d + 1 < 2 ^ 42) : (bumpLine s client l i base).isSome = true := by
  unfold bumpLine
  dsimp only
  split
  · rfl
  · next hminor =>
    rw [if_pos (h.resolve_left hminor)]
    rfl

/-- A sector can be written where its mode needs no version, or its leaf line can give one. -/
theorem writeSector_isSome {client : Nat} {rt : Bool} {en : Pot} {n : Nat} {pt : Sector}
    (h : en.mode ≠ .fresh ∨ ∃ l, cairnGet s (leafOf s n en.fslot) = some l ∧
      (minorOf l.d (n % 64) < 0x3FFF ∨ majorOf l.d + 1 < 2 ^ 42)) : ∃ t, writeSector s client rt en n pt = some t := by
  rw [← Option.isSome_iff_exists]
  unfold writeSector
  dsimp only
  split
  · rfl
  · rw [Option.isSome_map]
    rcases h with h | ⟨l, hline, hversion⟩
    · rw [if_neg (by simpa using h)]
      rfl
    · split
      · rw [nextVersion, hline]
        exact bumpLine_isSome hversion
      · rfl

/-- The POT sector of a page is passed to its controller with the entry `x` in it. -/
def PotWritten (s : State) (page : Nat) (x : Pot) (t : State) : Prop :=
  ∃ pri, Out.mcWrite (placePkg (dataPlace s (potSector s page))) (placeSec (dataPlace s (potSector s page)))
    (encSector s (pot (setPot s page x) (sectorPage (potSector s page))) (potSector s page)
      (potImage (setPot s page x) page)) pri ∈ t.out

theorem PotWritten.mono {u : State} (h : PotWritten s page x t) (hout : t.out <:+ u.out) : PotWritten s page x u :=
  h.imp fun _ h => hout.subset h

/-- An entry that is at hand is written: the table has it, and so has memory where the POT lies there. -/
theorem setEntry_writes (h : potAtHand s page x = true) :
    TreeStep (setPot s page x) (setEntry s page x) ∧ (s.mem.potLive = true → PotWritten s page x (setEntry s page x)) := by
  have hunpack : setEntry s page x = if s.mem.potLive then
      (writeSector (setPot s page x) 0 true (pot (setPot s page x) (sectorPage (potSector s page))) (potSector s page)
        (potImage (setPot s page x) page)).getD
        (memAlarm (setPot s page x) (engineOf (setPot s page x) (potSector s page * 128)) 0)
      else setPot s page x := rfl
  rw [hunpack]
  cases hlive : s.mem.potLive with
  | false => exact ⟨.refl _, fun h => by cases h⟩
  | true =>
    have hversion : (pot (setPot s page x) (sectorPage (potSector s page))).mode ≠ .fresh ∨
        ∃ l, cairnGet (setPot s page x) (leafOf (setPot s page x) (potSector s page)
          (pot (setPot s page x) (sectorPage (potSector s page))).fslot) = some l ∧
        (minorOf l.d (potSector s page % 64) < 0x3FFF ∨ majorOf l.d + 1 < 2 ^ 42) := by
      simp only [potAtHand, hlive, Bool.not_true, Bool.false_or, Bool.or_eq_true, bne_iff_ne, Option.any_eq_true,
        decide_eq_true_eq] at h
      exact h
    obtain ⟨t, ht⟩ := writeSector_isSome (client := 0) (rt := true) (pt := potImage (setPot s page x) page) hversion
    obtain ⟨htree, hout⟩ := writeSector_writes ht
    rw [if_pos rfl, ht]
    exact ⟨htree, fun _ => hout⟩

/-- What `setEntry_writes` says of the state before. -/
theorem setEntry_frame (h : potAtHand s page x = true) : pot (setEntry s page x) page = x ∧
    (setEntry s page x).part = s.part ∧ (setEntry s page x).keys = s.keys ∧ (setEntry s page x).cmd = s.cmd ∧
    (setEntry s page x).mem.changes = s.mem.changes ∧ s.out <:+ (setEntry s page x).out ∧
    ∀ e, queues (mx (setEntry s page x) e) = queues (mx s e) := by
  obtain ⟨htree, -⟩ := setEntry_writes h
  obtain ⟨hpart, hkeys, hcmd, -, hpot, -, -, -, -, -, hchanges⟩ := htree.frame
  refine ⟨?_, hpart, hkeys, hcmd, hchanges, htree.out, htree.queues⟩
  rw [pot, hpot]
  exact pot_setPot_same ..

/-- Where `s` is a state whose engines alone have gone on, the POT's sector is the same. -/
theorem PotWritten.of_onlyMx {u : State} (hs : OnlyMx s u) (h : PotWritten u page x t) : PotWritten s page x t := by
  obtain ⟨m, o, tel, rfl⟩ := hs
  exact h

end

/-! ## A fill begins (R131) -/

/-- `t` is `s` but for sectors of the cairn that have been asked for. -/
structure Fetching (s t : State) : Prop where
  tree : TreeStep s t
  cairn : ∀ j, (mx t j).cairn = (mx s j).cairn ∧ (mx t j).pinned = (mx s j).pinned

section
variable {s t u : State} {e page : Nat}

theorem Fetching.refl (s : State) : Fetching s s := ⟨.refl s, fun _ => ⟨rfl, rfl⟩⟩

theorem Fetching.trans (h : Fetching s t) (k : Fetching t u) : Fetching s u where
  tree := h.tree.trans k.tree
  cairn j := ⟨(k.cairn j).1.trans (h.cairn j).1, (k.cairn j).2.trans (h.cairn j).2⟩

theorem Fetching.cairnHas (h : Fetching s t) (p : Nat) : cairnHas t p = cairnHas s p := by
  simp only [Machine.cairnHas, cairnGet_congr h.cairn]

theorem fetching_want (s : State) (client : Nat) (rt : Bool) (p : Nat) : Fetching s (want s client rt p) := by
  refine ⟨treeStep_want .., fun j => ?_⟩
  unfold want
  dsimp only
  split
  · exact ⟨rfl, rfl⟩
  · obtain ⟨k, l, h⟩ := mx_mcRead (setMx s (placeEng p) { mx s (placeEng p) with
      wants := (mx s (placeEng p)).wants ++ [{ pl := p, client := client, rt := rt }] }) client rt p j
    rw [h, mx_setMx]
    split
    · next hj => rw [hj]; exact ⟨rfl, rfl⟩
    · exact ⟨rfl, rfl⟩

theorem fetching_wantLine (s : State) (client : Nat) (rt : Bool) (f p : Nat) : Fetching s (wantLine s client rt f p) := by
  induction f generalizing s p with
  | zero => exact .refl s
  | succ f ih =>
    unfold wantLine
    split
    · exact .refl s
    · split
      · exact fetching_want ..
      · split
        · exact .refl s
        · exact (fetching_want ..).trans (ih ..)

/-- A fill whose leaf lines are not at hand asks for them. -/
theorem fetching_fillLeaves (h : ∀ c ∈ s.mem.changes, ∀ p ∈ c.2.todo, cairnHas s p = false) (e : Nat) :
    Fetching s (fillLeaves s e) := by
  unfold fillLeaves
  refine foldl_keeps (P := Fetching s) (fun b c hc hb => ?_) (.refl s)
  refine foldl_keeps (P := Fetching s) (fun k p hp hk => ?_) hb
  have hmissing : cairnHas k p = false := (hk.cairnHas p).trans (h c hc p (List.mem_filter.mp hp).1)
  rw [hmissing]
  exact hk.trans (fetching_wantLine ..)

/-- The page in FILL, before its leaf lines are taken. -/
def fillBegun (s : State) (page : Nat) (c : Change) : State :=
  { s with mem := { s.mem with changes := tput s.mem.changes page c } }

/-- Where the leaf lines to be advanced are not at hand, the fill waits for them. -/
theorem beginFill_waits {c : Change} {todo : List Nat}
    (htodo : (if c.new.mode == .fresh then leavesOf s page c.new.fslot else []) = todo)
    (hmissing : ∀ p ∈ todo, cairnHas s p = false) (hothers : ∀ x ∈ s.mem.changes, x.2.todo = []) :
    Fetching (fillBegun s page { c with filling := true, todo := todo }) (beginFill s page c) := by
  subst htodo
  unfold beginFill
  generalize (if c.new.mode == .fresh then leavesOf s page c.new.fslot else []) = todo at hmissing ⊢
  refine foldl_keeps (P := Fetching _) (fun b e _ hb => hb.trans ?_) (.refl (fillBegun s page { c with filling := true, todo := todo }))
  refine fetching_fillLeaves (fun x hx p hp => ?_) e
  obtain ⟨-, -, -, -, -, -, -, -, -, -, hchanges⟩ := hb.tree.frame
  rw [hb.cairnHas]
  rw [hchanges] at hx
  rcases eq_or_mem_of_mem_tput hx with rfl | hx
  · exact hmissing p hp
  · rw [hothers x hx] at hp
    cases hp

end

/-! ## An entry is installed (R130 step 5) -/

/-- No request waits in any engine. -/
def NonePark (s : State) : Prop := ∀ e, (mx s e).missq = []

section
variable {s t : State} {page : Nat}

theorem nonePark_of_queues (h : ∀ e, queues (mx t e) = queues (mx s e)) (hs : NonePark s) : NonePark t := fun e =>
  (congrArg EngQueues.missq (h e)).trans (hs e)

theorem nonePark_of_all (h : ∀ x ∈ s.mem.mx, x.2.missq = []) : NonePark s := by
  have htable (t : Tbl Mx) (ht : ∀ x ∈ t, x.2.missq = []) (e : Nat) : (tget {} t e).missq = [] := by
    induction t with
    | nil => rfl
    | cons x t ih =>
      obtain ⟨k, m⟩ := x
      rw [tget]
      split
      · exact ht _ (List.mem_cons_self ..)
      · exact ih fun y hy => ht y (List.mem_cons_of_mem _ hy)
  exact htable _ h

theorem nonePark_setMx {e : Nat} {m : Mx} (h : NonePark s) (hm : m.missq = []) : NonePark (setMx s e m) := fun j => by
  rw [mx_setMx]
  split
  · exact hm
  · exact h j

theorem nonePark_retireDarn (h : ∀ x ∈ s.mem.mx, x.2.missq = []) : NonePark (retireDarn s page) :=
  nonePark_of_all fun x hx => by
    obtain ⟨y, hy, rfl⟩ := List.mem_map.mp (List.mem_filter.mp hx).1
    exact h y hy

/-- With no request waiting, deciding again changes nothing. -/
theorem redecide_nonePark (h : NonePark s) (e page : Nat) : redecide s e page = setMx s e { mx s e with missq := [] } := by
  simp [redecide, h e]

/-- The change of a page is over. -/
def changeOver (s : State) (page : Nat) : State :=
  { s with mem := { s.mem with changes := terase s.mem.changes page } }

/-- `t` is `s` with its engines' slices and walks changed, and no request waiting. -/
structure SlicesOnly (s t : State) : Prop where
  only : OnlyMx s t
  out : t.out = s.out
  park : NonePark t

theorem SlicesOnly.setMx (h : SlicesOnly s t) (e : Nat) {m : Mx} (hm : m.missq = (mx t e).missq) :
    SlicesOnly s (setMx t e m) :=
  ⟨h.only.trans (onlyMx_setMx ..), h.out, nonePark_setMx h.park (hm.trans (h.park e))⟩

/-- Taking an entry in changes a slice alone. -/
theorem cacheIn_slice (s : State) (e page : Nat) (x : Pot) :
    ∃ l, cacheIn s e page x = Machine.setMx s e { mx s e with cache := l } := ⟨_, rfl⟩

theorem SlicesOnly.cacheIn (h : SlicesOnly s t) (e page : Nat) (x : Pot) : SlicesOnly s (cacheIn t e page x) := by
  obtain ⟨l, hl⟩ := cacheIn_slice t e page x
  rw [hl]
  exact h.setMx e rfl

theorem SlicesOnly.redecide (h : SlicesOnly s t) (e page : Nat) : SlicesOnly s (redecide t e page) := by
  rw [redecide_nonePark h.park]
  exact h.setMx e (h.park e).symm

/-- With no request waiting, installing an entry ends its change and reaches the engines' slices alone. -/
theorem install_nonePark (h : NonePark s) (page : Nat) : SlicesOnly (changeOver s page) (install s page) := by
  unfold install
  refine foldl_keeps (P := SlicesOnly (changeOver s page)) (fun b e _ hb => ?_) ⟨.rfl' _, rfl, h⟩
  have hwalks := hb.setMx e (m := { mx b e with walks := (mx b e).walks.filter fun w => w.page != page }) rfl
  exact (hwalks.cacheIn e page (pot b page)).redecide e page

/-- Waits of which none is over go on. -/
theorem foldl_no_waits {upd : List Wait} {ended : Wait → Bool} (hupd : upd = s.cmd.waits) (hnone : ∀ w ∈ s.cmd.waits, ended w = false)
    (f : State → Wait → State) : (upd.filter ended).foldl f { s with cmd := { s.cmd with waits := upd.filter fun w => !ended w } } = s := by
  subst hupd
  have hnil : s.cmd.waits.filter ended = [] := List.filter_eq_nil_iff.mpr fun w hw => by rw [hnone w hw]; decide
  have hself : (s.cmd.waits.filter fun w => !ended w) = s.cmd.waits :=
    List.filter_eq_self.mpr fun w hw => by rw [hnone w hw]; rfl
  rw [hnil, hself]
  rfl

/-- With no page command waiting, nothing waits for the page. -/
theorem pageDone_idle (h : ∀ w ∈ s.cmd.waits, ∀ p l n, w.kind ≠ .pages p l n) (page : Nat) : pageDone s page = s := by
  unfold pageDone
  dsimp only
  refine foldl_no_waits (s := s) ((List.map_congr_left fun w hw => ?_).trans (List.map_id _)) (fun w hw => ?_) _
  · split
    · next p l n hk => exact absurd hk (h w hw p l n)
    · rfl
  · split
    · next p l n hk => exact absurd hk (h w hw p l n)
    · rfl

end

/-! ## The sectors of a fill (R131) -/

section
variable (s : State) (client e n : Nat) (l : List (Nat × Sector))

theorem treeStep_charge (rt : Bool) : TreeStep s (charge s e client n rt) := by
  refine .of_onlyMx (onlyMx_charge ..) (out_charge s e client n rt ▸ List.suffix_rfl) fun j => ?_
  obtain ⟨k, h⟩ := mx_charge s e client n rt j
  rw [h]
  rfl

/-- The writes of a list that fall to one engine, at the priorities that the engine gives them. -/
def engineWrites (s : State) (client : Nat) (l : List (Nat × Sector)) (e : Nat) : List Out :=
  (l.filter fun w => placeEng w.1 == e).mapIdx fun i w => Out.mcWrite (placePkg w.1) (placeSec w.1) w.2
    (priOf (mx s e) client false (decide (i < tget 0 (mx s e).tokens client)))

/-- One engine's part of `mcWriteAll`. -/
def writeEngine (s : State) (client : Nat) (l : List (Nat × Sector)) (e : Nat) : State :=
  let ws := l.filter fun w => placeEng w.1 == e
  let k := tget 0 (mx s e).tokens client
  let s1 := charge s e client ws.length false
  let m := mx s1 e
  let late := (ws.drop k).map fun w => ({ pl := w.1, write := true, since := now s } : Late)
  let s2 := if client == 32 && k == 0 && late.isEmpty then s1 else setMx s1 e { m with late := m.late ++ late }
  { s2 with out := (engineWrites s client l e).reverse ++ s2.out }

theorem mcWriteAll_eq : mcWriteAll s client l = (List.range 8).foldl (fun s e => writeEngine s client l e) s := rfl

theorem treeStep_writeEngine : TreeStep s (writeEngine s client l e) := by
  have hsend (t : State) (o : List Out) : TreeStep t { t with out := o ++ t.out } := ⟨rfl, List.suffix_append .., fun _ => rfl⟩
  unfold writeEngine
  dsimp only
  split
  · exact (treeStep_charge ..).trans (hsend ..)
  · refine .trans (.trans (treeStep_charge s client e _ false) (treeStep_setMx _ _ ?_)) (hsend ..)
    rfl

theorem treeStep_mcWriteAll : TreeStep s (mcWriteAll s client l) := .foldl (fun s e => treeStep_writeEngine s client e l) _ _

theorem treeStep_putTagSectors (pin : Bool) : TreeStep s (putTagSectors s l pin) := by
  unfold putTagSectors
  refine .foldl (fun s e => ?_) _ _
  exact treeStep_setMx s e rfl

theorem treeStep_fillPage (page : Nat) (c : Change) : TreeStep s (fillPage s page c) := by
  unfold fillPage
  dsimp only
  split
  · exact treeStep_mcWriteAll ..
  · exact (treeStep_mcWriteAll ..).trans (treeStep_putTagSectors ..)

/-- A sector reaches its controller, at some priority. -/
def SectorSent (p : Nat) (d : Sector) (t : State) : Prop := ∃ pri, Out.mcWrite (placePkg p) (placeSec p) d pri ∈ t.out

variable {s l} in
theorem SectorSent.mono {t : State} {p : Nat} {d : Sector} (h : SectorSent p d s) (hout : s.out <:+ t.out) : SectorSent p d t :=
  h.imp fun _ h => hout.subset h

variable {l} in
theorem sectorSent_writeEngine {p : Nat} {d : Sector} (h : (p, d) ∈ l) :
    SectorSent p d (writeEngine s client l (placeEng p)) := by
  have hmine : (p, d) ∈ l.filter fun w => placeEng w.1 == placeEng p := List.mem_filter.mpr ⟨h, beq_self_eq_true _⟩
  obtain ⟨i, hi, hget⟩ := List.getElem_of_mem hmine
  refine ⟨priOf (mx s (placeEng p)) client false (decide (i < tget 0 (mx s (placeEng p)).tokens client)), ?_⟩
  refine List.mem_append_left _ (List.mem_reverse.mpr ?_)
  refine List.mem_mapIdx.mpr ⟨i, hi, ?_⟩
  simp only [hget]

variable {l} in
/-- Every sector of a list reaches its controller. -/
theorem sectorSent_mcWriteAll {p : Nat} {d : Sector} (h : (p, d) ∈ l) (hp : p < 2 ^ 34) :
    SectorSent p d (mcWriteAll s client l) := by
  rw [mcWriteAll_eq]
  exact foldl_attains (List.mem_range.mpr (placeEng_lt hp)) (fun b e hb => hb.mono (treeStep_writeEngine b client e l).out)
    (fun b => sectorSent_writeEngine b client h) s

/-- A fill writes every sector of the page as zeros under the new entry. -/
theorem sectorSent_fillPage {page n : Nat} (c : Change) (hlow : page * pageSectors ≤ n) (hhigh : n < (page + 1) * pageSectors) :
    SectorSent (dataPlace s n) (encSector s c.new n 0) (fillPage s page c) := by
  have hmem : (dataPlace s n, encSector s c.new n 0) ∈ fillData s page c.new :=
    List.mem_map.mpr ⟨n, mem_span.mpr ⟨hlow, by rw [Nat.succ_mul] at hhigh; exact hhigh⟩, rfl⟩
  unfold fillPage
  dsimp only
  split
  · exact sectorSent_mcWriteAll _ _ hmem (dataPlace_lt ..)
  · exact (sectorSent_mcWriteAll _ _ (List.mem_append_left _ hmem) (dataPlace_lt ..)).mono (treeStep_putTagSectors ..).out

end

/-! ## Changes that go on (R130, R131) -/

section
variable {s : State} {page : Nat} {c : Change} (h : s.mem.changes.find? (fun x => x.1 == page) = some (page, c))
include h

theorem exec_potUpdateDrained_waits (hwait : c.filling = true ∨ c.torn = true ∨ pageBusy s page = true ∨ potBusy s page = true) :
    exec (.potUpdateDrained page) s = .next s := by
  change execPotUpdateDrained page s = _
  simp only [execPotUpdateDrained, h, Bool.or_eq_true, or_assoc, hwait, if_true]

theorem exec_potUpdateDrained_writes (hfill : c.filling = false) (htorn : c.torn = false) (hpage : pageBusy s page = false)
    (hpot : potBusy s page = false) : exec (.potUpdateDrained page) s = .next (writeEntry s page c) := by
  change execPotUpdateDrained page s = _
  simp [execPotUpdateDrained, h, hfill, htorn, hpage, hpot]

theorem exec_pageFillDone_waits (hwait : c.filling = false ∨ c.todo ≠ [] ∨ potBusy s page = true) :
    exec (.pageFillDone page) s = .next s := by
  change execPageFillDone page s = _
  have hnot : (c.filling && c.todo.isEmpty && !potBusy s page) = false := by
    rcases hwait with hwait | hwait | hwait <;> simp [hwait]
  simp only [execPageFillDone, h, hnot, Bool.false_eq_true, if_false]

theorem exec_pageFillDone_ends (hfill : c.filling = true) (htodo : c.todo = []) (hpot : potBusy s page = false) :
    exec (.pageFillDone page) s = .next (endFill s page c) := by
  change execPageFillDone page s = _
  simp [execPageFillDone, h, hfill, htodo, hpot]

end

section
variable {s t : State} {page : Nat} {c : Change} {x : Pot}

theorem changing_changeOver (s : State) (page : Nat) : changing (changeOver s page) page = false := by
  simp [changing, changeOver, terase]

/-- An entry is written and installed, and its change is over, where no request and no command waits. -/
structure EntryInstalled (s t : State) (page : Nat) (x : Pot) : Prop where
  entry : pot t page = x
  ended : changing t page = false
  part : t.part = s.part
  keys : t.keys = s.keys
  out : s.out <:+ t.out
  written : s.mem.potLive = true → PotWritten s page x t

theorem entryInstalled (hpark : NonePark s) (hwaits : ∀ w ∈ s.cmd.waits, ∀ p l n, w.kind ≠ .pages p l n)
    (hhand : potAtHand s page x = true) :
    EntryInstalled s (pageDone (install (setEntry s page x) page) page) page x := by
  obtain ⟨hentry, hpart, hkeys, hcmd, -, hout, hqueues⟩ := setEntry_frame hhand
  have hinstall := install_nonePark (nonePark_of_queues hqueues hpark) page
  obtain ⟨-, -, -, hkeys', -, hcmd', hpart', -⟩ := hinstall.only.frame
  obtain ⟨hpot', -, -, hchanges', -⟩ := hinstall.only.table
  have hout' := hinstall.out
  have hidle := pageDone_idle (s := install (setEntry s page x) page) (by rw [hcmd']; exact hcmd ▸ hwaits) page
  rw [hidle]
  refine ⟨?_, ?_, hpart'.trans hpart, hkeys'.trans hkeys, ?_, fun hlive => ((setEntry_writes hhand).2 hlive).mono ?_⟩
  · rw [pot, hpot']
    exact hentry
  · rw [changing, hchanges']
    exact changing_changeOver (setEntry s page x) page
  · rw [hout']
    exact hout
  · rw [hout']
    exact List.suffix_rfl

theorem leavesOf_congr (h : t.mem.ikey = s.mem.ikey) (page fslot : Nat) : leavesOf t page fslot = leavesOf s page fslot := by
  simp only [leavesOf, leafOf, pkgOf, interleave, iKey, h]

/-- While the POT is not in memory, writing an entry writes the table alone. -/
theorem setEntry_outside (h : s.mem.potLive = false) (page : Nat) (x : Pot) : setEntry s page x = setPot s page x :=
  if_neg (by change ¬ s.mem.potLive = true; simp [h])

/-- A page that becomes LIVE goes to FILL. -/
theorem writeEntry_live (h : c.new.state = .live) : writeEntry s page c =
    beginFill (setEntry (retireDarn s page) page { c.new with state := .fill }) page c := by
  simp [writeEntry, h]

/-- Any other takes the new entry. -/
theorem writeEntry_other (h : c.new.state ≠ .live) : writeEntry s page c =
    pageDone (install (setEntry (retireDarn s page) page c.new) page) page := by
  simp [writeEntry, h]

/-- The state in which the entry is written, and a fill that begins there (R130, R131). -/
theorem fill_begins {todo : List Nat} (hhand : potAtHand (retireDarn s page) page x = true)
    (htodo : (if c.new.mode == .fresh then leavesOf s page c.new.fslot else []) = todo)
    (hmissing : ∀ p ∈ todo, cairnHas (setEntry (retireDarn s page) page x) p = false)
    (hothers : ∀ x ∈ s.mem.changes, x.2.todo = []) :
    let t := beginFill (setEntry (retireDarn s page) page x) page c
    pot t page = x ∧ t.part = s.part ∧ t.keys = s.keys ∧ (page, { c with filling := true, todo := todo }) ∈ t.mem.changes ∧
      (s.mem.potLive = true → PotWritten s page x t) := by
  obtain ⟨hentry, hpart, hkeys, -, hchanges, -, -⟩ := setEntry_frame hhand
  have hleaves : (if c.new.mode == .fresh then leavesOf (setEntry (retireDarn s page) page x) page c.new.fslot else []) = todo := by
    obtain ⟨-, -, -, -, -, -, -, -, -, hikey, -⟩ := (setEntry_writes hhand).1.frame
    rw [leavesOf_congr hikey]
    exact htodo
  have hfetch := beginFill_waits (s := setEntry (retireDarn s page) page x) (page := page) hleaves hmissing
    (by rw [hchanges]; exact hothers)
  obtain ⟨hpart', hkeys', -, -, hpot', -, -, -, -, -, hchanges'⟩ := hfetch.tree.frame
  refine ⟨?_, hpart'.trans hpart, hkeys'.trans hkeys, ?_, fun hlive => ?_⟩
  · rw [pot, hpot']
    exact hentry
  · rw [hchanges']
    exact mem_tput ..
  · exact (((setEntry_writes hhand).2 hlive).mono hfetch.tree.out).of_onlyMx (onlyMx_retireDarn s page)

end

/-- Settles O28: an entry that is written, by what becomes of its page, and a fill that ends. -/
theorem changedEntriesAreWrittenThenFilled : Obligations.ChangedEntriesAreWrittenThenFilled := by
  intro s page c hfind still first last potOut
  refine ⟨fun hfill htorn hpage hpot hothers hhand => ?_, fun hfill hbusy =>
    exec_potUpdateDrained_waits hfind (.inr (.inr hbusy)), fun htorn => exec_potUpdateDrained_waits hfind (.inr (.inl htorn)),
    fun hfill htodo hpot hstill hhand => ?_, exec_pageFillDone_waits hfind⟩
  · have hexec := exec_potUpdateDrained_writes hfind hfill htorn hpage hpot
    refine ⟨fun hlive hmode => ?_, fun hlive hmode hplace hmissing => ?_, fun hlive hstill => ?_⟩
    · have hfirst : first = { c.new with state := .fill } := if_pos hlive
      obtain ⟨hentry, hpart, hkeys, hchange, hwritten⟩ :=
        fill_begins hhand (if_neg (by simpa using hmode)) (fun p hp => by cases hp) hothers
      exact ⟨_, hexec.trans (by rw [writeEntry_live hlive, hfirst]), hentry, hwritten, hpart, hkeys, hchange⟩
    · have hfirst : first = { c.new with state := .fill } := if_pos hlive
      obtain ⟨hentry, hpart, hkeys, hchange, -⟩ := fill_begins hhand (if_pos (by simpa using hmode))
        (fun p hp => by rw [setEntry_outside (s := retireDarn s page) hplace]; exact hmissing p hp) hothers
      exact ⟨_, hexec.trans (by rw [writeEntry_live hlive, hfirst]), hentry, hpart, hkeys, hchange⟩
    · have hfirst : first = c.new := if_neg hlive
      have hdone := entryInstalled (nonePark_retireDarn hstill.1) hstill.2 hhand
      exact ⟨_, hexec.trans (by rw [writeEntry_other hlive, hfirst]), hdone.entry,
        fun hplace => (hdone.written hplace).of_onlyMx (onlyMx_retireDarn s page), hdone.part, hdone.keys, hdone.ended⟩
  · have htree := treeStep_fillPage s page c
    obtain ⟨hpart, hkeys, hcmd, -⟩ := htree.frame
    have honly := onlyMx_fillPage s page c
    have hdone := entryInstalled (nonePark_of_queues htree.queues (nonePark_of_all hstill.1)) (by rw [hcmd]; exact hstill.2) hhand
    refine ⟨_, exec_pageFillDone_ends hfind hfill htodo hpot, hdone.entry, fun hplace => ?_, hdone.ended,
      hdone.part.trans hpart, hdone.keys.trans hkeys, fun n hlow hhigh => (sectorSent_fillPage s c hlow hhigh).mono hdone.out⟩
    exact (hdone.written (by rw [honly.table.2.1]; exact hplace)).of_onlyMx honly

end Sys2Proof.Machine

/-! PROOFS. PART_ASSIGN_TILES, PART_MAP PEER, and the commands that report (07 R196 to R201, 08 R239, 13 R355, R367). -/

namespace Sys2Proof.Machine

/-! ## Tiles that are handed over and taken back (R196, R326) -/

/-- The tiles of a list as a mask. -/
def tileMask (l : List Nat) : BitVec 288 := l.foldr (fun t m => tileBit t ||| m) 0

theorem getLsbD_tileMask (l : List Nat) {j : Nat} (hj : j < 288) : (tileMask l).getLsbD j = decide (j ∈ l) := by
  induction l with
  | nil => simp [tileMask]
  | cons t l ih =>
    have hbit : (tileBit t).getLsbD j = decide (j = t) := by
      simp only [tileBit, BitVec.getLsbD_shiftLeft, BitVec.getLsbD_one, hj, decide_true, Bool.true_and]
      by_cases h : j = t
      · simp [h]
      · rcases Nat.lt_or_gt_of_ne h with hlt | hgt
        · simp [h, hlt]
        · have hne : j - t ≠ 0 := by omega
          simp [h, hne]
    rw [show tileMask (t :: l) = tileBit t ||| tileMask l from rfl, BitVec.getLsbD_or, hbit, ih]
    simp [Bool.decide_or]

theorem and_not_tileMask_nil (m : BitVec 288) : m &&& ~~~ tileMask [] = m := by
  rw [show tileMask [] = 0#288 from rfl, BitVec.not_zero, BitVec.and_allOnes]

/-- The mask of the tiles that a mask names is that mask. -/
theorem tileMask_tileList (m : BitVec 288) : tileMask (tileList m) = m := by
  refine BitVec.eq_of_getLsbD_eq fun j hj => ?_
  rw [getLsbD_tileMask _ hj]
  simp [tileList, hj]

/-- Tiles handed over one after the other join the partition's, and their scrubs are used up. -/
theorem handTiles_writes (pid : Nat) (l : List Nat) (s : State) :
    let e := l.foldl (fun s i => handTile s pid i) s
    (part e pid).tiles = (part s pid).tiles ||| tileMask l ∧ e.part.scrubbed = s.part.scrubbed &&& ~~~ tileMask l ∧
      e.part.ctxs = s.part.ctxs ∧ e.mem = s.mem := by
  induction l generalizing s with
  | nil => exact ⟨BitVec.or_zero.symm, (and_not_tileMask_nil _).symm, rfl, rfl⟩
  | cons t l ih =>
    obtain ⟨htiles, hscrubbed, hctxs, hmem⟩ := ih (handTile s pid t)
    have hone : (part (handTile s pid t) pid).tiles = (part s pid).tiles ||| tileBit t :=
      congrArg Part.tiles (part_setPart_same ..)
    refine ⟨htiles.trans ?_, hscrubbed.trans ?_, hctxs, hmem⟩
    · rw [hone, BitVec.or_assoc]
      rfl
    · rw [show tileMask (t :: l) = tileBit t ||| tileMask l from rfl, BitVec.not_or, ← BitVec.and_assoc]
      rfl

/-- Tiles taken back one after the other leave the partition's, and their resets are asked for. -/
theorem takeTiles_writes (pid : Nat) (l : List Nat) (s : State) :
    let e := l.foldl (fun s i => takeTile s pid i) s
    (part e pid).tiles = (part s pid).tiles &&& ~~~ tileMask l ∧
      e.part.tileReset = s.part.tileReset ||| tileMask l ∧ e.part.scrubbed = s.part.scrubbed ∧ e.mem = s.mem := by
  induction l generalizing s with
  | nil => exact ⟨(and_not_tileMask_nil _).symm, BitVec.or_zero.symm, rfl, rfl⟩
  | cons t l ih =>
    obtain ⟨htiles, hreset, hscrubbed, hmem⟩ := ih (takeTile s pid t)
    have hone : (part (takeTile s pid t) pid).tiles = (part s pid).tiles &&& ~~~ tileBit t :=
      congrArg Part.tiles (part_setPart_same ..)
    refine ⟨htiles.trans ?_, hreset.trans ?_, hscrubbed, hmem⟩
    · rw [hone, show tileMask (t :: l) = tileBit t ||| tileMask l from rfl, BitVec.not_or, ← BitVec.and_assoc]
    · exact BitVec.or_assoc ..

section
variable {s k : State} {c : Cmd} {t : Ticket}

theorem execPartAssignTilesAdd_accepted (h : accepted opTilesAdd s c = some (k, t)) :
    exec (.partAssignTilesAdd c) s = .next (conclude k t (runTilesAdd k t c.body c.mem)) :=
  congrArg Host.Outcome.next (issue_of_accepted_unread rfl h)

theorem execPartAssignTilesRemove_accepted (h : accepted opTilesRemove s c = some (k, t)) :
    exec (.partAssignTilesRemove c) s = .next (conclude k t (runTilesRemove k t c.body c.mem)) :=
  congrArg Host.Outcome.next (issue_of_accepted_unread rfl h)

end

/-- Settles O12: the tiles move one by one, and the mask of those moved is the mask named. -/
theorem tilesMoveAllOrNone : Obligations.TilesMoveAllOrNone := by
  unfold Obligations.TilesMoveAllOrNone
  intro s c k t pid l free
  refine ⟨fun hacc hactive hfree => ?_, fun hacc hno => ?_, fun hacc hactive hresident hheld => ?_, fun hacc hno => ?_⟩
  · obtain ⟨htiles, hscrubbed, hctxs, hmem⟩ := handTiles_writes pid l k
    rw [tileMask_tileList] at htiles hscrubbed
    refine ⟨_, ?_, htiles, hscrubbed, hctxs, hmem⟩
    rw [execPartAssignTilesAdd_accepted hacc]
    have hgo : (!active k pid || !l.all free) = false := by rw [hactive, hfree]; rfl
    exact congrArg (fun r => Host.Outcome.next (conclude k t r)) (if_neg (by rw [hgo]; exact Bool.false_ne_true))
  · rw [execPartAssignTilesAdd_accepted hacc]
    have hstop : (!active k pid || !l.all free) = true := by
      rcases hno with h | h <;> simp [h]
    exact congrArg (fun r => Host.Outcome.next (conclude k t r)) (if_pos hstop)
  · obtain ⟨htiles, hreset, hscrubbed, hmem⟩ := takeTiles_writes pid l k
    rw [tileMask_tileList] at htiles hreset
    refine ⟨_, ?_, htiles, hreset, hscrubbed, hmem⟩
    rw [execPartAssignTilesRemove_accepted hacc]
    have hgo : (!active k pid || hasResident k pid || !l.all fun i => (part k pid).tiles.getLsbD i) = false := by
      rw [hactive, hresident, hheld]; rfl
    exact congrArg (fun r => Host.Outcome.next (conclude k t r)) (if_neg (by rw [hgo]; exact Bool.false_ne_true))
  · rw [execPartAssignTilesRemove_accepted hacc]
    have hstop : (!active k pid || hasResident k pid || !l.all fun i => (part k pid).tiles.getLsbD i) = true := by
      rcases hno with h | h | h <;> simp [h]
    exact congrArg (fun r => Host.Outcome.next (conclude k t r)) (if_pos hstop)

/-! ## Peer entries (R198, R199, R201) -/

/-- A message put on its way is in the hands of the ridge. -/
theorem transmit_frame (s : State) (m : Msg) : ∃ r, transmit s m = { s with ridge := r } := by
  have hall (l : List Bytes) (u : State) : ∃ r, l.foldl (fun s b => pushRange s m.dst m.via b) u = { u with ridge := r } := by
    induction l generalizing u with
    | nil => exact ⟨u.ridge, rfl⟩
    | cons b l ih =>
      obtain ⟨q, hone⟩ : ∃ q, pushRange u m.dst m.via b = { u with ridge := q } := by
        unfold pushRange push
        split <;> exact ⟨_, rfl⟩
      obtain ⟨r, hrest⟩ := ih (pushRange u m.dst m.via b)
      exact ⟨r, by rw [List.foldl_cons, hrest, hone]⟩
  exact hall _ s

/-- A request to another chip changes the range's own state and the ridge. -/
theorem sendReq_frame (s : State) (m : Msg) (why : Purpose) : ∃ g r, sendReq s m why = { s with range := g, ridge := r } := by
  obtain ⟨r, h⟩ := transmit_frame { (takeSeq s).1 with range := { (takeSeq s).1.range with
    sent := (takeSeq s).1.range.sent ++ [{ msg := { m with seq := (takeSeq s).2 }, why := why, at_ := now (takeSeq s).1 }] } }
    { m with seq := (takeSeq s).2 }
  exact ⟨_, r, h⟩

section
variable {s k : State} {c : Cmd} {t : Ticket}

theorem execPartMapPeer_accepted (h : accepted opMapPeer s c = some (k, t)) :
    exec (.partMapPeer c) s = .next (conclude k t (runMapPeer k t c.body c.mem)) :=
  congrArg Host.Outcome.next (issue_of_accepted_unread rfl h)

end

/-- A binding that ends writes its entry. -/
theorem endBind_part {s : State} {pid node : Nat} {tag : BitVec 16} (h : bindTag s pid node = some tag) (st : Status) :
    (endBind s pid node st).part = (setPeer s pid node { ptag := tag, valid := st == .ok, bound := st == .ok }).part := by
  simp only [endBind, h, part_finishWaits]
  rfl

/-- Settles O13: an accepted PART_MAP PEER by CLEAR, the kind of its partition and its job. -/
theorem peerEntriesAreWrittenOrBound : Obligations.PeerEntriesAreWrittenOrBound := by
  unfold Obligations.PeerEntriesAreWrittenOrBound
  intro s c k t hacc pid node tag hactive
  rw [execPartMapPeer_accepted hacc]
  have hstate : ((part k (tagPid t.ptag)).state != .active) = false := by
    rw [show (part k (tagPid t.ptag)).state = .active from hactive]; rfl
  refine ⟨fun hclear => ?_, fun hclear hconf => ?_, fun hclear hconf hjob => ?_, fun hclear hconf hjob => ?_,
    fun e st htag => endBind_part htag st⟩
  · simp only [runMapPeer, hstate, hclear, Bool.false_eq_true, if_false, if_true]
    rfl
  · have hopen : (part k (tagPid t.ptag)).conf = false := hconf
    simp only [runMapPeer, hstate, hclear, hopen, Bool.false_eq_true, if_false, Bool.not_false, if_true]
    simp [conclude, peerWord, b2n, pid, node, tag]
  · have hconf : (part k (tagPid t.ptag)).conf = true := hconf
    have hjob : (part k (tagPid t.ptag)).jobSet = false := hjob
    simp only [runMapPeer, hstate, hclear, hconf, hjob, Bool.false_eq_true, if_false, Bool.not_false, Bool.not_true, if_true]
    rfl
  · have hconf : (part k (tagPid t.ptag)).conf = true := hconf
    have hjob : (part k (tagPid t.ptag)).jobSet = true := hjob
    simp only [runMapPeer, hstate, hclear, hconf, hjob, Bool.false_eq_true, if_false, Bool.not_true]
    obtain ⟨g, r, hsent⟩ := sendReq_frame k
      { dst := node, opcode := 0x15, form := 0x02, ptag := tag, params := paramsOf [(16, (part k pid).job.toNat)] }
      (.bind pid node)
    refine ⟨_, rfl, ?_⟩
    rw [hsent]
    exact ⟨rfl, rfl, rfl, rfl⟩

/-! ## The commands that report (R199, R239, R367) -/

section
variable {s k : State} {c : Cmd} {t : Ticket}

theorem execPartStatus_accepted {ports : Bool} (h : accepted (opPartStatus ports) s c = some (k, t)) :
    exec (.partStatusSummary ports c) s =
      .next (conclude k t ((if ports then runPartPorts else runPartSummary) k t c.body c.mem)) :=
  congrArg Host.Outcome.next (issue_of_accepted_unread rfl h)

theorem execRangeStatus_accepted (h : accepted opRangeStatus s c = some (k, t)) :
    exec (.rangeStatus c) s = .next (finish k t .ok (rangeStatus k)) :=
  congrArg Host.Outcome.next (issue_of_accepted_unread rfl h)

/-- A range-ring command that passes its checks comes to what its run comes to, in a state whose range is as it was. -/
theorem rangeCmd_of_accepted {op : Op} {m : RMsg} (hmem : op.preMem k (msgBody m) [] = none)
    (hreads : op.reads k t (msgBody m) [] = []) (h : rangeAccepted op s m = some (k, t)) :
    rangeCmd op s m = conclude k t (op.run k t (msgBody m) []) ∧ k.range = s.range := by
  unfold rangeAccepted at h
  dsimp only at h
  split at h
  · rename_i hc
    simp only [Bool.and_eq_true, beq_iff_eq] at hc
    obtain ⟨⟨⟨⟨⟨hrdy, hscu⟩, hcheck⟩, hpre⟩, hpermit⟩, hlc⟩ := hc
    obtain ⟨rfl, rfl⟩ := Prod.mk.inj (Option.some.inj h)
    refine ⟨?_, rfl⟩
    unfold rangeCmd
    simp only [hrdy, hscu, hcheck, Bool.and_self, Bool.not_true, Bool.false_eq_true, if_false, runOp, hmem, hreads, readAll,
      hpermit, hlc, if_true]
    split
    · rename_i st hst
      exact absurd (hst.symm.trans hpre) (Option.some_ne_none st)
    · rfl
  · cases h

/-- A BIND query that is answered at once. -/
theorem execPartStatusBind_accepted {m : RMsg} (hnow : (s.range.memb == .reforming && !s.range.takeover) = false)
    (h : rangeAccepted opPartBind s m = some (k, t)) :
    exec (.partStatusBind m) s = .next (conclude k t (runPartBind k t (msgBody m) [])) := by
  change execPartStatusBind m s = _
  rw [execPartStatusBind, hnow, (rangeCmd_of_accepted rfl rfl h).1]
  rfl

end

theorem nodeCode_eq (n : Option Nat) : nodeCode n = n.getD 0xFFFF := by cases n <;> rfl

/-- Settles O14: each report by the run of its command. -/
theorem statusCommandsOnlyReport : Obligations.StatusCommandsOnlyReport := by
  unfold Obligations.StatusCommandsOnlyReport
  refine ⟨fun s c k t hacc => execPartStatus_accepted hacc, fun s c k t hacc => execPartStatus_accepted hacc,
    fun s m k t hacc hmemb htake => ?_, fun s m k t hacc htake => ?_, fun s c k t hacc hmemb => ?_,
    fun s c k t hacc hmemb => ?_⟩
  · rw [execPartStatusBind_accepted (by simp [hmemb]) hacc]
    simp [runPartBind, htake, conclude, parm, bits, msgBody]
  · have hrange := (rangeCmd_of_accepted rfl rfl hacc).2
    rw [execPartStatusBind_accepted (by simp [← hrange, htake]) hacc]
    simp [runPartBind, htake, conclude]
  · rw [execRangeStatus_accepted hacc, rangeStatus]
    simp [hmemb, nodeCode_eq]
  · rw [execRangeStatus_accepted hacc, rangeStatus]
    simp [hmemb]

end Sys2Proof.Machine

/-! PROOFS. Contexts that become resident, and fences: their creation, their signals and their reports (07 R206 to R217, 08 R239). -/

namespace Sys2Proof.Machine

/-! ## CTX_LOAD (R207, R209) -/

/-- From `s` to `t` a context keeps its state, its slot, its queue position and its tag, and what is no context stays. -/
structure KeepsPlace (s t : State) (i : Nat) : Prop where
  state  : (ctx t i).state = (ctx s i).state
  slot   : (ctx t i).slot = (ctx s i).slot
  head   : (ctx t i).head = (ctx s i).head
  ptag   : (ctx t i).ptag = (ctx s i).ptag
  fences : t.part.fences = s.part.fences
  mem    : t.mem = s.mem
  parts  : t.part.parts = s.part.parts

theorem keepsPlace_wake (s : State) (i : Nat) (st : BitVec 8) : KeepsPlace s (wake s i st) i := by
  have hctx : ctx (wake s i st) i = { ctx s i with waitFence := 0xFFFFFFFF, waitValue := 0 } := ctx_setCtx_same ..
  exact ⟨by rw [hctx], by rw [hctx], by rw [hctx], by rw [hctx], rfl, rfl, rfl⟩

/-- A wait that a context brings back ends with its handle, with its fence, or not yet. -/
theorem keepsPlace_resumeWait (s : State) (i : Nat) : KeepsPlace s (resumeWait s i) i := by
  have hstays : KeepsPlace s s i := ⟨rfl, rfl, rfl, rfl, rfl, rfl, rfl⟩
  unfold resumeWait
  dsimp only
  split
  · exact hstays
  · split
    · exact keepsPlace_wake ..
    · split
      · exact keepsPlace_wake ..
      · exact hstays

section
variable {s k : State} {c : Cmd} {t : Ticket}

theorem execCtxLoadNew_accepted (h : accepted opCtxLoadNew s c = some (k, t)) :
    exec (.ctxLoadNew c) s = .next (conclude k t (runCtxLoadNew k t c.body c.mem)) :=
  congrArg Host.Outcome.next (issue_of_accepted_unread rfl h)

theorem execCtxLoadResume_accepted (h : accepted opCtxLoadResume s c = some (k, t)) :
    exec (.ctxLoadResume c) s = .next (conclude k t (runCtxLoadResume k t c.body c.mem)) :=
  congrArg Host.Outcome.next (issue_of_accepted_unread rfl h)

end

/-- Settles O15: CTX_LOAD by its checks; a fence wait that a context brings back leaves its place. -/
theorem ctxLoadMakesResident : Obligations.CtxLoadMakesResident := by
  unfold Obligations.CtxLoadMakesResident
  intro s c k t pid n
  refine ⟨fun hacc hload hslot hctx => ?_, fun hacc hload => ?_, fun hacc hload hslot => ?_,
    fun hacc hload => ?_, fun hacc hlost => ?_⟩
  · rw [execCtxLoadNew_accepted hacc]
    have hroom : (decide (freeSlot k ≥ 64) || decide (freeCtx k ≥ 16384)) = false := by
      simp [hctx, show freeSlot k < 64 from hslot]
    simp only [runCtxLoadNew, show loadable k (tagPid t.ptag) = true from hload, hroom, Bool.not_true, Bool.false_eq_true,
      if_false]
    rfl
  · rw [execCtxLoadNew_accepted hacc]
    simp only [runCtxLoadNew, show loadable k (tagPid t.ptag) = false from hload, Bool.not_false, if_true]
    rfl
  · rw [execCtxLoadNew_accepted hacc]
    have hfull : (decide (freeSlot k ≥ 64) || decide (freeCtx k ≥ 16384)) = true := by
      simp [show 64 ≤ freeSlot k from hslot]
    simp only [runCtxLoadNew, show loadable k (tagPid t.ptag) = true from hload, hfull, Bool.not_true, Bool.false_eq_true,
      if_false, if_true]
    rfl
  · intro i hev hslot
    have hplace := keepsPlace_resumeWait (setCtx k i { ctx k i with state := .resident, slot := n, ptag := curTag k pid }) i
    have hctx : ctx (setCtx k i { ctx k i with state := .resident, slot := n, ptag := curTag k pid }) i = _ := ctx_setCtx_same ..
    refine ⟨_, ?_, hplace.state.trans (by rw [hctx]), hplace.slot.trans (by rw [hctx]), hplace.head.trans (by rw [hctx]),
      hplace.ptag.trans (by rw [hctx]), hplace.fences, hplace.mem, hplace.parts⟩
    rw [execCtxLoadResume_accepted hacc]
    have hev : (ctx k (ctxIdx (BitVec.ofNat 32 (parm c.body 16 32)))).state = .evicted := hev
    have hroom : ¬ freeSlot k ≥ 64 := Nat.not_le.mpr hslot
    simp only [runCtxLoadResume, hev, show loadable k (tagPid t.ptag) = true from hload, hroom, if_false]
    rfl
  · rw [execCtxLoadResume_accepted hacc]
    simp only [runCtxLoadResume, hlost]
    rfl

/-! ## FENCE_CREATE and FENCE_DESTROY (R206, R215) -/

section
variable {s k : State} {c : Cmd} {t : Ticket}

theorem execFenceCreate_accepted (h : accepted opFenceCreate s c = some (k, t)) :
    exec (.fenceCreate c) s = .next (conclude k t (runFenceCreate k t c.body c.mem)) :=
  congrArg Host.Outcome.next (issue_of_accepted_unread rfl h)

theorem execFenceDestroy_accepted (h : accepted opFenceDestroy s c = some (k, t)) :
    exec (.fenceDestroy c) s = .next (conclude k t (runFenceDestroy k t c.body c.mem)) :=
  congrArg Host.Outcome.next (issue_of_accepted_unread rfl h)

end

/-- Settles O17: a fence is made for PID 0 or an ACTIVE partition while a descriptor is FREE, and freed while nothing uses it. -/
theorem fencesAreCreatedAndFreed : Obligations.FencesAreCreatedAndFreed := by
  unfold Obligations.FencesAreCreatedAndFreed
  intro s c k t pid mode h
  have howner (hpid : pid = 0 ∨ active k pid = true) : (tagPid t.ptag != 0 && !active k (tagPid t.ptag)) = false := by
    rcases hpid with h0 | ha
    · simp [show tagPid t.ptag = 0 from h0]
    · simp [show active k (tagPid t.ptag) = true from ha]
  refine ⟨fun hacc hpid hroom => ?_, fun hacc hpid hfull => ?_, fun hacc hidle => ?_, fun hacc hbusy => ?_⟩
  · rw [execFenceCreate_accepted hacc]
    simp only [runFenceCreate, howner hpid, Nat.not_le.mpr hroom, Bool.false_eq_true, if_false, beq_iff_eq]
    rfl
  · rw [execFenceCreate_accepted hacc]
    simp only [runFenceCreate, howner hpid, hfull, Bool.false_eq_true, if_false, if_true]
    rfl
  · rw [execFenceDestroy_accepted hacc]
    simp only [runFenceDestroy, show fenceBusy k (BitVec.ofNat 32 (parm c.body 16 32)) = false from hidle,
      Bool.false_eq_true, if_false]
    rfl
  · rw [execFenceDestroy_accepted hacc]
    simp only [runFenceDestroy, show fenceBusy k (BitVec.ofNat 32 (parm c.body 16 32)) = true from hbusy, if_true]
    rfl

/-! ## What a signal does (R216, R217) -/

/-- What a signal leaves beside contexts, fences, counters, events and their vectors. -/
def SignalKeeps (s t : State) : Prop :=
  charged s t ∧ t.keys = s.keys ∧ t.fold = s.fold ∧ t.part.parts = s.part.parts

theorem SignalKeeps.trans {s t u : State} (h : SignalKeeps s t) (k : SignalKeeps t u) : SignalKeeps s u := by
  obtain ⟨hcharged, hkeys, hfold, hparts⟩ := h
  obtain ⟨kcharged, kkeys, kfold, kparts⟩ := k
  exact ⟨hcharged.trans kcharged, kkeys.trans hkeys, kfold.trans hfold, kparts.trans hparts⟩

/-- Waiters that are released change their descriptors and the trace alone. -/
theorem wakeAll_frame (l : List Nat) (st : BitVec 8) (s : State) :
    ∃ cs o, l.foldl (fun s i => wake s i st) s = { s with part := { s.part with ctxs := cs }, out := o } := by
  induction l generalizing s with
  | nil => exact ⟨_, _, rfl⟩
  | cons i l ih =>
    obtain ⟨cs, o, h⟩ := ih (wake s i st)
    exact ⟨cs, o, h⟩

/-- A fence as it is written, its waiters released and its event posted. -/
structure Fired (s t : State) (i : Nat) (f : Fence) (ctr : PartCtr) : Prop where
  keeps : SignalKeeps s t
  wrote : fence t i = f
  ctr   : t.part.ctr = ctr

theorem fired_setFence (s : State) (i : Nat) (f : Fence) : Fired s (setFence s i f) i f s.part.ctr where
  keeps := ⟨⟨rfl, rfl, fun _ => rfl⟩, rfl, rfl, rfl⟩
  wrote := fence_setFence_same ..
  ctr   := rfl

theorem fired_counted (s : State) (i : Nat) (f : Fence) (g : PartCtr → PartCtr) :
    Fired s (partCtr (setFence s i f) g) i f (g s.part.ctr) where
  keeps := ⟨⟨rfl, rfl, fun _ => rfl⟩, rfl, rfl, rfl⟩
  wrote := fence_setFence_same s i f
  ctr   := rfl

/-- Waiters and event leave the fence that was written. -/
theorem fired_post {s t : State} {i : Nat} {f : Fence} {ctr : PartCtr} (h : Fired s t i f ctr) (l : List Nat) (st : BitVec 8)
    (fn vec : Nat) (irq : Bool) (w : BitVec 128) :
    Fired s (postFence (l.foldl (fun s i => wake s i st) t) fn vec irq w) i f ctr := by
  obtain ⟨hkeeps, hwrote, hctr⟩ := h
  obtain ⟨cs, o, hwoken⟩ := wakeAll_frame l st t
  rw [hwoken]
  obtain ⟨-, -, -, hkeys, -, hpart, hcharged, -, -, hfold, -⟩ :=
    postFence_same { t with part := { t.part with ctxs := cs }, out := o } fn vec irq w
  refine ⟨hkeeps.trans ⟨hcharged, hkeys, hfold, ?_⟩, ?_, ?_⟩
  · rw [hpart]
  · rw [fence, hpart]
    exact hwrote
  · rw [hpart]
    exact hctr

section
variable {s : State} {h : BitVec 32} {tag : BitVec 16}

/-- A signal of an old generation. -/
theorem signalFence_stale (hold : tagCurrent s tag = false) (v : BitVec 64) (st : BitVec 8) :
    signalFence s h v st tag = (partCtr s fun c => { c with fenceStale := inc32 c.fenceStale }, .stale) := by
  simp only [signalFence, hold, Bool.not_false, if_true]

/-- A value that is not above the fence's. -/
theorem signalFence_ooo (hcur : tagCurrent s tag = true) {v : BitVec 64} (hle : v ≤ (fence s (fenceIdx h)).value) :
    signalFence s h v 0 tag =
      (partCtr (setFence s (fenceIdx h) { fence s (fenceIdx h) with ooo := inc32 (fence s (fenceIdx h)).ooo }) fun c =>
        { c with fenceOoo := inc32 c.fenceOoo }, if (fence s (fenceIdx h)).strict then .oooStrict else .ooo) := by
  simp only [signalFence, hcur, hle, Bool.not_true, Bool.false_eq_true, if_false, if_true, bne_self_eq_false]

/-- A value above the fence's. -/
theorem signalFence_value (hcur : tagCurrent s tag = true) {v : BitVec 64} (hlt : (fence s (fenceIdx h)).value < v) :
    (signalFence s h v 0 tag).2 = .applied ∧
      Fired s (signalFence s h v 0 tag).1 (fenceIdx h) { fence s (fenceIdx h) with value := v }
        { s.part.ctr with fenceSignals := inc32 s.part.ctr.fenceSignals } := by
  have hle : ¬ v ≤ (fence s (fenceIdx h)).value := BitVec.not_le.mpr hlt
  simp only [signalFence, hcur, hle, Bool.not_true, Bool.false_eq_true, if_false, bne_self_eq_false]
  exact ⟨trivial, fired_post (fired_counted s _ _ _) ..⟩

/-- An error signal. -/
theorem signalFence_error (hcur : tagCurrent s tag = true) (v : BitVec 64) {st : BitVec 8} (hst : st ≠ 0) :
    (signalFence s h v st tag).2 = .applied ∧
      Fired s (signalFence s h v st tag).1 (fenceIdx h) (if (fence s (fenceIdx h)).state == .live
        then { fence s (fenceIdx h) with state := .error, err := st } else fence s (fenceIdx h)) s.part.ctr := by
  have hst : (st != 0) = true := by simpa using hst
  simp only [signalFence, hcur, hst, Bool.not_true, Bool.false_eq_true, if_false, if_true]
  exact ⟨trivial, fired_post (fired_setFence s _ _) ..⟩

/-- Whatever a signal comes to. -/
theorem signalFence_keeps (s : State) (h : BitVec 32) (v : BitVec 64) (st : BitVec 8) (tag : BitVec 16) :
    SignalKeeps s (signalFence s h v st tag).1 := by
  cases hcur : tagCurrent s tag with
  | false =>
    rw [signalFence_stale hcur]
    exact ⟨⟨rfl, rfl, fun _ => rfl⟩, rfl, rfl, rfl⟩
  | true =>
    by_cases hst : st = 0
    · subst hst
      by_cases hle : v ≤ (fence s (fenceIdx h)).value
      · rw [signalFence_ooo hcur hle]
        exact ⟨⟨rfl, rfl, fun _ => rfl⟩, rfl, rfl, rfl⟩
      · exact (signalFence_value hcur (BitVec.not_le.mp hle)).2.keeps
    · exact (signalFence_error hcur v hst).2.keeps

end

/-- Settles O18: a signal by its tag, its status and its value. -/
theorem fenceSignalSequence : Obligations.FenceSignalSequence := by
  unfold Obligations.FenceSignalSequence
  intro s h v st tag f r hlive
  obtain ⟨hcharged, hkeys, hfold, hparts⟩ := signalFence_keeps s h v st tag
  refine ⟨fun hold => ?_, fun hcur hst hlt => ?_, fun hcur hst hle => ?_, fun hcur hst hstate => ?_,
    fun hcur hst hstate => ?_, hcharged, hkeys, hfold, hparts⟩
  · have hr : r = _ := signalFence_stale hold v st
    rw [hr]
    exact ⟨rfl, rfl⟩
  · subst hst
    obtain ⟨happlied, hfired⟩ := signalFence_value hcur hlt
    exact ⟨happlied, hfired.wrote, congrArg PartCtr.fenceSignals hfired.ctr⟩
  · subst hst
    have hr : r = _ := signalFence_ooo hcur hle
    rw [hr]
    exact ⟨rfl, fence_setFence_same .., rfl, rfl, rfl⟩
  · obtain ⟨happlied, hfired⟩ := signalFence_error (h := h) hcur v hst
    refine ⟨happlied, hfired.wrote.trans ?_⟩
    rw [show (fence s (fenceIdx h)).state = .live from hstate]
    rfl
  · obtain ⟨happlied, hfired⟩ := signalFence_error (h := h) hcur v hst
    refine ⟨happlied, hfired.wrote.trans ?_⟩
    rw [show (fence s (fenceIdx h)).state = .error from hstate]
    rfl

/-! ## FENCE_SIGNAL from a ring (R216, R217, R239) -/

section
variable {s k : State} {c : Cmd} {t : Ticket}

theorem execFenceSignalSignal_accepted (h : accepted opFenceSignal s c = some (k, t)) :
    exec (.fenceSignalSignal c) s = .next (conclude k t (runFenceSignal (fun _ => 0) k t c.body c.mem)) :=
  congrArg Host.Outcome.next (issue_of_accepted_unread rfl h)

theorem execFenceSignalError_accepted (h : accepted opFenceError s c = some (k, t)) :
    exec (.fenceSignalError c) s =
      .next (conclude k t (runFenceSignal (fun p => BitVec.ofNat 8 (parm p 28 8)) k t c.body c.mem)) :=
  congrArg Host.Outcome.next (issue_of_accepted_unread rfl h)

theorem execFenceSignalQuery_accepted (h : accepted opFenceQuery s c = some (k, t)) :
    exec (.fenceSignalQuery c) s =
      .next (finish k t .ok (fenceResult k (BitVec.ofNat 32 (parm c.body 16 32)) false)) :=
  congrArg Host.Outcome.next (issue_of_accepted_unread rfl h)

end

/-- A signal from a ring concludes with what it came to. -/
theorem conclude_signal {status : Pkt → BitVec 8} {k : State} {t : Ticket} {p : Pkt} {m : List ReadIn} {r : State × Signal}
    (hr : signalFence k (BitVec.ofNat 32 (parm p 16 32)) (BitVec.ofNat 64 (parm p 20 64)) (status p) t.ptag = r) :
    conclude k t (runFenceSignal status k t p m) =
      if r.2 = .oooStrict then finish r.1 t .errParam
      else finish r.1 t .ok (fenceResult r.1 (BitVec.ofNat 32 (parm p 16 32)) (r.2 == .ooo)) := by
  unfold runFenceSignal
  dsimp only
  rw [hr]
  cases h : r.2 <;> rfl

/-- Settles O19: each form by what its signal came to. -/
theorem ringSignalsReportTheFence : Obligations.RingSignalsReportTheFence := by
  unfold Obligations.RingSignalsReportTheFence
  intro s c k t h val err res
  have hres (e : State) (o : Bool) : fenceResult e h o = res e (b2n o) := by
    simp [fenceResult, res]
  have hval (r : State × Signal) (o : Bool) (hne : r.2 ≠ .oooStrict) (ho : (r.2 == .ooo) = o) :
      (if r.2 = .oooStrict then finish r.1 t .errParam
      else finish r.1 t .ok (fenceResult r.1 h (r.2 == .ooo))) = finish r.1 t .ok (res r.1 (b2n o)) := by
    rw [if_neg hne, hres, ho]
  refine ⟨fun hacc hr => ?_, fun hacc hr => ?_, fun hacc hr => ?_, fun hacc hr => ?_, fun hacc => ?_⟩
  · rw [execFenceSignalSignal_accepted hacc, conclude_signal (r := val) rfl, hval val false (by simp [hr]) (by simp [hr])]
    rfl
  · rw [execFenceSignalSignal_accepted hacc, conclude_signal (r := val) rfl, hval val true (by simp [hr]) (by simp [hr])]
    rfl
  · rw [execFenceSignalSignal_accepted hacc, conclude_signal (r := val) rfl, if_pos hr]
  · rw [execFenceSignalError_accepted hacc, conclude_signal (r := err) rfl, hval err false (by simp [hr]) (by simp [hr])]
    rfl
  · rw [execFenceSignalQuery_accepted hacc]
    exact congrArg (fun r => Host.Outcome.next (finish k t .ok r)) (hres k false)

end Sys2Proof.Machine

/-! PROOFS. Commands of contexts under the tile scheduler, kills, and contexts that are lost (07 R208 to R217). -/

namespace Sys2Proof.Machine

/-! ## Commands that start and commit (R210) -/

/-- A command that starts changes its context's descriptor alone. -/
theorem startCmd_frame (s : State) (h : BitVec 32) : ∃ cs, startCmd s h = { s with part := { s.part with ctxs := cs } } := by
  unfold startCmd
  dsimp only
  split
  · exact ⟨_, rfl⟩
  · exact ⟨_, rfl⟩

/-- A descriptor written with its state, its PID and its incarnation keeps its handle. -/
theorem ctxMatch_setCtx {s : State} {h : BitVec 32} {x : Ctx} (hstate : x.state = (ctx s (ctxIdx h)).state)
    (hpid : x.pid = (ctx s (ctxIdx h)).pid) (hinc : x.inc = (ctx s (ctxIdx h)).inc) :
    ctxMatch (setCtx s (ctxIdx h) x) h = ctxMatch s h := by
  simp only [ctxMatch, ctxHandle, ctx_setCtx_same, hstate, hpid, hinc]

/-- After its start, a resident context's command is in RUN, or where it was. -/
theorem startCmd_starts {s : State} {h : BitVec 32} (hmatch : ctxMatch s h = true)
    (hres : (ctx s (ctxIdx h)).state = .resident) : ctxMatch (startCmd s h) h = true ∧
      (ctx (startCmd s h) (ctxIdx h)).state = .resident ∧ (ctx (startCmd s h) (ctxIdx h)).phase =
        if (ctx s (ctxIdx h)).phase = .none then .run else (ctx s (ctxIdx h)).phase := by
  by_cases hp : (ctx s (ctxIdx h)).phase = .none
  · have hstart : startCmd s h =
        setCtx s (ctxIdx h) { ctx s (ctxIdx h) with phase := .run, entry := (ctx s (ctxIdx h)).head } := by
      unfold startCmd
      exact if_pos (by simp [hmatch, hres, hp])
    rw [hstart, if_pos hp]
    exact ⟨(ctxMatch_setCtx (by rfl) (by rfl) (by rfl)).trans hmatch, (congrArg Ctx.state (ctx_setCtx_same ..)).trans hres,
      congrArg Ctx.phase (ctx_setCtx_same ..)⟩
  · have hstart : startCmd s h = s := by
      unfold startCmd
      exact if_neg (by simp [hp])
    rw [hstart, if_neg hp]
    exact ⟨hmatch, hres, rfl⟩

/-- The command of a resident context is in COMMIT once it has entered it, unless it has ended. -/
theorem enterCommit_phase {s : State} {h : BitVec 32} (hmatch : ctxMatch s h = true)
    (hres : (ctx s (ctxIdx h)).state = .resident) (hphase : (ctx s (ctxIdx h)).phase ≠ .done) :
    (ctx (enterCommit s h) (ctxIdx h)).phase = .commit := by
  obtain ⟨hmatch', hres', hstarted⟩ := startCmd_starts hmatch hres
  by_cases hrun : (ctx (startCmd s h) (ctxIdx h)).phase = .run
  · have henter : enterCommit s h =
        setCtx (startCmd s h) (ctxIdx h) { ctx (startCmd s h) (ctxIdx h) with phase := .commit } := by
      unfold enterCommit
      exact if_pos (by simp [hmatch', hres', hrun])
    rw [henter, ctx_setCtx_same]
  · have henter : enterCommit s h = startCmd s h := by
      unfold enterCommit
      exact if_neg (by simp [hrun])
    rw [henter]
    rw [hstarted] at hrun ⊢
    cases hp : (ctx s (ctxIdx h)).phase <;> simp_all

theorem execSchedCommitReq_granted {s : State} {h : BitVec 32} (hmatch : ctxMatch s h = true)
    (hres : (ctx s (ctxIdx h)).state = .resident) (hfree : commitHeld s h = false) :
    exec (.schedCommitReq h) s = .next (emit (enterCommit s h) (.schedCommit (ctxIdx h))) := by
  change Host.Outcome.next (commitReq s h) = _
  simp [commitReq, hmatch, hres, hfree]

theorem execSchedCommitReq_held {s : State} {h : BitVec 32} (hmatch : ctxMatch s h = true)
    (hres : (ctx s (ctxIdx h)).state = .resident) (hheld : commitHeld s h = true) :
    exec (.schedCommitReq h) s =
      .next (setCtx (startCmd s h) (ctxIdx h) { ctx (startCmd s h) (ctxIdx h) with held := true }) := by
  change Host.Outcome.next (commitReq s h) = _
  simp [commitReq, hmatch, hres, hheld]

/-- A context that no SAVE waits for. -/
def noSave (s : State) (i : Nat) : Prop := ∀ w ∈ s.cmd.waits, w.kind ≠ .save i

theorem endSave_of_noSave {s : State} {i : Nat} (h : noSave s i) : endSave s i = s := by
  have hnone : (s.cmd.waits.any fun w => w.kind == .save i) = false := by simpa [noSave] using h
  simp [endSave, hnone]

theorem execSchedCommandDone_ends {s : State} {h : BitVec 32} (hmatch : ctxMatch s h = true)
    (hres : (ctx s (ctxIdx h)).state = .resident) (hphase : (ctx s (ctxIdx h)).phase ≠ .none)
    (hgoes : (ctx s (ctxIdx h)).stopping = false) (hsave : noSave s (ctxIdx h)) :
    exec (.schedCommandDone h) s = .next (setCtx s (ctxIdx h) { ctx s (ctxIdx h) with
      phase := .none
      head := BitVec.ofNat 32 (((ctx s (ctxIdx h)).entry.toNat + 1) % 2 ^ (ctx s (ctxIdx h)).qlog2) }) := by
  have hgo : (ctxMatch s h && (ctx s (ctxIdx h)).state == .resident && (ctx s (ctxIdx h)).phase != .none &&
      !(ctx s (ctxIdx h)).stopping) = true := by
    simp [hmatch, hres, hphase, hgoes]
  exact (if_pos hgo).trans (congrArg Host.Outcome.next (endSave_of_noSave (s := setCtx s (ctxIdx h) _) hsave))

theorem execDmaBind_binds {s : State} {h : BitVec 32} (hmatch : ctxMatch s h = true)
    (hres : (ctx s (ctxIdx h)).state = .resident) (eng : Fin 32) :
    exec (.dmaBind eng h) s = .next { s with
      part := { s.part with
        dma := tset 0 s.part.dma eng.val (ctxIdx h + 1)
        asg := tset {} s.part.asg (0x90 + eng.val)
          { pid := (ctx s (ctxIdx h)).pid, gen := curGen s (ctx s (ctxIdx h)).pid } }
      out := .assign (0x90 + eng.val) (ctx s (ctxIdx h)).pid (curGen s (ctx s (ctxIdx h)).pid) :: s.out } := by
  change execDmaBind eng h s = _
  simp only [execDmaBind, hmatch, hres, beq_self_eq_true, Bool.and_self, if_true]
  rfl

/-! ## Kills (R211, R220) -/

@[simp] theorem killOf_setKill (s : State) (pid : Nat) (k : Kill) : killOf (setKill s pid k) pid = some k := by
  have hbefore : (s.part.kills.takeWhile fun x => x.1 != pid).find? (fun x => x.1 == pid) = none := by
    rw [List.find?_eq_none]
    intro x hx
    simpa using List.mem_takeWhile_imp hx
  simp [killOf, setKill, List.find?_append, hbefore]

/-- A kill whose stops are all acknowledged asks for its advance. -/
theorem killStops_goes {s : State} {pid : Nat} {k : Kill} (h : killOf s pid = some k) (hstage : k.stage = .stops)
    (hstopped : allStopped s k.stopped = true) :
    killStops s pid = askAdvance (setKill s pid { k with stage := .advance }) pid .kill := by
  simp only [killStops, h, hstage, hstopped, beq_self_eq_true, Bool.and_self, if_true]

theorem killStops_none {s : State} {pid : Nat} (h : killOf s pid = none) : killStops s pid = s := by
  simp only [killStops, h]

theorem killStops_waits {s : State} {pid : Nat} {k : Kill} (h : killOf s pid = some k)
    (hwaits : k.stage ≠ .stops ∨ allStopped s k.stopped = false) : killStops s pid = s := by
  have hstay : (k.stage == .stops && allStopped s k.stopped) = false := by
    rcases hwaits with hstage | hstopped
    · simp [hstage]
    · simp [hstopped]
  simp only [killStops, h, hstay, Bool.false_eq_true, if_false]

/-- Whatever a kill waits for. -/
theorem killStops_frame (s : State) (pid : Nat) :
    ∃ ks g, killStops s pid = { s with part := { s.part with kills := ks, genWait := g } } := by
  unfold killStops
  split
  · split
    · exact ⟨_, _, rfl⟩
    · exact ⟨_, _, rfl⟩
  · exact ⟨_, _, rfl⟩

/-- The command of a context is asked to stop. -/
def askStop (s : State) (i : Nat) : State := emit (setCtx s i { ctx s i with stopping := true }) (.schedStop i)

theorem askStops_frame (l : List Nat) (s : State) :
    ∃ cs o, l.foldl askStop s = { s with part := { s.part with ctxs := cs }, out := o } := by
  induction l generalizing s with
  | nil => exact ⟨_, _, rfl⟩
  | cons i l ih =>
    obtain ⟨cs, o, h⟩ := ih (askStop s i)
    exact ⟨cs, o, h⟩

/-- A context whose command has been asked to stop. -/
def Asked (s : State) (i : Nat) : Prop := (ctx s i).stopping = true ∧ .schedStop i ∈ s.out

theorem asked_askStop (s : State) (i : Nat) : Asked (askStop s i) i :=
  ⟨congrArg Ctx.stopping (ctx_setCtx_same s i { ctx s i with stopping := true }), List.mem_cons_self ..⟩

theorem asked_askStop_of_asked {s : State} {i : Nat} (h : Asked s i) (j : Nat) : Asked (askStop s j) i := by
  by_cases hij : i = j
  · exact hij ▸ asked_askStop s i
  · refine ⟨?_, List.mem_cons_of_mem _ h.2⟩
    rw [show ctx (askStop s j) i = ctx s i from tget_tset_other _ _ hij]
    exact h.1

theorem asked_askStops {s : State} {i : Nat} (h : Asked s i) (l : List Nat) : Asked (l.foldl askStop s) i := by
  induction l generalizing s with
  | nil => exact h
  | cons j l ih => exact ih (asked_askStop_of_asked h j)

theorem asked_of_mem {l : List Nat} {i : Nat} (h : i ∈ l) (s : State) : Asked (l.foldl askStop s) i := by
  induction l generalizing s with
  | nil => cases h
  | cons j l ih =>
    rcases List.mem_cons.mp h with rfl | hl
    · exact asked_askStops (asked_askStop s i) l
    · exact ih hl _

/-- The contexts of a PID whose commands run. -/
def running (s : State) (pid : Nat) : List Nat :=
  (ctxsOf s pid).filter fun i => (ctx s i).state == .resident && (ctx s i).phase == .run

section
variable {s : State} {pid : Pid} {k : Kill} (hkill : killOf s pid.val = some k)
include hkill

theorem execKillCommitsDrained_waits (hcommit : ((ctxsOf s pid.val).any fun i => (ctx s i).phase == .commit) = true) :
    exec (.killCommitsDrained pid) s = .next s := by
  change execKillCommitsDrained pid s = _
  simp only [execKillCommitsDrained, hkill, hcommit, Bool.or_true, if_true]

theorem execKillCommitsDrained_goes (hstage : k.stage = .commits)
    (hdrained : ((ctxsOf s pid.val).any fun i => (ctx s i).phase == .commit) = false) :
    exec (.killCommitsDrained pid) s = .next (killStops (setKill ((running s pid.val).foldl askStop s) pid.val
      { k with stage := .stops, stopped := k.stopped ++ running s pid.val }) pid.val) := by
  change execKillCommitsDrained pid s = _
  simp only [execKillCommitsDrained, hkill, hstage, hdrained, bne_self_eq_false, Bool.or_self, Bool.false_eq_true, if_false]
  rfl

end

/-- Settles O22: with the commits drained the running commands are asked to stop; with none running the kill goes on. -/
theorem killGoesOnWhenCommitsDrain : Obligations.KillGoesOnWhenCommitsDrain := by
  unfold Obligations.KillGoesOnWhenCommitsDrain
  intro s pid k hkill hstage
  refine ⟨execKillCommitsDrained_waits hkill, fun hdrained hidle hstopped => ?_, fun hdrained => ?_⟩
  · have hnone : running s pid.val = [] := by
      rw [running, List.filter_eq_nil_iff]
      intro i hi
      simpa [imp_iff_not_or] using List.all_eq_true.mp hidle i hi
    refine ⟨_, execKillCommitsDrained_goes hkill hstage hdrained, ?_⟩
    rw [hnone, killStops_goes (killOf_setKill ..) rfl (by rw [List.append_nil]; exact hstopped)]
    exact ⟨rfl, rfl, rfl, rfl⟩
  · refine ⟨_, execKillCommitsDrained_goes hkill hstage hdrained, ?_⟩
    have hasked (i : Nat) (hi : i ∈ running s pid.val) := asked_of_mem hi s
    obtain ⟨cs, o, hstops⟩ := askStops_frame (running s pid.val) s
    obtain ⟨ks, g, hgoes⟩ := killStops_frame (setKill ((running s pid.val).foldl askStop s) pid.val
      { k with stage := .stops, stopped := k.stopped ++ running s pid.val }) pid.val
    rw [hgoes]
    refine ⟨?_, ?_, fun i hi hres hrun => hasked i (List.mem_filter.mpr ⟨hi, by simp [hres, hrun]⟩)⟩
    · exact (congrArg State.mem hstops :)
    · exact (congrArg (fun u => u.part.gens) hstops :)

/-! ## What a teardown clears (R214 steps 3 and 4) -/

theorem part_foldl {α : Type} {f : State → α → State} (h : ∀ s a, (f s a).part = s.part) (l : List α) (s : State) :
    (l.foldl f s).part = s.part := by
  induction l generalizing s with
  | nil => rfl
  | cons a l ih => exact (ih _).trans (h s a)

theorem part_push (s : State) (f : OutFrame) : (push s f).part = s.part := by
  unfold push
  split <;> rfl

theorem part_askNext (s : State) : (askNext s).part = s.part := by
  unfold askNext askStream
  split
  · split
    · exact part_push ..
    · rfl
  · rfl

theorem part_closeStream (s : State) (t : SrcStream) : (closeStream s t).part = s.part := by
  unfold closeStream
  dsimp only
  rw [part_askNext]
  split
  · exact part_push ..
  · rfl

theorem part_closeStreams (s : State) (pid : Nat) : (closeStreams s pid).part = s.part := part_foldl part_closeStream _ s

theorem part_owe (s : State) (p : Nat) (cls : BitVec 4) (flits : Nat) : (owe s p cls flits).part = s.part := by
  unfold owe
  dsimp only
  split <;> rfl

theorem part_dropInput (s : State) (p : FoldFrame → Bool) : (dropInput s p).part = s.part := by
  refine part_foldl (fun s u => ?_) _ s
  dsimp only
  split
  · rfl
  · exact (part_foldl (fun _ _ => part_owe ..) _ _).trans rfl

theorem part_foldTeardown (s : State) (pid : Nat) : (foldTeardown s pid).part = s.part := by
  unfold foldTeardown
  dsimp only
  rw [show ∀ (u : State) l, (zeroBlocks u l).part = u.part from fun _ _ => rfl, part_dropInput]
  refine part_foldl (fun u n => ?_) _ s
  exact (part_finishWaits ..).trans rfl

theorem part_dropShares (s : State) (pid : Nat) : (dropShares s pid).part = s.part := by
  refine (part_foldl (fun s e => ?_) _ _).trans (part_foldl (fun s p => ?_) _ s)
  · rfl
  · rfl

theorem part_clearPidSlots (s : State) (pid : Nat) : (clearPidSlots s pid).part = s.part :=
  part_foldl (f := clearSlot) (fun _ _ => rfl) _ s

theorem part_beginTorn (s : State) (pid : Nat) : (beginTorn s pid).part = s.part := by
  refine part_foldl (fun s p => ?_) _ s
  rfl

theorem part_clearIde (s : State) (k : Nat) : ∃ x, (clearIde s k).part = { s.part with ide := x } := by
  have hslots := part_foldl (f := clearSlot) (fun _ _ => rfl) ((ide s k).keys.map (·.2)) s
  exact ⟨_, congrArg (fun p : PartsState => { p with ide := tset {} p.ide k { assoc := (ide s k).assoc } }) hslots⟩

/-- A TDI that leaves its stream is written, and its stream may lose its keys. -/
theorem part_releaseTdi (s : State) (n : Nat) (st : Tdi) : ∃ x,
    (releaseTdi s n st).part = { s.part with tdi := tset {} s.part.tdi n { state := st }, ide := x } := by
  unfold releaseTdi
  dsimp only
  split
  · split
    · obtain ⟨x, hx⟩ := part_clearIde (setTdi s n { state := st }) _
      exact ⟨x, hx⟩
    · exact ⟨_, rfl⟩
  · exact ⟨_, rfl⟩

theorem tdi_releaseTdi (s : State) (n : Nat) (st : Tdi) : tdi (releaseTdi s n st) n = { state := st } := by
  obtain ⟨x, hx⟩ := part_releaseTdi s n st
  rw [tdi, hx]
  exact tget_tset_same ..

/-- A resident context as it is evicted. -/
def evicted (c : Ctx) : Ctx :=
  if c.state == .resident then { c with state := .evicted, slot := 0, phase := .none, held := false } else c

theorem evicted_pid (c : Ctx) : (evicted c).pid = c.pid := by
  unfold evicted
  split <;> rfl

theorem evicted_leaves (c : Ctx) : (evicted c).state ≠ .resident := by
  unfold evicted
  split
  · simp
  · simp_all

theorem ctx_evictCtx (s : State) (i j : Nat) : ctx (evictCtx s i) j = if j = i then evicted (ctx s i) else ctx s j := by
  unfold evictCtx evicted
  dsimp only
  split
  · exact ctx_setCtx ..
  · split
    · subst_vars
      rfl
    · rfl

/-- Step 3 of a teardown: contexts leave the trackers and their slots. -/
def evictAll (l : List Nat) (s : State) : State := l.foldl (fun s i => evictCtx (dropTracked s (ctxHandle s i)) i) s

theorem part_evictAll (l : List Nat) (s : State) : ∃ cs d, (evictAll l s).part = { s.part with ctxs := cs, dma := d } := by
  induction l generalizing s with
  | nil => exact ⟨_, _, rfl⟩
  | cons i l ih =>
    obtain ⟨cs, d, h⟩ := ih (evictCtx (dropTracked s (ctxHandle s i)) i)
    refine ⟨cs, d, h.trans ?_⟩
    unfold evictCtx
    dsimp only
    split <;> rfl

/-- None of them is resident, and none comes to be. -/
theorem ctx_evictAll (l : List Nat) (s : State) (j : Nat) : (ctx (evictAll l s) j).pid = (ctx s j).pid ∧
    ((ctx s j).state ≠ .resident ∨ j ∈ l → (ctx (evictAll l s) j).state ≠ .resident) := by
  induction l generalizing s with
  | nil => exact ⟨rfl, fun h => h.resolve_right List.not_mem_nil⟩
  | cons i l ih =>
    have hone : ctx (evictCtx (dropTracked s (ctxHandle s i)) i) j = if j = i then evicted (ctx s i) else ctx s j :=
      ctx_evictCtx ..
    obtain ⟨hpid, hstate⟩ := ih (evictCtx (dropTracked s (ctxHandle s i)) i)
    rw [hone] at hpid hstate
    refine ⟨hpid.trans ?_, fun h => hstate ?_⟩
    · split
      · subst_vars
        exact evicted_pid _
      · rfl
    · split
      · exact .inl (evicted_leaves _)
      · exact h.imp_right fun hj => (List.mem_cons.mp hj).resolve_left ‹_›

theorem tearOf_setTear {s : State} {pid : Nat} {x : Tear} (h : tearOf s pid = some x) (y : Tear) :
    tearOf (setTear s pid y) pid = some y := by
  obtain ⟨e, he, -⟩ := Option.map_eq_some_iff.mp h
  have hkey : e.1 = pid := by simpa using List.find?_some he
  have hsame : ((fun e : Nat × Tear => e.1 == pid) ∘ fun t => if t.1 == pid then (pid, y) else t) = fun e => e.1 == pid := by
    funext t
    simp only [Function.comp]
    split <;> simp_all
  simp only [tearOf, setTear, List.find?_map, hsame]
  rw [he]
  simp [hkey]

/-- Steps 3 and 4 of a teardown whose commands have stopped. -/
theorem clearTorn_clears {s : State} {pid : Nat} {x : Tear} (htear : tearOf s pid = some x) (hadv : x.advanced = true)
    (hdue : x.cleared = false) (hstopped : pidStopped s pid = true) :
    tearOf (clearTorn s pid) pid = some { x with cleared := true } ∧ (tdi (clearTorn s pid) pid).state = .unlocked ∧
      (∀ j, (ctx (clearTorn s pid) j).pid = pid → (ctx (clearTorn s pid) j).state ≠ .resident) ∧
      (clearTorn s pid).part.gens = s.part.gens := by
  obtain ⟨cs, d, hevicted⟩ := part_evictAll (ctxsOf s pid) s
  obtain ⟨ide, hreleased⟩ := part_releaseTdi (emptyRing (evictAll (ctxsOf s pid) s) pid) pid .unlocked
  have hpart : (clearTorn s pid).part = (setTear (releaseTdi (emptyRing (evictAll (ctxsOf s pid) s) pid) pid .unlocked) pid
      { x with cleared := true }).part := by
    have hcut (u v : State) (h : u.part = v.part) (y : Tear) : (setTear u pid y).part = (setTear v pid y).part := by
      unfold setTear
      rw [h]
    simp only [clearTorn, htear, hadv, hdue, hstopped, Bool.not_false, Bool.and_self, if_true]
    refine hcut _ _ ?_ _
    rw [part_beginTorn, show ∀ u n, (wbTeardown u n).part = u.part from fun _ _ => rfl,
      show ∀ u n, (ironTeardown u n).part = u.part from fun _ _ => rfl, part_clearPidSlots, part_dropShares, part_closeStreams,
      part_foldTeardown]
    rfl
  have hunlocked := congrArg TdiSt.state (tdi_releaseTdi (emptyRing (evictAll (ctxsOf s pid) s) pid) pid .unlocked)
  generalize releaseTdi (emptyRing (evictAll (ctxsOf s pid) s) pid) pid .unlocked = v at hreleased hpart hunlocked
  have htears : v.part.tears = s.part.tears := by
    rw [hreleased]
    exact (congrArg PartsState.tears hevicted :)
  have hgens : v.part.gens = s.part.gens := by
    rw [hreleased]
    exact (congrArg PartsState.gens hevicted :)
  have hctxs : v.part.ctxs = (evictAll (ctxsOf s pid) s).part.ctxs := by
    rw [hreleased]
    rfl
  refine ⟨?_, ?_, fun j hj => ?_, ?_⟩
  · rw [tearOf, hpart]
    exact tearOf_setTear (by rw [tearOf, htears]; exact htear) _
  · rw [tdi, hpart]
    exact hunlocked
  · have hctx : ctx (clearTorn s pid) j = ctx (evictAll (ctxsOf s pid) s) j := by
      rw [ctx, hpart]
      exact congrArg (fun cs => tget {} cs j) hctxs
    obtain ⟨hpid, hleft⟩ := ctx_evictAll (ctxsOf s pid) s j
    rw [hctx] at hj ⊢
    refine hleft (or_iff_not_imp_left.mpr fun hres => ?_)
    have hmem := mem_ctxsOf (s := s) (i := j) (.inl (not_not.mp hres))
    rwa [← hpid, hj] at hmem
  · rw [hpart]
    exact hgens

/-! ## Stops that are acknowledged (R208, R211, R214) -/

theorem clearTorn_none {s : State} {pid : Nat} (h : tearOf s pid = none) : clearTorn s pid = s := by
  simp only [clearTorn, h]

theorem clearTorn_waits {s : State} {pid : Nat} {x : Tear} (h : tearOf s pid = some x)
    (hwaits : x.advanced = false ∨ x.cleared = true ∨ pidStopped s pid = false) : clearTorn s pid = s := by
  have hstay : (x.advanced && !x.cleared && pidStopped s pid) = false := by
    rcases hwaits with h | h | h <;> simp [h]
  simp only [clearTorn, h, hstay, Bool.false_eq_true, if_false]

/-- A context whose command has stopped. -/
def stopped (s : State) (i : Nat) : State := setCtx s i { ctx s i with stopping := false, phase := .none }

theorem execSchedStopAck_ends {s : State} {h : BitVec 32} (hmatch : ctxMatch s h = true)
    (hstop : (ctx s (ctxIdx h)).stopping = true) : exec (.schedStopAck h) s =
      .next (clearTorn (killStops (stopped s (ctxIdx h)) (ctx s (ctxIdx h)).pid) (ctx s (ctxIdx h)).pid) :=
  if_pos (by simp [hmatch, hstop])

theorem execSchedStopAck_idle {s : State} {h : BitVec 32} (hrun : (ctx s (ctxIdx h)).stopping = false) :
    exec (.schedStopAck h) s = .next s :=
  if_neg (by simp [hrun])

/-- Settles O20: commits, ends and bindings of a resident context's commands, and a stop by what waited for it. -/
theorem schedulerEventsOfCommands : Obligations.SchedulerEventsOfCommands := by
  unfold Obligations.SchedulerEventsOfCommands
  intro s h i c hmatch
  refine ⟨fun hres => ⟨fun hfree => ⟨execSchedCommitReq_granted hmatch hres hfree, enterCommit_phase hmatch hres⟩,
    fun hheld => ?_, fun hphase hgoes hsave => execSchedCommandDone_ends hmatch hres hphase hgoes hsave,
    execDmaBind_binds hmatch hres⟩, execSchedStopAck_idle, fun hstop => ?_⟩
  · obtain ⟨cs, hstart⟩ := startCmd_frame s h
    refine ⟨_, execSchedCommitReq_held hmatch hres hheld, congrArg Ctx.held (ctx_setCtx_same ..), ?_, ?_, ?_⟩
    · exact (congrArg State.out hstart :)
    · exact (congrArg (fun u => u.part.kills) hstart :)
    · exact (congrArg (fun u => u.part.gens) hstart :)
  · rw [execSchedStopAck_ends hmatch hstop]
    intro e
    refine ⟨fun hkill htear => ?_, fun k hkill htear hwaits => ?_, fun k hkill htear hstage hall => ?_,
      fun x hkill htear hwaits => ?_, fun x hkill htear hadv hdue hstopped => ?_⟩
    · rw [killStops_none (s := stopped s i) hkill, clearTorn_none (s := stopped s i) htear]
      rfl
    · rw [killStops_waits (s := stopped s i) hkill hwaits, clearTorn_none (s := stopped s i) htear]
      rfl
    · rw [killStops_goes (s := stopped s i) hkill hstage hall,
        clearTorn_none (s := askAdvance (setKill (stopped s i) c.pid { k with stage := .advance }) c.pid .kill) htear]
      exact ⟨_, rfl, rfl, killOf_setKill .., rfl, rfl, rfl⟩
    · rw [killStops_none (s := stopped s i) hkill, clearTorn_waits (s := stopped s i) htear hwaits]
      rfl
    · rw [killStops_none (s := stopped s i) hkill]
      exact ⟨_, rfl, clearTorn_clears (s := stopped s i) htear hadv hdue hstopped⟩

end Sys2Proof.Machine

/-! PROOFS. A context that is lost, and signals of a context's queue (07 R208, R210, R216, R217). -/

namespace Sys2Proof.Machine

/-! ## A context that is lost (R208) -/

/-- The descriptor of a context that is lost. -/
def lostCtx (c : Ctx) (f : CtxFault) (addr : BitVec 48) (node : BitVec 14) : Ctx :=
  { c with
    state := .lost, slot := 0, fault := f, faultAddr := addr, faultNode := node, waitFence := 0xFFFFFFFF, waitValue := 0,
    held := false, stopping := c.phase != .none }

/-- A context lost as `x`, before its SAVE ends and its event is posted: `kills` and `out` are the kills that count its command
as stopped, and the trace that asks it to stop. -/
def markLost (s : State) (i : Nat) (x : Ctx) (kills : List (Nat × Kill)) (out : List Out) : State :=
  { s with
    part := { s.part with
      kills := kills
      ctxs := tset {} s.part.ctxs i x
      parts := tset {} s.part.parts x.pid { part s x.pid with lost := inc32 (part s x.pid).lost }
      dma := tmapAll 0 s.part.dma fun _ c => if c == i + 1 then 0 else c
      heldSigs := s.part.heldSigs.filter fun y => !(y.ctx == ctxHandle s i)
      ctr := { s.part.ctr with ctxLost := inc32 s.part.ctr.ctxLost } }
    rmt := (dropTracked s (ctxHandle s i)).rmt
    out := out }

theorem charged_markLost (s : State) (i : Nat) (x : Ctx) (ks : List (Nat × Kill)) (o : List Out) :
    charged s (markLost s i x ks o) := ⟨rfl, rfl, fun _ => rfl⟩

/-- What a context holds in the trackers, the DMA engines and the held signals goes. -/
theorem dropHeld_eq (s : State) (i : Nat) (h : BitVec 32) (p : HeldSignal → Bool) :
    dropSignals (dropTracked (unbindDma s i) h) p = { s with
      part := { s.part with
        dma := tmapAll 0 s.part.dma fun _ c => if c == i + 1 then 0 else c
        heldSigs := s.part.heldSigs.filter fun y => !p y }
      rmt := (dropTracked s h).rmt } := rfl

/-- The trackers of a context rest on the trackers alone. -/
theorem dropTracked_rmt (s : State) (p : PartsState) (o : List Out) (h : BitVec 32) :
    (dropTracked { s with part := p, out := o } h).rmt = (dropTracked s h).rmt := rfl

/-- The descriptor, its partition's count and the chip's are written. -/
theorem countLost_eq (s : State) (i pid : Nat) (x : Ctx) (q : Part) (f : PartCtr → PartCtr) :
    partCtr (setPart (setCtx s i x) pid q) f = { s with part := { s.part with
      ctxs := tset {} s.part.ctxs i x, parts := tset {} s.part.parts pid q, ctr := f s.part.ctr } } := rfl

theorem countStopped_frame (s : State) (i : Nat) :
    ∃ ks, countStopped s i = { s with part := { s.part with kills := ks } } := by
  unfold countStopped
  dsimp only
  split
  · split
    · exact ⟨_, rfl⟩
    · exact ⟨_, rfl⟩
  · exact ⟨_, rfl⟩

/-- A resident or evicted context is marked, its SAVE ends, and its event is posted. -/
theorem loseCtx_steps {s : State} {i : Nat} (h : liveCtx (ctx s i)) (f : CtxFault) (addr : BitVec 48) (node : BitVec 14) :
    ∃ ks o, ((ctx s i).phase ≠ .none → .schedStop i ∈ o) ∧ loseCtx s i f addr node =
      postBoth (finishWaits (markLost s i (lostCtx (ctx s i) f addr node) ks o) (fun w => w.kind == .save i) .errLost)
        (ctx s i).pid 2 (ctxHandle s i) (faultCode f + node.toNat * 256) 9 := by
  obtain ⟨ks, hcount⟩ := countStopped_frame s i
  have hlive : ((ctx s i).state != .resident && (ctx s i).state != .evicted) = false := by
    rcases h with h | h <;> simp [h]
  obtain ⟨o, ho, hstop⟩ : ∃ o, ((ctx s i).phase ≠ .none → .schedStop i ∈ o) ∧
      (if (ctx s i).phase == .none then countStopped s i else emit (countStopped s i) (.schedStop i)) =
        { s with part := { s.part with kills := ks }, out := o } := by
    by_cases hphase : (ctx s i).phase = .none
    · exact ⟨s.out, fun hrun => absurd hphase hrun, (if_pos (by simp [hphase])).trans hcount⟩
    · refine ⟨.schedStop i :: s.out, fun _ => List.mem_cons_self .., (if_neg (by simp [hphase])).trans ?_⟩
      rw [hcount]
      rfl
  refine ⟨ks, o, ho, ?_⟩
  unfold loseCtx
  simp only [hlive, Bool.false_eq_true, if_false]
  rw [hstop, dropHeld_eq, dropTracked_rmt, countLost_eq]
  rfl

/-- A free or lost context is left as it is. -/
theorem loseCtx_dead {s : State} {i : Nat} (h : (ctx s i).state = .free ∨ (ctx s i).state = .lost) (f : CtxFault)
    (addr : BitVec 48) (node : BitVec 14) : loseCtx s i f addr node = s :=
  if_pos (by rcases h with h | h <;> simp [h])

/-- No command ends where none passes the test. -/
theorem finishWaits_of_none {s : State} {p : Wait → Bool} (h : ∀ w ∈ s.cmd.waits, p w = false) (st : Status)
    (r : BitVec 192) : finishWaits s p st r = s := by
  have hhit : s.cmd.waits.filter p = [] := List.filter_eq_nil_iff.mpr fun w hw => by simp [h w hw]
  have hrest : (s.cmd.waits.filter fun w => !p w) = s.cmd.waits := List.filter_eq_self.mpr fun w hw => by simp [h w hw]
  simp only [finishWaits, hhit, hrest, List.foldl_nil]

/-- A value that a function never gives is in no entry of its image. -/
theorem tget_tmapAll_ne {α : Type} [DecidableEq α] {d x : α} {g : Nat → α → α} (hd : d ≠ x) (hg : ∀ k y, g k y ≠ x)
    (t : Tbl α) (k : Nat) : tget d (tmapAll d t g) k ≠ x := by
  intro hx
  have hmem := mem_of_tget_ne (d := d) (t := tmapAll d t g) (i := k) fun h0 => hd (h0.symm.trans hx)
  obtain ⟨e, -, he⟩ := List.mem_map.mp (List.mem_filter.mp hmem).1
  exact hg e.1 e.2 ((congrArg Prod.snd he).trans hx)

/-- A context that has been lost, as `x`: what the state of partitions and the trackers come to, and what is left. -/
structure Lost (s t : State) (i : Nat) (x : Ctx) : Prop where
  ctxs    : t.part.ctxs = tset {} s.part.ctxs i x
  parts   : t.part.parts = tset {} s.part.parts x.pid { part s x.pid with lost := inc32 (part s x.pid).lost }
  ctr     : t.part.ctr = { s.part.ctr with ctxLost := inc32 s.part.ctr.ctxLost }
  dma     : t.part.dma = tmapAll 0 s.part.dma fun _ c => if c == i + 1 then 0 else c
  signals : t.part.heldSigs = s.part.heldSigs.filter fun y => !(y.ctx == ctxHandle s i)
  stays   : t.part.gens = s.part.gens ∧ t.part.fences = s.part.fences ∧ t.part.peers = s.part.peers ∧ t.part.tdi = s.part.tdi
  rmt     : t.rmt = (dropTracked s (ctxHandle s i)).rmt
  waits   : t.cmd.waits = s.cmd.waits
  stops   : (ctx s i).phase ≠ .none → .schedStop i ∈ t.out
  others  : charged s t ∧ t.boot = s.boot ∧ t.tarn = s.tarn ∧ t.fuse = s.fuse ∧ t.keys = s.keys ∧ t.alarm = s.alarm ∧
    t.ridge = s.ridge ∧ t.fold = s.fold ∧ t.range = s.range ∧ t.iron = s.iron ∧ t.wb = s.wb ∧ t.spdm = s.spdm

/-- An event after the mark leaves what the mark came to. -/
theorem lost_of_marked {s t : State} {i : Nat} {x : Ctx} {ks : List (Nat × Kill)} {o : List Out}
    (hsame : sameButCmd (markLost s i x ks o) t) (hkept : CmdKept (markLost s i x ks o) t)
    (ho : (ctx s i).phase ≠ .none → .schedStop i ∈ o) : Lost s t i x := by
  obtain ⟨hboot, htarn, hfuse, hkeys, halarm, hpart, hcharged, hridge, hrmt, hfold, hrange, hiron, hwb, hspdm, -⟩ := hsame
  exact {
    ctxs := congrArg PartsState.ctxs hpart
    parts := congrArg PartsState.parts hpart
    ctr := congrArg PartsState.ctr hpart
    dma := congrArg PartsState.dma hpart
    signals := congrArg PartsState.heldSigs hpart
    stays := ⟨(congrArg PartsState.gens hpart :), (congrArg PartsState.fences hpart :), (congrArg PartsState.peers hpart :),
      (congrArg PartsState.tdi hpart :)⟩
    rmt := hrmt
    waits := hkept.waits
    stops := fun hrun => hkept.out.subset (ho hrun)
    others := ⟨(charged_markLost ..).trans hcharged, hboot, htarn, hfuse, hkeys, halarm, hridge, hfold, hrange, hiron, hwb,
      hspdm⟩ }

/-- While no SAVE waits for it, the loss of a context is what it marks, and an event. -/
theorem lost_loseCtx_of_noSave {s : State} {i : Nat} (hlive : liveCtx (ctx s i)) (hsave : noSave s i) (f : CtxFault)
    (addr : BitVec 48) (node : BitVec 14) : Lost s (loseCtx s i f addr node) i (lostCtx (ctx s i) f addr node) := by
  obtain ⟨ks, o, ho, hsteps⟩ := loseCtx_steps hlive f addr node
  have hnone : ∀ w ∈ (markLost s i (lostCtx (ctx s i) f addr node) ks o).cmd.waits, (w.kind == .save i) = false :=
    fun w hw => by simpa using hsave w hw
  rw [hsteps, finishWaits_of_none hnone]
  exact lost_of_marked (postBoth_same ..) (cmdKept_postBoth ..) ho

/-! ## QUEUE_SIGNAL_ENTRY (R210, R216, R217) -/

section
variable {s : State} {h f : BitVec 32} (hmatch : ctxMatch s h = true) (hres : (ctx s (ctxIdx h)).state = .resident)
  (v : BitVec 64) (st : BitVec 8)
include hmatch hres

theorem execQueueSignalEntry_held (hheld : commitHeld s h = true) : exec (.queueSignalEntry h f v st) s =
    .next { startCmd s h with part := { (startCmd s h).part with
      heldSigs := (startCmd s h).part.heldSigs ++ [{ ctx := h, fence := f, value := v, status := st }] } } := by
  change Host.Outcome.next (queueSignal s { ctx := h, fence := f, value := v, status := st }) = _
  simp only [queueSignal, hmatch, hres, hheld, beq_self_eq_true, Bool.and_self, Bool.not_true, Bool.false_eq_true, if_false,
    if_true]

/-- A signal that no kill holds, by whether its handle names a fence of the partition. -/
theorem execQueueSignalEntry_free (hfree : commitHeld s h = false) : exec (.queueSignalEntry h f v st) s =
    .next (if fenceMatch (enterCommit s h) f = true ∧ (fence (enterCommit s h) (fenceIdx f)).pid = (ctx s (ctxIdx h)).pid then
        let r := signalFence (enterCommit s h) f v st (curTag s (ctx s (ctxIdx h)).pid)
        if r.2 = .oooStrict then loseCtx r.1 (ctxIdx h) .fence else r.1
      else loseCtx (enterCommit s h) (ctxIdx h) .fence) := by
  change Host.Outcome.next (queueSignal s { ctx := h, fence := f, value := v, status := st }) = _
  simp only [queueSignal, hmatch, hres, hfree, beq_self_eq_true, Bool.and_self, Bool.not_true, Bool.false_eq_true, if_false]
  by_cases hnamed : fenceMatch (enterCommit s h) f = true ∧
      (fence (enterCommit s h) (fenceIdx f)).pid = (ctx s (ctxIdx h)).pid
  · rw [if_pos hnamed, if_neg (by simp [hnamed.1, hnamed.2])]
    simp only [beq_iff_eq]
  · rw [if_neg hnamed, if_pos (by simpa [imp_iff_not_or] using hnamed)]

end

/-- Settles O21: the loss of a context by its steps, and a queue signal by what its handle names. -/
theorem queueSignalsApplyOrLoseTheContext : Obligations.QueueSignalsApplyOrLoseTheContext := by
  unfold Obligations.QueueSignalsApplyOrLoseTheContext
  refine ⟨fun s i f addr node => ⟨fun hdead => ?_, fun hlive hsave => ?_⟩, fun s h f v st => ?_⟩
  · exact loseCtx_dead hdead ..
  · have hlost := lost_loseCtx_of_noSave hlive hsave f addr node
    generalize loseCtx s i f addr node = t at *
    refine ⟨?_, fun j hj => ?_, ?_, fun n hn => ?_, hlost.ctr, fun eng => ?_, fun r hr => ?_, fun l hl => ?_, fun a ha => ?_,
      fun k hk => ?_, fun a ha => ?_, fun x hx => ?_, hlost.stops, hlost.stays.1, hlost.stays.2.1, hlost.stays.2.2.1,
      hlost.stays.2.2.2, ?_, hlost.waits, hlost.others⟩
    · rw [ctx, hlost.ctxs]
      exact tget_tset_same ..
    · rw [ctx, hlost.ctxs]
      exact tget_tset_other _ _ hj
    · rw [part, hlost.parts]
      exact tget_tset_same ..
    · rw [part, hlost.parts]
      exact tget_tset_other _ _ hn
    · rw [hlost.dma]
      exact tget_tmapAll_ne (g := fun _ c => if c == i + 1 then 0 else c) (Nat.succ_ne_zero i).symm
        (fun _ c => by split <;> simp_all) _ _
    · rw [hlost.rmt] at hr
      simpa using (List.mem_filter.mp hr).2
    · rw [hlost.rmt] at hl
      simpa using (List.mem_filter.mp hl).2
    · rw [hlost.rmt] at ha
      simpa using (List.mem_filter.mp ha).2
    · rw [hlost.rmt] at hk
      simpa using (List.mem_filter.mp hk).2
    · rw [hlost.rmt] at ha
      simpa using (List.mem_filter.mp ha).2
    · rw [hlost.signals] at hx
      simpa using (List.mem_filter.mp hx).2
    · rw [hlost.rmt]
      rfl
  · intro i e r hmatch hres
    refine ⟨execQueueSignalEntry_held hmatch hres v st, fun hfree => ?_⟩
    rw [execQueueSignalEntry_free hmatch hres v st hfree]
    refine ⟨fun hfence hpid hr => ?_, fun hfence hpid hr => ?_, fun hno => ?_⟩
    · rw [if_pos ⟨hfence, hpid⟩]
      exact congrArg Host.Outcome.next (if_neg hr)
    · rw [if_pos ⟨hfence, hpid⟩]
      exact congrArg Host.Outcome.next (if_pos hr)
    · rw [if_neg fun ⟨hfence, hpid⟩ => hno.elim (fun h => by simp [show fenceMatch e f = true from hfence] at h) (· hpid)]

end Sys2Proof.Machine

/-! PROOFS. TDISP and IDE_KM (07 R203, R204, R212, 09 R261, 10 R305). -/

namespace Sys2Proof.Machine

/-! ## TDISP (R204, R212, R305) -/

section
variable {s : State} {vf : Pid} (hup : dsmUp s = true) (hvf : vf.val ≠ 0)
include hup hvf

/-- A request about a virtual function is taken up while firmware runs and a session is open. -/
theorem tdispOn_up (f : Nat → State) : tdispOn s vf f = .next (f vf.val) := by
  simp only [dsmUp, Bool.and_eq_true] at hup
  obtain ⟨⟨hrdy, hscu⟩, hsession⟩ := hup
  simp [tdispOn, hrdy, hscu, hsession, hvf]

theorem execLock_locks (hunlocked : (tdi s vf.val).state = .unlocked) (hactive : active s vf.val = true)
    (hconf : (part s vf.val).conf = true) {k : Fin 16} (hready : ideReady s k.val = true) (hent : s.keys.entFailed = false)
    (mx nf : Bool) : exec (.lockInterfaceRequest vf k false mx nf) s =
      .next (doeRsp (setTdi (draw s).1 vf.val
        { state := .locked, stream := some k.val, nonce := (draw s).2, lockMsix := mx, noFwUpdate := nf }) 0x03
        (keyBytes (draw s).2)) := by
  change execLockInterfaceRequest vf k false mx nf s = _
  rw [execLockInterfaceRequest, tdispOn_up hup hvf]
  simp [hunlocked, hactive, hconf, hready, hent]

theorem execLock_p2p (hunlocked : (tdi s vf.val).state = .unlocked) (k : Fin 16) (mx nf : Bool) :
    exec (.lockInterfaceRequest vf k true mx nf) s = .next (tdispErr s 0x01) := by
  change execLockInterfaceRequest vf k true mx nf s = _
  rw [execLockInterfaceRequest, tdispOn_up hup hvf]
  simp [hunlocked]

theorem execStart_starts (hlocked : (tdi s vf.val).state = .locked) {nonce : BitVec 256} (hnonce : nonce = (tdi s vf.val).nonce) :
    exec (.startInterfaceRequest vf nonce) s =
      .next (doeRsp (setTdi s vf.val { tdi s vf.val with state := .run }) 0x06 []) := by
  change execStartInterfaceRequest vf nonce s = _
  rw [execStartInterfaceRequest, tdispOn_up hup hvf]
  simp [hlocked, hnonce]

theorem execStart_refused (hlocked : (tdi s vf.val).state = .locked) {nonce : BitVec 256}
    (hnonce : nonce ≠ (tdi s vf.val).nonce) :
    exec (.startInterfaceRequest vf nonce) s = .next (tdispErr s 0x102) := by
  change execStartInterfaceRequest vf nonce s = _
  rw [execStartInterfaceRequest, tdispOn_up hup hvf]
  simp [hlocked, hnonce.symm]

theorem execStop_resets (hlocked : (tdi s vf.val).state ≠ .unlocked) : exec (.stopInterfaceRequest vf) s =
    .next { resetFn s vf.val .unlocked with part := { (resetFn s vf.val .unlocked).part with
      stopDue := (resetFn s vf.val .unlocked).part.stopDue ++ [vf.val] } } := by
  change execStopInterfaceRequest vf s = _
  rw [execStopInterfaceRequest, tdispOn_up hup hvf]
  exact congrArg Host.Outcome.next (if_neg (by simpa using hlocked))

theorem execStop_unlocked (hunlocked : (tdi s vf.val).state = .unlocked) :
    exec (.stopInterfaceRequest vf) s = .next (emit s (.doe 0 0x07 [])) := by
  change execStopInterfaceRequest vf s = _
  rw [execStopInterfaceRequest, tdispOn_up hup hvf]
  exact congrArg Host.Outcome.next (if_pos (by simp [hunlocked]))

theorem execReport_answers (hstate : (tdi s vf.val).state = .locked ∨ (tdi s vf.val).state = .run) :
    ∃ b, exec (.getDeviceInterfaceReport vf) s = .next (emit s (.doe 0 0x04 b)) := by
  change ∃ b, execGetDeviceInterfaceReport vf s = _
  rw [execGetDeviceInterfaceReport, tdispOn_up hup hvf]
  exact ⟨_, congrArg Host.Outcome.next (if_neg (by rcases hstate with h | h <;> simp [h]))⟩

theorem execVersion_answers : ∃ b, exec (.getTdispVersion vf) s = .next (emit s (.doe 0 0x01 b)) := by
  change ∃ b, execGetTdispVersion vf s = _
  rw [execGetTdispVersion, tdispOn_up hup hvf]
  exact ⟨_, rfl⟩

theorem execCapabilities_answers : ∃ b, exec (.getTdispCapabilities vf) s = .next (emit s (.doe 0 0x02 b)) := by
  change ∃ b, execGetTdispCapabilities vf s = _
  rw [execGetTdispCapabilities, tdispOn_up hup hvf]
  exact ⟨_, rfl⟩

theorem execInterfaceState_answers : exec (.getDeviceInterfaceState vf) s =
    .next (emit s (.doe 0 0x05 (leBytes 1 (tdiCode (tdi s vf.val).state)))) := by
  change execGetDeviceInterfaceState vf s = _
  rw [execGetDeviceInterfaceState, tdispOn_up hup hvf]
  rfl

theorem execUnsupported_answers (code : BitVec 8) : exec (.tdispUnsupportedRequest vf code) s =
    .next (emit s (.doe 0 0x7F (leBytes 4 0x07))) := by
  change execTdispUnsupportedRequest vf code s = _
  rw [execTdispUnsupportedRequest, tdispOn_up hup hvf]
  rfl

end

/-- A draw changes the state of the generator alone. -/
theorem draw_part (s : State) : (draw s).1.part = s.part ∧ (draw s).1.mem = s.mem := by
  obtain ⟨⟨k, h, -⟩, -⟩ := onlyDraws_drawBytes s 32
  have hdraw : (draw s).1 = (drawBytes s 32).1 := rfl
  rw [hdraw, h]
  exact ⟨rfl, rfl⟩

/-- Settles O24: each request by the state of its TDI. -/
theorem tdispMovesTheInterface : Obligations.TdispMovesTheInterface := by
  unfold Obligations.TdispMovesTheInterface
  intro s vf k mx nf nonce hup hvf t
  refine ⟨fun hunlocked hactive hconf hready hent => ?_,
    fun hunlocked => ⟨_, execLock_p2p hup hvf hunlocked k mx nf, rfl⟩,
    fun hlocked hnonce => ⟨_, execStart_starts hup hvf hlocked hnonce, rfl, rfl, rfl⟩,
    fun hlocked hnonce => ⟨_, execStart_refused hup hvf hlocked hnonce, rfl⟩,
    execStop_resets hup hvf, execStop_unlocked hup hvf, execVersion_answers hup hvf, execCapabilities_answers hup hvf,
    execReport_answers hup hvf, execInterfaceState_answers hup hvf, execUnsupported_answers hup hvf⟩
  obtain ⟨hpart, hmem⟩ := draw_part s
  exact ⟨_, execLock_locks hup hvf hunlocked hactive hconf hready hent mx nf, tdi_setTdi_same ..,
    (congrArg PartsState.parts hpart :), (congrArg PartsState.gens hpart :), hmem⟩

/-! ## Resets to ERROR and the IDE streams (R204, R212) -/

theorem ide_loseCtx (s : State) (i : Nat) (f : CtxFault) : (loseCtx s i f).part.ide = s.part.ide := by
  by_cases hlive : liveCtx (ctx s i)
  · obtain ⟨ks, o, -, h⟩ := loseCtx_steps hlive f 0 0
    obtain ⟨-, -, -, -, -, hpost, -⟩ := postBoth_same (finishWaits (markLost s i (lostCtx (ctx s i) f 0 0) ks o)
      (fun w => w.kind == .save i) .errLost) (ctx s i).pid 2 (ctxHandle s i) (faultCode f + (0 : BitVec 14).toNat * 256) 9
    rw [h, hpost, part_finishWaits]
    rfl
  · rw [loseCtx_of_not_live hlive]

theorem ide_losePid (s : State) (pid : Nat) (f : CtxFault) : (losePid s pid f).part.ide = s.part.ide := by
  unfold losePid
  generalize ctxsOf s pid = l
  induction l generalizing s with
  | nil => rfl
  | cons i l ih => exact (ih _).trans (ide_loseCtx ..)

theorem part_endStreams (s : State) (p : WbStream → Bool) (st : Status) : (endStreams s p st).part = s.part :=
  part_foldl (f := fun s (x : WbStream) => finishWaits s (waitNum x.num) st) (fun _ _ => part_finishWaits ..) _ _

theorem part_revokeBundle (s : State) (pid i : Nat) : (revokeBundle s pid i).part = s.part := by
  unfold revokeBundle
  dsimp only
  generalize hu : endStreams _ _ _ = u
  have hended : u.part = s.part := by
    rw [← hu, part_endStreams]
    split <;> rfl
  split
  · exact hended
  · split
    · exact hended
    · exact hended

theorem part_wbReset (s : State) (pid : Nat) : (wbReset s pid).part = s.part := by
  refine (part_foldl (fun t w => ?_) _ _).trans (part_endStreams ..)
  split
  · exact (part_finishWaits ..).trans (part_revokeBundle ..)
  · rfl

theorem ide_releaseTdi_error (s : State) (n : Nat) : (releaseTdi s n .error).part.ide = s.part.ide := by
  unfold releaseTdi
  dsimp only
  split <;> rfl

/-- A TDI that enters ERROR stays on no stream, and the streams keep their keys. -/
theorem ide_resetFn_error (s : State) (n : Nat) : (resetFn s n .error).part.ide = s.part.ide := by
  unfold resetFn
  dsimp only
  rw [part_wbReset]
  refine (ide_releaseTdi_error ..).trans ((ide_losePid ..).trans ?_)
  exact (congrArg PartsState.ide (part_finishWaits (withdrawKill s n) (fun w => w.kind == .kill n) .errLost 0) :)

theorem tdi_resetFn_eq (s : State) (n : Nat) (st : Tdi) (j : Nat) :
    tdi (resetFn s n st) j = if j = n then { state := st } else tdi s j := by
  obtain ⟨l, h⟩ := fnView_resetFn s n st
  have htdi : (resetFn s n st).part.tdi = tset {} s.part.tdi n { state := st } := congrArg FnView.tdi h
  rw [tdi, htdi, tget_tset]
  rfl

/-! ## Faults of the TDIs of a stream (R203, R204) -/

/-- The TDI holds its stream: a fault takes it to ERROR. -/
def tdiLocked (s : State) (n : Nat) : Prop := (tdi s n).state = .locked ∨ (tdi s n).state = .run

theorem tdiFault_locked {s : State} {n : Nat} (h : tdiLocked s n) : tdiFault s n = resetFn s n .error :=
  if_pos (by rcases h with h | h <;> simp [h])

theorem tdiFault_other {s : State} {n : Nat} (h : ¬ tdiLocked s n) : tdiFault s n = s :=
  if_neg (by simpa [tdiLocked] using h)

theorem ide_tdiFault (s : State) (n : Nat) : (tdiFault s n).part.ide = s.part.ide := by
  by_cases h : tdiLocked s n
  · rw [tdiFault_locked h, ide_resetFn_error]
  · rw [tdiFault_other h]

theorem tdi_tdiFault_ne (s : State) {n j : Nat} (hne : j ≠ n) : tdi (tdiFault s n) j = tdi s j := by
  by_cases h : tdiLocked s n
  · rw [tdiFault_locked h, tdi_resetFn_eq, if_neg hne]
  · rw [tdiFault_other h]

theorem tdi_tdiFault_error {s : State} {n : Nat} (h : tdiLocked s n ∨ (tdi s n).state = .error) :
    (tdi (tdiFault s n) n).state = .error := by
  by_cases hl : tdiLocked s n
  · rw [tdiFault_locked hl, tdi_resetFn_eq, if_pos rfl]
  · rw [tdiFault_other hl]
    exact h.resolve_left hl

theorem ide_tdiFaults (l : List Nat) (s : State) : (l.foldl tdiFault s).part.ide = s.part.ide := by
  induction l generalizing s with
  | nil => rfl
  | cons n l ih => exact (ih _).trans (ide_tdiFault ..)

theorem error_tdiFaults {n : Nat} (l : List Nat) {s : State} (h : (tdi s n).state = .error) :
    (tdi (l.foldl tdiFault s) n).state = .error := by
  induction l generalizing s with
  | nil => exact h
  | cons m l ih =>
    refine ih ?_
    by_cases hm : n = m
    · subst hm
      exact tdi_tdiFault_error (.inr h)
    · rwa [tdi_tdiFault_ne s hm]

/-- Each TDI that is named while it holds its stream ends in ERROR. -/
theorem error_of_mem {n : Nat} {l : List Nat} (hn : n ∈ l) {s : State} (h : tdiLocked s n) :
    (tdi (l.foldl tdiFault s) n).state = .error := by
  induction l generalizing s with
  | nil => exact absurd hn List.not_mem_nil
  | cons m l ih =>
    by_cases hm : n = m
    · subst hm
      exact error_tdiFaults l (tdi_tdiFault_error (.inl h))
    · refine ih ((List.mem_cons.mp hn).resolve_left hm) ?_
      rwa [tdiLocked, tdi_tdiFault_ne s hm]

/-! ## IDE_KM (R203, R261) -/

theorem ide_setIde_same (s : State) (k : Nat) (x : IdeSt) : ide (setIde s k x) k = x := tget_tset_same ..

theorem slot_writeRaw_same {s : State} {i : Nat} (h : (slot s i).bad = false) (key : Key) (p : BitVec 32) :
    (slot (writeRaw s i key p) i).key = key := by
  rw [writeRaw, if_neg (by simp [h]), writeSlot, slot_setSlot_same]

theorem not_bad_of_freeSlots {s : State} {i : Nat} (h : i ∈ freeSlots s) : (slot s i).bad = false := by
  simpa using (List.mem_filter.mp h).2

section
variable {s : State} (hup : dsmUp s = true)
include hup

/-- An IDE_KM request is taken up while firmware runs and a session is open. -/
theorem ideOn_up (f : State) : ideOn s f = .next f := by
  simp only [dsmUp, Bool.and_eq_true] at hup
  obtain ⟨⟨hrdy, hscu⟩, hsession⟩ := hup
  simp [ideOn, hrdy, hscu, hsession]

theorem execIdeKmQuery_answers (k : Fin 17) : ∃ b, exec (.ideKmQuery k) s = .next (emit s (.doe 0 0x01 b)) := by
  change ∃ b, execIdeKmQuery k s = _
  rw [execIdeKmQuery, ideOn_up hup]
  exact ⟨_, rfl⟩

/-- A key with a slot of its own that is good is written over. -/
theorem execKeyProg_rewrites {k : Fin 17} {x : IdeKey} {i : Nat} (hslot : ideSlot s k.val x = some i)
    (hgood : (slot s i).bad = false) (key : Key) : exec (.ideKmKeyProg k x key) s =
      .next (doeRsp (writeRaw s i key (policy .ide .hostIde 0 0 0)) 0x03 [0]) := by
  change execIdeKmKeyProg k x key s = _
  simp only [execIdeKmKeyProg, hslot, Option.filter_some, hgood, Bool.not_false, if_true]
  exact ideOn_up hup _

/-- A key with no slot takes the first free one. -/
theorem execKeyProg_takesFree {k : Fin 17} {x : IdeKey} {i : Nat} {l : List Nat} (hslot : ideSlot s k.val x = none)
    (hfree : freeSlots s = i :: l) (key : Key) : exec (.ideKmKeyProg k x key) s =
      .next (doeRsp (setIde (writeRaw s i key (policy .ide .hostIde 0 0 0)) k.val { ide s k.val with
        keys := ((ide s k.val).keys.filter fun e => e.1 != x) ++ [(x, i)] }) 0x03 [0]) := by
  change execIdeKmKeyProg k x key s = _
  simp only [execIdeKmKeyProg, hslot, Option.filter_none, hfree]
  exact ideOn_up hup _

/-- A programmed key comes into use, with a count of its own where it was not in use. -/
theorem execSetGo_goes {k : Fin 17} {x : IdeKey} (hslot : (ideSlot s k.val x).isSome = true) :
    exec (.ideKmKSetGo k x) s = .next (doeRsp (if (ide s k.val).go.contains x then s else
      ideFresh (setIde s k.val { ide s k.val with go := (ide s k.val).go ++ [x] }) k.val x) 0x06 [0]) := by
  change execIdeKmKSetGo k x s = _
  simp only [execIdeKmKSetGo, Option.isNone_eq_false_iff.mpr hslot, Bool.false_eq_true, if_false]
  exact ideOn_up hup _

end

/-- The stream without the key, whose slot is cleared, before any TDI is taken to ERROR. -/
def stopIde (s : State) (k : Nat) (x : IdeKey) : State :=
  ideFresh (setIde (match ideSlot s k x with | some i => clearSlot s i | none => s) k { ide s k with
    keys := (ide s k).keys.filter fun e => e.1 != x, go := (ide s k).go.filter fun e => e != x }) k x

theorem stopIde_frame (s : State) (k : Nat) (x : IdeKey) : (stopIde s k x).part.tdi = s.part.tdi ∧
    (stopIde s k x).mem = s.mem ∧ (stopIde s k x).part.ide = tset {} s.part.ide k { ide s k with
      keys := (ide s k).keys.filter fun e => e.1 != x, go := (ide s k).go.filter fun e => e != x } := by
  unfold stopIde
  split <;> exact ⟨rfl, rfl, rfl⟩

theorem execSetStop_stops {s : State} (hup : dsmUp s = true) (k : Fin 17) (x : IdeKey) :
    exec (.ideKmKSetStop k x) s = .next (doeRsp ((tdisOn s k.val).foldl tdiFault (stopIde s k.val x)) 0x06 [0]) := by
  have htdis : tdisOn (stopIde s k.val x) k.val = tdisOn s k.val := by
    obtain ⟨htdi, -, -⟩ := stopIde_frame s k.val x
    rw [tdisOn, htdi, tdisOn]
  rw [← htdis]
  exact ideOn_up hup _

theorem writeRaw_frame (s : State) (i : Nat) (key : Key) (p : BitVec 32) :
    (writeRaw s i key p).part = s.part ∧ (writeRaw s i key p).mem = s.mem := by
  obtain ⟨k, h, -, -⟩ := onlyKeys_writeRaw s i key p
  rw [h]
  exact ⟨rfl, rfl⟩

/-- Settles O25: each request by the state of its stream. -/
theorem ideKmProgramsAndStopsKeys : Obligations.IdeKmProgramsAndStopsKeys := by
  unfold Obligations.IdeKmProgramsAndStopsKeys
  intro s k x key hup
  obtain ⟨htdi, hmem, hide⟩ := stopIde_frame s k.val x
  have hstop := execSetStop_stops hup k x
  refine ⟨execIdeKmQuery_answers hup k, fun i l hslot hfree => ?free, fun i hslot hgood => ?own, fun hslot => ?go,
    fun hnone => ?stopped, _, hstop, ?keys, fun n hn hlocked => ?tdis⟩
  case free =>
    have hgood : (slot s i).bad = false := not_bad_of_freeSlots (hfree ▸ List.mem_cons_self ..)
    obtain ⟨hpart, hmem'⟩ := writeRaw_frame s i key (policy .ide .hostIde 0 0 0)
    refine ⟨_, execKeyProg_takesFree hup hslot hfree key, slot_writeRaw_same hgood .., ?_,
      (congrArg PartsState.parts hpart :), hmem'⟩
    exact (congrArg IdeSt.keys (ide_setIde_same ..)).symm ▸ List.mem_append_right _ (List.mem_singleton_self _)
  case own =>
    obtain ⟨hpart, hmem'⟩ := writeRaw_frame s i key (policy .ide .hostIde 0 0 0)
    exact ⟨_, execKeyProg_rewrites hup hslot hgood key, slot_writeRaw_same hgood .., hpart, hmem'⟩
  case go =>
    refine ⟨_, execSetGo_goes hup hslot, ?_⟩
    by_cases hgo : x ∈ (ide s k.val).go
    · rw [if_pos (List.contains_iff_mem.mpr hgo)]
      exact ⟨hgo, fun h => absurd hgo h, rfl, rfl⟩
    · rw [if_neg (by simpa using hgo)]
      refine ⟨?_, fun _ => (tget_tset_same s.cmd.ideUse (ideNo k.val x) 0 :), rfl, rfl⟩
      exact (congrArg IdeSt.go (ide_setIde_same ..)).symm ▸ List.mem_append_right _ (List.mem_singleton_self _)
  case stopped =>
    rw [hnone] at hstop
    exact ⟨_, hstop, hide, htdi, hmem⟩
  case keys =>
    have hkeys : ((tdisOn s k.val).foldl tdiFault (stopIde s k.val x)).part.ide = _ := (ide_tdiFaults ..).trans hide
    intro y hy
    change y ∈ (tget {} ((tdisOn s k.val).foldl tdiFault (stopIde s k.val x)).part.ide k.val).keys at hy
    rw [hkeys, tget_tset_same] at hy
    simpa using (List.mem_filter.mp hy).2
  case tdis =>
    refine error_of_mem hn ?_
    rwa [tdiLocked, tdi, htdi]

end Sys2Proof.Machine

/-! PROOFS. KEY_DERIVE, KEY_WRAP and KEY_DESTROY (09 R257 to R263). -/

namespace Sys2Proof.Machine

/-! ## Keys and slots (R257, R258, R262) -/

/-- The class of a policy word whose PID, CGEN and use flags fit their fields. -/
theorem polClass_policy (c : KClass) (e : KEngine) {pid cgen use : Nat} (hpid : pid < 32) (hcgen : cgen < 2048)
    (huse : use < 16) : polClass (policy c e pid cgen use) = classCode c := by
  have hc : classCode c < 16 := by cases c <;> decide
  have he : engineCode e < 16 := by cases e <;> decide
  simp only [polClass, policy, bits, BitVec.toNat_ofNat]
  omega

theorem tagPid_lt (t : BitVec 16) : tagPid t < 32 := by
  have := t.isLt
  simp only [tagPid]
  omega

theorem keyIdx_ofNat (n : Nat) : keyIdx (BitVec.ofNat 32 n) = n % 256 := by
  simp only [keyIdx, BitVec.toNat_ofNat]
  omega

theorem slot_writeSlot_same (s : State) (i : Nat) (key : Key) (p : BitVec 32) :
    slot (writeSlot s i key p) i = { key := key, policy := p, check := slotCheck s i key p, inc := (slot s i).inc + 1 } :=
  slot_setSlot_same ..

/-! ## KEY_DERIVE (R198, R261, R263) -/

/-- The Iron key that a request derives from its partition's root. -/
def ironKeyOf (s : State) (pid : Nat) (p : Pkt) : Key :=
  deriveIron (slot s (tget {} s.keys.parts pid).root).key (parm p 48 8) (parmBytes p 16 32)

/-- The slot of a derived Iron key, written with its policy. -/
def ironDerived (s : State) (pid i : Nat) (p : Pkt) : State :=
  writeSlot s i (ironKeyOf s pid p) (policy .iron .iron pid ((part s pid).ctag.toNat % 2048)
    (parm p 48 8 % 2 * 8 + parm p 48 8 / 2 % 2 * 4 + 1))

section
variable {s k : State} {c : Cmd} {t : Ticket}

theorem execDeriveJob_eq (h : accepted opDeriveJob s c = some (k, t)) :
    exec (.keyDeriveJob c) s = .next (conclude k t (runDeriveJob k t c.body c.mem)) :=
  congrArg Host.Outcome.next (issue_of_accepted_unread rfl h)

theorem runDeriveJob_sets (p : Pkt) (m : List ReadIn) (h : (part k (tagPid t.ptag)).jobSet = false) :
    runDeriveJob k t p m = .ok (setPart k (tagPid t.ptag) { part k (tagPid t.ptag) with
      jobSet := true, job := BitVec.ofNat 64 (parm p 16 64) }) :=
  if_neg (by simp [h])

theorem runDeriveJob_refused (p : Pkt) (m : List ReadIn) (h : (part k (tagPid t.ptag)).jobSet = true) :
    runDeriveJob k t p m = .fail .errState := if_pos h

theorem execDeriveIron_eq (h : accepted opDeriveIron s c = some (k, t)) :
    exec (.keyDeriveIron c) s = .next (conclude k t (runDeriveIron k t c.body c.mem)) :=
  congrArg Host.Outcome.next (issue_of_accepted_unread rfl h)

theorem runDeriveIron_full (p : Pkt) (m : List ReadIn) (h : ironSlots k (tagPid t.ptag) = []) :
    runDeriveIron k t p m = .fail .errResource := by
  simp only [runDeriveIron, h]

theorem runDeriveIron_refused (p : Pkt) (m : List ReadIn) (h : ironSlots k (tagPid t.ptag) ≠ [])
    (hfit : keyFits k (tget {} k.keys.parts (tagPid t.ptag)).root .partroot .derivation (tagPid t.ptag) = false) :
    runDeriveIron k t p m = .fail .errPerm := by
  obtain ⟨i, rest, hslots⟩ := List.exists_cons_of_ne_nil h
  simp only [runDeriveIron, hslots, hfit, Bool.not_false, if_true]

theorem runDeriveIron_bad (p : Pkt) (m : List ReadIn) {x : State} (h : ironSlots k (tagPid t.ptag) ≠ [])
    (hfit : keyFits k (tget {} k.keys.parts (tagPid t.ptag)).root .partroot .derivation (tagPid t.ptag) = true)
    (hbad : readBad k [(tget {} k.keys.parts (tagPid t.ptag)).root] = some x) :
    runDeriveIron k t p m = .failWith .errIntegrity 0 x := by
  obtain ⟨i, rest, hslots⟩ := List.exists_cons_of_ne_nil h
  simp only [runDeriveIron, hslots, hfit, hbad, Bool.not_true, Bool.false_eq_true, if_false]

theorem runDeriveIron_derives (p : Pkt) (m : List ReadIn) {i : Nat} {rest : List Nat}
    (hslots : ironSlots k (tagPid t.ptag) = i :: rest)
    (hfit : keyFits k (tget {} k.keys.parts (tagPid t.ptag)).root .partroot .derivation (tagPid t.ptag) = true)
    (hgood : readBad k [(tget {} k.keys.parts (tagPid t.ptag)).root] = none) :
    runDeriveIron k t p m = .ok (ironDerived k (tagPid t.ptag) i p)
      (resultOf [(8, (keyHandle (ironDerived k (tagPid t.ptag) i p) (tagPid t.ptag) i).toNat)]) := by
  simp only [runDeriveIron, hslots, hfit, hgood, Bool.not_true, Bool.false_eq_true, if_false]
  rfl

theorem slot_ironDerived_same (s : State) (pid i : Nat) (p : Pkt) (hpid : pid < 32) :
    (slot (ironDerived s pid i p) i).key = ironKeyOf s pid p ∧
    polClass (slot (ironDerived s pid i p) i).policy = classCode .iron ∧
    (slot (ironDerived s pid i p) i).inc = (slot s i).inc + 1 ∧ (slot (ironDerived s pid i p) i).bad = false := by
  have hclass : polClass (policy .iron .iron pid ((part s pid).ctag.toNat % 2048)
      (parm p 48 8 % 2 * 8 + parm p 48 8 / 2 % 2 * 4 + 1)) = classCode .iron :=
    polClass_policy _ _ hpid (Nat.mod_lt _ (by decide)) (by omega)
  rw [ironDerived, slot_writeSlot_same]
  exact ⟨rfl, hclass, rfl, rfl⟩

/-- The derivation writes the slot alone. -/
theorem ironDerived_frame (s : State) (pid i : Nat) (p : Pkt) : (ironDerived s pid i p).part = s.part ∧
    (ironDerived s pid i p).mem = s.mem ∧ (ironDerived s pid i p).cmd = s.cmd := by
  obtain ⟨x, h, -, -⟩ := onlyKeys_writeSlot s i (ironKeyOf s pid p) (policy .iron .iron pid
    ((part s pid).ctag.toNat % 2048) (parm p 48 8 % 2 * 8 + parm p 48 8 / 2 % 2 * 4 + 1))
  rw [ironDerived, h]
  exact ⟨rfl, rfl, rfl⟩

/-! ## KEY_WRAP (R235, R338, R339) -/

/-- The slots that KEY_WRAP reads: the key, and the one it is wrapped under. -/
def wrapSlots (p : Pkt) : List Nat := [parm p 16 32 % 256, parm p 20 32 % 256]

variable {d : Bool}

theorem execKeyWrap_eq (h : accepted (opKeyWrap d) s c = some (k, t)) :
    exec (.keyWrap ⟨c, d⟩) s = .next (conclude k t (runKeyWrap d k t c.body c.mem)) :=
  congrArg Host.Outcome.next (issue_of_accepted_unread rfl h)

theorem runKeyWrap_noLane (p : Pkt) (m : List ReadIn) (hlane : noLane k = true) :
    runKeyWrap d k t p m = .fail .errState := if_pos hlane

theorem runKeyWrap_busy (p : Pkt) (m : List ReadIn) (hlane : noLane k = false)
    (hfull : (tget ({} : Window) k.cmd.windows (tagPid t.ptag)).full = true) : runKeyWrap d k t p m = .fail .busy := by
  simp only [runKeyWrap, hlane, hfull, Bool.false_eq_true, if_false, if_true]

theorem runKeyWrap_bad (p : Pkt) (m : List ReadIn) {x : State} (hlane : noLane k = false)
    (hempty : (tget ({} : Window) k.cmd.windows (tagPid t.ptag)).full = false) (hbad : readBad k (wrapSlots p) = some x) :
    runKeyWrap d k t p m = .failWith .errIntegrity 0 x := by
  rw [wrapSlots] at hbad
  simp only [runKeyWrap, hlane, hempty, hbad, Bool.false_eq_true, if_false]

/-- The window filled with the key wrapped. -/
theorem runKeyWrap_wraps (p : Pkt) (m : List ReadIn) (hlane : noLane k = false)
    (hempty : (tget ({} : Window) k.cmd.windows (tagPid t.ptag)).full = false) (hgood : readBad k (wrapSlots p) = none) :
    runKeyWrap d k t p m = dualRes d k t (.once (fillWindow { k with iron := { k.iron with fw := terase k.iron.fw 14 } }
      (tagPid t.ptag) (windowOf t (curTag k (tagPid t.ptag))
        (kwWrap (slot k (parm p 20 32 % 256)).key (keyBytes (slot k (parm p 16 32 % 256)).key))))) := by
  rw [wrapSlots] at hgood
  simp only [runKeyWrap, hlane, hempty, hgood, Bool.false_eq_true, if_false]
  rfl

/-- An Iron computation concluded: a mismatch, or the window. -/
theorem conclude_dualRes (x : State) : conclude k t (dualRes d k t (.once x)) = if d = true then
    finish (dualFault k (laneFor k t.num) (tagPid t.ptag)) t .errIntegrity else finishWith x t .ok true 0 := by
  cases d <;> rfl

/-! ## KEY_DESTROY (R257, R262) -/

theorem execKeyDestroy_eq (h : accepted opKeyDestroy s c = some (k, t)) :
    exec (.keyDestroy c) s = .next (conclude k t (runKeyDestroy k t c.body c.mem)) :=
  congrArg Host.Outcome.next (issue_of_accepted_unread rfl h)

theorem runKeyDestroy_bad (p : Pkt) (m : List ReadIn) (hbad : (slot k (parm p 16 32 % 256)).bad = true) :
    runKeyDestroy k t p m = .fail .errIntegrity := by
  rw [← keyIdx_ofNat] at hbad
  exact if_pos hbad

theorem runKeyDestroy_clears (p : Pkt) (m : List ReadIn) (hgood : (slot k (parm p 16 32 % 256)).bad = false) :
    runKeyDestroy k t p m =
      .ok (clearSlot (ironDropKey k (BitVec.ofNat 32 (parm p 16 32))) (parm p 16 32 % 256)) := by
  rw [← keyIdx_ofNat] at hgood ⊢
  exact if_neg (by simp [hgood])

theorem slot_clearSlot_same {s : State} {i : Nat} (h : (slot s i).bad = false) :
    slot (clearSlot s i) i = { inc := (slot s i).inc + 1 } := by
  rw [clearSlot, slot_setSlot_same, h]

theorem slot_clearSlot_ne (s : State) {i j : Nat} (h : j ≠ i) : slot (clearSlot s i) j = slot s j := by
  rw [clearSlot, slot_setSlot, if_neg h]

end

/-- Settles O45: each command by what its run finds. -/
theorem keyCommandsWriteSlots : Obligations.KeyCommandsWriteSlots := by
  unfold Obligations.KeyCommandsWriteSlots
  intro s c k t pid root a b win
  refine ⟨fun h hjob => ?_, fun h hjob => ?_, fun i rest h hslots hfit hgood => ?derives, fun h hslots => ?_,
    fun h hslots hfit => ?_, fun x h hslots hfit hbad => ?_, fun d h hlane hempty hgood => ?_, fun d h hlane hfull => ?_,
    fun d h hlane => ?_, fun d x h hlane hempty hbad => ?_, fun h hgood => ?destroys, fun h hbad => ?_⟩
  case derives =>
    obtain ⟨hkey, hclass, hinc, hbad⟩ := slot_ironDerived_same k pid i c.body (tagPid_lt t.ptag)
    refine ⟨ironDerived k pid i c.body, ?_, hkey, hclass, hinc, hbad, fun j hj => slot_writeSlot_ne k hj ..,
      ironDerived_frame ..⟩
    rw [execDeriveIron_eq h, runDeriveIron_derives _ _ hslots hfit hgood]
    rfl
  case destroys =>
    refine ⟨clearSlot (ironDropKey k (BitVec.ofNat 32 (parm c.body 16 32))) a, ?_, slot_clearSlot_same hgood,
      fun j hj => slot_clearSlot_ne _ hj, rfl, rfl, rfl⟩
    rw [execKeyDestroy_eq h, runKeyDestroy_clears _ _ hgood]
    rfl
  · rw [execDeriveJob_eq h, runDeriveJob_sets _ _ hjob]
    rfl
  · rw [execDeriveJob_eq h, runDeriveJob_refused _ _ hjob]
    rfl
  · rw [execDeriveIron_eq h, runDeriveIron_full _ _ hslots]
    rfl
  · rw [execDeriveIron_eq h, runDeriveIron_refused _ _ hslots hfit]
    rfl
  · rw [execDeriveIron_eq h, runDeriveIron_bad _ _ hslots hfit hbad]
    rfl
  · rw [execKeyWrap_eq h, runKeyWrap_wraps _ _ hlane hempty hgood, conclude_dualRes]
  · rw [execKeyWrap_eq h, runKeyWrap_busy _ _ hlane hfull]
    rfl
  · rw [execKeyWrap_eq h, runKeyWrap_noLane _ _ hlane]
    rfl
  · rw [execKeyWrap_eq h, runKeyWrap_bad _ _ hlane hempty hbad]
    rfl
  · rw [execKeyDestroy_eq h, runKeyDestroy_bad _ _ hbad]
    rfl

end Sys2Proof.Machine
